-- ==== Sys2Proof/Word.lean ====
section
/-! DEFINITION. The word types of the block and their plainest arithmetic: 64 payload bits and 8 check bits
(R4, R5, R6, R9), the identifiers of the protocol (R4, R53, R55), and the sparse tables in which the
model keeps every array of the block. -/

namespace Sys2Proof

/-- The 64 payload bits of a native word (R4). -/
abbrev Word := BitVec 64
/-- A byte (flash image bytes, R383). -/
abbrev Byte := BitVec 8
/-- An endpoint ID (R4). -/
abbrev EpId := BitVec 18
/-- A line address (R4). -/
abbrev LineAddr := BitVec 52
/-- A home line index (R88). -/
abbrev HIdx := BitVec 34
/-- A transaction tag (R55). -/
abbrev Tag := BitVec 12
/-- A time of day: a count of 2⁻¹² µs (R12). -/
abbrev Tod := BitVec 64
/-- A service-port master ID (R405). -/
abbrev MasterId := BitVec 10

/-- What the SEC-DED check says of a word (R9). -/
inductive Chk where
  | ok   -- no error
  | ce   -- correctable: a single-bit error
  | ue   -- uncorrectable: a poisoned word (R316)
  deriving DecidableEq, Repr

/-- A native word of 72 bits (R4, R6): payload [63:0], and the check byte [71:64] as its syndrome, which is the bits in
which it differs from the check byte that the code gives the payload (log 2). -/
structure DWord where
  val : Word
  syn : BitVec 8
  deriving DecidableEq, Repr

/-- The words of a line, word 0 first (R7). A word that is not listed is a zero word. -/
abbrev LineData := List DWord

/-- A sparse table: pairs of an index and an entry, indices strictly rising. An index that is not listed is free (or
reads as the value the table's own definition names). -/
abbrev SMap (α : Type) := List (Nat × α)

end Sys2Proof
end

