-- ==== Sys2Proof/Machine/Packet.lean ====
section
/-! DEFINITION. What crosses the block's boundary, as plain data: Narip packets (R229, R230), channel-port command and
response flits (R284, R288), service-port accesses and responses (R405), and the operands of the other commands. -/

namespace Sys2Proof

/-- A Narip packet: the fields of its header flit (R230) and its data flits (R232). `syn` holds the syndromes of the four
header words as they were received, word 0's in the lowest byte (R230, R234 check 1). `nflit` is the header field; `data`
holds the words received. -/
structure Packet where
  dst : EpId
  src : EpId
  domain : BitVec 12
  opcode : BitVec 6
  world : Bool
  cls : BitVec 3
  nflit : BitVec 4
  line : LineAddr
  tag : Tag
  route : BitVec 48
  hopcnt : BitVec 4
  nhop : BitVec 4
  epoch : Bool
  detail : BitVec 40
  seq : BitVec 16
  stream : BitVec 8
  syn : BitVec 32
  data : LineData
  deriving DecidableEq, Repr

/-- A channel-port command flit and its data flits (R284). -/
structure CpCmd where
  stream : Fin 64
  seq : BitVec 16
  op : BitVec 4
  line : LineAddr
  mask : BitVec 32
  data : LineData
  deriving DecidableEq, Repr

/-- A channel-port response flit and its data flits (R288): `ack` is TYPE. -/
structure CpRsp where
  stream : Nat
  seq : BitVec 16
  status : Nat
  ack : Bool
  dack : BitVec 16
  data : LineData
  deriving DecidableEq, Repr

/-- A service-port access (R405): `slot` is SP_REQ_ADDR[19:3] and `word` is SP_REQ_DATA[71:0]. An access with master 0x3FF is the ostler's own (R361). -/
structure SpAcc where
  write : Bool
  slot : BitVec 17
  master : MasterId
  world : Bool
  tag : BitVec 4
  word : DWord
  deriving DecidableEq, Repr

/-- The value [63:0] of an access (R13). -/
def SpAcc.data (x : SpAcc) : Word := x.word.val
/-- The byte address of an access. -/
def SpAcc.addr (x : SpAcc) : Nat := 8 * x.slot.toNat

/-- A service-port response (R405): `status` in the codes of R408, `data` is SP_RSP_DATA[71:0] (R14). -/
structure SpRsp where
  master : MasterId
  tag : BitVec 4
  status : Nat
  data : DWord
  deriving DecidableEq, Repr

/-- A command sent to a memory port (R264): `data` is empty for a read. -/
structure MpCmd where
  port : Nat
  write : Bool
  addr : BitVec 33
  tag : Nat
  data : LineData
  deriving DecidableEq, Repr

/-- What flash discovery learns from the SFDP tables (R379–R381): the density in bytes as a power of two, the read
instructions that the basic table lists, the quad-enable requirement field, whether the 4-byte address instruction
table lists the 4-byte form of the chosen instruction, and whether the basic table names entry by 0xB7 or by 0x06 and
0xB7. -/
structure Sfdp where
  densLog2 : Nat
  r144 : Bool
  r114 : Bool
  r122 : Bool
  r112 : Bool
  qer : BitVec 3
  form4 : Bool
  enterB7 : Bool
  enter06B7 : Bool
  deriving DecidableEq, Repr

end Sys2Proof
end

