-- ==== Sys2Proof/Syntax.lean ====
section
/-! DEFINITION. The commands of the block: one constructor for each row of spec/opcode_table.json, with its operands.
`port` names the network port (or memory port) concerned; index 4 of a `Fin 5` is the core's own delivery of R112 for
relay messages and the CP link for link events. `m` is the SP master whose oldest held access the command carries out
(master 0x3FF is the ostler, R361). -/

namespace Sys2Proof

/-- A command of the block: a row of spec/opcode_table.json. -/
inductive Instr where
  /-- NI_INGRESS (R234): A packet arriving on a network port passes the ordered ingress checks and is queued, answered at ingress or discarded. -/
  | niIngress (port : Fin 4) (p : Packet)
  /-- RD_SHARED (R78): Dispatch of RdShared takes its resources and acts by the directory state, or is penned or answered Retry. -/
  | rdShared (port : Fin 4)
  /-- RD_UNIQUE (R78): Dispatch of RdUnique takes its resources, invalidates or snoops, and grants ownership. -/
  | rdUnique (port : Fin 4)
  /-- UPGRADE (R78): Dispatch of Upgrade invalidates the other sharers and answers GrantU, or answers with data. -/
  | upgrade (port : Fin 4)
  /-- CLAIM_ZERO (R78): Dispatch of ClaimZero invalidates every copy and answers CmpZ without reading memory. -/
  | claimZero (port : Fin 4)
  /-- RD_ONCE (R78): Dispatch of RdOnce supplies DataS from Tirkar's data or by a forward from the owner. -/
  | rdOnce (port : Fin 4)
  /-- WR_FULL (R78): Dispatch of WrFull invalidates every copy, places the line in the inkwell and answers CmpW. -/
  | wrFull (port : Fin 4)
  /-- WR_PART (R78): Dispatch of WrPart gathers the line, merges the masked words into it, places it in the inkwell and answers CmpW. -/
  | wrPart (port : Fin 4)
  /-- STROKE (R182): Dispatch of Stroke checks its format, takes a stall and an ALC entry, and gathers its line. -/
  | stroke (port : Fin 4)
  /-- LIGATURE (R188): First dispatch of Ligature checks its format, takes its stalls, slot and entries, and blocks its header line. -/
  | ligature (port : Fin 4)
  /-- SYNC (R86): Dispatch of Sync opens a stall that blocks no line and waits for the commits named by R86. -/
  | sync (port : Fin 4)
  /-- WB_DIRTY (R81): Dispatch of WbDirty takes a write-back stall or is absorbed by the open stall, or is answered StrayWb. -/
  | wbDirty (port : Fin 4)
  /-- WB_RETRY_OFFER (R136): A WbDirty held at the head of its write-back queue is offered again when its slice accepts an access. -/
  | wbRetryOffer (port : Fin 4)
  /-- EVICT_NOTE (R78): Dispatch of EvictNote removes a sharer, or is discarded and counted. -/
  | evictNote (port : Fin 4)
  /-- PEN_REDISPATCH (R142): An eligible pen head is dispatched again from the line's current directory state. -/
  | penRedispatch (pen : Fin 512)
  /-- PEN_DEADLINE (R146): A request still penned when PEN.CTL.DEADLINE has passed is removed from the pen and answered Retry with a ticket. -/
  | penDeadline (pen : Fin 512)
  /-- TICKET_EXPIRY (R151): A ticket expires after YARD.TKTCTL.HOLD, its reserved stalls return to their pool and its claim ends. -/
  | ticketExpiry (idx : Fin 256)
  /-- SNP_ACK_I (R79): Receipt of SnpAckI counts an invalidation or decides the outcome of a snoop to the holder. -/
  | snpAckI (port : Fin 4)
  /-- SNP_ACK_S (R79): Receipt of SnpAckS decides the outcome of a SnpShare, or is handled as a violation. -/
  | snpAckS (port : Fin 4)
  /-- SNP_FWD_I (R79): Receipt of SnpFwdI records the requester as holder after an ownership forward. -/
  | snpFwdI (port : Fin 4)
  /-- SNP_FWD_O (R79): Receipt of SnpFwdO records owned-state sharing after a shared forward. -/
  | snpFwdO (port : Fin 4)
  /-- SNP_WB_PEND (R79): Receipt of SnpWbPend makes the stall wait for the holder's WbDirty. -/
  | snpWbPend (port : Fin 4)
  /-- SNP_DATA_I (R79): Receipt of SnpDataI delivers the line to home for a merge, an execution or an eviction. -/
  | snpDataI (port : Fin 4)
  /-- SNP_DATA_O (R79): Receipt of SnpDataO delivers the line to home, which sends DataS and records state O. -/
  | snpDataO (port : Fin 4)
  /-- RLY_ACK (R108): Receipt of RlyAck completes one relay's part of a multicast and handles its flags. -/
  | rlyAck (port : Fin 5)
  /-- CMP_ACK (R84): Receipt of CmpAck lets the stall close and unblock its line. -/
  | cmpAck (port : Fin 4)
  /-- RLY_INV (R110): The relay unit takes a RlyInv, checks its domain and fans member snoops out across its cluster. -/
  | rlyInv (port : Fin 5)
  /-- RELAY_MEMBER_ANSWER (R110): The relay unit counts a member's answer and sends one combined RlyAck once every member has answered. -/
  | relayMemberAnswer (port : Fin 4)
  /-- DOMAIN_STOP_RECEIVED (R336): A received secure DomainStop for the domain declares checkstop and forwards DomainStop to the stop set. -/
  | domainStopReceived (port : Fin 4)
  /-- ALIAS_SET_RECEIVED (R260): The ostler applies or refuses a received AliasSet to the alias CAM and then answers MgtAck. -/
  | aliasSetReceived (port : Fin 4)
  /-- EPOCH_SWAP_RECEIVED (R248): A received EpochSwap flips CUR when permitted, and is always answered MgtAck. -/
  | epochSwapReceived (port : Fin 4)
  /-- MGT_ACK (R244): The ostler matches a received MgtAck to an outstanding MGT message, or discards it. -/
  | mgtAck (port : Fin 4)
  /-- SNOOP_TIMEOUT (R252): An unanswered snoop times out after RTE.TMO.SNP, the NI synthesises Error Timeout and the agent becomes suspect. -/
  | snoopTimeout (tag : Tag) (who : EpId)
  /-- CMPACK_TIMEOUT (R85): A CmpAck that is missing after the timeout closes the stall and makes the requester suspect. -/
  | cmpackTimeout (stall : Fin 2048)
  /-- RLYINV_TIMEOUT (R108): A RlyInv with no RlyAck within DIR.RLYCFG.TMO is a relay failure and is resent. -/
  | rlyinvTimeout (stall : Fin 2048) (relay : EpId)
  /-- RESEND_TIMER (R319): After its 1 µs delay, a snoop or RlyInv is resent with a fresh route lookup, or its resends are exhausted. -/
  | resendTimer (stall : Fin 2048) (who : EpId)
  /-- FWD_WINDOW_EXPIRY (R324): The CmpAck window after a timed-out forwarding snoop ends, and the snoop is completed on the agent's behalf. -/
  | fwdWindowExpiry (stall : Fin 2048)
  /-- FLUSH_REQUEST_ACK (R322): The recovery fabric acknowledges the flush request on TK_RCV_REQ_ACK, and the handshake proceeds. -/
  | flushRequestAck (level : Bool)
  /-- FLUSH_OUTCOME (R327): A FLUSHED or NOFLUSH outcome on TK_RCV fences the SUSPECT ID and adds it to the purge walk. With a code
  TK_RCV_RSP rises, without one it falls (R322). -/
  | flushOutcome (id : EpId) (code : Option (BitVec 2))
  /-- FLUSH_TIMEOUT (R322): No outcome within GLB.RCVCTL.FLUSHTMO counts as NOFLUSH. -/
  | flushTimeout (entry : Fin 16)
  /-- PURGE_WALK_VISIT (R127): The purge walk reads one set at its insertion slot and removes or frees entries that name fenced IDs. -/
  | purgeWalkVisit
  /-- CLEANER_VISIT (R121): The cleaner visits a set and starts evictions of the entries in ways 8-15. -/
  | cleanerVisit
  /-- SCRUB_READ (R131): Each scrub interval, the scrubber reads one set of each slice and corrects errors in it. -/
  | scrubRead
  /-- WAY_CLEAR_DONE (R124): Clearing of re-powered ways 8-15 ends, STATE becomes ON and DONE is set. -/
  | wayClearDone
  /-- MP_READ_ISSUE (R276): A waiting memory read is issued to its port while a read-command credit is held. -/
  | mpReadIssue (port : Fin 2)
  /-- INK_WRITE_ISSUE (R276): A FILLED inkwell slot is issued as a write to its ports. -/
  | inkWriteIssue (port : Fin 2)
  /-- MP_READ_DATA (R266): A line returns from a memory port, is checked, and is re-read from the mirror or poisoned when needed. -/
  | mpReadData (port : Fin 2) (tag : BitVec 7) (data : LineData) (err : Bool)
  /-- MP_WR_DONE (R277): A write completion commits the slot, frees it and releases the completions waiting on it. -/
  | mpWrDone (port : Fin 2) (tag : BitVec 7) (err : Bool)
  /-- MP_CMD_CREDIT (R492): A command credit from the controller is counted and may bring the port from ABSENT or RESET into RUN. -/
  | mpCmdCredit (port : Fin 2) (write : Bool)
  /-- MP_FAIL (R271): Assertion of MPn_FAIL makes the port FAILED, so the domain degrades or checkstops with MemoryLost. -/
  | mpFail (port : Fin 2)
  /-- MP_RD_TIMEOUT (R270): A read with no data within RDTMO makes the port FAILED. -/
  | mpRdTimeout (port : Fin 2)
  /-- MP_WR_TIMEOUT (R270): A write with no MPn_WR_DONE within WRTMO makes the port FAILED. -/
  | mpWrTimeout (port : Fin 2)
  /-- MP_CTRL_RST (R272): A controller reset on MPn_CTRL_RST puts the port in RESET, and its interrupted commands are held or redirected. -/
  | mpCtrlRst (port : Fin 2)
  /-- RESYNC_COPY_DONE (R273): The resync copy ends, the port enters RUN and DEGRADED is cleared. -/
  | resyncCopyDone (port : Fin 2)
  /-- CP_READ (R286): A channel-port READ is classified and executed as RdOnce in stream order. -/
  | cpRead (c : CpCmd)
  /-- CP_WRFULL (R286): A channel-port WRFULL is classified and executed as WrFull, or is answered DUP. -/
  | cpWrfull (c : CpCmd)
  /-- CP_WRPART (R286): A channel-port WRPART is classified and executed as WrPart, or is answered DUP. -/
  | cpWrpart (c : CpCmd)
  /-- CP_SYNC (R286): A channel-port SYNC completes once every earlier write of its stream is committed. -/
  | cpSync (c : CpCmd)
  /-- CP_LINK_RST (R291): A reset from the channel subsystem starts a CP function reset that keeps the stream table. -/
  | cpLinkRst
  /-- STROKE_EXECUTE (R182): The stroke unit executes a gathered stroke and sends StrokeDone. -/
  | strokeExecute
  /-- LIGATURE_EXECUTE (R190): The ligature unit executes a fully gathered ligature and commits it or aborts it. -/
  | ligatureExecute
  /-- ALC_MOVE_DONE (R214): A victim, drain or bank-cleaning move of an ALC line into the inkwell ends, and the entry is freed. -/
  | alcMoveDone
  /-- ALC_DRAIN_FREE (R225): During a drain, the next clean unpinned entry is freed. -/
  | alcDrainFree
  /-- ALC_INVALIDATE_DONE (R223): The invalidate of every tag ends, STATE returns to OFF and ARMED becomes 1. -/
  | alcInvalidateDone
  /-- BANK_CLEAR_DONE (R226): A re-powered ALC bank finishes writing its tags invalid and becomes ON. -/
  | bankClearDone (bank : Fin 8)
  /-- WAYPWR_REQ (R121): A write to DIR.WAYPWR.REQ starts cleaning, clearing or the stop of cleaning of ways 8-15. -/
  | waypwrReq (m : MasterId)
  /-- INSP_SEL (R161): A write to YARD.INSP_SEL captures the named stall into YARD.INSP0-YARD.INSP3. -/
  | inspSel (m : MasterId)
  /-- ALC_INSP_SEL (R228): A write to ALC.INSP_SEL captures the tag of an entry into ALC.INSP. -/
  | alcInspSel (m : MasterId)
  /-- JHEAD_WRITE (R199): A write to LED.JHEADn releases journal records when the value is in range, and sets HEADERR otherwise. -/
  | jheadWrite (m : MasterId)
  /-- RING_ENABLE (R200): A write that sets LED.JBASEn.EN checks and enables a journal ring. -/
  | ringEnable (m : MasterId)
  /-- ALC_INV (R223): A write of 1 to ALC.CTL.INV starts the tag invalidate, or is refused with NOTOFF. -/
  | alcInv (m : MasterId)
  /-- ALC_ENABLE (R224): A write of 1 to ALC.CTL.EN turns the ALC ON, or is refused. -/
  | alcEnable (m : MasterId)
  /-- ALC_DISABLE (R225): A write of 0 to ALC.CTL.EN while ON starts the drain. -/
  | alcDisable (m : MasterId)
  /-- BANKPWR_REQ (R226): A write to ALC.BANKPWR.REQ starts bank cleaning, its stop, or bank clearing. -/
  | bankpwrReq (m : MasterId)
  /-- PRELOAD (R219): ALC.PRELOAD with OP preload gathers a line into an entry. -/
  | preload (m : MasterId)
  /-- PRELOAD_ZERO (R219): ALC.PRELOAD with OP preload zero allocates a zeroed entry. -/
  | preloadZero (m : MasterId)
  /-- PRELOAD_AND_LOCK (R220): ALC.PRELOAD with OP preload and lock gathers the line and locks it, or is refused with LOCKLIMIT. -/
  | preloadAndLock (m : MasterId)
  /-- FLUSH (R219): ALC.PRELOAD with OP flush copies a dirty entry home and frees and unlocks it. -/
  | flush (m : MasterId)
  /-- EPOCH_SWAP_GO (R244): RTE.EPOCHCTL.GO starts a route-epoch swap to every valid target. -/
  | epochSwapGo (m : MasterId)
  /-- EPOCH_ACK_TIMEOUT (R245): A swap target that fails to answer within ACKTMO ends the swap with TIMEOUT. -/
  | epochAckTimeout (k : Fin 64)
  /-- EPOCH_RETIRE (R244): RETIRE µs after the flip, STATE becomes IDLE and RESULT becomes DONE. -/
  | epochRetire
  /-- ALIAS_SET (R260): RTE.ALIASCMD GO with SET = 1 enters a logical-physical pair in the alias CAM. -/
  | aliasSet (m : MasterId)
  /-- ALIAS_REMOVE (R260): RTE.ALIASCMD GO with SET = 0 removes the entry for a logical ID. -/
  | aliasRemove (m : MasterId)
  /-- ROUTE_ENTRY_WRITE (R247): A write to a route entry is stored, or is ignored and sets WRIGN. -/
  | routeEntryWrite (m : MasterId)
  /-- MP_CTL_FAIL (R270): A write of 1 to MPn.CTL.FAIL declares the port FAILED. -/
  | mpCtlFail (m : MasterId)
  /-- RESYNC (R273): A write of 1 to MPn.CTL.RESYNC on a FAILED port starts the resync copy. -/
  | resync (m : MasterId)
  /-- STREAM_RST (R293): CP.STREAMs.RST resets NEXT and DACK when the stream is idle, and sets RSTIGN otherwise. -/
  | streamRst (m : MasterId)
  /-- REGION_ENABLE (R344): A write that sets SEC.REGIONnA.V checks the region and makes it valid, or refuses it. -/
  | regionEnable (m : MasterId)
  /-- FENCE_SUSPECT (R327): GLB.FENCECMD OP SUSPECT makes an ID SUSPECT and requests a flush. -/
  | fenceSuspect (m : MasterId)
  /-- FENCE_FLUSHED (R327): GLB.FENCECMD OP FLUSHED records a FLUSHED outcome and fences the ID. -/
  | fenceFlushed (m : MasterId)
  /-- FENCE_NOFLUSH (R328): GLB.FENCECMD OP NOFLUSH records a NOFLUSH outcome and fences the ID. -/
  | fenceNoflush (m : MasterId)
  /-- FENCE_RELEASE (R327): GLB.FENCECMD OP RELEASE frees a RETIRED entry. -/
  | fenceRelease (m : MasterId)
  /-- CHKCMD_GO (R336): GLB.CHKCMD GO declares domain checkstop with the given cause. -/
  | chkcmdGo (m : MasterId)
  /-- SPARE_SET (R329): GLB.SPARECMD with SET = 1 applies an alias locally and broadcasts AliasSet to the home set. -/
  | spareSet (m : MasterId)
  /-- SPARE_REMOVE (R329): GLB.SPARECMD with SET = 0 removes an alias locally and broadcasts the removal. -/
  | spareRemove (m : MasterId)
  /-- BCAST_ACK_TIMEOUT (R329): A broadcast target without MgtAck within ACKTMO is counted in NOACK. -/
  | bcastAckTimeout (target : EpId)
  /-- HOMEID_WRITE (R463): A write to GLB.HOMEID takes effect only before READY. -/
  | homeidWrite (m : MasterId)
  /-- POWER_DOWN_REQ (R367): A write of 0 to an ISL.PWRREQ bit starts an island drain, or is refused. -/
  | powerDownReq (m : MasterId)
  /-- POWER_UP_REQ (R369): A write of 1 to an ISL.PWRREQ bit wakes an OFF island, or ends a drain. -/
  | powerUpReq (m : MasterId)
  /-- ISLAND_POWER_OFF (R368): A draining island with nothing left removes its power and becomes OFF. -/
  | islandPowerOff (i : Fin 8)
  /-- ISLAND_WAKE_DONE (R369): A waking island finishes its reset, enters ON and sets its DONE bit. -/
  | islandWakeDone (i : Fin 8)
  /-- RSTCMD_FUNC (R365): ISL.RSTCMD with KIND FUNC starts a function reset of an MP, CP or NP island. -/
  | rstcmdFunc (m : MasterId)
  /-- FUNC_RESET_END (R365): A function reset ends and its island returns toward RUN. -/
  | funcResetEnd (i : Fin 7)
  /-- RSTCMD_DOMAIN (R363): ISL.RSTCMD with KIND DOMAIN starts a domain reset. -/
  | rstcmdDomain (m : MasterId)
  /-- DOMRST_REQ (R363): A rising edge of TK_DOMRST_REQ starts a domain reset. -/
  | domrstReq
  /-- POWER_ON_RESET (R362): TK_PORST_N low resets every island, register and SRAM. -/
  | powerOnReset
  /-- POWER_ON_RELEASE (R379): The release of TK_PORST_N starts flash discovery; TK_FP_CFG and TK_TEST_MODE are sampled (R380, R491). -/
  | powerOnRelease (fpCfg : BitVec 3) (testMode : Bool)
  /-- FLASH_DISCOVERY_DONE (R380): After its wait and the ID and SFDP reads, the read mode is chosen and LOAD starts. -/
  | flashDiscoveryDone (jedec : BitVec 24) (sfdp : Option Sfdp)
  /-- IMAGE_LOAD_DONE (R388): The image has been read and checked, or start-up moves to the alternate image or to FAILED. `reread` is what a
  second read of a section with a failing CRC brings (R391); TK_SB_REQ is sampled at the entry of VERIFY (R390). -/
  | imageLoadDone (img : List Byte) (reread : List Byte) (sbReq : Bool)
  /-- DIGEST_COMPARE (R390): On TK_SB_VALID, the image digest is compared with TK_SB_DIGEST. -/
  | digestCompare (digest : BitVec 256)
  /-- OSTREADY (R394): The ostler's write of BOOT.CTL.OSTREADY marks its start-up configuration done. -/
  | ostready (m : MasterId)
  /-- OSTREADY_TIMEOUT (R391): OSTREADY not set within OSTTMO fails start-up with cause OSTLER. -/
  | ostreadyTimeout
  /-- DIRECTORY_CLEAR_DONE (R395): The directory clear ends, CLEAR_DONE is set and READY follows if OSTREADY is set. -/
  | directoryClearDone
  /-- BOOT_RETRY (R392): BOOT.CTL.RETRY in FAILED starts a domain reset that repeats DISCOVER. -/
  | bootRetry (m : MasterId)
  /-- MUSTER_GO (R396): TK_MUSTER_GO in READY starts muster and opens the CP. -/
  | musterGo
  /-- PORT_OPEN (R398): At each muster step time, the next port or the SP clients open, and muster completes at the end. -/
  | portOpen
  /-- CREDIT_RAMP_STEP (R399): A pool's CREDNOW rises by one flit on the muster ramp. -/
  | creditRampStep (port : Fin 5) (pool : Fin 6)
  /-- RLYHOLD_END (R402): RLYHOLD µs after muster, cluster and broadcast forms become available. -/
  | rlyholdEnd
  /-- PWR_WARN_ASSERT (R371): Assertion of TK_PWR_WARN starts the inkwell drain, disables the ALC and stops admission. -/
  | pwrWarnAssert
  /-- PWR_WARN_DEASSERT (R372): Deassertion of TK_PWR_WARN resumes admission and CP credits. -/
  | pwrWarnDeassert
  /-- CHKSTOP_IN (R336): Assertion of TK_CHKSTOP_IN declares domain checkstop with cause Integrity. -/
  | chkstopIn
  /-- LINK_PARTNER_RESET (R258): NPn_LINK_RST puts the bridge in RESET and discards partial packets and credits. -/
  | linkPartnerReset (port : Fin 4)
  /-- LINK_RUN (R493): A bridge enters RUN and starts granting inbound credits. -/
  | linkRun (port : Fin 5)
  /-- LINK_CREDIT_RETURN (R237): A credit returned by the link partner becomes usable for the next packet. -/
  | linkCreditReturn (port : Fin 5) (pool : Fin 6)
  /-- ISLAND_CLOCK_GATE (R358): An island idle for ISL.CTL.IDLE cycles stops its clock. -/
  | islandClockGate (i : Fin 11)
  /-- ISLAND_WAKE (R359): An arrival for a gated island raises a wake request and restarts its clock. -/
  | islandWake (i : Fin 11)
  /-- WAKE_LATE (R359): An access that waits longer than ISL.WAKE.TMO is counted and logged. -/
  | wakeLate (i : Fin 11)
  /-- TOD_PUBLISH (R355): Every 32 ns the core island publishes its time-of-day copy to the other islands. -/
  | todPublish (tod : Tod)
  /-- SP_REQUEST_ACCEPT (R406): An SP access is accepted into the input stage when SP_REQ_READY is 1. -/
  | spRequestAccept (a : SpAcc)
  /-- SP_MASTER_RESET (R412): SP_MRST_VALID discards the master's held accesses and releases its locks and mailbox state. -/
  | spMasterReset (m : MasterId)
  /-- MBX_BIND (R413): A write of MBX.BINDc with V = 1 binds a mailbox channel, or is refused. -/
  | mbxBind (m : MasterId)
  /-- MBX_POST (R415): The sender's write of MBX.DATAc3 posts the staged message, or sets OVERRUN. -/
  | mbxPost (m : MasterId)
  /-- MBX_TAKE (R416): The receiver's read of MBX.DATAc3 takes the message and clears FULL. -/
  | mbxTake (m : MasterId)
  /-- RAIL_ACQUIRE (R422): A read of RAIL.LOCKk acquires a free lock or reports its holder. -/
  | railAcquire (m : MasterId)
  /-- RAIL_RELEASE (R423): A write of REL = 1 by the holder frees the lock. -/
  | railRelease (m : MasterId)
  /-- RAIL_FORCE (R425): RAIL.FORCE GO releases a lock by force and pulses its abort line. -/
  | railForce (m : MasterId)
  /-- NQ_POST (R429): The ostler's write of the last NQ.POSTj word posts a notice record. -/
  | nqPost (m : MasterId)
  /-- NQ_RECORD_WRITE (R427): The write port writes a notice record whole, or drops it. -/
  | nqRecordWrite
  /-- GAP_RECORD_WRITE (R428): A pending GAP record is written once space is free. -/
  | gapRecordWrite
  /-- NQ_READ (R430): The reader's read of NQ.READ returns the next word and advances RP. -/
  | nqRead (m : MasterId)
  /-- NQ_MARK (R431): NQ.CMD MARK sets MARK to RP. -/
  | nqMark (m : MasterId)
  /-- NQ_REWIND (R431): NQ.CMD REWIND returns RP to MARK, or is refused. -/
  | nqRewind (m : MasterId)
  /-- NQ_RELEASE (R431): NQ.CMD RELEASE frees queue space up to RP. -/
  | nqRelease (m : MasterId)
  /-- DUMP_NOW (R443): A write of PMC.CTL.NOW makes a counter dump due. -/
  | dumpNow (m : MasterId)
  /-- DUMP_DUE (R443): At a due dump time, the counters are snapshot and the dump record writes begin. -/
  | dumpDue
  /-- DUMP_LINE_WRITE (R445): A dump line is written as an internal WrFull once a stall and a slot can be taken. -/
  | dumpLineWrite
  /-- DUMP_ENABLE (R444): A write that sets PMC.CTL.DUMPEN checks and enables the dump ring. -/
  | dumpEnable (m : MasterId)
  /-- DUMPHEAD_WRITE (R444): A write to PMC.DUMPHEAD releases dump records when the value is in range. -/
  | dumpheadWrite (m : MasterId)
  /-- FSEL_WRITE (R441): A write to PMC.FSELj changes counter filter selections within the writer's world. -/
  | fselWrite (m : MasterId)
  /-- BLOTTER_WRITE (R453): The blotter write port writes one queued record, possibly as the first-failure record. -/
  | blotterWrite
  /-- BLOT_SEL (R454): A write of BLOT.SEL captures a record into BLOT.REC0-BLOT.REC3. -/
  | blotSel (m : MasterId)
  /-- BLOT_CLEAR (R454): BLOT.CTL.CLEAR resets NEXT and COUNT and re-arms the blotter. -/
  | blotClear (m : MasterId)
  /-- BLOT_FF_REARM (R453): A write of 1 to BLOT.FF.V clears V and STOPPED so that writing resumes. -/
  | blotFfRearm (m : MasterId)
  /-- REGISTER_WRITE (R18): A write to a register without its own row stores its fields by their access codes, or is discarded on a bad check byte. -/
  | registerWrite (m : MasterId)
  /-- BIST_START (R491): In test mode, a BISTCTL start runs the SRAM self-test. -/
  | bistStart (ctl : BitVec 16)
  /-- TAP_BLOTFF_CAPTURE (R491): Capture-DR of BLOTFF captures the first-failure record for the TAP. -/
  | tapBlotffCapture
  /-- REGISTER_READ_CLEAR (R20): A service-port read of a register with RC fields returns the value and clears those fields as the read completes. -/
  | registerReadClear (m : MasterId)
  /-- RAIL_ABORT_PULSE_END (R425): Four service cycles after the latest forced release, SP_RAIL_ABORT[k] returns to 0. -/
  | railAbortPulseEnd (k : Fin 64)
  /-- CP_COMMAND_RETRY (R136): A channel-port command whose resources could not be taken is presented again by the CP island with its ticket, before any later command of its stream. -/
  | cpCommandRetry (stream : Fin 64)
  /-- BIST_DONE (R491): The SRAM self-test ends and sets the done and fail fields of BISTSTAT. -/
  | bistDone (fail : Bool) (macroIdx : BitVec 12) (addr : BitVec 50)
  /-- TAP_REPAIR_LOAD (R490): An Update-DR of the REPAIR test data register loads spare row and column repair data into the SRAM macros. -/
  | tapRepairLoad (repair : List (BitVec 24))
  deriving DecidableEq, Repr

end Sys2Proof
end

