-- ==== Sys2Proof/Config.lean ====
section
/-! DEFINITION. What an implementation fixes and what the spec leaves open: the product figures (R4), the pool sizes
(R133) and queue depths of the islands (R29), and the free values, which have no body. -/

namespace Sys2Proof.Config

/-- FREE VALUE (log 3): the contents of an ALC tag that the spec calls undefined after domain reset (R222). -/
opaque freeTag : Nat → BitVec 40
/-- FREE VALUE (log 13): what a capture of a FREE stall holds beside its state and pool (R161). -/
opaque freeStall : Nat → BitVec 64
/-- FREE VALUE (log 14): ISL.RSTSTAT.LASTDOM after a domain reset by BOOT.CTL.RETRY, for which R374 lists no code. -/
opaque freeLast : Nat → BitVec 2
/-- FREE VALUE (log 4): the network port on which an `EpochSwap` leaves, which R244 does not name. -/
opaque swapPort : Nat → Fin 4
/-- FREE VALUE (log 15): the requester's endpoint ID of a request that no agent sent: of the channel port (source 4, by
stream) and of an internal user (source 5). -/
opaque freeReqId : Nat → Nat → BitVec 18
/-- FREE VALUE (log 15): the requester's tag of a request that no agent sent, by source and sequence number. -/
opaque freeReqTag : Nat → Nat → BitVec 12
/-- FREE VALUE (log 16): WORLD of a blotter record that concerns no transaction (R450 states no content). -/
opaque blotWorld : Bool
/-- FREE VALUE (log 16): ID of a blotter record that concerns no endpoint and no SP master (R450 states no content). -/
opaque blotId : BitVec 18
/-- FREE VALUE (log 16): ARG of a blotter record whose class is given no content by R451, by its code. -/
opaque blotArg : Nat → BitVec 40
/-- FREE VALUE (log 16): the encoding of port and trigger in a record of class 7 (R271 names them, R451 gives no layout). -/
opaque mpTrigger : Nat → Nat → BitVec 40
/-- FREE VALUE (log 16): ARG of the record of a start-up failure, which names the image (0 primary, 1 alternate) and the section
(R391); R451 gives no layout. -/
opaque bootArg : Nat → Option Nat → BitVec 40
/-- FREE VALUE (log 68): the detail of the record of a data word corrected on entry at an NI or the channel port, for which
R451 numbers no structure. -/
opaque entryDetail : BitVec 8
/-- FREE VALUE (log 73): OLD of a `Stroke` answered FORMAT at dispatch, which has read no word (R181, R183). -/
opaque freeOld : Nat → BitVec 64
/-- FREE VALUE (log 2): the check byte of a payload in Lanicen's SEC-DED code, of which the spec gives only what it
corrects and detects (R9, R267) and its value for zero (R458). -/
opaque checkCode : BitVec 64 → BitVec 8
/-- FREE VALUE (log 2): the check byte of the 72 content bits of a directory entry in the same code (R92). -/
opaque dirCode : BitVec 72 → BitVec 8

/-- Stalls of the request pool (R133). -/
def poolReq : Nat := 1792
/-- Stalls of the relay pool (R133). -/
def poolRly : Nat := 64
/-- Stalls of the write-back pool (R133). -/
def poolWb : Nat := 128
/-- Stalls of the eviction pool (R133). -/
def poolEv : Nat := 64
/-- First stall index of the request pool. DEDUCED (log 5) from the stall indices of the worked examples. -/
def baseReq : Nat := 0
/-- First stall index of the relay pool. DEDUCED (log 5). -/
def baseRly : Nat := 0x700
/-- First stall index of the write-back pool. DEDUCED (log 5): chapter 5 names write-back stall 0x780. -/
def baseWb : Nat := 0x740
/-- First stall index of the eviction pool. DEDUCED (log 5): chapter 5 names eviction stall 0x7C1. -/
def baseEv : Nat := 0x7C0
/-- Pen entries (R4). -/
def penSize : Nat := 512
/-- Tickets (R148). -/
def tickets : Nat := 256
/-- Inkwell slots (R43). -/
def inkSlots : Nat := 512
/-- ALC entries (R209). -/
def alcEntries : Nat := 64
/-- Ligature slots (R37). -/
def ligSlots : Nat := 8
/-- Extension entries (R96). -/
def extEntries : Nat := 16384
/-- Positions of the purge walk (R126). -/
def positions : Nat := 131072
/-- Multicasts of the relay unit (R111). -/
def relaySlots : Nat := 64
/-- Records of an island's blotter queue (R449). -/
def blotQueue : Nat := 8
/-- Records of the blotter (R452). -/
def blotSize : Nat := 4096
/-- Words of the notice queue (R427). -/
def nqSize : Nat := 1024
/-- Accesses of the SP input stage (R406). -/
def spStage : Nat := 8
/-- Read commands that a memory port's command queue holds (R31). -/
def mpQueue : Nat := 64
/-- Lines of egress DAT space of each NI (R29). -/
def datEgress : Nat := 16

end Sys2Proof.Config
end

