-- ==== Sys2Proof/Machine/Bits.lean ====
section
/-! DEFINITION. Bit fields, time units, data words and the sparse tables' operations: the small helpers of every other
file of the machine (R5, R9, R12, R63). -/

namespace Sys2Proof

/-- The check byte of a payload: 0x00 for zero (R458), else as the code gives it (log 2). -/
def checkByte (v : Word) : BitVec 8 := if v = 0 then 0 else Config.checkCode v
/-- The check byte [71:64] of a word (R6). -/
def DWord.check (d : DWord) : BitVec 8 := checkByte d.val ^^^ d.syn
/-- The 72 bits of a word (R4, R6). -/
def DWord.bits (d : DWord) : BitVec 72 := d.check ++ d.val
/-- The word of 72 received bits (R6). -/
def DWord.ofBits (b : BitVec 72) : DWord := ⟨b.setWidth 64, (b >>> 64).setWidth 8 ^^^ checkByte (b.setWidth 64)⟩
/-- A zero word with a correct check byte (R64, R215). -/
def DWord.zero : DWord := ⟨0, 0⟩
/-- A word with a check byte that Tirkar generates (R9, R14, R174). -/
def DWord.gen (v : Word) : DWord := ⟨v, 0⟩

/-- A syndrome of one check bit: that bit alone is wrong (R9). -/
def oneBit (x : BitVec 8) : Bool := (List.range 8).any (fun k => x.toNat == 2 ^ k)
/-- A syndrome that the code tells apart from every single-bit error (R9, R267): 0xFF, two check bits, or several check
bits of one aligned nibble. -/
def manyBits (x : BitVec 8) : Bool :=
  x == 0xFF || !oneBit x && (x.toNat < 16 || x.toNat % 16 == 0 ||
    (List.range 8).any (fun j => (List.range 8).any (fun k => x.toNat == 2 ^ j + 2 ^ k)))
/-- The payload bit whose change alone makes a word agree with its check byte (R9). -/
def DWord.wrongBit (d : DWord) : Option Nat :=
  (List.range 64).find? (fun k => checkByte (d.val ^^^ BitVec.ofNat 64 (2 ^ k)) == d.check)
/-- What the check says of a word (R9): correct, a single-bit error, or anything else. DEDUCED (log 2). -/
def DWord.chk (d : DWord) : Chk :=
  if d.syn = 0 then .ok else if oneBit d.syn then .ce else if manyBits d.syn then .ue
  else if d.wrongBit.isSome then .ce else .ue
/-- The word after a correctable error has been corrected in place (R9). -/
def DWord.fix (d : DWord) : DWord :=
  match d.chk with
  | .ce => if oneBit d.syn then ⟨d.val, 0⟩ else ⟨d.val ^^^ BitVec.ofNat 64 (2 ^ d.wrongBit.getD 0), 0⟩
  | _ => d
/-- The word is uncorrectable (R316). -/
def DWord.bad (d : DWord) : Bool := d.chk == .ue
/-- The mark of R267: a correctable error is corrected and the check byte is inverted. A word that is uncorrectable as it
came, and whose inverted check byte would not be, keeps its own (R316). DEDUCED (log 2). -/
def DWord.mark (d : DWord) : DWord :=
  if d.bad then (let e : DWord := ⟨d.val, d.syn ^^^ 0xFF⟩; if e.bad then e else d) else ⟨d.fix.val, 0xFF⟩

/-- A whole line of zero words (R64, R215). -/
def LineData.zero : LineData := List.replicate 32 DWord.zero
/-- Word `w` of a line. -/
def LineData.word (d : LineData) (w : Nat) : DWord := d.getD w DWord.zero
/-- Exactly 32 words: what is missing is filled with zero words. -/
def LineData.norm (d : LineData) : LineData := (List.range 32).map (fun w => d.getD w DWord.zero)
/-- Some word of the line is poisoned (R316). -/
def LineData.poisoned (d : LineData) : Bool := d.any DWord.bad
/-- Every correctable word corrected in place (R9). -/
def LineData.fix (d : LineData) : LineData := d.map DWord.fix
/-- How many words a pass over the line corrects. -/
def LineData.ceCount (d : LineData) : Nat := d.countP (fun x => x.chk == .ce)
/-- How many words of the line are uncorrectable. -/
def LineData.ueCount (d : LineData) : Nat := d.countP DWord.bad
/-- The first uncorrectable word, or 0. -/
def LineData.firstBad (d : LineData) : Nat := (d.findIdx? DWord.bad).getD 0
/-- The words that are uncorrectable (R268). -/
def LineData.badMask (d : LineData) : BitVec 32 :=
  BitVec.ofNat 32 ((List.range 32).foldl (fun m w => if (d.word w).bad then m + 2 ^ w else m) 0)
/-- The first uncorrectable word that a mask does not name (R268). -/
def LineData.newBad (d : LineData) (known : BitVec 32) : Option Nat :=
  (List.range 32).find? (fun w => (d.word w).bad && !known.getLsbD w)
/-- The first element that a test admits is changed. -/
def updFirst {α : Type} (p : α → Bool) (f : α → α) : List α → List α
  | [] => []
  | a :: r => if p a then f a :: r else a :: updFirst p f r
/-- Bit `n` of a value. -/
def bit (v n : Nat) : Bool := v / 2 ^ n % 2 == 1
/-- The words whose mask bit is 1 come from `new`, the others from `old` (R63, R78). -/
def LineData.merge (mask : BitVec 32) (new old : LineData) : LineData :=
  (List.range 32).map (fun w => if bit mask.toNat w then LineData.word new w else LineData.word old w)
/-- The line with word `w` replaced. -/
def LineData.setWord (d : LineData) (w : Nat) (x : DWord) : LineData := (LineData.norm d).set w x

/-- The field of width `w` at bit `lo` of a word (R5). -/
def getBits (v : Word) (lo w : Nat) : Nat := v.toNat / 2 ^ lo % 2 ^ w
/-- The word with the field of width `w` at bit `lo` replaced. -/
def setBits (v : Word) (lo w x : Nat) : Word :=
  BitVec.ofNat 64 (v.toNat - getBits v lo w * 2 ^ lo + x % 2 ^ w * 2 ^ lo)
/-- Addition that stops at the greatest value of a `w`-bit field. -/
def satAdd (w x n : Nat) : Nat := min (x + n) (2 ^ w - 1)
/-- 1 for true (a one-bit field). -/
def b2n (b : Bool) : Nat := if b then 1 else 0
/-- The cluster of an endpoint ID (R4). -/
def clusterOf (e : EpId) : Nat := e.toNat / 512
/-- The local ID of an endpoint within its cluster (R242). -/
def localOf (e : EpId) : Nat := e.toNat % 512
/-- The endpoint of a cluster and a local ID (R330). -/
def endpoint (c l : Nat) : EpId := BitVec.ofNat 18 (c * 512 + l)
/-- Time from `a` to `b` on the time of day, in 2⁻¹² µs (R12). -/
def elapsed (a b : Tod) : Nat := (b - a).toNat
/-- `n` µs in units of 2⁻¹² µs (R12). -/
def usec (n : Nat) : Nat := n * 4096
/-- `n` ns in units of 2⁻¹² µs, rounded up: a wait of `n` ns is over once this many units have passed. -/
def nsec (n : Nat) : Nat := (n * 4096 + 999) / 1000

namespace SMap
variable {α : Type}

/-- The entry at an index. -/
def find (m : SMap α) (k : Nat) : Option α :=
  match m with
  | [] => none
  | (j, a) :: r => if j = k then some a else if k < j then none else find r k

/-- The table with the entry at an index written. -/
def put (m : SMap α) (k : Nat) (a : α) : SMap α :=
  match m with
  | [] => [(k, a)]
  | (j, b) :: r => if j = k then (k, a) :: r else if k < j then (k, a) :: (j, b) :: r else (j, b) :: put r k a

/-- The table with an index freed. -/
def del (m : SMap α) (k : Nat) : SMap α :=
  match m with
  | [] => []
  | (j, b) :: r => if j = k then r else if k < j then (j, b) :: r else (j, b) :: del r k

/-- The entry at an index changed, if there is one. -/
def upd (m : SMap α) (k : Nat) (f : α → α) : SMap α :=
  match find m k with
  | some a => put m k (f a)
  | none => m

/-- Every listed index lies above `lo`, and the indices rise. -/
def risesFrom (lo : Nat) : SMap α → Bool
  | [] => true
  | (j, _) :: r => decide (lo ≤ j) && risesFrom (j + 1) r

/-- The canonical form of a table: indices strictly rising. -/
def wf (m : SMap α) : Bool := risesFrom 0 m

/-- The lowest index of `[lo, lo + n)` that the table does not list. -/
def firstFree (m : SMap α) (lo : Nat) : Nat → Option Nat
  | 0 => none
  | n + 1 => if (find m lo).isNone then some lo else firstFree m (lo + 1) n

/-- How many listed entries satisfy a test. -/
def count (m : SMap α) (p : α → Bool) : Nat := m.countP (fun e => p e.2)

/-- The first listed index whose entry satisfies a test. -/
def firstWith (m : SMap α) (p : Nat → α → Bool) : Option (Nat × α) := List.find? (fun e => p e.1 e.2) m

end SMap

end Sys2Proof
end

