-- ==== Sys2Proof/Machine/Operands.lean ====
section
/-! DEFINITION. The operand forms of strokes and ligatures: the operation flit (R171), what an operation uses (R172,
R173), and the detail field of `Ligature` (R184). -/

namespace Sys2Proof.Machine

/-- An operation flit (R171). -/
structure OpFlit where
  ctl : DWord
  a : DWord
  g : DWord
  h : DWord
  deriving DecidableEq, Repr

/-- LINE of CTL. -/
def OpFlit.line (f : OpFlit) : LineAddr := BitVec.ofNat 52 (getBits f.ctl.val 0 52)
/-- WORD of CTL. -/
def OpFlit.word (f : OpFlit) : Nat := getBits f.ctl.val 52 5
/-- OP of CTL. -/
def OpFlit.op (f : OpFlit) : Nat := getBits f.ctl.val 57 4
/-- GUARD of CTL. -/
def OpFlit.guard (f : OpFlit) : Nat := getBits f.ctl.val 61 3
/-- The operation is JNOTE (R172). -/
def OpFlit.isNote (f : OpFlit) : Bool := f.op == 0xE
/-- The guard reads OLD (R173). -/
def OpFlit.guardOld (f : OpFlit) : Bool := f.guard == 1 || f.guard == 2 || f.guard == 6 || f.guard == 7
/-- The guard uses G (R173). -/
def OpFlit.usesG (f : OpFlit) : Bool :=
  f.guard == 1 || f.guard == 2 || f.guard == 3 || f.guard == 5 || f.guard == 6 || f.guard == 7
/-- The guard uses H (R173). -/
def OpFlit.usesH (f : OpFlit) : Bool := f.guard == 4 || f.guard == 5 || f.guard == 7
/-- The operation uses OLD: every OP but SWAP and DSET, and any guard on OLD (R172, R176, R317). -/
def OpFlit.usesOld (f : OpFlit) : Bool := !(f.op == 0x1 || f.op == 0xD) || f.guardOld
/-- The operation uses A: every OP but READ (R172). -/
def OpFlit.usesA (f : OpFlit) : Bool := f.op != 0x0

/-- Operation flit `k` of a request's data: words are corrected on entry (R174). -/
def opFlit (d : LineData) (k : Nat) : OpFlit :=
  ⟨(d.word (4 * k)).fix, (d.word (4 * k + 1)).fix, (d.word (4 * k + 2)).fix, (d.word (4 * k + 3)).fix⟩
/-- The operation flits of a request, four words each (R171, R185). -/
def opFlits (d : LineData) : List OpFlit := (List.range (d.length / 4)).map (opFlit d)

/-- A line address put into an ascending list of distinct addresses. -/
def insertLine (l : LineAddr) : List LineAddr → List LineAddr
  | [] => [l]
  | a :: r => if l = a then a :: r else if l.toNat < a.toNat then l :: a :: r else a :: insertLine l r
/-- The data lines of a ligature in ascending order (R186). -/
def dataLines (fs : List OpFlit) : List LineAddr :=
  (fs.filter (fun f => !f.isNote)).foldl (fun ls f => insertLine f.line ls) []
/-- RING of a `Ligature` detail field (R184). -/
def ligRing (detail : BitVec 40) : Nat := detail.toNat % 8
/-- JTAG of a `Ligature` detail field (R184). -/
def ligJtag (detail : BitVec 40) : Nat := detail.toNat / 8 % 2 ^ 24

end Sys2Proof.Machine
end

