-- ==== Sys2Proof/Machine/Flags.lean ====
section
/-! DEFINITION. The arithmetic of the ledger engine: the operations and their exceptions (R172), the guards (R173), packed
decimal (R175-R178), status codes (R179), and the flags Z, N and V of `StrokeDone` (R183). -/

namespace Sys2Proof.Machine

/-! Status codes (R179). -/
namespace Sts
def done : Nat := 0
def guard : Nat := 1
def digit : Nat := 2
def overflow : Nat := 3
def poison : Nat := 4
def format : Nat := 5
def jfull : Nat := 6
end Sts

/-- Nibble `i` of a word (R175). -/
def nib (v : Word) (i : Nat) : Nat := getBits v (4 * i) 4
/-- A valid packed-decimal word (R176). -/
def decValid (v : Word) : Bool :=
  (nib v 0 == 0xC || nib v 0 == 0xD || nib v 0 == 0xF) && (List.range 15).all (fun i => decide (nib v (i + 1) ≤ 9))
/-- The magnitude of a packed-decimal word (R175). -/
def decMag (v : Word) : Nat := (List.range 15).foldr (fun i m => nib v (i + 1) * 10 ^ i + m) 0
/-- The value of a packed-decimal word (R175). -/
def decVal (v : Word) : Int := if nib v 0 = 0xD then -(decMag v : Int) else (decMag v : Int)
/-- The greatest decimal magnitude (R177). -/
def decMax : Nat := 999999999999999
/-- The packed-decimal word of a result (R177). -/
def decWord (x : Int) : Word :=
  BitVec.ofNat 64 ((List.range 15).foldr (fun i m => x.natAbs / 10 ^ i % 10 * 16 ^ (i + 1) + m) (if x < 0 then 0xD else 0xC))

/-- The arithmetic of the guard comparison and of the flags, by OP (R172): unsigned, signed, decimal. -/
inductive Arith where
  | unsigned | signed | decimal
  deriving DecidableEq, Repr
/-- The arithmetic named for an OP (R172). -/
def arithOf (op : Nat) : Arith :=
  if op = 0x0 ∨ op = 0x1 ∨ op = 0x6 ∨ op = 0x7 ∨ op = 0x8 then .unsigned
  else if op = 0xB ∨ op = 0xC ∨ op = 0xD then .decimal else .signed
/-- The value of a word in an arithmetic (R172, R178). -/
def valIn (k : Arith) (v : Word) : Int :=
  match k with
  | .unsigned => (v.toNat : Int)
  | .signed => v.toInt
  | .decimal => decVal v

/-- A signed result fits a word (R172). -/
def fits (x : Int) : Bool := decide (-(2 ^ 63 : Int) ≤ x) && decide (x < (2 ^ 63 : Int))

/-- NEW of an operation and its exception, if any (R172, R176, R177). Operands of decimal operations have been checked. -/
def newOf (op : Nat) (old a : Word) : Except Nat Word :=
  if op = 0x0 then .ok old
  else if op = 0x1 ∨ op = 0xD then .ok a
  else if op = 0x2 then .ok (old + a)
  else if op = 0x3 then .ok (old - a)
  else if op = 0x4 then (if fits (old.toInt + a.toInt) then .ok (old + a) else .error Sts.overflow)
  else if op = 0x5 then (if fits (old.toInt - a.toInt) then .ok (old - a) else .error Sts.overflow)
  else if op = 0x6 then .ok (old &&& a)
  else if op = 0x7 then .ok (old ||| a)
  else if op = 0x8 then .ok (old ^^^ a)
  else if op = 0x9 then .ok (if old.toInt < a.toInt then a else old)
  else if op = 0xA then .ok (if a.toInt < old.toInt then a else old)
  else if op = 0xB then
    (if (decVal old + decVal a).natAbs ≤ decMax then .ok (decWord (decVal old + decVal a)) else .error Sts.overflow)
  else if op = 0xC then
    (if (decVal old - decVal a).natAbs ≤ decMax then .ok (decWord (decVal old - decVal a)) else .error Sts.overflow)
  else .error Sts.format

/-- The guard holds (R173). -/
def guardHolds (gd : Nat) (k : Arith) (old new g h : Word) : Bool :=
  let v := valIn k
  if gd = 1 then v old == v g
  else if gd = 2 then v old != v g
  else if gd = 3 then decide (v g ≤ v new)
  else if gd = 4 then decide (v new ≤ v h)
  else if gd = 5 then decide (v g ≤ v new) && decide (v new ≤ v h)
  else if gd = 6 then decide (v g ≤ v old)
  else if gd = 7 then decide (v g ≤ v old) && decide (v old ≤ v h)
  else true

/-- A decimal operation checks OLD: it reads it (R176). -/
def OpFlit.checksOld (f : OpFlit) : Bool := f.op == 0xB || f.op == 0xC || f.guardOld
/-- Some word that a decimal operation checks is invalid (R176). -/
def OpFlit.badDigit (f : OpFlit) (old : Word) : Bool :=
  arithOf f.op == .decimal &&
  ((f.checksOld && !decValid old) || !decValid f.a.val || (f.usesG && !decValid f.g.val) || (f.usesH && !decValid f.h.val))
/-- Some word that an operation uses is uncorrectable (R179, R317). -/
def OpFlit.poisoned (f : OpFlit) (old : DWord) : Bool :=
  (f.usesOld && old.bad) || (f.usesA && f.a.bad) || (f.usesG && f.g.bad) || (f.usesH && f.h.bad)

/-- One operation on a word: its status, and NEW with its check bits (R172-R178). -/
def OpFlit.apply (f : OpFlit) (old : DWord) : Nat × DWord :=
  if f.poisoned old then (Sts.poison, old)
  else if f.badDigit old.val then (Sts.digit, old)
  else match newOf f.op old.val f.a.val with
    | .error e => (e, old)
    | .ok v =>
      if guardHolds f.guard (arithOf f.op) old.val v f.g.val f.h.val then
        (Sts.done, if f.op = 0x0 then old else if f.op = 0x1 ∨ f.op = 0xD then f.a else DWord.gen v)
      else (Sts.guard, old)

/-- Z of `StrokeDone` (R183). -/
def flagZ (op : Nat) (new : Word) : Bool := match arithOf op with | .decimal => decMag new == 0 | _ => new == 0
/-- N of `StrokeDone` (R183). -/
def flagN (op : Nat) (new : Word) : Bool :=
  match arithOf op with
  | .unsigned => false
  | .signed => decide (new.toInt < 0)
  | .decimal => nib new 0 == 0xD && decMag new != 0
/-- V of `StrokeDone` (R183): ADD or SUB wrapped in the signed sense. -/
def flagV (op : Nat) (old a : Word) : Bool :=
  if op = 0x2 then !fits (old.toInt + a.toInt) else if op = 0x3 then !fits (old.toInt - a.toInt) else false
/-- The detail field of `StrokeDone` (R183): the flags are zero unless the status is DONE. -/
def strokeDetail (f : OpFlit) (sts : Nat) (old new : Word) : Nat :=
  if sts = 0 then b2n (flagZ f.op new) * 16 + b2n (flagN f.op new) * 32 + b2n (flagV f.op old f.a.val) * 64 else sts

end Sys2Proof.Machine
end

