-- ==== Sys2Proof/Machine/Wire.lean ====
section
/-! DEFINITION. The words that cross the boundary, bit by bit: the header flit of a Narip packet (R229, R230), its check
and correction (R233, R234), and the command and response flits of the channel port (R284, R288). -/

namespace Sys2Proof

/-- Bits [lo + w - 1 : lo] of a word (R5). -/
def fieldAt (v : Word) (lo w : Nat) : BitVec w := (v >>> lo).setWidth w
/-- A field placed at a bit of a word (R5). -/
def placeAt {w : Nat} (x : BitVec w) (lo : Nat) : Word := x.setWidth 64 <<< lo
/-- One bit as a field. -/
def bitOf (b : Bool) : BitVec 1 := BitVec.ofBool b

/-- Header word 0 (R230). -/
def Packet.word0 (p : Packet) : Word :=
  placeAt p.dst 0 ||| placeAt p.src 18 ||| placeAt p.domain 36 ||| placeAt p.opcode 48 ||| placeAt (bitOf p.world) 54 |||
    placeAt p.cls 55 ||| placeAt p.nflit 58
/-- Header word 1 (R230). -/
def Packet.word1 (p : Packet) : Word := placeAt p.line 0 ||| placeAt p.tag 52
/-- Header word 2 (R230). -/
def Packet.word2 (p : Packet) : Word :=
  placeAt p.route 0 ||| placeAt p.hopcnt 48 ||| placeAt p.nhop 52 ||| placeAt (bitOf p.epoch) 56
/-- Header word 3 (R230). -/
def Packet.word3 (p : Packet) : Word := placeAt p.detail 0 ||| placeAt p.seq 40 ||| placeAt p.stream 56
/-- The syndrome of header word `k`. -/
def Packet.synOf (p : Packet) (k : Nat) : BitVec 8 := (p.syn >>> (8 * k)).setWidth 8
/-- The header flit: four native words (R229, R230). A Reserved bit is zero in what Tirkar sends, and no rule reads one of
a packet that arrives (log 2). -/
def Packet.header (p : Packet) : List DWord :=
  [⟨p.word0, p.synOf 0⟩, ⟨p.word1, p.synOf 1⟩, ⟨p.word2, p.synOf 2⟩, ⟨p.word3, p.synOf 3⟩]
/-- The 288 bits of the header flit (R229). -/
def Packet.flit (p : Packet) : BitVec 288 :=
  (⟨p.word3, p.synOf 3⟩ : DWord).bits ++ (⟨p.word2, p.synOf 2⟩ : DWord).bits ++ (⟨p.word1, p.synOf 1⟩ : DWord).bits ++
    (⟨p.word0, p.synOf 0⟩ : DWord).bits
/-- The fields that four header words spell (R230), with data flits. -/
def Packet.ofHeader (h : List DWord) (data : LineData) : Packet :=
  let d := fun k => h.getD k DWord.zero
  let w := fun k => (d k).val
  { dst := fieldAt (w 0) 0 18, src := fieldAt (w 0) 18 18, domain := fieldAt (w 0) 36 12, opcode := fieldAt (w 0) 48 6
    world := fieldAt (w 0) 54 1 == 1, cls := fieldAt (w 0) 55 3, nflit := fieldAt (w 0) 58 4
    line := fieldAt (w 1) 0 52, tag := fieldAt (w 1) 52 12
    route := fieldAt (w 2) 0 48, hopcnt := fieldAt (w 2) 48 4, nhop := fieldAt (w 2) 52 4, epoch := fieldAt (w 2) 56 1 == 1
    detail := fieldAt (w 3) 0 40, seq := fieldAt (w 3) 40 16, stream := fieldAt (w 3) 56 8
    syn := (d 3).syn ++ (d 2).syn ++ (d 1).syn ++ (d 0).syn, data := data }
/-- A header with an uncorrectable word (R234 check 1). -/
def Packet.hdrBad (p : Packet) : Bool := p.syn != 0 && p.header.any DWord.bad
/-- The header words that a check corrects (R234 check 1). -/
def Packet.hdrWrong (p : Packet) : List Nat :=
  if p.syn = 0 then [] else (List.range 4).filter (fun k => (p.header.getD k DWord.zero).chk == .ce)
/-- The packet with its header's single-bit errors corrected in place (R9, R234 check 1). -/
def Packet.corrected (p : Packet) : Packet := if p.syn = 0 then p else Packet.ofHeader (p.header.map DWord.fix) p.data

/-- The command that a command flit's four words and its data flits spell (R284). Bits not named are Reserved. -/
def CpCmd.ofFlit (h : List DWord) (data : LineData) : CpCmd :=
  let w := fun k => (h.getD k DWord.zero).val
  { stream := ⟨(fieldAt (w 0) 0 6).toNat, (fieldAt (w 0) 0 6).isLt⟩, seq := fieldAt (w 0) 6 16, op := fieldAt (w 0) 22 4
    line := fieldAt (w 1) 0 52, mask := fieldAt (w 2) 0 32, data := data }
/-- The command flit of a command (R284). -/
def CpCmd.flit (c : CpCmd) : List DWord :=
  [DWord.gen (placeAt (BitVec.ofNat 6 c.stream.val) 0 ||| placeAt c.seq 6 ||| placeAt c.op 22), DWord.gen (placeAt c.line 0),
    DWord.gen (placeAt c.mask 0), DWord.zero]
/-- The response flit of a response (R288): DATA says that data flits follow. -/
def CpRsp.flit (r : CpRsp) : List DWord :=
  [DWord.gen (placeAt (BitVec.ofNat 6 r.stream) 0 ||| placeAt r.seq 6 ||| placeAt (BitVec.ofNat 4 r.status) 22 |||
      placeAt (bitOf !r.data.isEmpty) 26 ||| placeAt (bitOf r.ack) 27), DWord.gen (placeAt r.dack 0), DWord.zero, DWord.zero]

/-- The check byte of a write shows an error (R15): even a correctable one. -/
def SpAcc.wrong (x : SpAcc) : Bool := x.word.chk != .ok

end Sys2Proof
end

