-- ==== Sys2Proof/Machine/State.lean ====
section
/-! DEFINITION. The state of the block as plain data: the register window, the arrays of the core island, the queues of
every port, and the queue of waiting commands; the fault and refusal reasons; the state right after reset. -/

namespace Sys2Proof.Machine

/-- State of a directory entry (R92); a line without an entry is in state I (R87). -/
inductive DState where
  | s | x | o
  deriving DecidableEq, Repr

/-- The sharer field by FORM (R94). -/
inductive Sharers where
  | ptr (p0 p1 : Option EpId)
  | list (xidx : Nat) (own : EpId) (nsh : Nat)
  | cluster (xidx : Nat) (own : EpId)
  | bcast (own : EpId)
  deriving DecidableEq, Repr

/-- A directory entry that is not free (R92). -/
structure DirEntry where
  tag : BitVec 17
  ref : Bool
  world : Bool
  st : DState
  sh : Sharers
  deriving DecidableEq, Repr

/-- An allocated extension entry: sharer slots with their back-pointer (R96), or a cluster map (R97). -/
inductive Ext where
  | slots (l : List (Option EpId)) (back : Nat)
  | map (m : BitVec 512)
  deriving DecidableEq, Repr

/-- A request as dispatch sees it, from a port (`src` 0-3), the channel port (4) or inside (5) (R135, R439).
`cp` is the stream, sequence number and replay flag of a channel-port command (R286, R290). -/
structure Req where
  op : BitVec 6
  src : Nat
  world : Bool
  q : EpId
  tag : Tag
  line : LineAddr
  ticket : BitVec 16
  detail : BitVec 40
  data : LineData
  cp : Option (Nat × BitVec 16 × Bool)
  deriving DecidableEq, Repr

/-- Where an awaited answer stands: its message still waits in an egress queue; it was sent at a time (R252); it is due
to be resent at a time (R319); its sender timed out at a time and the window of R324 runs; it waits for the flush. -/
inductive WaitSt where
  | queued | sent (t : Tod) | resend (t : Tod) | window (t : Tod) | flush
  deriving DecidableEq, Repr

/-- An awaited answer to a snoop or `RlyInv` (R79, R105). `holder`: it decides the outcome. -/
structure Wait where
  who : EpId
  op : BitVec 6
  fmode : Bool
  holder : Bool
  st : WaitSt
  resends : Nat
  deriving DecidableEq, Repr

/-- A `WbDirty` absorbed by a stall (R81, R163): whom `CmpW` answers, and whether it is withheld (R164). -/
structure Absorb where
  who : EpId
  tag : Tag
  world : Bool
  withheld : Bool
  deriving DecidableEq, Repr

/-- The outcome of the snoop to the holder (R79); `direct`: none was needed. -/
inductive Out where
  | direct | ackI | ackS | fwdI | fwdO | wbPend | dataI | dataO
  deriving DecidableEq, Repr

/-- What a stall is for (R133, R139). -/
inductive Role where
  | req
  | wb
  | evict (key : Nat) (cleaner : Bool)
  | census (cluster : Nat)
  | relay (parent : Nat)
  | lig (slot : Nat) (journal : Bool)
  | preload (op : Nat)
  | dump (line : Nat)
  deriving DecidableEq, Repr

/-- Where the stall's memory read stands (R265, R276). -/
inductive RdSt where
  | no | asked | got
  deriving DecidableEq, Repr

/-- A stall in use (R138). `code` is STATE of YARD.INSP0. `noCopy`: the requester was answered `Error` cause Poison and
received no copy (R318). -/
structure Stall where
  role : Role
  code : Nat
  req : Req
  h : HIdx
  way : Option Nat
  ticketed : Bool
  waited : Bool
  acc : Tod
  blocks : Bool
  reason : Nat
  waits : List Wait
  relay : Option Nat
  evict : Option Nat
  ink : Option Nat
  alc : Option Nat
  hold : Option (EpId × BitVec 6 × Bool)
  out : Option Out
  wbWait : Option EpId
  absorbed : Option Absorb
  got : Option LineData
  rd : RdSt
  ready : Bool
  final : Bool
  first : Bool
  ackGot : Bool
  recorded : Bool
  respAt : Option Tod
  datPort : Option Nat
  displ : Bool
  noCopy : Bool
  deriving DecidableEq, Repr

/-- A pen entry (R141): its stall, reason, line, and its place in its chain (R142): ticket order before dispatch order. -/
structure PenEntry where
  stall : Nat
  reason : Nat
  h : HIdx
  tkt : Option Nat
  seq : Nat
  deriving DecidableEq, Repr

/-- A valid ticket (R148): the stalls set aside and owed (R147), and the lines it claims (R150). `cp`: the channel port
holds it (R136). -/
structure Ticket where
  who : EpId
  line : LineAddr
  lines : List LineAddr
  issued : Tod
  order : Nat
  held : List Nat
  owed : Nat
  cp : Bool
  deriving DecidableEq, Repr

/-- State of an inkwell slot that is not FREE (R274). -/
inductive InkPhase where
  | reserved | filled | issued
  deriving DecidableEq, Repr

/-- An inkwell slot that is not FREE (R274): `ports` the ports that must hold it, `need` those whose answer is missing,
`sent` those it was issued to, `waiters` the stalls that wait for its commit, `ids` the requesters and `cps` the channel-port
commands whose completed write it carries (R86, R289). `again`: a reset interrupted its write, and it waits to be issued
again (R272, R334). `known`: the words whose poison has been recorded (R268). -/
structure InkSlot where
  h : HIdx
  world : Bool
  phase : InkPhase
  data : LineData
  ports : List Nat
  need : List Nat
  sent : List Nat
  waiters : List Nat
  ids : List EpId
  cps : List (Nat × BitVec 16)
  seq : Nat
  filledAt : Tod
  repair : Bool
  again : Bool
  known : BitVec 32
  deriving DecidableEq, Repr

/-- An ALC entry that holds a line or is reserved for one (R209, R211). `known`: the words whose poison has been recorded
(R268). -/
structure AlcEntry where
  h : HIdx
  world : Bool
  v : Bool
  d : Bool
  lk : Bool
  ref : Bool
  data : LineData
  known : BitVec 32
  deriving DecidableEq, Repr

/-- A move on the ALC move path (R214): victim 0, drain 1, bank cleaning 2. -/
structure Move where
  entry : Nat
  slot : Nat
  kind : Nat
  h : HIdx
  deriving DecidableEq, Repr

/-- A ligature in one of the 8 slots (R188): its data lines, the stalls taken for them, the lines blocked so far, the
entries set aside with the line each was chosen for, or the inkwell slots, its pen entry, the order of the ticket it redeemed
(R142), whether its ring has been disabled since (R200), and whether its journal line was zero-allocated (R215). -/
structure Lig where
  req : Req
  lines : List LineAddr
  stalls : List Nat
  held : List (LineAddr × Nat)
  jline : Option (LineAddr × Nat)
  aside : List (HIdx × Nat)
  inks : List Nat
  bypass : Bool
  penned : Option Nat
  acc : Tod
  tkt : Option Nat
  dead : Bool
  zeroed : Bool
  deriving DecidableEq, Repr

/-- A packet in an ingress queue: `p` has the logical source and the effective world (R41, R341); the untranslated
source and the header's own world bit stand beside it (R235). `seq`: its place in the port's order of arrival (R154, R168). -/
structure InItem where
  p : Packet
  phys : EpId
  raw : Bool
  seq : Nat
  deriving DecidableEq, Repr

/-- A packet in an egress queue: the stall it belongs to, the logical ID it goes to, the acceptance time if it is a
first response (R156), whether it is the stall's final response (R85), and the inbound credits, by pool and flits, that
come free as it leaves (R255). -/
structure EgItem where
  p : Packet
  stall : Option Nat
  who : EpId
  first : Option (Nat × Tod)
  final : Bool
  hold : Option (Nat × Nat)
  deriving DecidableEq, Repr

/-- A network port: packets queued so far, ingress queues by class (R231), egress queues by pool (R29), ingress answers (R235), outbound
credits by pool (R237), the egress pointer (R360), whether muster has opened it (R369), when it last
opened (R399), the inbound credits by pool that the link partner holds, and the link buffers by pool (R237). -/
structure NpSt where
  seqs : Nat
  inq : SMap (List InItem)
  eg : SMap (List EgItem)
  ans : List EgItem
  cred : List Nat
  ptr : Nat
  ansTurn : Bool
  mustered : Bool
  openAt : Tod
  grant : List Nat
  buf : SMap (List InItem)
  deriving DecidableEq, Repr

/-- Why a memory read is issued a second time: a port failed (R271), or a function reset interrupted it (R272, R319). -/
inductive Rerun where
  | no | failed | reset
  deriving DecidableEq, Repr

/-- A memory read that a port owes (R264, R276): the stall that takes the line, what the first port returned of a mirrored
line that is read again (R266), and why it is issued a second time. `since`: the command's time, before it that of its entry
into the command queue (R270); `entered`: when it entered that queue (R157). `copy`: a resync reads it (R273). -/
structure MpRead where
  h : HIdx
  stall : Nat
  tag : Option Nat
  since : Tod
  entered : Option Tod
  again : Option (Nat × LineData × Bool)
  rerun : Rerun
  copy : Bool
  deriving DecidableEq, Repr

/-- The copy engine of a port in RESYNC (R273): where it goes on, the lines it copies, those read and not yet written. -/
structure CopySt where
  pos : Nat
  busy : List HIdx
  data : List (HIdx × LineData)
  deriving DecidableEq, Repr

/-- A memory port: credits (R264), reads waiting or outstanding in order, write tags in use with their
inkwell slot, its fill number and the time of the command (a copy: slot 512 and the line), what credits have been seen since
reset (R492), whether MPn_FRST is driven (R365), and the copy engine (R273). -/
structure MpSt where
  rdCred : Nat
  wrCred : Nat
  seenRd : Bool
  seenWr : Bool
  reads : List MpRead
  writes : SMap (Nat × Nat × Tod)
  driven : Bool
  copy : Option CopySt
  deriving DecidableEq, Repr

/-- A multicast of the relay unit (R110, R111). `port` 4: delivered inside the core (R112). -/
structure RlyOpen where
  port : Nat
  inv : InItem
  waits : List Wait
  sent : Nat
  shared : Nat
  viol : Bool
  fail : Bool
  deriving DecidableEq, Repr

/-- A channel-port command accepted and not closed (R287, R289): its stall (none: answered without one), whether its
completion may leave, the answer prepared, and when its stall was taken (R156). -/
structure CpOpen where
  seq : BitVec 16
  dup : Bool
  stall : Option Nat
  ans : Option CpRsp
  acc : Option Tod
  deriving DecidableEq, Repr

/-- The channel port (R291): open commands by stream in order, commands kept for retry with their tickets and replay flags
(R136), responses waiting for the link, a completion with the time its command was accepted (R156), whether and when muster
opened it and its credit limit (R400), the credits that the subsystem has granted (R283), whether the acknowledgements of R291
are owed, whether CP_FRST is driven (R365), and the flits taken whose credits a power warning keeps back (R371). -/
structure CpSt where
  opens : SMap (List CpOpen)
  retry : List (CpCmd × BitVec 16 × Bool)
  eg : List (CpRsp × Option Tod)
  opened : Bool
  openAt : Tod
  limit : Nat
  cred : Nat
  lost : Bool
  driven : Bool
  spent : Nat
  deriving DecidableEq, Repr

/-- A fence entry's flush (R322), FLUSHTMO running from the fabric's acknowledgement; the purge walk (R125), the cleaner's
position, the scrubber's next set and the time of its latest read (R131), and TK_RCV_RSP_ACK (R322). -/
structure RcvSt where
  asks : List EpId
  req : Option EpId
  reqHigh : Bool
  ackAt : SMap Tod
  purge : List (EpId × Nat × Bool)
  purgeWait : List EpId
  cleanPos : Nat
  scrubSet : Nat
  scrubAt : Tod
  rspAck : Bool
  deriving DecidableEq, Repr

/-- MGT messages of the ostler (R244, R329, R338): the epoch targets unacknowledged with their sending time, the next
target, whether one failed, the flip time; the broadcast's targets to come and outstanding, and its message. -/
structure MgtSt where
  swapOut : SMap Tod
  swapNext : Nat
  swapFail : Option Nat
  flipAt : Tod
  bTargets : List EpId
  bOut : List (EpId × Tod)
  bMsg : Option (BitVec 6 × BitVec 40)
  deriving DecidableEq, Repr

/-- Start-up (R379–R403): pins sampled, flash geometry, the image bytes, queued ostler writes (R393), the start of the
ostler and of muster, what muster opens next (1 to 4 NP0 to NP3, 5 the SP clients, 6 its completion, R398), whether SAFE
has been 1 in the latest power warning (R374), whether the hold of R402 is over, times. -/
structure BootSt where
  fpCfg : BitVec 3
  testMode : Bool
  readable : Nat
  altOff : Option Nat
  img : List Byte
  queued : List (Nat × Word)
  ostAt : Tod
  ostRun : Bool
  digest : BitVec 256
  musterAt : Tod
  nextPort : Nat
  safeSeen : Bool
  rlyReady : Bool
  runAt : Tod
  warnAt : Tod
  domWait : Bool
  deriving DecidableEq, Repr

/-- A blotter record as its island queued it (R449, R450); WSEQ and FF are filled in at writing. -/
structure BlotRec where
  tod : Tod
  src : Nat
  code : BitVec 12
  sev : Nat
  rcv : Bool
  world : Bool
  addr : BitVec 52
  tag : Tag
  id : BitVec 18
  opcode : BitVec 6
  arg : BitVec 40
  deriving DecidableEq, Repr

/-- A counter snapshot whose record is being written (R443, R446): the 288 words, the lines still to dispatch, and the
stalls open for lines dispatched. -/
structure Dump where
  words : SMap Word
  left : List Nat
  open_ : List Nat
  seq : Nat
  deriving DecidableEq, Repr

/-- The performance counters' own state beside their registers (R443–R446). -/
structure PmcSt where
  due : Bool
  manual : Bool
  lastPeriod : Nat
  dump : Option Dump
  missed : Nat
  prev : Word
  rcv : Bool
  cfg : Bool
  deriving DecidableEq, Repr

/-- The service island's state beside its registers: input stage (R406), responses presented, arbiter pointer (R409),
message buffers (R415), abort lines (R425), notice-queue words, records competing for its port and drops counted
since the last GAP record (R427, R428), blotter records and island queues (R449, R452), captured record (R454), the
TAP's BLOTFF, BISTCTL, BISTSTAT, SCANCFG and REPAIR registers (R491). -/
structure SvcSt where
  stage : List SpAcc
  rsp : List SpRsp
  ptr : MasterId
  msg : SMap (List Word)
  abort : BitVec 64
  nq : SMap Word
  nqIn : List (List Word)
  gap : Nat
  blot : SMap (List Word)
  blotQ : SMap (List BlotRec)
  blotPost : Nat
  recWorld : Bool
  tapFf : List Word
  bistCtl : BitVec 16
  bistRun : Bool
  bistStat : Word
  scanCfg : BitVec 8
  repair : List (BitVec 24)
  deriving DecidableEq, Repr

/-- An answer awaited whose wait timed out (R495): from whom, its tag and line, and whether it is a `CmpAck`. -/
structure Late where
  who : EpId
  tag : Tag
  line : LineAddr
  ack : Bool
  deriving DecidableEq, Repr

/-- The block's state. `penSince`: since when each eligible pen entry has been eligible (R153). `alcUndef`: the banks of the
ALC whose tags are undefined (R222). `lates` lists, for each stall (and relay-unit slot, 2048 above), the answers awaited since it was
last allocated whose wait timed out (R495). `win` is the register window: a slot that is not listed holds its reset value. -/
structure State where
  win : SMap Word
  tod : Tod
  dirs : SMap DirEntry
  exts : SMap Ext
  stalls : SMap Stall
  pen : SMap PenEntry
  penSeq : Nat
  penSince : SMap Tod
  tickets : SMap Ticket
  tktGen : SMap Nat
  tktSeq : Nat
  ink : SMap InkSlot
  inkSeq : Nat
  alc : SMap AlcEntry
  alcUndef : BitVec 8
  moves : List Move
  preload : Option (Req × Nat)
  ligs : SMap Lig
  readyStrk : List Nat
  readyLig : List Nat
  nps : SMap NpSt
  ruIn : List InItem
  ruBack : List InItem
  rlys : SMap RlyOpen
  mps : SMap MpSt
  cp : CpSt
  rcv : RcvSt
  mgt : MgtSt
  boot : BootSt
  svc : SvcSt
  pmc : PmcSt
  lanePtr : SMap Nat
  lates : SMap (List Late)
  faults : List (Nat × Nat × Chk)
  freeCtr : Nat
  tx : List (Nat × Packet)
  mpTx : List MpCmd
  cpTx : List CpRsp
  rcvTx : List EpId
  pending : List Instr
  deriving DecidableEq, Repr

/-- Why a step stops with a fault. No command of the table does (log 10): the block has no stop of its own. -/
inductive Fault where
  /-- Raised by no meaning. Safe: a fault the machine never takes. -/
  | none
  deriving DecidableEq, Repr

/-- Why a command has no meaning. -/
inductive Refusal where
  /-- An arm of `exec` that has no meaning yet. Safe: nothing is claimed of the command. -/
  | notModelled (mnemonic : String)
  deriving DecidableEq, Repr

/-- A network port right after reset: empty queues and no credit of either direction in any pool (R237, R493). -/
def NpSt.reset : NpSt := ⟨0, [], [], [], [0, 0, 0, 0, 0, 0], 0, false, false, 0, [0, 0, 0, 0, 0, 0], []⟩
/-- A memory port right after reset: no credits (R264). -/
def MpSt.reset : MpSt := ⟨0, 0, false, false, [], [], false, none⟩
/-- The channel port right after reset. -/
def CpSt.reset : CpSt := ⟨[], [], [], false, 0, 0, 0, false, false, 0⟩
/-- Recovery state right after reset. -/
def RcvSt.reset : RcvSt := ⟨[], none, false, [], [], [], 0, 0, 0, false⟩
/-- The ostler's MGT state right after reset. -/
def MgtSt.reset : MgtSt := ⟨[], 0, none, 0, [], [], none⟩
/-- Start-up state right after power-on reset. -/
def BootSt.reset : BootSt := ⟨0, false, 0, none, [], [], 0, false, 0, 0, 0, false, false, 0, 0, false⟩
/-- The service island right after power-on reset: nothing held, the blotter empty (R452), pointer at 0x000 (R409). -/
def SvcSt.reset : SvcSt := ⟨[], [], 0, [], 0, [], [], 0, [], [], 0, false, [0, 0, 0, 0], 0, false, 0, 0, []⟩
/-- The counters' state right after reset. -/
def PmcSt.reset : PmcSt := ⟨false, false, 0, none, 0, 0, false, false⟩

/-- The block right after power-on reset (R362): every register at its reset value, every array free, no command
waiting. -/
def State.reset : State where
  win := []
  tod := 0
  dirs := []
  exts := []
  stalls := []
  pen := []
  penSeq := 0
  penSince := []
  tickets := []
  tktGen := []
  tktSeq := 0
  ink := []
  inkSeq := 0
  alc := []
  alcUndef := 0xFF
  moves := []
  preload := none
  ligs := []
  readyStrk := []
  readyLig := []
  nps := [(0, NpSt.reset), (1, NpSt.reset), (2, NpSt.reset), (3, NpSt.reset)]
  ruIn := []
  ruBack := []
  rlys := []
  mps := [(0, MpSt.reset), (1, MpSt.reset)]
  cp := CpSt.reset
  rcv := RcvSt.reset
  mgt := MgtSt.reset
  boot := BootSt.reset
  svc := SvcSt.reset
  pmc := PmcSt.reset
  lanePtr := []
  lates := []
  faults := []
  freeCtr := 0
  tx := []
  mpTx := []
  cpTx := []
  rcvTx := []
  pending := []

end Sys2Proof.Machine
end

