-- ==== Sys2Proof/Machine/RegTable.lean ====
section
/-! DEFINITION. The register window (R13, R17, R26, R457, R460): every register of the map with its fields, access codes
(R18) and reset values (R23), as chapters 3, 4, 6-9, 11-17 give them, and the route and alias-CAM arrays (R240, R259). -/

namespace Sys2Proof.Machine

/-- Access codes of register fields (R18). -/
inductive Acc where
  | ro | rw | rwl | w1c | w1s | rc | wo
  deriving DecidableEq, Repr

/-- A field of a register (R17): lowest bit, width, access code. -/
structure Fld where
  lo : Nat
  width : Nat
  acc : Acc
  deriving DecidableEq, Repr

/-- A register or an array of registers (R460): first byte address, how many, their distance, the fields, the value at
reset (R23), and the register whose bit 63 locks its RWL fields (0: none). -/
structure RegRow where
  addr : Nat
  count : Nat
  stride : Nat
  reset : Nat
  lock : Nat
  fields : List Fld
  deriving DecidableEq, Repr

/-- Names of the registers: the byte address of the first of each (R457). -/
abbrev RegAddr := Nat

namespace R
def GLB_ID : RegAddr := 0x0
def GLB_CAP : RegAddr := 0x8
def GLB_HOMEID : RegAddr := 0x10
def GLB_CTL : RegAddr := 0x18
def GLB_TOD : RegAddr := 0x20
def GLB_EVSUM : RegAddr := 0x28
def GLB_SPERR : RegAddr := 0x30
def GLB_SPLAST : RegAddr := 0x38
def GLB_SCRATCH : RegAddr := 0x40
def GLB_RCVCTL : RegAddr := 0x400
def GLB_RCVSTAT : RegAddr := 0x408
def GLB_RCVENTRY : RegAddr := 0x410
def GLB_RCVEXIT : RegAddr := 0x418
def GLB_FENCECMD : RegAddr := 0x420
def GLB_FENCE : RegAddr := 0x440
def GLB_CHKSTOP : RegAddr := 0x500
def GLB_CHKTOD : RegAddr := 0x508
def GLB_CHKCMD : RegAddr := 0x510
def GLB_HOMESET : RegAddr := 0x520
def GLB_STOPSET : RegAddr := 0x528
def GLB_SPARECMD : RegAddr := 0x530
def GLB_BCAST : RegAddr := 0x538
def GLB_SRAMERR : RegAddr := 0x540
def DIR_CTL : RegAddr := 0x1000
def DIR_FORMCTL : RegAddr := 0x1008
def DIR_STATUS : RegAddr := 0x1010
def DIR_WAYPWR : RegAddr := 0x1018
def DIR_CLEAN : RegAddr := 0x1020
def DIR_SCRUB : RegAddr := 0x1028
def DIR_ECC_STATUS : RegAddr := 0x1030
def DIR_ECC_LOC : RegAddr := 0x1038
def DIR_EXT_STATUS : RegAddr := 0x1040
def DIR_PURGE_STATUS : RegAddr := 0x1048
def DIR_PURGE_DONE : RegAddr := 0x1050
def DIR_RLYCFG : RegAddr := 0x1058
def DIR_RLYOVR : RegAddr := 0x1060
def DIR_CMASK : RegAddr := 0x1100
def DIR_RUCTL : RegAddr := 0x1200
def DIR_RUSTATUS : RegAddr := 0x1208
def DIR_RUDOM : RegAddr := 0x1240
def DIR_RUMASK : RegAddr := 0x1400
def YARD_CTL : RegAddr := 0x2000
def YARD_STATUS : RegAddr := 0x2008
def YARD_PEAK : RegAddr := 0x2010
def YARD_TKTCTL : RegAddr := 0x2018
def YARD_TKTSTATUS : RegAddr := 0x2020
def YARD_RETRY : RegAddr := 0x2028
def YARD_TKTERR : RegAddr := 0x2030
def YARD_RESP : RegAddr := 0x2038
def YARD_INSP_SEL : RegAddr := 0x2040
def YARD_INSP0 : RegAddr := 0x2048
def YARD_INSP1 : RegAddr := 0x2050
def YARD_INSP2 : RegAddr := 0x2058
def YARD_INSP3 : RegAddr := 0x2060
def PEN_CTL : RegAddr := 0x2100
def PEN_STATUS : RegAddr := 0x2108
def LED_CTL : RegAddr := 0x3000
def LED_STATUS : RegAddr := 0x3008
def LED_EVENTS : RegAddr := 0x3010
def LED_ABORTS : RegAddr := 0x3018
def LED_LASTABORT : RegAddr := 0x3020
def LED_JBASE : RegAddr := 0x3100
def LED_JSIZE : RegAddr := 0x3108
def LED_JSEQ : RegAddr := 0x3110
def LED_JHEAD : RegAddr := 0x3118
def ALC_CTL : RegAddr := 0x4000
def ALC_STATUS : RegAddr := 0x4008
def ALC_BANKPWR : RegAddr := 0x4010
def ALC_PRELOAD : RegAddr := 0x4018
def ALC_PRESTAT : RegAddr := 0x4020
def ALC_ECC : RegAddr := 0x4028
def ALC_ECC_LOC : RegAddr := 0x4030
def ALC_INSP_SEL : RegAddr := 0x4038
def ALC_INSP : RegAddr := 0x4040
def NP_CTL : RegAddr := 0x5000
def NP_STATUS : RegAddr := 0x5008
def NP_CREDMAX : RegAddr := 0x5010
def NP_CREDNOW : RegAddr := 0x5018
def NP_ERRCNT : RegAddr := 0x5020
def NP_DOORCNT : RegAddr := 0x5028
def MP_CFG : RegAddr := 0x6000
def MP_CTL : RegAddr := 0x6008
def MP_STATUS : RegAddr := 0x6010
def MP_ERR : RegAddr := 0x6018
def MP_ERRLOC : RegAddr := 0x6020
def MP_LAT : RegAddr := 0x6028
def INK_CTL : RegAddr := 0x6100
def INK_STATUS : RegAddr := 0x6108
def INK_PEAK : RegAddr := 0x6110
def INK_ECC : RegAddr := 0x6118
def INK_COMMIT : RegAddr := 0x6120
def CP_CTL : RegAddr := 0x7000
def CP_STATUS : RegAddr := 0x7008
def CP_ERRCNT : RegAddr := 0x7010
def CP_STREAM : RegAddr := 0x7100
def SEC_CTL : RegAddr := 0x8000
def SEC_WORLDCFG : RegAddr := 0x8008
def SEC_REGW : RegAddr := 0x8010
def SEC_VIOL : RegAddr := 0x8018
def SEC_LASTVIOL : RegAddr := 0x8020
def SEC_REGSTAT : RegAddr := 0x8028
def SEC_REGIONA : RegAddr := 0x8100
def SEC_REGIONB : RegAddr := 0x8108
def ISL_CTL : RegAddr := 0x9000
def ISL_PWRREQ : RegAddr := 0x9008
def ISL_PWRSTAT : RegAddr := 0x9010
def ISL_PWREVT : RegAddr := 0x9018
def ISL_RSTCMD : RegAddr := 0x9020
def ISL_RSTSTAT : RegAddr := 0x9028
def ISL_WAKE : RegAddr := 0x9030
def ISL_XOVF : RegAddr := 0x9038
def ISL_PWRWARN : RegAddr := 0x9040
def BOOT_CTL : RegAddr := 0xA000
def BOOT_STATUS : RegAddr := 0xA008
def BOOT_FPINFO : RegAddr := 0xA010
def BOOT_IMGINFO : RegAddr := 0xA018
def BOOT_SECFAIL : RegAddr := 0xA020
def BOOT_MUSTER : RegAddr := 0xA028
def BOOT_TLOAD : RegAddr := 0xA030
def BOOT_TREADY : RegAddr := 0xA038
def BOOT_TMUSTER : RegAddr := 0xA040
def BOOT_DIGEST : RegAddr := 0xA048
def MBX_DB : RegAddr := 0xB000
def MBX_DBSET : RegAddr := 0xB008
def MBX_DBMASK : RegAddr := 0xB010
def MBX_CROSS : RegAddr := 0xB018
def MBX_ERR : RegAddr := 0xB020
def MBX_BIND : RegAddr := 0xB400
def MBX_STAT : RegAddr := 0xB408
def MBX_DATA0 : RegAddr := 0xB410
def MBX_DATA1 : RegAddr := 0xB418
def MBX_DATA2 : RegAddr := 0xB420
def MBX_DATA3 : RegAddr := 0xB428
def RAIL_CTL : RegAddr := 0xC000
def RAIL_WORLD : RegAddr := 0xC008
def RAIL_HELD : RegAddr := 0xC010
def RAIL_FORCE : RegAddr := 0xC018
def RAIL_STAT : RegAddr := 0xC020
def RAIL_LOCK : RegAddr := 0xC100
def NQ_CTL : RegAddr := 0xD000
def NQ_STATUS : RegAddr := 0xD008
def NQ_READ : RegAddr := 0xD010
def NQ_CMD : RegAddr := 0xD018
def NQ_PTR : RegAddr := 0xD020
def NQ_DROP : RegAddr := 0xD028
def NQ_POST : RegAddr := 0xD040
def PMC_CTL : RegAddr := 0x10000
def PMC_STATUS : RegAddr := 0x10008
def PMC_DUMPBASE : RegAddr := 0x10010
def PMC_DUMPSIZE : RegAddr := 0x10018
def PMC_DUMPSEQ : RegAddr := 0x10020
def PMC_DUMPHEAD : RegAddr := 0x10028
def PMC_LASTDUMP : RegAddr := 0x10030
def PMC_REDO : RegAddr := 0x10040
def PMC_FSEL : RegAddr := 0x10080
def PMC_FSCTL : RegAddr := 0x10100
def PMC_FSID : RegAddr := 0x10108
def PMC_FSLO : RegAddr := 0x10110
def PMC_FSHI : RegAddr := 0x10118
def PMC_CNT : RegAddr := 0x10800
def BLOT_CTL : RegAddr := 0x18000
def BLOT_STATUS : RegAddr := 0x18008
def BLOT_PTR : RegAddr := 0x18010
def BLOT_FF : RegAddr := 0x18018
def BLOT_FFTOD : RegAddr := 0x18020
def BLOT_SEL : RegAddr := 0x18028
def BLOT_REC : RegAddr := 0x18030
def RTE_ROUTE : RegAddr := 0x20000
def RTE_CAM : RegAddr := 0x30000
def RTE_EPOCHCTL : RegAddr := 0x32000
def RTE_EPOCHTIME : RegAddr := 0x32008
def RTE_TMO : RegAddr := 0x32010
def RTE_ALIASCMD : RegAddr := 0x32018
def RTE_ALIASSTAT : RegAddr := 0x32020
def RTE_ERRCNT : RegAddr := 0x32028
def RTE_SWAPTGT : RegAddr := 0x32100
def RTE_SWAPRT : RegAddr := 0x32108
end R

/-- The registers of block GLB. -/
def rowsGlb : List RegRow := [
  ⟨R.GLB_ID, 1, 0x8, 0x4C4E51427200, 0x0, [⟨0, 16, .ro⟩, ⟨16, 8, .ro⟩, ⟨24, 8, .ro⟩, ⟨32, 16, .ro⟩]⟩,
  ⟨R.GLB_CAP, 1, 0x8, 0x1002040100110774, 0x0, [⟨0, 3, .ro⟩, ⟨3, 2, .ro⟩, ⟨5, 1, .ro⟩, ⟨6, 1, .ro⟩, ⟨7, 5, .ro⟩, ⟨12, 5, .ro⟩, ⟨17, 4, .ro⟩, ⟨21, 12, .ro⟩, ⟨33, 10, .ro⟩, ⟨43, 7, .ro⟩, ⟨50, 11, .ro⟩]⟩,
  ⟨R.GLB_HOMEID, 1, 0x8, 0x0, 0x18, [⟨0, 18, .rwl⟩, ⟨18, 12, .rwl⟩]⟩,
  ⟨R.GLB_CTL, 1, 0x8, 0x0, 0x0, [⟨63, 1, .w1s⟩]⟩,
  ⟨R.GLB_TOD, 1, 0x8, 0x0, 0x0, [⟨0, 64, .ro⟩]⟩,
  ⟨R.GLB_EVSUM, 1, 0x8, 0x0, 0x0, [⟨0, 1, .ro⟩, ⟨1, 1, .ro⟩, ⟨2, 1, .ro⟩, ⟨3, 1, .ro⟩, ⟨4, 1, .ro⟩, ⟨5, 1, .ro⟩, ⟨6, 1, .ro⟩, ⟨7, 1, .ro⟩, ⟨8, 1, .ro⟩, ⟨9, 1, .ro⟩, ⟨10, 1, .ro⟩, ⟨11, 1, .ro⟩, ⟨12, 1, .ro⟩, ⟨13, 1, .ro⟩, ⟨14, 1, .ro⟩, ⟨15, 1, .ro⟩]⟩,
  ⟨R.GLB_SPERR, 1, 0x8, 0x0, 0x0, [⟨0, 16, .rc⟩, ⟨16, 16, .rc⟩, ⟨32, 16, .rc⟩]⟩,
  ⟨R.GLB_SPLAST, 1, 0x8, 0x0, 0x0, [⟨0, 17, .ro⟩, ⟨17, 10, .ro⟩, ⟨27, 2, .ro⟩, ⟨29, 1, .ro⟩, ⟨30, 1, .ro⟩]⟩,
  ⟨R.GLB_SCRATCH, 8, 0x8, 0x0, 0x0, [⟨0, 64, .rw⟩]⟩,
  ⟨R.GLB_RCVCTL, 1, 0x8, 0x164, 0x0, [⟨0, 8, .rw⟩, ⟨8, 2, .rw⟩, ⟨10, 1, .rw⟩, ⟨63, 1, .w1s⟩]⟩,
  ⟨R.GLB_RCVSTAT, 1, 0x8, 0x0, 0x0, [⟨0, 2, .ro⟩, ⟨2, 5, .ro⟩, ⟨7, 5, .ro⟩, ⟨12, 5, .ro⟩, ⟨17, 1, .w1c⟩, ⟨18, 1, .w1c⟩, ⟨19, 1, .w1c⟩, ⟨20, 1, .w1c⟩, ⟨21, 1, .w1c⟩]⟩,
  ⟨R.GLB_RCVENTRY, 1, 0x8, 0x0, 0x0, [⟨0, 64, .ro⟩]⟩,
  ⟨R.GLB_RCVEXIT, 1, 0x8, 0x0, 0x0, [⟨0, 64, .ro⟩]⟩,
  ⟨R.GLB_FENCECMD, 1, 0x8, 0x0, 0x0, [⟨0, 18, .rw⟩, ⟨18, 2, .rw⟩, ⟨20, 1, .ro⟩, ⟨21, 3, .ro⟩, ⟨24, 1, .w1c⟩, ⟨63, 1, .wo⟩]⟩,
  ⟨R.GLB_FENCE, 16, 0x8, 0x0, 0x0, [⟨0, 18, .ro⟩, ⟨18, 2, .ro⟩, ⟨20, 2, .ro⟩, ⟨22, 3, .ro⟩, ⟨25, 1, .ro⟩]⟩,
  ⟨R.GLB_CHKSTOP, 1, 0x8, 0x0, 0x0, [⟨0, 8, .ro⟩, ⟨8, 3, .ro⟩, ⟨11, 18, .ro⟩, ⟨29, 8, .rc⟩, ⟨37, 3, .ro⟩]⟩,
  ⟨R.GLB_CHKTOD, 1, 0x8, 0x0, 0x0, [⟨0, 64, .ro⟩]⟩,
  ⟨R.GLB_CHKCMD, 1, 0x8, 0x8, 0x0, [⟨0, 8, .rw⟩, ⟨63, 1, .wo⟩]⟩,
  ⟨R.GLB_HOMESET, 1, 0x8, 0x0, 0x400, [⟨0, 9, .rwl⟩, ⟨9, 10, .rwl⟩]⟩,
  ⟨R.GLB_STOPSET, 1, 0x8, 0x0, 0x400, [⟨0, 9, .rwl⟩, ⟨9, 10, .rwl⟩]⟩,
  ⟨R.GLB_SPARECMD, 1, 0x8, 0x0, 0x0, [⟨0, 18, .rw⟩, ⟨18, 18, .rw⟩, ⟨36, 1, .rw⟩, ⟨63, 1, .wo⟩]⟩,
  ⟨R.GLB_BCAST, 1, 0x8, 0x0, 0x0, [⟨0, 1, .ro⟩, ⟨1, 1, .ro⟩, ⟨2, 19, .ro⟩, ⟨21, 19, .ro⟩, ⟨40, 19, .ro⟩, ⟨59, 3, .ro⟩, ⟨62, 1, .w1c⟩]⟩,
  ⟨R.GLB_SRAMERR, 1, 0x8, 0x0, 0x0, [⟨0, 16, .rc⟩, ⟨16, 16, .rc⟩]⟩]

/-- The registers of block DIR. -/
def rowsDir : List RegRow := [
  ⟨R.DIR_CTL, 1, 0x8, 0x0, 0x1000, [⟨0, 1, .rwl⟩, ⟨1, 1, .rwl⟩, ⟨2, 1, .rw⟩, ⟨63, 1, .w1s⟩]⟩,
  ⟨R.DIR_FORMCTL, 1, 0x8, 0x100E, 0x1000, [⟨0, 4, .rwl⟩, ⟨4, 9, .rwl⟩]⟩,
  ⟨R.DIR_STATUS, 1, 0x8, 0x20, 0x0, [⟨0, 1, .ro⟩, ⟨1, 5, .ro⟩]⟩,
  ⟨R.DIR_WAYPWR, 1, 0x8, 0x1, 0x0, [⟨0, 1, .rw⟩, ⟨1, 2, .ro⟩, ⟨3, 1, .w1c⟩]⟩,
  ⟨R.DIR_CLEAN, 1, 0x8, 0x40, 0x0, [⟨0, 7, .rw⟩, ⟨7, 21, .ro⟩]⟩,
  ⟨R.DIR_SCRUB, 1, 0x8, 0x10010, 0x0, [⟨0, 16, .rw⟩, ⟨16, 1, .rw⟩]⟩,
  ⟨R.DIR_ECC_STATUS, 1, 0x8, 0x0, 0x0, [⟨0, 16, .rc⟩, ⟨16, 1, .w1c⟩]⟩,
  ⟨R.DIR_ECC_LOC, 1, 0x8, 0x0, 0x0, [⟨0, 1, .ro⟩, ⟨1, 21, .ro⟩, ⟨22, 1, .ro⟩]⟩,
  ⟨R.DIR_EXT_STATUS, 1, 0x8, 0x20004000, 0x0, [⟨0, 15, .ro⟩, ⟨15, 15, .ro⟩]⟩,
  ⟨R.DIR_PURGE_STATUS, 1, 0x8, 0x0, 0x0, [⟨0, 1, .ro⟩, ⟨1, 5, .ro⟩, ⟨6, 17, .ro⟩]⟩,
  ⟨R.DIR_PURGE_DONE, 1, 0x8, 0x0, 0x0, [⟨0, 64, .ro⟩]⟩,
  ⟨R.DIR_RLYCFG, 1, 0x8, 0x2000, 0x1000, [⟨0, 9, .rwl⟩, ⟨9, 7, .rw⟩]⟩,
  ⟨R.DIR_RLYOVR, 16, 0x8, 0x0, 0x1000, [⟨0, 9, .rwl⟩, ⟨9, 18, .rwl⟩, ⟨27, 1, .rwl⟩]⟩,
  ⟨R.DIR_CMASK, 8, 0x8, 0x0, 0x1000, [⟨0, 64, .rwl⟩]⟩,
  ⟨R.DIR_RUCTL, 1, 0x8, 0x0, 0x1000, [⟨0, 1, .rwl⟩, ⟨1, 18, .rwl⟩]⟩,
  ⟨R.DIR_RUSTATUS, 1, 0x8, 0x0, 0x0, [⟨0, 7, .ro⟩, ⟨7, 1, .w1c⟩, ⟨8, 1, .w1c⟩, ⟨9, 1, .w1c⟩]⟩,
  ⟨R.DIR_RUDOM, 8, 0x8, 0x0, 0x1000, [⟨0, 12, .rwl⟩, ⟨12, 1, .rwl⟩]⟩,
  ⟨R.DIR_RUMASK, 64, 0x8, 0x0, 0x1000, [⟨0, 64, .rwl⟩]⟩]

/-- The registers of block YARD. -/
def rowsYard : List RegRow := [
  ⟨R.YARD_CTL, 1, 0x8, 0x40, 0x2000, [⟨0, 7, .rwl⟩, ⟨63, 1, .w1s⟩]⟩,
  ⟨R.YARD_STATUS, 1, 0x8, 0x102040700, 0x0, [⟨0, 11, .ro⟩, ⟨11, 8, .ro⟩, ⟨19, 7, .ro⟩, ⟨26, 7, .ro⟩, ⟨33, 4, .ro⟩]⟩,
  ⟨R.YARD_PEAK, 1, 0x8, 0x0, 0x0, [⟨0, 11, .rc⟩, ⟨11, 8, .rc⟩, ⟨19, 7, .rc⟩, ⟨26, 7, .rc⟩]⟩,
  ⟨R.YARD_TKTCTL, 1, 0x8, 0x8200810, 0x0, [⟨0, 8, .rw⟩, ⟨8, 8, .rw⟩, ⟨16, 8, .rw⟩, ⟨24, 6, .rw⟩]⟩,
  ⟨R.YARD_TKTSTATUS, 1, 0x8, 0x0, 0x0, [⟨0, 9, .ro⟩, ⟨9, 9, .ro⟩]⟩,
  ⟨R.YARD_RETRY, 1, 0x8, 0x0, 0x0, [⟨0, 16, .rc⟩, ⟨16, 16, .rc⟩, ⟨32, 16, .rc⟩, ⟨48, 16, .rc⟩]⟩,
  ⟨R.YARD_TKTERR, 1, 0x8, 0x0, 0x0, [⟨0, 16, .rc⟩, ⟨16, 16, .rc⟩]⟩,
  ⟨R.YARD_RESP, 1, 0x8, 0x0, 0x0, [⟨0, 24, .rc⟩, ⟨24, 24, .rc⟩]⟩,
  ⟨R.YARD_INSP_SEL, 1, 0x8, 0x0, 0x0, [⟨0, 11, .rw⟩]⟩,
  ⟨R.YARD_INSP0, 1, 0x8, 0x0, 0x0, [⟨0, 3, .ro⟩, ⟨3, 2, .ro⟩, ⟨5, 6, .ro⟩, ⟨11, 3, .ro⟩, ⟨14, 1, .ro⟩, ⟨15, 18, .ro⟩, ⟨33, 12, .ro⟩, ⟨45, 1, .ro⟩, ⟨46, 4, .ro⟩, ⟨50, 2, .ro⟩]⟩,
  ⟨R.YARD_INSP1, 1, 0x8, 0x0, 0x0, [⟨0, 34, .ro⟩]⟩,
  ⟨R.YARD_INSP2, 1, 0x8, 0x0, 0x0, [⟨0, 10, .ro⟩, ⟨10, 1, .ro⟩, ⟨11, 1, .ro⟩, ⟨12, 1, .ro⟩, ⟨13, 1, .ro⟩, ⟨14, 11, .ro⟩, ⟨25, 1, .ro⟩, ⟨26, 9, .ro⟩, ⟨35, 1, .ro⟩]⟩,
  ⟨R.YARD_INSP3, 1, 0x8, 0x0, 0x0, [⟨0, 64, .ro⟩]⟩]

/-- The registers of block PEN. -/
def rowsPen : List RegRow := [
  ⟨R.PEN_CTL, 1, 0x8, 0x7D, 0x0, [⟨0, 12, .rw⟩]⟩,
  ⟨R.PEN_STATUS, 1, 0x8, 0x0, 0x0, [⟨0, 10, .ro⟩, ⟨10, 10, .ro⟩, ⟨20, 10, .ro⟩, ⟨30, 10, .ro⟩, ⟨40, 10, .ro⟩, ⟨50, 10, .rc⟩]⟩]

/-- The registers of block LED. -/
def rowsLed : List RegRow := [
  ⟨R.LED_CTL, 1, 0x8, 0x0, 0x0, [⟨0, 1, .rw⟩, ⟨1, 1, .rw⟩, ⟨63, 1, .w1s⟩]⟩,
  ⟨R.LED_STATUS, 1, 0x8, 0x1, 0x0, [⟨0, 1, .ro⟩, ⟨1, 4, .ro⟩, ⟨5, 7, .ro⟩]⟩,
  ⟨R.LED_EVENTS, 1, 0x8, 0x0, 0x0, [⟨0, 8, .w1c⟩, ⟨8, 8, .w1c⟩, ⟨16, 8, .w1c⟩]⟩,
  ⟨R.LED_ABORTS, 1, 0x8, 0x0, 0x0, [⟨0, 16, .rc⟩, ⟨16, 16, .rc⟩, ⟨32, 16, .rc⟩, ⟨48, 16, .rc⟩]⟩,
  ⟨R.LED_LASTABORT, 1, 0x8, 0x0, 0x0, [⟨0, 18, .ro⟩, ⟨18, 12, .ro⟩, ⟨30, 4, .ro⟩, ⟨34, 3, .ro⟩, ⟨37, 1, .ro⟩, ⟨38, 1, .ro⟩]⟩,
  ⟨R.LED_JBASE, 8, 0x20, 0x0, 0x3000, [⟨0, 52, .rwl⟩, ⟨63, 1, .rwl⟩]⟩,
  ⟨R.LED_JSIZE, 8, 0x20, 0x0, 0x3000, [⟨0, 21, .rwl⟩]⟩,
  ⟨R.LED_JSEQ, 8, 0x20, 0x0, 0x0, [⟨0, 48, .ro⟩]⟩,
  ⟨R.LED_JHEAD, 8, 0x20, 0x0, 0x0, [⟨0, 48, .rw⟩]⟩]

/-- The registers of block ALC. -/
def rowsAlc : List RegRow := [
  ⟨R.ALC_CTL, 1, 0x8, 0x0, 0x0, [⟨0, 1, .rw⟩, ⟨1, 2, .ro⟩, ⟨3, 1, .wo⟩]⟩,
  ⟨R.ALC_STATUS, 1, 0x8, 0x0, 0x0, [⟨0, 1, .ro⟩, ⟨1, 3, .ro⟩, ⟨4, 1, .w1c⟩, ⟨5, 7, .ro⟩, ⟨12, 7, .ro⟩, ⟨19, 7, .ro⟩, ⟨26, 7, .ro⟩]⟩,
  ⟨R.ALC_BANKPWR, 1, 0x8, 0xFF, 0x0, [⟨0, 8, .rw⟩, ⟨8, 16, .ro⟩, ⟨24, 8, .w1c⟩]⟩,
  ⟨R.ALC_PRELOAD, 1, 0x8, 0x0, 0x0, [⟨0, 52, .rw⟩, ⟨52, 2, .rw⟩, ⟨63, 1, .wo⟩]⟩,
  ⟨R.ALC_PRESTAT, 1, 0x8, 0x0, 0x0, [⟨0, 1, .ro⟩, ⟨1, 3, .ro⟩, ⟨4, 1, .w1c⟩, ⟨5, 6, .ro⟩]⟩,
  ⟨R.ALC_ECC, 1, 0x8, 0x0, 0x0, [⟨0, 16, .rc⟩, ⟨16, 16, .rc⟩, ⟨32, 16, .rc⟩, ⟨48, 1, .w1c⟩]⟩,
  ⟨R.ALC_ECC_LOC, 1, 0x8, 0x0, 0x0, [⟨0, 6, .ro⟩, ⟨6, 5, .ro⟩, ⟨11, 1, .ro⟩, ⟨12, 1, .ro⟩, ⟨13, 1, .ro⟩]⟩,
  ⟨R.ALC_INSP_SEL, 1, 0x8, 0x0, 0x0, [⟨0, 6, .rw⟩]⟩,
  ⟨R.ALC_INSP, 1, 0x8, 0x0, 0x0, [⟨0, 34, .ro⟩, ⟨34, 1, .ro⟩, ⟨35, 1, .ro⟩, ⟨36, 1, .ro⟩, ⟨37, 1, .ro⟩, ⟨38, 1, .ro⟩, ⟨39, 1, .ro⟩]⟩]

/-- The registers of block NP. -/
def rowsNp : List RegRow := [
  ⟨R.NP_CTL, 4, 0x400, 0x88, 0x0, [⟨0, 7, .rw⟩, ⟨7, 1, .rw⟩, ⟨8, 1, .ro⟩]⟩,
  ⟨R.NP_STATUS, 4, 0x400, 0x0, 0x0, [⟨0, 2, .ro⟩, ⟨2, 1, .ro⟩, ⟨3, 1, .ro⟩]⟩,
  ⟨R.NP_CREDMAX, 4, 0x400, 0x890821060, 0x0, [⟨0, 7, .rw⟩, ⟨7, 6, .rw⟩, ⟨13, 5, .rw⟩, ⟨18, 6, .rw⟩, ⟨24, 8, .rw⟩, ⟨32, 4, .rw⟩]⟩,
  ⟨R.NP_CREDNOW, 4, 0x400, 0x0, 0x0, [⟨0, 7, .ro⟩, ⟨7, 6, .ro⟩, ⟨13, 5, .ro⟩, ⟨18, 6, .ro⟩, ⟨24, 8, .ro⟩, ⟨32, 4, .ro⟩]⟩,
  ⟨R.NP_ERRCNT, 4, 0x400, 0x0, 0x0, [⟨0, 16, .rc⟩, ⟨16, 16, .rc⟩, ⟨32, 16, .rc⟩, ⟨48, 16, .rc⟩]⟩,
  ⟨R.NP_DOORCNT, 4, 0x400, 0x0, 0x0, [⟨0, 32, .rc⟩, ⟨32, 16, .rc⟩]⟩]

/-- The registers of block MP. -/
def rowsMp : List RegRow := [
  ⟨R.MP_CFG, 2, 0x80, 0x4040000000, 0x6100, [⟨0, 1, .rwl⟩, ⟨1, 26, .rwl⟩, ⟨27, 8, .rw⟩, ⟨35, 8, .rw⟩]⟩,
  ⟨R.MP_CTL, 2, 0x80, 0x0, 0x0, [⟨0, 1, .w1s⟩, ⟨1, 1, .wo⟩]⟩,
  ⟨R.MP_STATUS, 2, 0x80, 0x0, 0x0, [⟨0, 3, .ro⟩, ⟨3, 7, .ro⟩, ⟨10, 6, .ro⟩, ⟨16, 26, .ro⟩]⟩,
  ⟨R.MP_ERR, 2, 0x80, 0x0, 0x0, [⟨0, 16, .rc⟩, ⟨16, 16, .rc⟩, ⟨32, 16, .rc⟩, ⟨48, 8, .rc⟩, ⟨56, 8, .rc⟩]⟩,
  ⟨R.MP_ERRLOC, 2, 0x80, 0x0, 0x0, [⟨0, 33, .ro⟩, ⟨33, 5, .ro⟩, ⟨38, 1, .ro⟩, ⟨39, 1, .ro⟩]⟩,
  ⟨R.MP_LAT, 2, 0x80, 0x0, 0x0, [⟨0, 24, .rc⟩, ⟨24, 24, .rc⟩]⟩]

/-- The registers of block INK. -/
def rowsInk : List RegRow := [
  ⟨R.INK_CTL, 1, 0x8, 0x2080, 0x0, [⟨0, 9, .rw⟩, ⟨9, 7, .rw⟩, ⟨63, 1, .w1s⟩]⟩,
  ⟨R.INK_STATUS, 1, 0x8, 0x0, 0x0, [⟨0, 10, .ro⟩, ⟨10, 10, .ro⟩, ⟨20, 10, .ro⟩, ⟨30, 1, .ro⟩, ⟨31, 1, .ro⟩, ⟨32, 1, .ro⟩, ⟨33, 1, .ro⟩, ⟨34, 1, .ro⟩]⟩,
  ⟨R.INK_PEAK, 1, 0x8, 0x0, 0x0, [⟨0, 10, .rc⟩, ⟨10, 32, .rc⟩]⟩,
  ⟨R.INK_ECC, 1, 0x8, 0x0, 0x0, [⟨0, 16, .rc⟩, ⟨16, 16, .rc⟩, ⟨32, 1, .w1c⟩]⟩,
  ⟨R.INK_COMMIT, 1, 0x8, 0x0, 0x0, [⟨0, 24, .rc⟩, ⟨24, 24, .rc⟩]⟩]

/-- The registers of block CP. -/
def rowsCp : List RegRow := [
  ⟨R.CP_CTL, 1, 0x8, 0x1, 0x0, [⟨0, 1, .rw⟩]⟩,
  ⟨R.CP_STATUS, 1, 0x8, 0x0, 0x0, [⟨0, 2, .ro⟩, ⟨2, 7, .ro⟩, ⟨9, 1, .w1c⟩]⟩,
  ⟨R.CP_ERRCNT, 1, 0x8, 0x0, 0x0, [⟨0, 16, .rc⟩, ⟨16, 16, .rc⟩, ⟨32, 16, .rc⟩, ⟨48, 16, .rc⟩]⟩,
  ⟨R.CP_STREAM, 64, 0x8, 0xFFFF0000, 0x0, [⟨0, 16, .ro⟩, ⟨16, 16, .ro⟩, ⟨32, 9, .ro⟩, ⟨41, 16, .rw⟩, ⟨63, 1, .wo⟩]⟩]

/-- The registers of block SEC. -/
def rowsSec : List RegRow := [
  ⟨R.SEC_CTL, 1, 0x8, 0x1, 0x0, [⟨0, 1, .rw⟩, ⟨63, 1, .w1s⟩]⟩,
  ⟨R.SEC_WORLDCFG, 1, 0x8, 0x0, 0x8000, [⟨0, 4, .rwl⟩, ⟨4, 1, .rwl⟩, ⟨5, 1, .rwl⟩]⟩,
  ⟨R.SEC_REGW, 1, 0x8, 0x1FFFF, 0x8000, [⟨0, 8, .rwl⟩, ⟨8, 1, .ro⟩, ⟨9, 1, .rwl⟩, ⟨10, 1, .ro⟩, ⟨11, 6, .rwl⟩]⟩,
  ⟨R.SEC_VIOL, 1, 0x8, 0x0, 0x0, [⟨0, 16, .rc⟩, ⟨16, 16, .rc⟩, ⟨32, 16, .rc⟩, ⟨48, 16, .rc⟩]⟩,
  ⟨R.SEC_LASTVIOL, 1, 0x8, 0x0, 0x0, [⟨0, 3, .ro⟩, ⟨3, 3, .ro⟩, ⟨6, 18, .ro⟩, ⟨24, 1, .ro⟩]⟩,
  ⟨R.SEC_REGSTAT, 1, 0x8, 0x0, 0x0, [⟨0, 6, .ro⟩, ⟨6, 3, .ro⟩, ⟨9, 1, .w1c⟩, ⟨10, 7, .ro⟩]⟩,
  ⟨R.SEC_REGIONA, 64, 0x10, 0x0, 0x8000, [⟨0, 44, .rwl⟩, ⟨44, 1, .rwl⟩, ⟨45, 1, .rwl⟩, ⟨46, 1, .rwl⟩]⟩,
  ⟨R.SEC_REGIONB, 64, 0x10, 0x0, 0x8000, [⟨0, 27, .rwl⟩, ⟨27, 26, .rwl⟩]⟩]

/-- The registers of block ISL. -/
def rowsIsl : List RegRow := [
  ⟨R.ISL_CTL, 1, 0x8, 0x20000, 0x9000, [⟨0, 11, .rwl⟩, ⟨11, 16, .rwl⟩, ⟨63, 1, .w1s⟩]⟩,
  ⟨R.ISL_PWRREQ, 1, 0x8, 0xFF, 0x0, [⟨0, 8, .rw⟩]⟩,
  ⟨R.ISL_PWRSTAT, 1, 0x8, 0x0, 0x0, [⟨0, 33, .ro⟩]⟩,
  ⟨R.ISL_PWREVT, 1, 0x8, 0x0, 0x0, [⟨0, 8, .w1c⟩, ⟨8, 1, .w1c⟩, ⟨9, 4, .ro⟩, ⟨13, 3, .ro⟩]⟩,
  ⟨R.ISL_RSTCMD, 1, 0x8, 0x0, 0x0, [⟨0, 1, .rw⟩, ⟨1, 4, .rw⟩, ⟨63, 1, .wo⟩]⟩,
  ⟨R.ISL_RSTSTAT, 1, 0x8, 0x0, 0x0, [⟨0, 1, .ro⟩, ⟨1, 7, .ro⟩, ⟨8, 2, .ro⟩, ⟨10, 16, .rc⟩]⟩,
  ⟨R.ISL_WAKE, 1, 0x8, 0x3E8, 0x0, [⟨0, 10, .rw⟩, ⟨10, 16, .rc⟩, ⟨26, 4, .ro⟩]⟩,
  ⟨R.ISL_XOVF, 1, 0x8, 0x0, 0x0, [⟨0, 11, .w1c⟩]⟩,
  ⟨R.ISL_PWRWARN, 1, 0x8, 0x0, 0x0, [⟨0, 1, .ro⟩, ⟨1, 1, .ro⟩, ⟨2, 16, .rc⟩, ⟨18, 24, .ro⟩]⟩]

/-- The registers of block BOOT. -/
def rowsBoot : List RegRow := [
  ⟨R.BOOT_CTL, 1, 0x8, 0x0, 0x0, [⟨0, 1, .w1s⟩, ⟨1, 1, .wo⟩, ⟨63, 1, .w1s⟩]⟩,
  ⟨R.BOOT_STATUS, 1, 0x8, 0x0, 0x0, [⟨0, 4, .ro⟩, ⟨4, 4, .ro⟩, ⟨8, 4, .ro⟩, ⟨12, 1, .ro⟩, ⟨13, 1, .ro⟩, ⟨14, 1, .ro⟩, ⟨15, 1, .w1c⟩]⟩,
  ⟨R.BOOT_FPINFO, 1, 0x8, 0x0, 0x0, [⟨0, 24, .ro⟩, ⟨24, 5, .ro⟩, ⟨29, 1, .ro⟩, ⟨30, 1, .ro⟩, ⟨31, 3, .ro⟩, ⟨34, 1, .ro⟩]⟩,
  ⟨R.BOOT_IMGINFO, 1, 0x8, 0x0, 0x0, [⟨0, 19, .ro⟩, ⟨19, 6, .ro⟩, ⟨25, 32, .ro⟩]⟩,
  ⟨R.BOOT_SECFAIL, 1, 0x8, 0x0, 0x0, [⟨0, 5, .ro⟩, ⟨5, 1, .ro⟩, ⟨6, 32, .ro⟩]⟩,
  ⟨R.BOOT_MUSTER, 1, 0x8, 0x1902816419, 0xA000, [⟨0, 8, .rwl⟩, ⟨8, 8, .rwl⟩, ⟨16, 1, .rwl⟩, ⟨17, 5, .rwl⟩, ⟨22, 8, .rwl⟩, ⟨30, 8, .rwl⟩]⟩,
  ⟨R.BOOT_TLOAD, 1, 0x8, 0x0, 0x0, [⟨0, 64, .ro⟩]⟩,
  ⟨R.BOOT_TREADY, 1, 0x8, 0x0, 0x0, [⟨0, 64, .ro⟩]⟩,
  ⟨R.BOOT_TMUSTER, 1, 0x8, 0x0, 0x0, [⟨0, 64, .ro⟩]⟩,
  ⟨R.BOOT_DIGEST, 4, 0x8, 0x0, 0x0, [⟨0, 64, .ro⟩]⟩]

/-- The registers of block MBX. -/
def rowsMbx : List RegRow := [
  ⟨R.MBX_DB, 1, 0x8, 0x0, 0x0, [⟨0, 32, .w1c⟩]⟩,
  ⟨R.MBX_DBSET, 1, 0x8, 0x0, 0x0, [⟨0, 32, .w1s⟩]⟩,
  ⟨R.MBX_DBMASK, 1, 0x8, 0x0, 0x0, [⟨0, 32, .rw⟩]⟩,
  ⟨R.MBX_CROSS, 1, 0x8, 0x0, 0x0, [⟨0, 32, .ro⟩, ⟨32, 32, .w1c⟩]⟩,
  ⟨R.MBX_ERR, 1, 0x8, 0x0, 0x0, [⟨0, 16, .rc⟩, ⟨16, 16, .rc⟩, ⟨32, 1, .w1c⟩, ⟨33, 5, .ro⟩]⟩,
  ⟨R.MBX_BIND, 32, 0x40, 0x0, 0x0, [⟨0, 10, .rwl⟩, ⟨10, 10, .rwl⟩, ⟨20, 1, .rwl⟩, ⟨21, 5, .rwl⟩, ⟨26, 1, .rwl⟩, ⟨27, 1, .rwl⟩, ⟨63, 1, .rwl⟩]⟩,
  ⟨R.MBX_STAT, 32, 0x40, 0x0, 0x0, [⟨0, 1, .ro⟩, ⟨1, 1, .w1c⟩, ⟨2, 1, .w1c⟩, ⟨3, 1, .w1c⟩, ⟨4, 1, .ro⟩]⟩,
  ⟨R.MBX_DATA0, 32, 0x40, 0x0, 0x0, [⟨0, 64, .rw⟩]⟩,
  ⟨R.MBX_DATA1, 32, 0x40, 0x0, 0x0, [⟨0, 64, .rw⟩]⟩,
  ⟨R.MBX_DATA2, 32, 0x40, 0x0, 0x0, [⟨0, 64, .rw⟩]⟩,
  ⟨R.MBX_DATA3, 32, 0x40, 0x0, 0x0, [⟨0, 64, .rw⟩]⟩]

/-- The registers of block RAIL. -/
def rowsRail : List RegRow := [
  ⟨R.RAIL_CTL, 1, 0x8, 0x1, 0x0, [⟨0, 1, .rw⟩, ⟨63, 1, .w1s⟩]⟩,
  ⟨R.RAIL_WORLD, 1, 0x8, 0xFFFFFFFFFFFFFFFF, 0xC000, [⟨0, 64, .rwl⟩]⟩,
  ⟨R.RAIL_HELD, 1, 0x8, 0x0, 0x0, [⟨0, 64, .ro⟩]⟩,
  ⟨R.RAIL_FORCE, 1, 0x8, 0x0, 0x0, [⟨0, 6, .rw⟩, ⟨63, 1, .wo⟩]⟩,
  ⟨R.RAIL_STAT, 1, 0x8, 0x0, 0x0, [⟨0, 16, .rc⟩, ⟨16, 16, .rc⟩, ⟨32, 16, .rc⟩]⟩,
  ⟨R.RAIL_LOCK, 64, 0x8, 0x1000, 0x0, [⟨0, 10, .ro⟩, ⟨10, 1, .ro⟩, ⟨11, 1, .ro⟩, ⟨12, 1, .ro⟩, ⟨13, 1, .ro⟩, ⟨63, 1, .wo⟩]⟩]

/-- The registers of block NQ. -/
def rowsNq : List RegRow := [
  ⟨R.NQ_CTL, 1, 0x8, 0x800, 0xD000, [⟨0, 10, .rwl⟩, ⟨10, 1, .rw⟩, ⟨11, 11, .rw⟩, ⟨63, 1, .w1s⟩]⟩,
  ⟨R.NQ_STATUS, 1, 0x8, 0x200000, 0x0, [⟨0, 11, .ro⟩, ⟨11, 11, .ro⟩, ⟨22, 1, .ro⟩, ⟨23, 1, .ro⟩, ⟨24, 1, .w1c⟩, ⟨25, 1, .w1c⟩, ⟨26, 1, .w1c⟩]⟩,
  ⟨R.NQ_READ, 1, 0x8, 0x0, 0x0, [⟨0, 64, .ro⟩]⟩,
  ⟨R.NQ_CMD, 1, 0x8, 0x0, 0x0, [⟨0, 2, .rw⟩, ⟨63, 1, .wo⟩]⟩,
  ⟨R.NQ_PTR, 1, 0x8, 0x0, 0x0, [⟨0, 16, .ro⟩, ⟨16, 16, .ro⟩, ⟨32, 16, .ro⟩, ⟨48, 16, .ro⟩]⟩,
  ⟨R.NQ_DROP, 1, 0x8, 0x0, 0x0, [⟨0, 16, .rc⟩, ⟨16, 16, .rc⟩, ⟨32, 16, .rc⟩]⟩,
  ⟨R.NQ_POST, 4, 0x8, 0x0, 0x0, [⟨0, 64, .rw⟩]⟩]

/-- The registers of block PMC. -/
def rowsPmc : List RegRow := [
  ⟨R.PMC_CTL, 1, 0x8, 0x7D0, 0x0, [⟨0, 1, .rw⟩, ⟨1, 20, .rw⟩, ⟨21, 1, .wo⟩]⟩,
  ⟨R.PMC_STATUS, 1, 0x8, 0x0, 0x0, [⟨0, 1, .ro⟩, ⟨1, 1, .ro⟩, ⟨2, 1, .w1c⟩, ⟨3, 16, .rc⟩]⟩,
  ⟨R.PMC_DUMPBASE, 1, 0x8, 0x0, 0x0, [⟨0, 52, .rw⟩]⟩,
  ⟨R.PMC_DUMPSIZE, 1, 0x8, 0x0, 0x0, [⟨0, 17, .rw⟩]⟩,
  ⟨R.PMC_DUMPSEQ, 1, 0x8, 0x0, 0x0, [⟨0, 48, .ro⟩]⟩,
  ⟨R.PMC_DUMPHEAD, 1, 0x8, 0x0, 0x0, [⟨0, 48, .rw⟩]⟩,
  ⟨R.PMC_LASTDUMP, 1, 0x8, 0x0, 0x0, [⟨0, 64, .ro⟩]⟩,
  ⟨R.PMC_REDO, 4, 0x8, 0x0, 0x0, [⟨0, 64, .w1c⟩]⟩,
  ⟨R.PMC_FSEL, 16, 0x8, 0x0, 0x0, [⟨0, 64, .rw⟩]⟩,
  ⟨R.PMC_FSCTL, 8, 0x20, 0x7FFD, 0x0, [⟨0, 2, .rw⟩, ⟨2, 6, .rw⟩, ⟨8, 7, .rw⟩, ⟨15, 1, .rw⟩, ⟨16, 1, .rw⟩]⟩,
  ⟨R.PMC_FSID, 8, 0x20, 0x0, 0x0, [⟨0, 18, .rw⟩, ⟨18, 18, .rw⟩]⟩,
  ⟨R.PMC_FSLO, 8, 0x20, 0x0, 0x0, [⟨0, 52, .rw⟩]⟩,
  ⟨R.PMC_FSHI, 8, 0x20, 0x0, 0x0, [⟨0, 52, .rw⟩]⟩,
  ⟨R.PMC_CNT, 256, 0x8, 0x0, 0x0, [⟨0, 56, .ro⟩]⟩]

/-- The registers of block BLOT. -/
def rowsBlot : List RegRow := [
  ⟨R.BLOT_CTL, 1, 0x8, 0xFF, 0x0, [⟨0, 12, .rw⟩, ⟨12, 1, .rw⟩, ⟨63, 1, .wo⟩]⟩,
  ⟨R.BLOT_STATUS, 1, 0x8, 0x0, 0x0, [⟨0, 1, .ro⟩, ⟨1, 16, .rc⟩, ⟨17, 16, .rc⟩, ⟨33, 4, .ro⟩]⟩,
  ⟨R.BLOT_PTR, 1, 0x8, 0x0, 0x0, [⟨0, 12, .ro⟩, ⟨12, 13, .ro⟩, ⟨25, 32, .ro⟩]⟩,
  ⟨R.BLOT_FF, 1, 0x8, 0x0, 0x0, [⟨0, 12, .ro⟩, ⟨12, 1, .w1c⟩, ⟨13, 32, .ro⟩]⟩,
  ⟨R.BLOT_FFTOD, 1, 0x8, 0x0, 0x0, [⟨0, 64, .ro⟩]⟩,
  ⟨R.BLOT_SEL, 1, 0x8, 0x0, 0x0, [⟨0, 12, .rw⟩]⟩,
  ⟨R.BLOT_REC, 4, 0x8, 0x0, 0x0, [⟨0, 64, .ro⟩]⟩]

/-- The cluster and intra-cluster route entries of port n and epoch e (R240), at 0x2000 × (2 n + e): [53:52] is PREF of a
cluster entry and Reserved in an intra-cluster entry. -/
def rowsRoute : List RegRow :=
  (List.range 8).map (fun j => ⟨R.RTE_ROUTE + 0x2000 * j, 512, 0x8, 0x0, 0x0, [⟨0, 48, .rw⟩, ⟨48, 4, .rw⟩, ⟨52, 2, .rw⟩, ⟨63, 1, .rw⟩]⟩) ++
  (List.range 8).map (fun j => ⟨R.RTE_ROUTE + 0x1000 + 0x2000 * j, 512, 0x8, 0x0, 0x0, [⟨0, 48, .rw⟩, ⟨48, 4, .rw⟩, ⟨63, 1, .rw⟩]⟩)

/-- The registers of block RTE. -/
def rowsRte : List RegRow := [
  ⟨R.RTE_CAM, 1024, 0x8, 0x0, 0x0, [⟨0, 18, .ro⟩, ⟨18, 18, .ro⟩, ⟨36, 1, .ro⟩]⟩,
  ⟨R.RTE_EPOCHCTL, 1, 0x8, 0x0, 0x32000, [⟨0, 1, .ro⟩, ⟨1, 1, .wo⟩, ⟨2, 2, .ro⟩, ⟨4, 3, .ro⟩, ⟨7, 1, .rwl⟩, ⟨8, 1, .w1c⟩, ⟨9, 1, .w1c⟩, ⟨10, 1, .w1c⟩, ⟨63, 1, .w1s⟩]⟩,
  ⟨R.RTE_EPOCHTIME, 1, 0x8, 0x84010, 0x0, [⟨0, 8, .rw⟩, ⟨8, 8, .rw⟩, ⟨16, 4, .rw⟩]⟩,
  ⟨R.RTE_TMO, 1, 0x8, 0x8, 0x0, [⟨0, 7, .rw⟩]⟩,
  ⟨R.RTE_ALIASCMD, 1, 0x8, 0x0, 0x0, [⟨0, 18, .rw⟩, ⟨18, 18, .rw⟩, ⟨36, 1, .rw⟩, ⟨63, 1, .wo⟩]⟩,
  ⟨R.RTE_ALIASSTAT, 1, 0x8, 0x0, 0x0, [⟨0, 1, .ro⟩, ⟨1, 3, .ro⟩, ⟨4, 1, .w1c⟩, ⟨5, 10, .ro⟩, ⟨15, 11, .ro⟩]⟩,
  ⟨R.RTE_ERRCNT, 1, 0x8, 0x0, 0x0, [⟨0, 16, .rc⟩, ⟨16, 16, .rc⟩, ⟨32, 16, .rc⟩]⟩,
  ⟨R.RTE_SWAPTGT, 64, 0x10, 0x0, 0x0, [⟨0, 18, .rw⟩, ⟨18, 1, .rw⟩, ⟨19, 1, .ro⟩]⟩,
  ⟨R.RTE_SWAPRT, 64, 0x10, 0x0, 0x0, [⟨0, 48, .rw⟩, ⟨48, 4, .rw⟩]⟩]

/-- Every register and array of the window. -/
def regRows : List RegRow :=
  rowsGlb ++ rowsDir ++ rowsYard ++ rowsPen ++ rowsLed ++ rowsAlc ++ rowsNp ++ rowsMp ++ rowsInk ++ rowsCp ++ rowsSec ++ rowsIsl ++ rowsBoot ++ rowsMbx ++ rowsRail ++ rowsNq ++ rowsPmc ++ rowsBlot ++ rowsRoute ++ rowsRte

/-- The row holds the register at a byte address. -/
def RegRow.has (r : RegRow) (a : Nat) : Bool :=
  decide (r.addr ≤ a) && (a - r.addr) % r.stride == 0 && decide ((a - r.addr) / r.stride < r.count)

/-- The row of the register at a byte address; none for a slot that holds no register (R22). -/
def regRow (a : Nat) : Option RegRow := regRows.find? (fun r => r.has a)

/-- The value of a register at reset (R23); zero where the address holds no register (R22). -/
def regReset (a : Nat) : Word := match regRow a with | some r => BitVec.ofNat 64 r.reset | none => 0
/-- The value of slot `k` of the window at reset (R23). -/
def slotReset (k : Nat) : Word := regReset (8 * k)

end Sys2Proof.Machine
end

