-- ==== Sys2Proof/Machine/Ops.lean ====
section
/-! DEFINITION. The named operations every meaning uses: registers and fields (R13-R20), performance events (R437-R442),
blotter records (R449-R451), notices (R426), the region table (R261), directory indexing (R88-R90), and the conditions
that hold over the whole block (checkstop, recovery, phase). -/

namespace Sys2Proof.Machine

/-- The stored value of the register at a byte address. -/
def State.reg (s : State) (a : Nat) : Word := (SMap.find s.win (a / 8)).getD (slotReset (a / 8))

/-- A register written by hardware: a slot that returns to its reset value is no longer listed. -/
def State.setReg (s : State) (a : Nat) (v : Word) : State :=
  { s with win := if v = slotReset (a / 8) then SMap.del s.win (a / 8) else SMap.put s.win (a / 8) v }

/-- The field of width `w` at bit `lo` of a register. -/
def State.fld (s : State) (a lo w : Nat) : Nat := getBits (s.reg a) lo w
/-- A field written by hardware. -/
def State.setFld (s : State) (a lo w v : Nat) : State := s.setReg a (setBits (s.reg a) lo w v)
/-- A counting field raised, holding at its greatest value. -/
def State.addFld (s : State) (a lo w n : Nat) : State := s.setFld a lo w (satAdd w (s.fld a lo w) n)
/-- A field that holds a greatest value (R20). -/
def State.maxFld (s : State) (a lo w n : Nat) : State := s.setFld a lo w (max (s.fld a lo w) (min n (2 ^ w - 1)))
/-- Bit `b` of a register. -/
def State.flag (s : State) (a b : Nat) : Bool := s.fld a b 1 == 1
/-- A bit written by hardware. -/
def State.setFlag (s : State) (a b : Nat) (v : Bool) : State := s.setFld a b 1 (b2n v)

/-- The base of a network port's registers (R259). -/
def npBase (r : RegAddr) (n : Nat) : Nat := r + 0x400 * n
/-- The base of a memory port's registers (R292). -/
def mpBase (r : RegAddr) (n : Nat) : Nat := r + 0x80 * n

/-- The home endpoint ID (R463). -/
def State.homeId (s : State) : EpId := BitVec.ofNat 18 (s.fld R.GLB_HOMEID 0 18)
/-- The coherence domain (R463). -/
def State.domain (s : State) : BitVec 12 := BitVec.ofNat 12 (s.fld R.GLB_HOMEID 18 12)
/-- The domain is in checkstop (R336): GLB.CHKSTOP.SRC records a declaration. -/
def State.chk (s : State) : Bool := s.fld R.GLB_CHKSTOP 8 3 != 0
/-- The recorded cause of the checkstop. -/
def State.chkCause (s : State) : Nat := s.fld R.GLB_CHKSTOP 0 8
/-- PHASE of start-up (R375). -/
def State.phase (s : State) : Nat := s.fld R.BOOT_STATUS 0 4
/-- From READY onwards in the sense of R375. -/
def State.fromReady (s : State) : Bool := s.phase == 6 || s.phase == 7 || s.phase == 8
/-- TK_PWR_WARN is asserted (R371). -/
def State.warn (s : State) : Bool := s.flag R.ISL_PWRWARN 0
/-- The power state of an island (R366). -/
def State.isl (s : State) (i : Nat) : Nat := s.fld R.ISL_PWRSTAT (3 * i) 3
/-- The link state of a network port (R256), or of the CP for index 4 (R493). -/
def State.link (s : State) (n : Nat) : Nat :=
  if n = 4 then s.fld R.CP_STATUS 0 2 else s.fld (npBase R.NP_STATUS n) 0 2
/-- The link state written. -/
def State.setLink (s : State) (n v : Nat) : State :=
  if n = 4 then s.setFld R.CP_STATUS 0 2 v else s.setFld (npBase R.NP_STATUS n) 0 2 v
/-- Muster has opened the port (R399). -/
def State.isOpen (s : State) (n : Nat) : Bool := s.flag (npBase R.NP_CTL n) 8
/-- State of memory port `n` (R292): 0 ABSENT, 1 RUN, 2 FAILED, 3 RESET, 4 RESYNC. -/
def State.mpState (s : State) (n : Nat) : Nat := s.fld (mpBase R.MP_STATUS n) 0 3
/-- State of the ALC (R228): 0 OFF, 1 ON, 2 DRAINING, 3 INVALIDATING. -/
def State.alcState (s : State) : Nat := s.fld R.ALC_CTL 1 2
/-- Strokes and ligatures run in bypass (R206). -/
def State.bypass (s : State) : Bool := s.alcState != 1
/-- The state of way power (R132): 0 ON, 1 CLEANING, 2 OFF, 3 CLEARING. -/
def State.wayState (s : State) : Nat := s.fld R.DIR_WAYPWR 1 2
/-- The fence entry of an ID: its index, when the entry is not FREE (R320). -/
def State.fenceIdx (s : State) (id : EpId) : Option Nat :=
  (List.range 16).find? (fun k => s.fld (R.GLB_FENCE + 8 * k) 18 2 != 0 && s.fld (R.GLB_FENCE + 8 * k) 0 18 == id.toNat)
/-- The fence state of an ID: 0 FREE, 1 SUSPECT, 2 FENCED, 3 RETIRED (R320). -/
def State.fence (s : State) (id : EpId) : Nat :=
  match s.fenceIdx id with | some k => s.fld (R.GLB_FENCE + 8 * k) 18 2 | none => 0
/-- The recorded outcome of an ID: 0 none, 1 FLUSHED, 2 NOFLUSH (R340). -/
def State.fenceOut (s : State) (id : EpId) : Nat :=
  match s.fenceIdx id with | some k => s.fld (R.GLB_FENCE + 8 * k) 20 2 | none => 0
/-- How many fence entries are in a state. -/
def State.fenceCount (s : State) (st : Nat) : Nat :=
  (List.range 16).countP (fun k => s.fld (R.GLB_FENCE + 8 * k) 18 2 == st)

/-- RTE.TMO.SNP in units of the time of day (R252, R259). -/
def State.snpTmo (s : State) : Nat := usec (min 64 (max 1 (s.fld R.RTE_TMO 0 7)))
/-- DIR.RLYCFG.TMO in units of the time of day (R108, R132). -/
def State.rlyTmo (s : State) : Nat := usec (max 2 (s.fld R.DIR_RLYCFG 9 7))

/-- A resend of R319 is pending for one of these waits. -/
def resending (ws : List Wait) : Bool := ws.any (fun w => match w.st with | .resend _ => true | _ => false)

/-- The domain is in recovery (R334). -/
def State.recovering (s : State) : Bool :=
  !s.chk && (s.fenceCount 1 != 0 || s.fenceCount 2 != 0 || s.stalls.any (fun e => resending e.2.waits) ||
    s.mpState 0 == 3 || s.mpState 1 == 3 || s.mps.any (fun e => e.2.reads.any (fun r => r.again.isSome || r.rerun != .no)) ||
    s.ink.any (fun e => e.2.again) ||
    s.flag R.ISL_RSTSTAT 7)

/-! ### Performance events -/

/-- The attributes of an event (R439): world, source, endpoint ID, line address, message class. -/
structure Attr where
  w : Option Bool := none
  s : Option Nat := none
  i : Option Nat := none
  l : Option Nat := none
  c : Option Nat := none
  deriving DecidableEq, Repr

/-- The filter set that governs counter `k` (R440, R441). -/
def State.filterOf (s : State) (k : Nat) : Nat := s.fld (R.PMC_FSEL + 8 * (k / 16)) (4 * (k % 16)) 3

/-- An occurrence passes every criterion of filter set `n` (R440). -/
def State.passes (s : State) (n : Nat) (a : Attr) : Bool :=
  let c := R.PMC_FSCTL + 0x20 * n
  (match a.w with | none => true | some w => if w then s.flag c 1 else s.flag c 0) &&
  (match a.s with | none => true | some x => s.fld c (2 + x) 1 == 1) &&
  (match a.c with | none => true | some x => s.fld c (8 + x) 1 == 1) &&
  (match a.i with
    | none => true
    | some x => !s.flag c 15 ||
      (((BitVec.ofNat 18 x ^^^ BitVec.ofNat 18 (s.fld (R.PMC_FSID + 0x20 * n) 0 18)) &&&
        BitVec.ofNat 18 (s.fld (R.PMC_FSID + 0x20 * n) 18 18)) == 0)) &&
  (match a.l with
    | none => true
    | some x => !s.flag c 16 ||
      (decide (s.fld (R.PMC_FSLO + 0x20 * n) 0 52 ≤ x) && decide (x ≤ s.fld (R.PMC_FSHI + 0x20 * n) 0 52)))

/-- `n` occurrences of event `k` (R437): the counter wraps modulo 2⁵⁶. -/
def State.evN (s : State) (k n : Nat) (a : Attr) : State :=
  if s.passes (s.filterOf k) a then
    s.setReg (R.PMC_CNT + 8 * k) (BitVec.ofNat 64 (((s.reg (R.PMC_CNT + 8 * k)).toNat + n) % 2 ^ 56))
  else s

/-- One occurrence of event `k` (R437). -/
def State.ev (s : State) (k : Nat) (a : Attr) : State := s.evN k 1 a

/-- Event `k` is raised by work that Tirkar repeats: its REDO bit is set (R312, R448). -/
def State.redo (s : State) (k : Nat) : State := s.setFlag (R.PMC_REDO + 8 * (k / 64)) (k % 64) true

/-- The attributes of a request (R439). -/
def Req.attr (r : Req) : Attr :=
  { w := some r.world, s := some r.src, i := some r.q.toNat, l := some r.line.toNat }

/-- A request of an internal user (source 5). Its requester's ID and tag are free values (log 15). -/
def State.inner (s : State) (op : BitVec 6) (world : Bool) (line : LineAddr) (detail : BitVec 40) (data : LineData) : Req :=
  ⟨op, 5, world, Config.freeReqId 5 s.freeCtr, Config.freeReqTag 5 s.freeCtr, line, 0, detail, data, none⟩

/-! ### Blotter records and notices -/

/-- A blotter record queued in its island (R449); a full queue loses it. -/
def State.blot (s : State) (r : BlotRec) : State :=
  let q := (SMap.find s.svc.blotQ r.src).getD []
  if q.length < Config.blotQueue then { s with svc := { s.svc with blotQ := SMap.put s.svc.blotQ r.src (q ++ [r]) } }
  else ((s.addFld R.BLOT_STATUS 17 16 1).setFld R.BLOT_STATUS 33 4 r.src).ev 0xFC {}

/-- A record with the present time: source island, class, detail, severity (R450, R451). A field that the record's
event does not fill is zero where R450 says so, else a free value (log 16). -/
def State.note (s : State) (src cls det sev : Nat) (world : Bool := Config.blotWorld) (line : LineAddr := 0)
    (tag : Tag := 0) (id : BitVec 18 := Config.blotId) (op : BitVec 6 := 0)
    (arg : BitVec 40 := Config.blotArg (cls * 256 + det)) : State :=
  s.blot ⟨s.tod, src, BitVec.ofNat 12 (cls * 256 + det), sev, s.recovering, world, line, tag, id, op, arg⟩

/-- A notice record that competes for the write port of the notice queue (R427): header fields and further words. -/
def State.notice (s : State) (kind arg : Nat) (ws : List Word) : State :=
  { s with svc := { s.svc with nqIn := s.svc.nqIn ++
    [BitVec.ofNat 64 (ws.length + kind % 256 * 4 + arg % 2 ^ 21 * 1024) :: ws] } }

/-- A fence entry's new state is noticed (R426). -/
def State.noticeFence (s : State) (k : Nat) : State :=
  let v := R.GLB_FENCE + 8 * k
  s.notice 4 (s.fld v 18 2) [BitVec.ofNat 64 (s.fld v 0 18 + s.fld v 22 3 * 2 ^ 18)]

/-! ### Directory index and regions -/

/-- The set index of a line (R90). -/
def setOf (h : HIdx) : Nat := h.toNat / 8 % 2 ^ 14
/-- The tag of a line (R90). -/
def tagOf (h : HIdx) : BitVec 17 := BitVec.ofNat 17 (h.toNat / 2 ^ 17)
/-- The fold of a tag (R90). -/
def foldOf (t : BitVec 17) : Nat :=
  let g := fun k => t.toNat / 2 ^ (3 * k) % 8
  g 0 ^^^ g 1 ^^^ g 2 ^^^ g 3 ^^^ g 4 ^^^ (t.toNat / 2 ^ 15 % 4)
/-- The slice of a line (R90). -/
def sliceOf (h : HIdx) : Nat := (h.toNat % 8) ^^^ foldOf (tagOf h)
/-- The position of a line's set: set × 8 + slice (R126). -/
def posOf (h : HIdx) : Nat := setOf h * 8 + sliceOf h
/-- The H of a tag at a position (R90). -/
def hOf (pos : Nat) (t : BitVec 17) : HIdx :=
  BitVec.ofNat 34 (t.toNat * 2 ^ 17 + pos / 8 * 8 + ((pos % 8) ^^^ foldOf t))

/-- Region `n` is valid (R261). -/
def State.regionV (s : State) (n : Nat) : Bool := s.flag (R.SEC_REGIONA + 16 * n) 46
/-- LBASE of region `n`, in units of 256 lines. -/
def State.regionBase (s : State) (n : Nat) : Nat := s.fld (R.SEC_REGIONA + 16 * n) 0 44
/-- MIRROR of region `n`. -/
def State.regionMirror (s : State) (n : Nat) : Bool := s.flag (R.SEC_REGIONA + 16 * n) 44
/-- WORLD of region `n`. -/
def State.regionWorld (s : State) (n : Nat) : Bool := s.flag (R.SEC_REGIONA + 16 * n) 45
/-- SIZE of region `n`, in 64 KiB units. -/
def State.regionSize (s : State) (n : Nat) : Nat := s.fld (R.SEC_REGIONB + 16 * n) 0 27
/-- HOFF of region `n`, in 64 KiB units. -/
def State.regionOff (s : State) (n : Nat) : Nat := s.fld (R.SEC_REGIONB + 16 * n) 27 26

/-- The lowest-numbered valid region that holds a line (R261). -/
def State.regionOf (s : State) (l : LineAddr) : Option Nat :=
  (List.range 64).find? (fun n => s.regionV n && decide (s.regionBase n ≤ l.toNat / 256) &&
    decide (l.toNat / 256 < s.regionBase n + s.regionSize n))

/-- The home line index of a line (R261). -/
def State.hIdx (s : State) (l : LineAddr) : Option HIdx :=
  (s.regionOf l).map (fun n => BitVec.ofNat 34 (s.regionOff n * 256 + (l.toNat - s.regionBase n * 256)))

/-- The region that holds a home line index (R89). -/
def State.regionOfH (s : State) (h : HIdx) : Option Nat :=
  (List.range 64).find? (fun n => s.regionV n && decide (s.regionOff n ≤ h.toNat / 256) &&
    decide (h.toNat / 256 < s.regionOff n + s.regionSize n))

/-- The line address of a home line index (R89). -/
def State.lineOf (s : State) (h : HIdx) : LineAddr :=
  match s.regionOfH h with
  | some n => BitVec.ofNat 52 (s.regionBase n * 256 + (h.toNat - s.regionOff n * 256))
  | none => 0

/-- The world of a home line index: that of its region (R93). -/
def State.worldOfH (s : State) (h : HIdx) : Bool :=
  match s.regionOfH h with | some n => s.regionWorld n | none => false

/-- The memory ports that hold a line (R262). -/
def State.portsOf (s : State) (h : HIdx) : List Nat :=
  match s.regionOfH h with
  | some n => if s.regionMirror n then [0, 1] else [h.toNat / 2 ^ 33]
  | none => [h.toNat / 2 ^ 33]

/-- The world of a request that may not reach a line: a non-secure request to a secure region (R347). -/
def State.denies (s : State) (world : Bool) (l : LineAddr) : Bool :=
  match s.regionOf l with | some n => !world && s.regionWorld n | none => false

/-- A refusal or demotion recorded in SEC.VIOL and SEC.LASTVIOL (R342, R347, R348): `kind` is KIND of SEC.LASTVIOL,
`isl` the island that writes the record. -/
def State.viol (s : State) (kind src id : Nat) (world : Bool) (line : LineAddr) (tag : Tag := 0) (op : BitVec 6 := 0)
    (isl : Nat := 0) : State :=
  let s := s.addFld R.SEC_VIOL (16 * (min kind 3)) 16 1
  let s := s.setReg R.SEC_LASTVIOL (BitVec.ofNat 64 (kind + src * 8 + id % 2 ^ 18 * 64 + 2 ^ 24))
  if kind = 4 || s.flag R.SEC_CTL 0 && kind != 3 then s.note isl 4 kind 0 world line tag (BitVec.ofNat 18 id) op else s

/-- Domain checkstop declared (R336): the first declaration is recorded with its cause, source and time, and noticed;
a later one only counts. `src`: 1 hardware, 2 `DomainStop`, 3 TK_CHKSTOP_IN, 4 GLB.CHKCMD; `ue`: UESRC of R340. -/
def State.declare (s : State) (cause src : Nat) (who : EpId := 0) (ue : Nat := 0) : State :=
  if s.chk then s.addFld R.GLB_CHKSTOP 29 8 1
  else
    let s := if src = 2 then s.note 0 6 cause 3 (id := who) else s.note (if src = 4 then 9 else 0) 6 cause 3
    let s := s.setReg R.GLB_CHKSTOP (BitVec.ofNat 64 (cause % 256 + src * 2 ^ 8 + (if src = 2 then who.toNat else 0) * 2 ^ 11 +
      s.fld R.GLB_CHKSTOP 29 8 * 2 ^ 29 + ue * 2 ^ 37))
    let s := s.setReg R.GLB_CHKTOD s.tod
    s.notice 5 (cause % 256 + src * 256) []

/-- The damage recorded in a protected structure at an index, if any (R315). -/
def State.damage (s : State) (k i : Nat) : Option Chk :=
  (s.faults.find? (fun f => f.1 == k && f.2.1 == i)).map (fun f => f.2.2)

/-- The damage at an index corrected in place (R9). -/
def State.mend (s : State) (k i : Nat) : State := { s with faults := s.faults.filter (fun f => !(f.1 == k && f.2.1 == i)) }

/-- A read of a structure of R315 (4 yard, pen and tickets, 5 stream table, 6 alias CAM, 7 ostler store): a correctable
error is corrected and counted, an uncorrectable one stops the domain, or counts as a later declaration (R336). -/
def State.probe (s : State) (k i : Nat) : State :=
  match s.damage k i with
  | some .ce => ((s.mend k i).addFld R.GLB_SRAMERR 0 16 1).ev 0xB7 {} |>.note 0 0 7 1
  | some .ue =>
    if s.chk then s.declare 8 1
    else (s.note 0 1 3 2 (arg := BitVec.ofNat 40 (k + i * 16))).declare 8 1 0 (k - 3)
  | _ => s

/-- An entry of such a structure is read before it is used (R315): with an uncorrectable entry nothing is done. -/
def State.reading (s : State) (k i : Nat) (f : State → State) : State :=
  match s.damage k i with
  | some .ue => s.probe k i
  | _ => f (s.probe k i)

/-- The stalls of a list are read (R315). -/
def State.readStalls (s : State) (l : List Nat) : State := l.foldl (fun t i => t.probe 4 i) s

/-- A read that takes in every entry of a structure (R315). -/
def State.readAll (s : State) (k : Nat) : State := s.faults.foldl (fun t f => if f.1 = k then t.probe k f.2.1 else t) s

/-- The ostler's store holds an uncorrectable word: it halts (R315). -/
def State.ostHalted (s : State) : Bool := s.faults.any (fun f => f.1 == 7 && f.2.2 == .ue)

/-- Index of a pen entry in the protected structures (R315): the stalls come first. -/
def penSram (k : Nat) : Nat := 4096 + k
/-- Index of a ticket in the protected structures (R315). -/
def tktSram (k : Nat) : Nat := 8192 + k

end Sys2Proof.Machine
end

