-- ==== Sys2Proof/Machine/Credits.lean ====
section
/-! DEFINITION. The queues of a network port and the credits of its two directions: the egress and ingress queues and their
depths (R29, R31, R250), the link buffer and the credits that the partner holds (R237, R238, R255, R493), and the limit in
force (R259, R399). -/

namespace Sys2Proof.Machine

/-- The credit pool of a class (R231): REQ, SNP, RLY, RSP, DAT, MGT as 0 to 5. -/
def poolOf (c : Nat) : Nat := if c ≤ 1 then 0 else c - 1
/-- The depth of the ingress queue of a class (R31). A `RlyInv` stands in the link buffer until the relay unit takes it
(R111, R231); no packet of class SNP is queued. -/
def ingressDepth (c : Nat) : Nat :=
  if c = 0 then 32 else if c = 1 then 16 else if c = 4 then 32 else if c = 5 then 16 else if c = 6 then 4 else 0
/-- The depth of the egress queue of class MGT (R31). -/
def mgtEgress : Nat := 4

/-- The network port `n` (R27). -/
def State.np (s : State) (n : Nat) : NpSt := (SMap.find s.nps n).getD NpSt.reset
/-- A network port's queues and credits written. -/
def State.setNp (s : State) (n : Nat) (p : NpSt) : State := { s with nps := SMap.put s.nps n p }
/-- The egress queue of a pool. An item beyond the queue's depth stands with its sender in the core, in the same order
(R31; log 60). -/
def NpSt.egq (p : NpSt) (k : Nat) : List EgItem := (SMap.find p.eg k).getD []
/-- The ingress queue of a class. -/
def NpSt.inqOf (p : NpSt) (c : Nat) : List InItem := (SMap.find p.inq c).getD []
/-- The link buffer of a pool (R237): packets that wait for room in their ingress queue. -/
def NpSt.bufOf (p : NpSt) (k : Nat) : List InItem := (SMap.find p.buf k).getD []
/-- A queue written: an empty queue is not listed. -/
def putQ {α : Type} (m : SMap (List α)) (k : Nat) (q : List α) : SMap (List α) :=
  if q.isEmpty then SMap.del m k else SMap.put m k q

/-- The head of a link buffer moves into the ingress queue of its class while that has room (R31, R250). -/
def NpSt.fill1 (p : NpSt) (k : Nat) : NpSt :=
  match p.bufOf k with
  | x :: r =>
    let c := x.p.cls.toNat
    if (p.inqOf c).length < ingressDepth c then { p with buf := putQ p.buf k r, inq := SMap.put p.inq c (p.inqOf c ++ [x]) } else p
  | [] => p
/-- Up to `f` heads of a link buffer move. -/
def NpSt.fillN (p : NpSt) (k : Nat) : Nat → NpSt
  | 0 => p
  | f + 1 => (p.fill1 k).fillN k f
/-- Every packet of the link buffers moves that can (R250): the order groups do not wait for each other (R249). -/
def NpSt.fill (p : NpSt) : NpSt := [0, 3, 4, 5].foldl (fun q k => q.fillN k (q.bufOf k).length) p

/-- The flits of packets. -/
def flitsOf (l : List InItem) : Nat := (l.map (fun x => x.p.nflit.toNat + 1)).sum
/-- The flits whose credits answers waiting to leave still hold (R255). -/
def heldBy (l : List EgItem) (k : Nat) : Nat := (l.map (fun x => match x.hold with | some (j, f) => if j = k then f else 0 | none => 0)).sum
/-- The flits of a pool whose credits have not been returned (R237): those in the link buffer, a `RlyInv` not taken, and
those of packets whose answer has not left. -/
def NpSt.held (p : NpSt) (k : Nat) : Nat :=
  flitsOf (p.bufOf k) + (if k = 2 then flitsOf (p.inqOf 3) else 0) + heldBy p.ans k + heldBy (p.egq 5) k

/-- The CREDMAX and CREDNOW field of a pool (R259): lowest bit and width. -/
def credFld (k : Nat) : Nat × Nat :=
  if k = 0 then (0, 7) else if k = 1 then (7, 6) else if k = 2 then (13, 5) else if k = 3 then (18, 6) else if k = 4 then (24, 8) else (32, 4)
/-- The largest packet of a pool, in flits (R259). -/
def poolLeast (k : Nat) : Nat := if k = 0 || k = 4 then 9 else 1
/-- The receive buffer of a pool, in flits (R237). -/
def poolSize (k : Nat) : Nat :=
  if k = 0 then 96 else if k = 1 then 32 else if k = 2 then 16 else if k = 3 then 32 else if k = 4 then 144 else 8
/-- CREDMAX in force (R259). -/
def State.credMax (s : State) (n k : Nat) : Nat :=
  min (poolSize k) (max (poolLeast k) (s.fld (npBase R.NP_CREDMAX n) (credFld k).1 (credFld k).2))
/-- What the muster ramp, or an earlier CREDMAX, has raised a pool to (R399). -/
def State.credRamp (s : State) (n k : Nat) : Nat := s.fld (npBase R.NP_CREDNOW n) (credFld k).1 (credFld k).2
/-- CREDNOW of a pool, the limit in force (R259): once CREDMAX has been lowered below it, it follows the credits that have
not come back. -/
def State.credNow (s : State) (n k : Nat) : Nat :=
  if s.credRamp n k ≤ s.credMax n k then s.credRamp n k
  else min (s.credRamp n k) (max (s.credMax n k) ((s.np n).grant.getD k 0 + (s.np n).held k))
/-- What CREDNOW holds written. -/
def State.setCredNow (s : State) (n k v : Nat) : State := s.setFld (npBase R.NP_CREDNOW n) (credFld k).1 (credFld k).2 v
/-- Where a pool's ramp starts (R399): the acting DOORCRED for REQ, the largest packet for another pool. -/
def State.credStart (s : State) (n k : Nat) : Nat :=
  if k = 0 then min 96 (max 9 (s.fld (npBase R.NP_CTL n) 0 7)) else poolLeast k
/-- The limit of what Tirkar grants (R255, R493): CREDNOW once the port is open, before that the doorman's grant. -/
def State.inLimit (s : State) (n k : Nat) : Nat :=
  if s.isOpen n then s.credNow n k else if k = 0 then s.credStart n 0 else if k = 5 then 1 else 0

/-- Credits granted up to a limit (R237); one of MGT only while the MGT egress queue has room (R238). A granted credit is
never withdrawn (R259). -/
def NpSt.regrant (p : NpSt) (lim : Nat → Nat) : NpSt :=
  { p with grant := (List.range 6).map (fun k =>
      let g := p.grant.getD k 0
      if k = 5 && decide (mgtEgress ≤ (p.egq 5).length) then g else max g (lim k - p.held k)) }
/-- What can move into the ingress queues moves, and while the bridge runs the credits of what has left go back
(R237, R250, R493). -/
def State.settleIn (s : State) (n : Nat) : State :=
  let s : State := s.setNp n (s.np n).fill
  if s.link n = 1 || s.link n = 2 then s.setNp n ((s.np n).regrant (s.inLimit n)) else s
/-- An arriving packet uses the credits of its flits (R237). -/
def NpSt.charge (p : NpSt) (k f : Nat) : NpSt := { p with grant := p.grant.set k (p.grant.getD k 0 - f) }

end Sys2Proof.Machine
end

