-- ==== Sys2Proof/Machine/Send.lean ====
section
/-! DEFINITION. Sending: message classes and flit counts (R53, R231), alias translation (R41, R60, R239), the route
lookup (R242, R243), answers formed at ingress (R235, R236), egress queues and credits (R237, R250, R360), and what
begins when a packet leaves (R156, R159, R252). -/

namespace Sys2Proof.Machine

/-! Opcodes of the message set (R53). -/
namespace Op
def rdShared : BitVec 6 := 0x01
def rdUnique : BitVec 6 := 0x02
def upgrade : BitVec 6 := 0x03
def claimZero : BitVec 6 := 0x04
def rdOnce : BitVec 6 := 0x05
def wrFull : BitVec 6 := 0x06
def wrPart : BitVec 6 := 0x07
def stroke : BitVec 6 := 0x08
def ligature : BitVec 6 := 0x09
def sync : BitVec 6 := 0x0A
def wbDirty : BitVec 6 := 0x0C
def evictNote : BitVec 6 := 0x0D
def snpShare : BitVec 6 := 0x10
def snpUnique : BitVec 6 := 0x11
def snpInv : BitVec 6 := 0x12
def backInv : BitVec 6 := 0x13
def rlyInv : BitVec 6 := 0x14
def snpAckI : BitVec 6 := 0x18
def snpAckS : BitVec 6 := 0x19
def snpFwdI : BitVec 6 := 0x1A
def snpFwdO : BitVec 6 := 0x1B
def snpWbPend : BitVec 6 := 0x1C
def rlyAck : BitVec 6 := 0x1D
def snpDataI : BitVec 6 := 0x1E
def snpDataO : BitVec 6 := 0x1F
def dataS : BitVec 6 := 0x20
def dataE : BitVec 6 := 0x21
def dataM : BitVec 6 := 0x22
def strokeDone : BitVec 6 := 0x23
def ligDone : BitVec 6 := 0x24
def denied : BitVec 6 := 0x25
def grantU : BitVec 6 := 0x28
def cmpW : BitVec 6 := 0x29
def cmpZ : BitVec 6 := 0x2A
def syncDone : BitVec 6 := 0x2B
def retry : BitVec 6 := 0x2C
def notReady : BitVec 6 := 0x2D
def error : BitVec 6 := 0x2E
def checkstop : BitVec 6 := 0x2F
def cmpAck : BitVec 6 := 0x30
def domainStop : BitVec 6 := 0x38
def aliasSet : BitVec 6 := 0x39
def epochSwap : BitVec 6 := 0x3A
def mgtAck : BitVec 6 := 0x3B
end Op

/-! Cause codes (R62). -/
namespace Cause
def timeout : Nat := 1
def unavailable : Nat := 2
def malformed : Nat := 3
def poison : Nat := 4
def noRegion : Nat := 5
def strayWb : Nat := 6
def fenced : Nat := 7
def integrity : Nat := 8
def memoryLost : Nat := 9
end Cause

/-- The class of an opcode (R231); 7 for an unassigned opcode (R53). -/
def classOf (op : BitVec 6) : Nat :=
  let n := op.toNat
  if 1 ≤ n ∧ n ≤ 0x0A then 0
  else if n = 0x0C ∨ n = 0x0D then 1
  else if 0x10 ≤ n ∧ n ≤ 0x13 then 2
  else if n = 0x14 then 3
  else if (0x18 ≤ n ∧ n ≤ 0x1D) ∨ (0x28 ≤ n ∧ n ≤ 0x30) then 4
  else if 0x1E ≤ n ∧ n ≤ 0x25 then 5
  else if 0x38 ≤ n ∧ n ≤ 0x3B then 6
  else 7

/-- The flit count is the opcode's (R53): the data flits that a packet of this opcode may carry. -/
def flitsOk (op : BitVec 6) (n : Nat) : Bool :=
  let o := op.toNat
  if o = 6 ∨ o = 7 ∨ o = 0x0C ∨ (0x1E ≤ o ∧ o ≤ 0x22) then n == 8
  else if o = 8 ∨ o = 0x23 ∨ o = 0x24 then n == 1
  else if o = 9 then decide (1 ≤ n ∧ n ≤ 8)
  else if o = 0x25 then n == 8 || n == 0
  else n == 0

/-- The valid CAM entry that satisfies a test on its value (R259): its index and value. -/
def State.camFind (s : State) (p : Word → Bool) : Option (Nat × Word) :=
  (s.win.find? (fun e => decide (0x6000 ≤ e.1) && decide (e.1 < 0x6400) && bit e.2.toNat 36 && p e.2)).map
    (fun e => (e.1 - 0x6000, e.2))

/-- Egress translation: a logical ID to the physical ID of its entry (R41). -/
def State.toPhys (s : State) (id : EpId) : EpId :=
  match s.camFind (fun v => getBits v 0 18 == id.toNat) with
  | some (_, v) => BitVec.ofNat 18 (getBits v 18 18)
  | none => id

/-- Ingress translation: a physical ID to the logical ID of its entry (R41). -/
def State.toLog (s : State) (id : EpId) : EpId :=
  match s.camFind (fun v => getBits v 18 18 == id.toNat) with
  | some (_, v) => BitVec.ofNat 18 (getBits v 0 18)
  | none => id

/-- A source that matches only the logical side of a valid entry (R239). -/
def State.impostor (s : State) (id : EpId) : Bool :=
  (s.camFind (fun v => getBits v 18 18 == id.toNat)).isNone &&
  (s.camFind (fun v => getBits v 0 18 == id.toNat)).isSome

/-- The address of a cluster route entry (R240); the intra-cluster entry of a local ID is 0x1000 above. -/
def routeAddr (n e i : Nat) : Nat := 0x20000 + 0x4000 * n + 0x2000 * e + 8 * i

/-- A route entry as the lookup uses it: an entry found uncorrectable counts as V = 0 (R315). -/
def State.routeEntry (s : State) (a : Nat) : Option (Nat × Nat × Nat) :=
  let v := s.reg a
  if bit v.toNat 63 && decide (getBits v 48 4 ≤ 12) && !s.faults.contains (8, a, .ue) then
    some (getBits v 0 48, getBits v 48 4, getBits v 52 2)
  else none

/-- The port that a route lookup chooses (R242): the valid cluster entry of greatest PREF on an open port in RUN, the lowest
port of equals; with its entry. -/
def State.routeBest (s : State) (d : EpId) : Option (Nat × Nat × Nat × Nat) :=
  let e := s.fld R.RTE_EPOCHCTL 0 1
  (List.range 4).foldl (fun b n =>
    if s.link n = 1 && s.isOpen n then
      match s.routeEntry (routeAddr n e (clusterOf d)), b with
      | some r, none => some (n, r)
      | some r, some (m, q) => if r.2.2 > q.2.2 then some (n, r) else some (m, q)
      | none, b => b
    else b) none

/-- The route to a translated destination (R242): port, route, hops. -/
def State.route (s : State) (d : EpId) : Option (Nat × Nat × Nat) :=
  match s.routeBest d with
  | none => none
  | some (n, ro, nh, _) =>
    match s.routeEntry (routeAddr n (s.fld R.RTE_EPOCHCTL 0 1) (localOf d) + 0x1000) with
    | some (ti, th, _) => if nh + th > 12 then none else some (n, ro % 2 ^ (4 * nh) + ti % 2 ^ (4 * th) * 2 ^ (4 * nh), nh + th)
    | none => none

/-- One route entry is read (R315): a correctable error is corrected and counted, an uncorrectable one counted in RTUE. -/
def State.routeRead (s : State) (a : Nat) : State :=
  match s.damage 8 a with
  | some .ue => s.addFld R.GLB_SRAMERR 16 16 1
  | _ => s.probe 8 a

/-- The reads of a route lookup (R242, R315): the cluster entry of every port, the local entry of the port chosen. -/
def State.routeErr (s : State) (d : EpId) : State :=
  let e := s.fld R.RTE_EPOCHCTL 0 1
  let t : State := (List.range 4).foldl (fun t n => t.routeRead (routeAddr n e (clusterOf d))) s
  match s.routeBest d with
  | some (n, _) => t.routeRead (routeAddr n e (localOf d) + 0x1000)
  | none => t

/-- The reverse route of an arrived packet (R236): the selects in the opposite order. -/
def revRoute (r : BitVec 48) : Nat → Nat
  | 0 => 0
  | n + 1 => r.toNat / 2 ^ (4 * n) % 16 + 16 * revRoute r n

/-- The wait on `who` changed, in the first one of a list that a test admits. -/
def updWait (ws : List Wait) (p : Wait → Bool) (f : Wait → Wait) : List Wait :=
  match ws with
  | [] => []
  | w :: r => if p w then f w :: r else w :: updWait r p f

/-- A stall changed. -/
def State.updStall (s : State) (i : Nat) (f : Stall → Stall) : State := { s with stalls := SMap.upd s.stalls i f }
/-- A multicast of the relay unit changed. -/
def State.updRly (s : State) (k : Nat) (f : RlyOpen → RlyOpen) : State := { s with rlys := SMap.upd s.rlys k f }

/-- The first-response bound in force (R157, R158, R335). -/
def State.bound (s : State) : Nat := if s.recovering then usec 200 else usec 5

/-- A first response leaves its egress queue: YARD.RESP and the event of a late one (R159). -/
def State.respMeasured (s : State) (src : Nat) (acc : Tod) : State :=
  let t := elapsed acc s.tod
  let s1 := s.maxFld R.YARD_RESP 0 24 t
  if t > s.bound then
    let s2 := (s1.addFld R.YARD_RESP 24 24 1).ev (0x68 + src) { s := some src }
    let s2 := if src < 4 then s2.ev 0x6E {} else s2
    s2.ev 0x6F {}
  else s1

/-- What a packet's leaving begins: the snoop or relay timer (R252, R108), the `CmpAck` timer (R85), the measure of a
first response (R159). -/
def State.left (s : State) (n : Nat) (x : EgItem) : State :=
  let s := ({ s with tx := s.tx ++ [(n, x.p)] }).evN (0xE4 + n) (1 + x.p.nflit.toNat) { c := some x.p.cls.toNat }
  let s : State := match x.first with | some (src, t) => s.respMeasured src t | none => s
  match x.stall with
  | none => s
  | some i =>
    let start := fun ws => updWait ws (fun w => w.who == x.who && w.st == .queued) (fun w => { w with st := .sent s.tod })
    if x.p.cls = 2 || x.p.cls = 3 then
      if i < 2048 then s.updStall i (fun t => { t with waits := start t.waits })
      else s.updRly (i - 2048) (fun t => { t with waits := start t.waits })
    else if x.final then s.updStall i (fun t => { t with respAt := some s.tod })
    else s

/-- The pools of the link egress arbiter in its order MGT, RSP, DAT, SNP, RLY (R360). -/
def pumpOrder : List Nat := [5, 3, 4, 1, 2]

/-- The item that pool `k` of a port offers, if its credits suffice (R237); within RSP the ingress answers and the core
egress alternate (R360). The flag says that it is an ingress answer. -/
def NpSt.offer (p : NpSt) (k : Nat) : Option (EgItem × Bool) :=
  let q := p.egq k
  let pick : Option (EgItem × Bool) :=
    if k = 3 then
      match p.ans, q with
      | a :: _, [] => some (a, true)
      | [], x :: _ => some (x, false)
      | a :: _, x :: _ => if p.ansTurn then some (a, true) else some (x, false)
      | [], [] => none
    else q.head?.map (fun x => (x, false))
  match pick with
  | some (x, b) => if x.p.nflit.toNat + 1 ≤ p.cred.getD k 0 then some (x, b) else none
  | none => none

/-- One packet of a port starts on the link, if its link runs and a pool can send (R242, R360). In DOWN only the link-side
half works, which gives answers (R257). -/
def State.pump1 (s : State) (n : Nat) : Option State :=
  let p := s.np n
  if s.link n = 0 then
    match p.ans with
    | x :: r =>
      if 1 ≤ p.cred.getD 3 0 then some ((s.setNp n { p with cred := p.cred.set 3 (p.cred.getD 3 0 - 1), ans := r }).left n x)
      else none
    | [] => none
  else if s.link n = 1 || s.link n = 2 then
    let order := (List.range 5).map (fun j => pumpOrder.getD ((p.ptr + j) % 5) 0)
    match order.findIdx? (fun k => (p.offer k).isSome) with
    | none => none
    | some j =>
      let k := order.getD j 0
      match p.offer k with
      | none => none
      | some (x, b) =>
        let p := { p with cred := p.cred.set k (p.cred.getD k 0 - (x.p.nflit.toNat + 1)), ptr := (p.ptr + j + 1) % 5 }
        let p := if b then { p with ans := p.ans.tail, ansTurn := false }
          else { p with eg := putQ p.eg k (p.egq k).tail, ansTurn := if k = 3 then true else p.ansTurn }
        some ((s.setNp n p).left n x)
  else none

/-- Packets leave a port while a pool can send: `fuel` bounds their number. -/
def State.pumpN (s : State) (n : Nat) : Nat → State
  | 0 => s
  | f + 1 => match s.pump1 n with | some t => State.pumpN t n f | none => s

/-- Everything that a port can send leaves it (R250); the credits that its answers held go back (R255). -/
def State.pump (s : State) (n : Nat) : State :=
  (s.pumpN n ((s.np n).ans.length + ((s.np n).eg.map (fun e => e.2.length)).sum)).settleIn n

/-- A message of Tirkar: opcode, logical destination, world, line, tag, detail, data flits and data. -/
structure Msg where
  op : BitVec 6
  dst : EpId
  world : Bool
  line : LineAddr
  tag : Tag
  detail : BitVec 40 := 0
  nflit : Nat := 0
  data : LineData := []
  deriving DecidableEq, Repr

/-- The detail field at egress: the forward-to ID of `SnpShare` and `SnpUnique` is translated (R60, R239). -/
def State.egressDetail (s : State) (m : Msg) : BitVec 40 :=
  if m.op = Op.snpShare || m.op = Op.snpUnique then
    BitVec.ofNat 40 (m.detail.toNat / 2 ^ 18 * 2 ^ 18 + (s.toPhys (BitVec.ofNat 18 m.detail.toNat)).toNat)
  else m.detail

/-- The packet of a message on a route (R230, R233, R242). -/
def State.packet (s : State) (m : Msg) (src : EpId) (dom : BitVec 12) (phys : EpId) (rt nh : Nat) : Packet where
  dst := phys
  src := src
  domain := dom
  opcode := m.op
  world := m.world
  cls := BitVec.ofNat 3 (classOf m.op)
  nflit := BitVec.ofNat 4 m.nflit
  line := m.line
  tag := m.tag
  route := BitVec.ofNat 48 rt
  hopcnt := 0
  nhop := BitVec.ofNat 4 nh
  epoch := s.flag R.RTE_EPOCHCTL 0
  detail := s.egressDetail m
  seq := 0
  stream := BitVec.ofNat 8 m.line.toNat
  syn := 0
  data := m.data

/-- A packet placed in an egress queue; the port then sends what it can. -/
def State.enqueue (s : State) (n : Nat) (x : EgItem) : State :=
  let p := s.np n
  let k := poolOf x.p.cls.toNat
  (s.setNp n { p with eg := SMap.put p.eg k (p.egq k ++ [x]) }).pump n

/-- What goes with a sent message: its stall, whether it is a first response (source and acceptance time), and whether
it is the final one. -/
structure Meta where
  stall : Option Nat := none
  first : Option (Nat × Tod) := none
  final : Bool := false
  deriving DecidableEq, Repr

/-- A message sent from an ID of this instance in a domain (R233): false when no route is found (R243). -/
def State.sendFrom (s : State) (src : EpId) (dom : BitVec 12) (xlat : Bool) (m : Msg) (k : Meta) : State × Bool :=
  let s : State := if xlat then s.readAll 6 else s
  let phys := if xlat then s.toPhys m.dst else m.dst
  let s := s.routeErr phys
  match s.route phys with
  | some (n, rt, nh) => (s.enqueue n ⟨s.packet m src dom phys rt nh, k.stall, m.dst, k.first, k.final, none⟩, true)
  | none => (s.addFld R.RTE_ERRCNT 16 16 1 |>.ev 0xEC { i := some m.dst.toNat }, false)

/-- A message of the home sent to a logical ID (R41, R242). -/
def State.send (s : State) (m : Msg) (k : Meta := {}) : State × Bool :=
  s.sendFrom s.homeId s.domain true m k

/-- The record of a missing route for a message other than `RlyInv` (R243, R451). -/
def State.noRouteNote (s : State) (m : Msg) : State := s.note 0 3 3 2 m.world m.line m.tag m.dst m.op

/-- A message whose loss changes nothing in the stall: without a route it is discarded (R243). -/
def State.tell (s : State) (m : Msg) (k : Meta := {}) : State :=
  match s.send m k with
  | (t, true) => t
  | (t, false) => t.noRouteNote m

/-- An answer formed at ingress on port `n` to packet `p` (R235): by the reverse route, untranslated. `hold`: the credits of
`p` go back as the answer leaves (R255). -/
def State.answerAt (s : State) (n : Nat) (p : Packet) (op : BitVec 6) (detail : Nat) (hold : Bool := false) : State :=
  let line : LineAddr := if classOf op = 6 then 0 else p.line
  let q : Packet := ⟨p.src, p.dst, p.domain, op, p.world, BitVec.ofNat 3 (classOf op), 0, line, p.tag,
    BitVec.ofNat 48 (revRoute p.route p.nhop.toNat), 0, p.nhop, p.epoch, BitVec.ofNat 40 detail, 0,
    BitVec.ofNat 8 line.toNat, 0, []⟩
  let x : EgItem := ⟨q, none, p.src, none, false, if hold then some (poolOf p.cls.toNat, p.nflit.toNat + 1) else none⟩
  let np := s.np n
  if classOf op = 6 then s.enqueue n x
  else (s.setNp n { np with ans := np.ans ++ [x] }).pump n

/-- A stray arrival (R495): discarded, counted and recorded. -/
def State.stray (s : State) (p : Packet) : State :=
  (s.ev 0xA2 { w := some p.world, i := some p.src.toNat, l := some p.line.toNat }).note 0 2 0 2 p.world p.line p.tag p.src p.opcode

/-- The packet as it arrived: untranslated source and the header's own world bit (R235). -/
def InItem.arrived (x : InItem) : Packet := { x.p with src := x.phys, world := x.raw }

end Sys2Proof.Machine
end

