-- ==== Sys2Proof/Machine/Directory.lean ====
section
/-! DEFINITION. The directory: lookup and its checks (R91, R93, R129, R130), the recorded holders (R51, R94, R95), the
sharer forms (R99-R101), relays (R104), victim choice (R115-R117), removal of fenced IDs (R127, R128). -/

namespace Sys2Proof.Machine

/-- The key of a way of a set: (set × 8 + slice) × 16 + way (R126). -/
def dirKey (pos way : Nat) : Nat := pos * 16 + way
/-- Ways open to lookup (R91): 16, or 8 while ways 8-15 are powered down or being cleared (R124). -/
def State.lookupWays (s : State) : Nat := if s.wayState = 2 || s.wayState = 3 then 8 else 16
/-- Ways open to allocation (R121, R124): 16 only while the ways are ON. -/
def State.allocWays (s : State) : Nat := if s.wayState = 0 then 16 else 8
/-- The keys of the ways of a line's set that match its tag (R91). -/
def State.dirHits (s : State) (h : HIdx) : List Nat :=
  ((List.range s.lookupWays).map (dirKey (posOf h))).filter (fun k =>
    match SMap.find s.dirs k with | some e => e.tag == tagOf h | none => false)
/-- The entry of a line (R91), with its key. -/
def State.dirOf (s : State) (h : HIdx) : Option (Nat × DirEntry) :=
  match s.dirHits h with
  | k :: _ => (SMap.find s.dirs k).map (fun e => (k, e))
  | [] => none
/-- The home line index of an entry (R90). -/
def hOfKey (k : Nat) (e : DirEntry) : HIdx := hOf (k / 16) e.tag

/-- The extension entry that a sharer field references (R98). -/
def Sharers.xidx : Sharers → Option Nat
  | .list x _ _ => some x
  | .cluster x _ => some x
  | _ => none
/-- FORM of a sharer field (R92). -/
def Sharers.form : Sharers → Nat
  | .ptr _ _ => 0 | .list _ _ _ => 1 | .cluster _ _ => 2 | .bcast _ => 3

/-- The recorded holder in X or owner in O (R95). -/
def DirEntry.owner (e : DirEntry) : Option EpId :=
  match e.st, e.sh with
  | .s, _ => none
  | _, .ptr p0 _ => p0
  | _, .list _ o _ => some o
  | _, .cluster _ o => some o
  | _, .bcast o => some o

/-! ### Layouts -/

/-- An endpoint ID and whether it is valid, as two fields. -/
def idBits (o : Option EpId) : Nat × Nat := match o with | some q => (q.toNat, 1) | none => (0, 0)
/-- The sharer field's 40 bits (R94). -/
def Sharers.bits : Sharers → Nat
  | .ptr p0 p1 => (idBits p0).1 + (idBits p1).1 * 2 ^ 18 + (idBits p0).2 * 2 ^ 36 + (idBits p1).2 * 2 ^ 37
  | .list x o n => x % 2 ^ 14 + o.toNat * 2 ^ 14 + n % 16 * 2 ^ 32
  | .cluster x o => x % 2 ^ 14 + o.toNat * 2 ^ 14
  | .bcast o => o.toNat
/-- STATE of an entry that is not free (R92). -/
def DState.code : DState → Nat
  | .s => 1 | .x => 2 | .o => 3
/-- The 72 content bits of an entry (R92). -/
def DirEntry.content (e : DirEntry) : BitVec 72 :=
  BitVec.ofNat 72 (e.sh.bits + e.sh.form * 2 ^ 40 + e.st.code * 2 ^ 42 + b2n e.world * 2 ^ 44 + b2n e.ref * 2 ^ 45 +
    e.tag.toNat * 2 ^ 46)
/-- The 80 bits of an entry, its check byte above the content (R92). -/
def DirEntry.stored (e : DirEntry) : BitVec 80 := Config.dirCode e.content ++ e.content
/-- The sharer field of 40 bits by FORM (R94). -/
def Sharers.ofBits (form b : Nat) : Sharers :=
  let id := fun lo => BitVec.ofNat 18 (b / 2 ^ lo)
  if form = 0 then .ptr (if bit b 36 then some (id 0) else none) (if bit b 37 then some (id 18) else none)
  else if form = 1 then .list (b % 2 ^ 14) (id 14) (b / 2 ^ 32 % 16)
  else if form = 2 then .cluster (b % 2 ^ 14) (id 14)
  else .bcast (id 0)
/-- The entry of 72 content bits; none in state I, in which a way is free (R87, R92). -/
def DirEntry.ofContent (c : BitVec 72) : Option DirEntry :=
  let n := c.toNat
  let st := n / 2 ^ 42 % 4
  if st = 0 then none
  else some ⟨BitVec.ofNat 17 (n / 2 ^ 46), bit n 45, bit n 44, if st = 1 then .s else if st = 2 then .x else .o,
    Sharers.ofBits (n / 2 ^ 40 % 4) (n % 2 ^ 40)⟩
/-- The 32 bits of a sharer slot (R96). -/
def slotBits (o : Option EpId) : Nat := (idBits o).1 + (idBits o).2 * 2 ^ 18
/-- The payload of word `w` of an extension entry (R96, R97). The back-pointer's key is (set × 8 + slice) × 16 + way. -/
def Ext.word (e : Ext) (w : Nat) : Word :=
  match e with
  | .slots l back =>
    if w < 7 then BitVec.ofNat 64 (slotBits (l.getD (2 * w) none) + slotBits (l.getD (2 * w + 1) none) * 2 ^ 32)
    else BitVec.ofNat 64 (back % 16 + back / 128 % 2 ^ 14 * 2 ^ 4 + back / 16 % 8 * 2 ^ 18)
  | .map m => (m >>> (64 * w)).setWidth 64

/-! ### Holders -/

/-- The sharer slots of an extension entry (R96). -/
def State.slotsOf (s : State) (x : Nat) : List (Option EpId) :=
  match SMap.find s.exts x with | some (.slots l _) => l | _ => []
/-- The cluster map of an extension entry (R97). -/
def State.mapOf (s : State) (x : Nat) : BitVec 512 :=
  match SMap.find s.exts x with | some (.map m) => m | _ => 0

/-- The sharers that an entry records exactly, the owner left out (R77, R95). -/
def State.exact (s : State) (e : DirEntry) : List EpId :=
  match e.st, e.sh with
  | .s, .ptr p0 p1 => p0.toList ++ p1.toList
  | .o, .ptr _ p1 => p1.toList
  | .x, _ => []
  | _, .list x _ _ => (s.slotsOf x).filterMap id
  | _, _ => []

/-- A cluster of the domain's cluster mask (R103). -/
def State.inCmask (s : State) (c : Nat) : Bool := s.flag (R.DIR_CMASK + 8 * (c / 64)) (c % 64)
/-- The clusters of the domain in ascending order. -/
def State.cmask (s : State) : List Nat := (List.range 512).filter s.inCmask
/-- The clusters that a relayed Inv reaches (R105). -/
def State.marked (s : State) (e : DirEntry) : List Nat :=
  match e.sh with
  | .cluster x _ => (List.range 512).filter (fun c => (s.mapOf x).getLsbD c)
  | .bcast _ => s.cmask
  | _ => []
/-- The relay of a cluster (R104). -/
def State.relayOf (s : State) (c : Nat) : EpId :=
  match (List.range 16).find? (fun k => s.flag (R.DIR_RLYOVR + 8 * k) 27 && s.fld (R.DIR_RLYOVR + 8 * k) 0 9 == c) with
  | some k => BitVec.ofNat 18 (s.fld (R.DIR_RLYOVR + 8 * k) 9 18)
  | none => endpoint c (s.fld R.DIR_RLYCFG 0 9)
/-- The distinct relays of an entry's marked clusters (R105). -/
def State.relaysOf (s : State) (e : DirEntry) : List EpId := ((s.marked e).map s.relayOf).eraseDups

/-- DIR.ECC_LOC follows the latest error and freezes on an uncorrectable one (R129, R130). -/
def State.eccLoc (s : State) (src loc : Nat) (freeze : Bool) : State :=
  if s.flag R.DIR_ECC_LOC 22 then s
  else s.setReg R.DIR_ECC_LOC (BitVec.ofNat 64 (src + loc * 2 + b2n freeze * 2 ^ 22))

/-- An error of R130: DIR.ECC_STATUS.UE, the frozen location, the records, and the checkstop. -/
def State.dirStop (s : State) (src loc : Nat) (line : LineAddr) : State :=
  if s.chk then s.declare 8 1
  else
    let s := (s.setFlag R.DIR_ECC_STATUS 16 true).eccLoc src loc true
    (s.note 0 1 3 2 (line := line) (arg := BitVec.ofNat 40 (src + loc * 16))).declare 8 1

/-- LOC of a directory way: way [4:1], set [18:5], slice [21:19], less the SRC bit (R132). -/
def locOfKey (k : Nat) : Nat := k % 16 + k / 128 * 16 + k / 16 % 8 * 2 ^ 18

/-- The line whose entry stands at a key. -/
def State.lineAt (s : State) (k : Nat) : LineAddr := match SMap.find s.dirs k with | some e => s.lineOf (hOfKey k e) | none => 0

/-- One read of a directory way or an extension word is checked (R129, R130). `src` 0: key; 1: entry × 8 + word. -/
def State.dirProbe (s : State) (src i : Nat) (line : LineAddr) : State :=
  let loc := if src = 0 then locOfKey i else i / 8 + i % 8 * 2 ^ 14
  match s.damage src i with
  | some .ce =>
    let s := ((s.mend src i).addFld R.DIR_ECC_STATUS 0 16 1).eccLoc src loc false
    let s := s.ev (0xB0 + src) {}
    if s.flag R.DIR_SCRUB 16 then s.note 0 0 src 1 (line := line) else s
  | some .ue => s.dirStop src loc line
  | _ => s

/-- The extension words that an entry references are checked with it (R129). -/
def State.extProbe (s : State) (x : Nat) (line : LineAddr) : State :=
  (List.range 8).foldl (fun t w => t.dirProbe 1 (x * 8 + w) line) s

/-- The words that an entry at a key references are read with it (R129, R130): each is checked, and the back-pointer of a list
must name the key. A wrong one is taken to fail in word 7 of the extension entry (DESIGN CHOICE, log 61). -/
def State.extRead (s : State) (k : Nat) (e : DirEntry) : State :=
  match e.sh.xidx with
  | none => s
  | some x =>
    let l := s.lineOf (hOfKey k e)
    let s := s.extProbe x l
    match e.sh, SMap.find s.exts x with
    | .list _ _ _, some (.slots _ b) => if b = k then s else s.dirStop 1 (x + 7 * 2 ^ 14) l
    | _, _ => s

/-- The entry at a key is read with its extension words (R129, R130). -/
def State.entryRead (s : State) (k : Nat) : State :=
  let t := s.dirProbe 0 k (s.lineAt k)
  match SMap.find t.dirs k with
  | some e => t.extRead k e
  | none => t

/-- The entry of a line is read again where its transaction writes it (R129). -/
def State.holdsRead (s : State) (h : HIdx) : State := match s.dirOf h with | some (k, _) => s.entryRead k | none => s

/-- One access to a line's set (R117, R129, R130): every open way is checked; two matches, a WORLD mismatch or a
back-pointer that names another entry stop the domain; a hit sets REF. Two matches are located at the lowest way (DESIGN
CHOICE, log 61). -/
def State.dirAccess (s : State) (h : HIdx) : State :=
  let s := (List.range s.lookupWays).foldl (fun t w => t.dirProbe 0 (dirKey (posOf h) w) (t.lineOf h)) s
  let s := s.ev (0x80 + sliceOf h % 2) { l := some (s.lineOf h).toNat }
  match s.dirHits h with
  | k :: _ :: _ => s.dirStop 0 (locOfKey k) (s.lineOf h)
  | [k] =>
    match SMap.find s.dirs k with
    | none => s
    | some e =>
      if e.world != s.worldOfH h then s.dirStop 0 (locOfKey k) (s.lineOf h)
      else { s.extRead k e with dirs := SMap.put (s.extRead k e).dirs k { e with ref := true } }
  | [] => s

/-- The stall that blocks a line (R139). -/
def State.blocker (s : State) (h : HIdx) : Option Nat :=
  (SMap.firstWith s.stalls (fun _ t => t.blocks && t.h == h)).map (fun e => e.1)

/-- A way is pinned: its line has an open stall, or a stall reserves it (R35, R115). -/
def State.pinned (s : State) (k : Nat) : Bool :=
  s.stalls.any (fun e => e.2.way == some k && e.2.code != 1) ||
  match SMap.find s.dirs k with
  | some e => (s.blocker (hOfKey k e)).isSome
  | none => false

/-- The cost class of an entry (R116). -/
def DirEntry.cost (e : DirEntry) : Nat :=
  if e.sh.form ≥ 2 then 3 else match e.st with | .s => 0 | .x => 1 | .o => 2

/-- The first of the least by a measure. -/
def leastBy (f : Nat → Nat) : List Nat → Option Nat
  | [] => none
  | a :: r => match leastBy f r with | some b => some (if f b < f a then b else a) | none => some a

/-- The way chosen for a line (R116): the key, whether a victim stands there, and whether REF was swept (step 3). -/
def State.chooseWay (s : State) (h : HIdx) : Option (Nat × Bool × Bool) :=
  let keys := (List.range s.allocWays).map (dirKey (posOf h))
  match keys.find? (fun k => (SMap.find s.dirs k).isNone && !s.pinned k) with
  | some k => some (k, false, false)
  | none =>
    let open_ := keys.filter (fun k => !s.pinned k)
    let cost := fun k => match SMap.find s.dirs k with | some e => e.cost | none => 0
    let cold := open_.filter (fun k => match SMap.find s.dirs k with | some e => !e.ref | none => false)
    match leastBy cost cold with
    | some k => some (k, true, false)
    | none => (leastBy cost open_).map (fun k => (k, true, true))

/-- REF cleared in every unpinned way of a set that is open to allocation (R116 step 3): ways 8-15 keep theirs while they are
closed (DESIGN CHOICE, log 61). -/
def State.sweepRef (s : State) (pos : Nat) : State :=
  (List.range s.allocWays).foldl (fun t w =>
    let k := dirKey pos w
    if t.pinned k then t else { t with dirs := SMap.upd t.dirs k (fun e => { e with ref := false }) }) s

/-- An extension entry freed (R98). -/
def State.freeExt (s : State) (sh : Sharers) : State :=
  match sh.xidx with | some x => { s with exts := SMap.del s.exts x } | none => s

/-- An extension entry allocated: the lowest free one; MINFREE follows (R98, R132). -/
def State.allocExt (s : State) (e : Ext) : Option (State × Nat) :=
  match SMap.firstFree s.exts 0 Config.extEntries with
  | none => none
  | some x =>
    let s := { s with exts := SMap.put s.exts x e }
    some (s.setFld R.DIR_EXT_STATUS 15 15 (min (s.fld R.DIR_EXT_STATUS 15 15) (Config.extEntries - s.exts.length)), x)

/-- An entry freed, its extension entry with it (R98). -/
def State.freeEntry (s : State) (k : Nat) : State :=
  match SMap.find s.dirs k with
  | some e => let t := s.freeExt e.sh; { t with dirs := SMap.del t.dirs k }
  | none => s

/-- An entry written. -/
def State.putEntry (s : State) (k : Nat) (e : DirEntry) : State := { s with dirs := SMap.put s.dirs k e }

/-- The entry of a line in X held by `q` (R95, R101): pointer form, any extension entry freed. -/
def State.putX (s : State) (k : Nat) (h : HIdx) (q : EpId) : State :=
  let s := s.freeEntry k
  s.putEntry k ⟨tagOf h, true, s.worldOfH h, .x, .ptr (some q) none⟩

/-- The slots of a list entry, fourteen of them (R96). -/
def padSlots (l : List EpId) : List (Option EpId) := (List.range 14).map (fun i => l[i]?)

/-- LIST_MAX in force (R99). -/
def State.listMax (s : State) : Nat :=
  let m := s.fld R.DIR_FORMCTL 0 4
  if 3 ≤ m ∧ m ≤ 14 then m else 14
/-- Cluster form is permitted (R99, R402). -/
def State.clusterEn (s : State) : Bool := s.flag R.DIR_CTL 0 && s.boot.rlyReady
/-- Broadcast form is permitted (R99, R402). -/
def State.bcastEn (s : State) : Bool := s.flag R.DIR_CTL 1 && s.boot.rlyReady
/-- BCAST_MIN (R132). -/
def State.bcastMin (s : State) : Nat := s.fld R.DIR_FORMCTL 4 9

/-- The map with clusters marked (R97). -/
def markMap (m : BitVec 512) (cs : List Nat) : BitVec 512 := cs.foldl (fun a c => a ||| (1 <<< c)) m
/-- How many clusters a map marks (R99). -/
def countMap (m : BitVec 512) : Nat := (List.range 512).countP (fun c => m.getLsbD c)

/-- The sharer of a list removed by displacement: the lowest valid slot takes the new ID (R100). -/
def replaceFirst (q : EpId) : List (Option EpId) → List (Option EpId)
  | [] => []
  | some _ :: r => some q :: r
  | none :: r => none :: replaceFirst q r
/-- A new ID takes the lowest free slot (R96, R99; DESIGN CHOICE, log 61). -/
def fillFirst (q : EpId) : List (Option EpId) → List (Option EpId)
  | [] => []
  | none :: r => some q :: r
  | x :: r => x :: fillFirst q r

/-- The attributes of a change of form (R439). -/
def State.formAttr (s : State) (h : HIdx) (q : EpId) : Attr :=
  { w := some (s.worldOfH h), i := some q.toNat, l := some (s.lineOf h).toNat }

/-- The sharer field of an entry in state `st` with owner `own` and sharer `q` added (R99, R100): the new state, and
the sharer displaced by an Inv of the transaction, if any. `e` records the holders before the addition. -/
def State.addSharer (s : State) (k : Nat) (h : HIdx) (e : DirEntry) (st : DState) (own : Option EpId) (q : EpId) :
    State × Option EpId :=
  let a := s.formAttr h q
  let o := own.getD 0
  let olds := s.exact e
  let put := fun (t : State) (sh : Sharers) => t.putEntry k { e with st := st, sh := sh, ref := true }
  let all := olds ++ [q]
  let n := all.length + own.toList.length
  let toPtr := fun (l : List EpId) => if own.isSome then Sharers.ptr own l[0]? else Sharers.ptr l[0]? l[1]?
  let bcast := fun (t : State) => ((put (t.freeExt e.sh) (.bcast o)).ev 0x87 a, (none : Option EpId))
  match e.sh with
  | .bcast _ => (put s (.bcast o), none)
  | .cluster x _ =>
    let m := markMap (s.mapOf x) [clusterOf q]
    if s.bcastEn && s.bcastMin != 0 && decide (s.bcastMin ≤ countMap m) then bcast s
    else (put { s with exts := SMap.put s.exts x (.map m) } (.cluster x o), none)
  | .list x _ _ =>
    let slots := s.slotsOf x
    if all.length ≤ s.listMax then
      (put { s with exts := SMap.put s.exts x (.slots (fillFirst q slots) k) } (.list x o all.length), none)
    else
      let m := markMap 0 (all.map clusterOf)
      if s.clusterEn && (decide (countMap m < s.bcastMin) || s.bcastMin == 0 || !s.bcastEn) then
        ((put { s with exts := SMap.put s.exts x (.map m) } (.cluster x o)).ev 0x86 a, none)
      else if s.bcastEn then bcast s
      else
        ((put { s with exts := SMap.put s.exts x (.slots (replaceFirst q slots) k) } (.list x o olds.length)).ev 0x89 a,
          olds.head?)
  | .ptr _ _ =>
    if n ≤ 2 then (put s (toPtr all), none)
    else
      match s.allocExt (.slots (padSlots all) k) with
      | some (t, x) =>
        if all.length ≤ s.listMax then ((put t (.list x o all.length)).ev 0x85 a, none)
        else if s.bcastEn then bcast s
        else ((put s (toPtr (q :: olds.tail))).ev 0x89 a, olds.head?)
      | none =>
        let s := s.ev 0x8A { l := a.l }
        if s.bcastEn then bcast s
        else ((put s (toPtr (q :: olds.tail))).ev 0x89 a, olds.head?)

/-- An entry written with exactly these sharers and owner after IDs have been removed (R101): free when none is left;
a list entry returns to pointer form with two IDs or fewer. The IDs that remain in pointer form stand in slot order, from P0
on (from P1 on in state O); those of a list keep their slots (DESIGN CHOICE, log 61). -/
def State.setExact (s : State) (k : Nat) (h : HIdx) (e : DirEntry) (own : Option EpId) (keep : EpId → Bool) : State :=
  let sh := (s.exact e).filter keep
  let st := if own.isSome then DState.o else DState.s
  if own.isNone && sh.isEmpty then s.freeEntry k
  else
    let toPtr := if own.isSome then Sharers.ptr own sh[0]? else Sharers.ptr sh[0]? sh[1]?
    match e.sh with
    | .list x _ _ =>
      if sh.length + own.toList.length ≤ 2 then
        ((s.freeExt e.sh).putEntry k { e with st := st, sh := toPtr }).ev 0x88 (s.formAttr h 0)
      else
        { s with exts := SMap.put s.exts x (.slots ((s.slotsOf x).map (fun y => Option.filter keep y)) k) }.putEntry k
          { e with st := st, sh := .list x (own.getD 0) sh.length }
    | _ => s.putEntry k { e with st := st, sh := toPtr }

/-- The owner of an O entry leaves it (R78): S{Sh}, free when no sharer is recorded; cluster and broadcast forms keep
their marks (R101). -/
def State.dropOwner (s : State) (k : Nat) (h : HIdx) (e : DirEntry) : State :=
  match e.sh with
  | .cluster x _ => s.putEntry k { e with st := .s, sh := .cluster x 0 }
  | .bcast _ => s.putEntry k { e with st := .s, sh := .bcast 0 }
  | _ => s.setExact k h e none (fun _ => true)

/-- One ID removed from an entry as the purge walk removes it (R127, R128): the table of R127, with R328 for an ID whose
outcome is NOFLUSH. -/
def State.purgeId (s : State) (k : Nat) (id : EpId) : State :=
  match SMap.find s.dirs k with
  | none => s
  | some e =>
    let h := hOfKey k e
    if e.owner == some id then
      match e.st with
      | .x => if s.fenceOut id = 2 then s.declare 8 1 else (s.freeEntry k).ev 0x8D { i := some id.toNat, l := some (s.lineOf h).toNat }
      | _ => s.declare 8 1
    else if e.sh.form ≤ 1 && (s.exact e).contains id then
      (s.setExact k h e e.owner (fun x => x != id)).ev 0x8D { i := some id.toNat, l := some (s.lineOf h).toNat }
    else s

/-- Every ID of the purge walk's set removed from an entry (R127, R128). -/
def State.purgeEntry (s : State) (k : Nat) : State := s.rcv.purge.foldl (fun t e => t.purgeId k e.1) s

end Sys2Proof.Machine
end

