-- ==== Sys2Proof/Machine/Yard.lean ====
section
/-! DEFINITION. The yard, the pen, the tickets (R133-R152) and the inkwell's slots (R274-R279): taking and returning
stalls, retries and their tickets, the chains of the pen, filling and superseding inkwell slots. -/

namespace Sys2Proof.Machine

/-- The pool of a stall index (R133): 0 request, 1 write-back, 2 eviction, 3 relay. -/
def poolOfStall (i : Nat) : Nat :=
  if i < Config.baseRly then 0 else if i < Config.baseWb then 3 else if i < Config.baseEv then 1 else 2
/-- First index and size of a pool (R133). -/
def poolRange (p : Nat) : Nat × Nat :=
  if p = 0 then (Config.baseReq, Config.poolReq) else if p = 1 then (Config.baseWb, Config.poolWb)
  else if p = 2 then (Config.baseEv, Config.poolEv) else (Config.baseRly, Config.poolRly)

/-- The stalls set aside for tickets (R147). -/
def State.setAside (s : State) : List Nat := s.tickets.flatMap (fun e => e.2.held)
/-- Stalls owed to tickets and not yet set aside (R137), of tickets older than `order` when one is given (R149). A stall whose
gathering a released ligature has left in flight counts until it passes to its ticket (DESIGN CHOICE, log 64). -/
def State.owed (s : State) (order : Option Nat) : Nat :=
  (s.tickets.map (fun e => if order.all (fun o => decide (e.2.order < o)) then e.2.owed else 0)).sum
/-- Stalls of a pool in use. -/
def State.used (s : State) (p : Nat) : Nat := s.stalls.countP (fun e => poolOfStall e.1 == p)
/-- Free stalls of a pool, those set aside for tickets left out (R138, R160). -/
def State.freeStalls (s : State) (p : Nat) : Nat :=
  (poolRange p).2 - s.used p - (if p = 0 then s.setAside.length else 0)
/-- The free stall of lowest index, from `lo` on (DESIGN CHOICE, log 7). -/
def State.freeFrom (s : State) (held : List Nat) (lo : Nat) : Nat → Option Nat
  | 0 => none
  | n + 1 => if (SMap.find s.stalls lo).isNone && !held.contains lo then some lo else State.freeFrom s held (lo + 1) n
/-- A free stall of a pool. -/
def State.aStall (s : State) (p : Nat) : Option Nat :=
  s.freeFrom (if p = 0 then s.setAside else []) (poolRange p).1 (poolRange p).2
/-- The part of YARD.CTL.CP_RES that the channel port does not use (R134). -/
def State.cpRes (s : State) : Nat :=
  s.fld R.YARD_CTL 0 7 - s.stalls.countP (fun e => poolOfStall e.1 == 0 && e.2.req.src == 4)
/-- `n` request stalls may be taken for a source under R134; `order`: the ticket that redeems (R149). -/
def State.mayTake (s : State) (src n : Nat) (order : Option Nat) : Bool :=
  n == 0 || if src = 4 then decide (n ≤ s.freeStalls 0) else decide (s.cpRes + s.owed order + n ≤ s.freeStalls 0)

/-- A stall opened; the peak of its pool follows (R160). The next free value is another one (log 15). -/
def State.openStall (s : State) (i : Nat) (t : Stall) : State :=
  let s := { s with stalls := SMap.put s.stalls i t, lates := SMap.del s.lates i, freeCtr := s.freeCtr + 1 }
  let p := poolOfStall i
  if p = 0 then s.maxFld R.YARD_PEAK 0 11 (s.used 0)
  else if p = 1 then s.maxFld R.YARD_PEAK 11 8 (s.used 1)
  else if p = 2 then s.maxFld R.YARD_PEAK 19 7 (s.used 2)
  else s.maxFld R.YARD_PEAK 26 7 (s.used 3)

/-- A request stall no longer in use goes to the oldest ticket that is owed stalls (R137). -/
def State.giveBack (s : State) (i : Nat) : State :=
  if poolOfStall i = 0 then
    match leastBy (fun k => ((SMap.find s.tickets k).map (fun t => t.order)).getD 0)
        ((s.tickets.filter (fun e => e.2.owed != 0)).map (fun e => e.1)) with
    | some k => { s with tickets := SMap.upd s.tickets k (fun t => { t with held := t.held ++ [i], owed := t.owed - 1 }) }
    | none => s
  else s

/-- A stall closed: it leaves the yard and returns to its pool (R137). -/
def State.freeStall (s : State) (i : Nat) : State := ({ s with stalls := SMap.del s.stalls i }).giveBack i

/-! ### Inkwell -/

/-- The free inkwell slot of lowest index (DESIGN CHOICE, log 7). -/
def State.inkFree (s : State) : Option Nat := SMap.firstFree s.ink 0 Config.inkSlots
/-- Free inkwell slots. -/
def State.inkRoom (s : State) : Nat := Config.inkSlots - s.ink.length
/-- A slot RESERVED for a line (R274). -/
def State.inkReserve (s : State) (slot : Nat) (h : HIdx) : State :=
  let s := { s with ink := SMap.put s.ink slot ⟨h, s.worldOfH h, .reserved, [], [], [], [], [], [], [], 0, 0, false, false, 0⟩ }
  s.maxFld R.INK_PEAK 0 10 s.ink.length
/-- A slot freed. -/
def State.inkDrop (s : State) (slot : Nat) : State := { s with ink := SMap.del s.ink slot }
/-- The newest FILLED or ISSUED slot for a line (R275). -/
def State.inkNewest (s : State) (h : HIdx) : Option Nat :=
  let c := s.ink.filter (fun e => e.2.h == h && e.2.phase != .reserved)
  (leastBy (fun k => s.inkSeq - ((SMap.find s.ink k).map (fun x => x.seq)).getD 0) (c.map (fun e => e.1)))
/-- The older FILLED slots for the line, which a newer fill supersedes (R275); in a power warning none is (R280). -/
def State.inkOlder (s : State) (slot : Nat) (h : HIdx) : SMap InkSlot :=
  if s.warn then [] else s.ink.filter (fun e => e.1 != slot && e.2.h == h && e.2.phase == .filled)

/-- The ports that must hold a write (R269): every port that holds the line, less a FAILED one of a mirrored line. -/
def State.needPorts (s : State) (h : HIdx) : List Nat :=
  let ps := s.portsOf h
  if ps.length = 2 then (let l := ps.filter (fun n => s.mpState n != 2); if l.isEmpty then ps else l) else ps

/-- A slot as it becomes FILLED: a copy of poison that it carries was recorded where it was found (R268). -/
def InkSlot.fill (x : InkSlot) (d : LineData) (ports : List Nat) (ids : List EpId) (cps : List (Nat × BitVec 16)) (seq : Nat)
    (now : Tod) : InkSlot :=
  { x with phase := .filled, data := LineData.norm d, ports := ports, need := ports, sent := [], ids := x.ids ++ ids,
           cps := x.cps ++ cps, seq := seq, filledAt := now, known := (LineData.norm d).badMask }
/-- What waited for an older slot waits for this one (R275). -/
def InkSlot.inherit (x o : InkSlot) : InkSlot :=
  { x with waiters := x.waiters ++ o.waiters, ids := x.ids ++ o.ids, cps := x.cps ++ o.cps }

/-- A resync no longer copies a line that an inkwell write takes to both ports (R273). -/
def State.copySkip (s : State) (h : HIdx) : State :=
  if s.mps.all (fun e => e.2.copy.isNone) then s
  else { s with mps := s.mps.map (fun e => (e.1, { e.2 with copy := e.2.copy.map (fun c =>
    { c with busy := c.busy.filter (fun x => x != h), data := c.data.filter (fun x => x.1 != h) }) })) }

/-- A slot becomes FILLED (R274, R275): older FILLED slots for the line are freed and their waiters wait for this one. -/
def State.inkFill (s : State) (slot : Nat) (d : LineData) (ids : List EpId := []) (cps : List (Nat × BitVec 16) := []) :
    State :=
  match SMap.find s.ink slot with
  | none => s
  | some x =>
    let older := s.inkOlder slot x.h
    let x := older.foldl (fun y o => y.inherit o.2) (x.fill d (s.needPorts x.h) ids cps s.inkSeq s.tod)
    let s : State := { s with inkSeq := s.inkSeq + 1, ink := SMap.put (older.foldl (fun m o => SMap.del m o.1) s.ink) slot x }
    let s : State := s.copySkip x.h
    if older.isEmpty then s else (s.addFld R.INK_PEAK 10 32 older.length).evN 0xD5 older.length { l := some (s.lineOf x.h).toNat }

/-- A stall waits for a slot's commit (R38). -/
def State.inkWait (s : State) (slot i : Nat) : State :=
  { s with ink := SMap.upd s.ink slot (fun x => { x with waiters := x.waiters ++ [i] }) }
/-- A stall still waits for some commit (R38, R275). -/
def State.awaitsCommit (s : State) (i : Nat) : Bool := s.ink.any (fun e => e.2.waiters.contains i)

/-- A slot's words are read (R278): corrected in the slot and counted; uncorrectable words are counted and carried, and
recorded where they are first found (R268). A metadata error stops the domain. -/
def State.inkRead (s : State) (slot : Nat) : State × LineData :=
  match SMap.find s.ink slot with
  | none => (s, LineData.zero)
  | some x =>
    if s.damage 3 slot = some .ue then
      ((s.setFlag R.INK_ECC 32 true |>.note 0 1 3 2 x.world (s.lineOf x.h) (arg := BitVec.ofNat 40 (3 + slot * 16))).declare 8 1, x.data)
    else
      let a : Attr := { l := some (s.lineOf x.h).toNat }
      let c := x.data.ceCount
      let u := x.data.ueCount
      let s : State := if c = 0 then s else
        ((s.addFld R.INK_ECC 0 16 c).evN 0xB4 c a |>.note 0 0 4 1 x.world (s.lineOf x.h))
      let s : State := if u = 0 then s else s.addFld R.INK_ECC 16 16 u
      let s : State := match x.data.newBad x.known with
        | some w => (s.ev 0xB8 a).note 0 1 0 2 x.world (s.lineOf x.h) (arg := BitVec.ofNat 40 (6 + w * 16))
        | none => s
      ({ s with ink := SMap.put s.ink slot { x with data := x.data.fix, known := x.data.badMask } }, x.data.fix)

/-! ### Tickets and retries -/

/-- The valid ticket that a presented number names for a source and line (R149). -/
def State.redeems (s : State) (n : BitVec 16) (q : EpId) (l : LineAddr) (cp : Bool) : Option (Nat × Ticket) :=
  if n = 0 then none
  else match SMap.find s.tickets (n.toNat / 256) with
    | some t => if ((SMap.find s.tktGen (n.toNat / 256)).getD 0 == n.toNat % 256) && t.who == q && t.line == l && t.cp == cp
        then some (n.toNat / 256, t) else none
    | none => none

/-- The entry of a presented ticket is read (R315). -/
def State.readTicket (s : State) (n : BitVec 16) : State := if n = 0 then s else s.probe 4 (tktSram (n.toNat / 256))

/-- A line is claimed by a valid ticket older than `order` (none: any valid ticket) (R150). -/
def State.claimed (s : State) (l : LineAddr) (order : Option Nat) : Bool :=
  s.tickets.any (fun e => e.2.lines.contains l && order.all (fun o => decide (e.2.order < o)))

/-- A ticket issued (R148): the lowest free entry (R360), the next generation from 0x01 to 0xFF; none when
the table is full. -/
def State.issue (s : State) (r : Req) (lines : List LineAddr) (held : List Nat) (owed : Nat) : State × BitVec 16 :=
  match SMap.firstFree s.tickets 0 Config.tickets with
  | none => (s, 0)
  | some k =>
    let g := ((SMap.find s.tktGen k).getD 0) % 255 + 1
    let t : Ticket := ⟨r.q, r.line, lines, s.tod, s.tktSeq, held, owed, r.src == 4⟩
    (({ s with tickets := SMap.put s.tickets k t, tktGen := SMap.put s.tktGen k g, tktSeq := s.tktSeq + 1 }).ev 0x8E r.attr,
      BitVec.ofNat 16 (k * 256 + g))

/-- The events of a first response by source (R439): kind 0 accepted to 7 `Denied`. -/
def State.respEv (s : State) (kind : Nat) (r : Req) : State :=
  let s := s.ev (0x40 + 8 * kind + r.src) r.attr
  let s : State := if r.src < 4 then s.ev (0x46 + 8 * kind) r.attr else s
  s.ev (0x47 + 8 * kind) r.attr

/-- A channel-port command kept for retry, before the later commands of its stream (R136): `opens` gives the stream's order. -/
def CpSt.keep (cp : CpSt) (opens : SMap (List CpOpen)) (x : CpCmd × BitVec 16 × Bool) : List (CpCmd × BitVec 16 × Bool) :=
  let st := x.1.stream
  let q := (SMap.find opens st.val).getD []
  let place := fun y : CpCmd × BitVec 16 × Bool => q.findIdx (fun o => o.seq == y.1.seq && o.dup == y.2.2 && o.stall.isNone && o.ans.isNone)
  let later := fun y : CpCmd × BitVec 16 × Bool => y.1.stream == st && decide (place x < place y)
  cp.retry.takeWhile (fun y => !later y) ++ x :: cp.retry.dropWhile (fun y => !later y)

/-- `Retry` is sent, or a channel-port command is kept in the CP island with its ticket (R32, R136, R147). -/
def State.sendRetry (s : State) (r : Req) (tkt : BitVec 16) (hint : Nat) (acc : Tod) : State :=
  let s : State := if tkt = 0 then (s.addFld R.YARD_RETRY 48 16 1).respEv 4 r else s
  match r.cp with
  | some (st, seq, d) =>
    let c : CpCmd := ⟨⟨st % 64, Nat.mod_lt _ (by decide)⟩, seq,
      if r.op = Op.rdOnce then 1 else if r.op = Op.wrFull then 2 else if r.op = Op.wrPart then 3 else 4,
      r.line, BitVec.ofNat 32 r.detail.toNat, r.data⟩
    let p := fun o : CpOpen => o.seq == seq && o.dup == d && o.stall.isSome && o.ans.isNone
    let opens := putQ s.cp.opens st (updFirst p (fun o => { o with stall := none, acc := none }) ((SMap.find s.cp.opens st).getD []))
    { s with cp := { s.cp with opens := opens, retry := s.cp.keep opens (c, tkt, d) } }
  | none =>
    s.tell { op := Op.retry, dst := r.q, world := r.world, line := r.line, tag := r.tag,
             detail := BitVec.ofNat 40 (tkt.toNat + hint * 65536) } { first := some (r.src, acc) }

/-- The hint of `Retry` (R147): HINT_NOTKT with ticket 0x0000. -/
def State.hint (s : State) (tkt : BitVec 16) (lo : Nat) : Nat := s.fld R.YARD_TKTCTL (if tkt = 0 then 16 else lo) 8

/-- `Retry` for lack of a stall or resource (R136, R147): `held` stalls already taken are kept for the ticket, `owed`
are owed to it. A request that holds a valid ticket keeps it, and its expiry is counted again (R149). -/
def State.retryFull (s : State) (r : Req) (lines : List LineAddr) (held : List Nat) (owed : Nat) (tk : Option Nat) (acc : Tod) :
    State :=
  let s := (s.addFld R.YARD_RETRY 0 16 1).respEv 1 r
  match tk with
  | some k =>
    let s := { s with tickets := SMap.upd s.tickets k (fun t => { t with issued := s.tod }) }
    s.sendRetry r r.ticket (s.fld R.YARD_TKTCTL 0 8) acc
  | none =>
    let p := s.issue r lines held owed
    let s : State := if p.2 = 0 then held.foldl (fun t i => t.giveBack i) p.1 else p.1
    s.sendRetry r p.2 (s.hint p.2 0) acc

/-! ### Pen -/

/-- The free pen entry of lowest index (R144; DESIGN CHOICE, log 7). -/
def State.penFree (s : State) : Option Nat := SMap.firstFree s.pen 0 Config.penSize

/-- A stall placed in the pen with a reason (R141); PEAK of PEN.STATUS follows. -/
def State.penPut (s : State) (k i reason : Nat) (h : HIdx) (tkt : Option Nat) (seq : Nat) : State :=
  let s := { s with pen := SMap.put s.pen k ⟨i, reason, h, tkt, seq⟩ }
  let s := s.updStall i (fun t => { t with code := 1, reason := reason, waited := true, blocks := false })
  s.maxFld R.PEN_STATUS 50 10 s.pen.length

/-- A move on the move path, or a demanded entry of a drain, blocks its line (R139, R225). -/
def State.moving (s : State) (h : HIdx) : Bool := s.moves.any (fun m => m.h == h)
/-- A line is resident in an entry that the ALC drain has not reached (R225). -/
def State.draining (s : State) (h : HIdx) : Bool := s.alcState == 2 && s.alc.any (fun e => e.2.v && e.2.h == h)
/-- A line is blocked (R139): by a stall, by a move, or by a drain that has yet to reach its entry (R225). -/
def State.blocked (s : State) (h : HIdx) : Bool := (s.blocker h).isSome || s.moving h || s.draining h
/-- The pen holds an entry for a line (R140). -/
def State.penHas (s : State) (h : HIdx) : Bool := s.pen.any (fun e => e.2.h == h)

/-- Place in a chain: ticketed entries first, by ticket issue order, then dispatch order (R142). -/
def PenEntry.before (a b : PenEntry) : Bool :=
  match a.tkt, b.tkt with
  | some x, some y => decide (x < y)
  | some _, none => true
  | none, some _ => false
  | none, none => decide (a.seq < b.seq)

/-- The head of an entry's chain: the SetFull chain of its set in dispatch order (R143), else the chain of its line (R142). -/
def State.penHead (s : State) (k : Nat) (e : PenEntry) : Bool :=
  if e.reason = 1 then
    s.pen.all (fun f => f.1 == k || f.2.reason != 1 || posOf f.2.h != posOf e.h || decide (e.seq < f.2.seq))
  else s.pen.all (fun f => f.1 == k || f.2.h != e.h || !f.2.before e)

/-- A penned ligature of the ALC uses an entry that a drain has not reached (R225). -/
def State.keepsAlc (s : State) (i : Nat) : Bool :=
  match SMap.find s.stalls i with
  | some t => (match t.role with | .lig n _ => (SMap.find s.ligs n).any (fun g => !g.bypass) | _ => false)
  | none => false

/-- An entry is eligible for re-dispatch (R142, R143). -/
def State.penEligible (s : State) (k : Nat) (e : PenEntry) : Bool :=
  s.penHead k e && (if e.reason = 1 then (s.chooseWay e.h).isSome
    else (s.blocker e.h).isNone && !s.moving e.h && (!s.draining e.h || s.keepsAlc e.stall) && !s.claimed (s.lineOf e.h) e.tkt)

/-- Since when each eligible entry has been eligible (R153). -/
def State.penTimes (s : State) : SMap Tod :=
  (s.pen.filter (fun e => s.penEligible e.1 e.2)).map (fun e => (e.1, (SMap.find s.penSince e.1).getD s.tod))

/-- An entry's turn has come: it is eligible, and no entry of its slice has been eligible for longer, nor as long with a
lower index (R153, R155). -/
def State.penTurn (s : State) (k : Nat) (e : PenEntry) : Bool :=
  let age := fun j => match SMap.find s.penSince j with | some t => elapsed t s.tod + 1 | none => 0
  s.penEligible k e && s.pen.all (fun f => f.1 == k || sliceOf f.2.h != sliceOf e.h || !s.penEligible f.1 f.2 ||
    decide (age f.1 < age k) || (age f.1 == age k && decide (k < f.1)))

/-- `Retry` because the pen is full (R144): the request's own stalls are kept for its ticket. -/
def State.retryPen (s : State) (r : Req) (lines : List LineAddr) (held : List Nat) (acc : Tod) : State :=
  let s := (s.addFld R.YARD_RETRY 16 16 1).respEv 2 r
  let p := s.issue r lines held 0
  let s : State := if p.2 = 0 then held.foldl (fun t i => t.giveBack i) p.1 else p.1
  s.sendRetry r p.2 (s.hint p.2 0) acc

/-- The seats of a network port's egress DAT queue in use or set aside (R34, R135). -/
def State.datUsed (s : State) (n : Nat) : Nat :=
  ((s.np n).egq 4).length + s.stalls.countP (fun e => e.2.datPort == some n && !e.2.final)

end Sys2Proof.Machine
end

