-- ==== Sys2Proof/Machine/Alc.lean ====
section
/-! DEFINITION. The atomic line cache's operations (R209-R218): lookup, pinning, placement and replacement, the move path,
giving lines up to requests, check handling. -/

namespace Sys2Proof.Machine

/-- The entry that holds a line, when the ALC is consulted: ON or DRAINING (R210). -/
def State.alcHit (s : State) (h : HIdx) : Option (Nat × AlcEntry) :=
  if s.alcState = 1 || s.alcState = 2 then SMap.firstWith s.alc (fun _ e => e.v && e.h == h) else none
/-- The entry reserved for a line (R211). -/
def State.alcReserved (s : State) (h : HIdx) : Option (Nat × AlcEntry) :=
  SMap.firstWith s.alc (fun _ e => !e.v && e.lk && e.h == h)
/-- An entry is taken by a stall or set aside for a ligature (R182, R188). -/
def State.alcTaken (s : State) (k : Nat) : Bool :=
  s.stalls.any (fun e => e.2.alc == some k) || s.ligs.any (fun e => e.2.aside.any (fun x => x.2 == k))
/-- An entry is on the move path (R214). -/
def State.alcMoving (s : State) (k : Nat) : Bool := s.moves.any (fun m => m.entry == k)
/-- An entry is pinned: its line is blocked, or a ligature has set it aside (R188, R211). -/
def State.alcPinned (s : State) (k : Nat) : Bool :=
  s.alcTaken k || match SMap.find s.alc k with | some e => (s.blocker e.h).isSome | none => false
/-- The power state of a bank (R228): 0 ON, 1 CLEANING, 2 OFF, 3 CLEARING. -/
def State.bank (s : State) (b : Nat) : Nat := s.fld R.ALC_BANKPWR (8 + 2 * b) 2
/-- The entries of banks open to allocation (R212). -/
def State.alcOpen (s : State) : List Nat := (List.range Config.alcEntries).filter (fun k => s.bank (k / 8) == 0)
/-- The words of an entry are free for allocation (R212 step 2). -/
def State.alcVacant (s : State) (k : Nat) : Bool :=
  !s.alcTaken k && !s.alcMoving k && match SMap.find s.alc k with | some e => !e.v && !e.lk | none => true
/-- A victim candidate: unpinned, unlocked (R212). -/
def State.alcVictim (s : State) (k : Nat) : Bool :=
  !s.alcPinned k && !s.alcMoving k && match SMap.find s.alc k with | some e => e.v && !e.lk | none => false

/-- What R212 takes for a line: the entry, whether a victim stands there, whether that victim is dirty, and whether REF
was swept (step 4). -/
def State.alcPick (s : State) (h : HIdx) (not : List Nat) : Option (Nat × Bool × Bool × Bool) :=
  match (s.alcReserved h).filter (fun x => !s.alcTaken x.1 && !not.contains x.1) with
  | some (k, _) => some (k, false, false, false)
  | none =>
    let c := s.alcOpen.filter (fun k => !not.contains k)
    match c.find? s.alcVacant with
    | some k => some (k, false, false, false)
    | none =>
      let dirty := fun k => match SMap.find s.alc k with | some e => e.d | none => false
      let ref := fun k => match SMap.find s.alc k with | some e => e.ref | none => false
      let v := c.filter s.alcVictim
      match leastBy (fun k => b2n (dirty k)) (v.filter (fun k => !ref k)) with
      | some k => some (k, true, dirty k, false)
      | none => (leastBy (fun k => b2n (dirty k)) v).map (fun k => (k, true, dirty k, true))

/-- An entry written. -/
def State.alcPut (s : State) (k : Nat) (e : AlcEntry) : State := { s with alc := SMap.put s.alc k e }
/-- An entry freed with its lock (R219, R225). -/
def State.alcFree (s : State) (k : Nat) : State := { s with alc := SMap.del s.alc k }
/-- An entry given up: left reserved if it is locked, freed otherwise (R216). -/
def State.alcGive (s : State) (k : Nat) : State :=
  match SMap.find s.alc k with
  | some e => if e.lk then s.alcPut k { e with v := false, d := false, data := [], known := 0 } else s.alcFree k
  | none => s

/-- REF cleared in every unpinned, unlocked entry of the open banks (R212 step 4). -/
def State.alcSweep (s : State) : State :=
  s.alcOpen.foldl (fun t k => if t.alcVictim k then { t with alc := SMap.upd t.alc k (fun e => { e with ref := false }) } else t) s

/-- ALC.ECC_LOC follows the latest error and freezes on a tag error (R218, R228). -/
def State.alcLoc (s : State) (k w src : Nat) (freeze : Bool) : State :=
  if s.flag R.ALC_ECC_LOC 13 then s
  else s.setReg R.ALC_ECC_LOC (BitVec.ofNat 64 (k + w * 64 + src * 2048 + 4096 + b2n freeze * 8192))

/-- The line of an entry. -/
def State.alcLine (s : State) (k : Nat) : LineAddr := match SMap.find s.alc k with | some e => s.lineOf e.h | none => 0

/-- One read of a tag (R218): a failing copy is repaired and counted; two failing copies stop the domain. -/
def State.alcTag (s : State) (k : Nat) : State :=
  match s.damage 2 k with
  | some .ce => (((s.mend 2 k).addFld R.ALC_ECC 16 16 1).alcLoc k 0 1 false).ev 0xB3 {} |>.note 0 0 3 1 (line := s.alcLine k)
  | some .ue =>
    if s.chk then s.declare 8 1
    else (((s.setFlag R.ALC_ECC 48 true).alcLoc k 0 1 true).note 0 1 3 2 (line := s.alcLine k) (arg := BitVec.ofNat 40 (2 + k * 16))).declare 8 1
  | _ => s
/-- Every tag of a bank with power is read (R210, R218). -/
def State.alcTags (s : State) : State :=
  s.faults.foldl (fun t f => if f.1 == 2 && s.bank (f.2.1 / 8) < 2 then t.alcTag f.2.1 else t) s
/-- The tags compared at a dispatch (R210, R218). -/
def State.alcLookup (s : State) : State := if s.alcState = 1 || s.alcState = 2 then s.alcTags else s

/-- The words of an entry are read (R217): corrected in the entry, uncorrectable words counted, carried, and recorded where
they are first found (R268). -/
def State.alcRead (s : State) (k : Nat) : State × LineData :=
  match SMap.find s.alc k with
  | none => (s, LineData.zero)
  | some e =>
    let l := s.lineOf e.h
    let c := e.data.ceCount
    let u := e.data.ueCount
    let s : State := if c = 0 then s else
      (((s.addFld R.ALC_ECC 0 16 c).alcLoc k (e.data.findIdx (fun x => x.chk == .ce)) 0 false).evN 0xB2 c { l := some l.toNat }
        |>.note 0 0 2 1 e.world l)
    let s : State := if u = 0 then s else (s.addFld R.ALC_ECC 32 16 u).alcLoc k e.data.firstBad 0 false
    let s : State := match e.data.newBad e.known with
      | some w => (s.ev 0xB8 { l := some l.toNat }).note 0 1 0 2 e.world l (arg := BitVec.ofNat 40 (7 + w * 16))
      | none => s
    (s.alcPut k { e with data := e.data.fix, known := e.data.badMask }, e.data.fix)

/-- A victim of R212 freed in the dispatch cycle if clean; a dirty one gets the inkwell slot taken for it and joins the
move path (R214). -/
def State.alcEvict (s : State) (k : Nat) (dirty : Bool) (slot : Option Nat) (kind : Nat) : State :=
  match SMap.find s.alc k, dirty, slot with
  | some e, true, some sl =>
    let s := s.inkReserve sl e.h
    { s with moves := s.moves ++ [⟨k, sl, kind, e.h⟩] }
  | _, _, _ => s.alcFree k

/-- The attributes of an ALC event. -/
def State.alcAttr (s : State) (h : HIdx) : Attr := { l := some (s.lineOf h).toNat }

end Sys2Proof.Machine
end

