-- ==== Sys2Proof/Machine/Txn.lean ====
section
/-! DEFINITION. The transaction engine of a stall: the actions of the home transition table (R78) and its snoop outcomes
(R79), from the snoops a dispatch plans to the close of the stall (R75, R84, R100, R105, R119, R120, R163-R166, R287). -/

namespace Sys2Proof.Machine

/-- A stall as dispatch opens it (R138). -/
def Stall.new (role : Role) (r : Req) (h : HIdx) (acc : Tod) : Stall :=
  ⟨role, 2, r, h, none, false, false, acc, true, 0, [], none, none, none, none, none, none, none, none, none, .no,
    false, false, false, false, false, none, none, false, false⟩

/-- The requester as the directory knows it; the channel port and internal requests are no agent (R76). -/
def Req.qid (r : Req) : Option EpId := if r.src < 4 then some r.q else none
/-- Snoops for the request carry FMODE = 0 (R76, R170). -/
def Req.home (r : Req) : Bool := !(decide (r.src < 4))
/-- DUR of `WrFull` and `WrPart` (R59). -/
def Req.dur (r : Req) : Bool := bit r.detail.toNat 32 && decide (r.src < 4)
/-- The word mask of `WrPart` (R59). -/
def Req.mask (r : Req) : BitVec 32 := BitVec.ofNat 32 r.detail.toNat

/-! ### Memory reads -/

/-- A memory port's state. -/
def State.mp (s : State) (n : Nat) : MpSt := (SMap.find s.mps n).getD MpSt.reset
/-- A memory port's state written. -/
def State.setMp (s : State) (n : Nat) (p : MpSt) : State := { s with mps := SMap.put s.mps n p }
/-- The port that a read of a line goes to (R262, R265). -/
def State.readPort (s : State) (h : HIdx) : Nat :=
  match s.portsOf h with
  | [n] => n
  | _ =>
    let n := h.toNat % 2
    if s.mpState 0 = 1 && s.mpState 1 = 1 then n else if s.mpState (1 - n) = 1 then (1 - n) else n
/-- A read of a line as a port owes it (R276): it enters the command queue if that has room (R31, R157). -/
def MpSt.ask (p : MpSt) (h : HIdx) (i : Nat) (now : Tod) : MpRead :=
  ⟨h, i, none, now, if p.reads.countP (fun r => r.tag.isNone) < Config.mpQueue then some now else none, none, .no, false⟩
/-- A memory read waits for its port (R276). -/
def State.askRead (s : State) (i : Nat) (h : HIdx) : State :=
  let n := s.readPort h
  let p := s.mp n
  (s.setMp n { p with reads := p.reads ++ [p.ask h i s.tod] }).updStall i (fun t => { t with rd := .asked })

/-- Tirkar's data for a stall's line when it is at hand (R51): what the stall holds, else the newest inkwell slot. -/
def State.fetch (s : State) (st : Stall) : State × Option LineData :=
  match st.got with
  | some d => (s, some d)
  | none =>
    match s.inkNewest st.h with
    | some k => let p := s.inkRead k; (p.1.ev 0xD6 { l := some st.req.line.toNat }, some p.2)
    | none => (s, none)

/-- Tirkar's data fetched for stall `i`, or its memory read asked for. -/
def State.need (s : State) (i : Nat) (st : Stall) : State × Option LineData :=
  match s.fetch st with
  | (t, some d) => (t, some d)
  | (t, none) => if st.rd = .no then (t.askRead i st.h, none) else (t, none)

/-! ### Snoops and relayed invalidations -/

/-- The event of a sent snoop (R439). -/
def snpEvent (op : BitVec 6) (fmode : Bool) : Nat :=
  if op = Op.snpShare then (if fmode then 0x90 else 0x91)
  else if op = Op.snpUnique then (if fmode then 0x92 else 0x93)
  else if op = Op.snpInv then 0x94 else 0x95

/-- A wait added to a stall. -/
def State.addWait (s : State) (i : Nat) (w : Wait) : State := s.updStall i (fun t => { t with waits := t.waits ++ [w] })
/-- The first wait of a stall on `who` changed. -/
def State.setWait (s : State) (i : Nat) (who : EpId) (f : Wait → Wait) : State :=
  s.updStall i (fun x => { x with waits := updWait x.waits (fun y => y.who == who) f })
/-- When the next resend of a wait is due: 1 µs later, or at once when no resend is left (R319). -/
def State.resendAt (s : State) (n : Nat) : Tod :=
  if n < s.fld R.GLB_RCVCTL 8 2 then s.tod + BitVec.ofNat 64 (usec 1) else s.tod

/-- A snoop of stall `i` to `who` is sent (R56, R59): its wait is queued, or due for a resend when no route is found
(R243, R319). -/
def State.snoopMsg (s : State) (i : Nat) (st : Stall) (who : EpId) (op : BitVec 6) (fmode : Bool) : State × Bool :=
  let det := if op = Op.snpShare || op = Op.snpUnique
    then st.req.q.toNat + st.req.tag.toNat * 2 ^ 18 + b2n fmode * 2 ^ 30 else 0
  let m : Msg := ⟨op, who, s.worldOfH st.h, s.lineOf st.h, BitVec.ofNat 12 i, BitVec.ofNat 40 det, 0, []⟩
  let a : Attr := { w := some (s.worldOfH st.h), i := some who.toNat, l := some (s.lineOf st.h).toNat, c := some 2 }
  let first : Option (Nat × Tod) := if fmode && !st.first then some (st.req.src, st.acc) else none
  match (s.ev (snpEvent op fmode) a).send m ⟨some i, first, false⟩ with
  | (t, true) => (if fmode then t.updStall i (fun x => { x with first := true }) else t, true)
  | (t, false) => (t.noRouteNote m, false)

/-- A snoop of stall `i`: sent, or completed on a fenced agent's behalf (R324). `holder`: the answer decides the outcome,
or brings a holder's data home. -/
def State.snoop (s : State) (i : Nat) (who : EpId) (op : BitVec 6) (fmode holder : Bool) : State :=
  match SMap.find s.stalls i with
  | none => s
  | some st =>
    let f := s.fence who
    if f = 0 then
      let w : Wait := ⟨who, op, fmode, holder, .queued, 0⟩
      match (s.addWait i w).snoopMsg i st who op fmode with
      | (t, true) => t
      | (t, false) => t.setWait i who (fun y => { y with st := .resend (t.resendAt 0) })
    else
      let s := s.ev 0xA3 { i := some who.toNat, l := some (s.lineOf st.h).toNat }
      if !holder || op = Op.snpInv then s
      else if f = 1 then s.addWait i ⟨who, op, fmode, holder, .flush, 0⟩
      else if s.fenceOut who = 2 then s.declare 8 1
      else s.updStall i (fun x => { x with out := some .ackI })

/-- The detail field of `RlyInv` (R106). -/
def rlyDetail (ex0 ex1 : Option EpId) (kind : Nat) : BitVec 40 :=
  BitVec.ofNat 40 ((ex0.getD 0).toNat + (ex1.getD 0).toNat * 2 ^ 18 + b2n ex0.isSome * 2 ^ 36 + b2n ex1.isSome * 2 ^ 37 +
    kind * 2 ^ 38)

/-- The relay unit's endpoint ID, when it is enabled (R44). -/
def State.ruId (s : State) : Option EpId :=
  if s.flag R.DIR_RUCTL 0 then some (BitVec.ofNat 18 (s.fld R.DIR_RUCTL 1 18)) else none

/-- The record of a relay failure (R108, R451): 0 timeout, 1 ERR, 2 no route. -/
def State.relayFailNote (s : State) (ri : Nat) (st : Stall) (who : EpId) (why : Nat) : State :=
  s.note 0 3 4 2 st.req.world st.req.line (BitVec.ofNat 12 ri) who Op.rlyInv (BitVec.ofNat 40 why)

/-- A `RlyInv` of relay stall `ri` to one relay: into the network, or to the instance's own relay unit (R112). -/
def State.rlySend (s : State) (ri : Nat) (st : Stall) (who : EpId) (n : Nat) : State :=
  let m : Msg := ⟨Op.rlyInv, who, st.req.world, st.req.line, BitVec.ofNat 12 ri, st.req.detail, 0, []⟩
  let a : Attr := { w := some st.req.world, i := some who.toNat, l := some st.req.line.toNat, c := some 3 }
  let set := fun (t : State) (x : WaitSt) => t.setWait ri who (fun w => { w with st := x, resends := n })
  let s := s.ev 0x96 a
  if s.ruId = some who then
    let p := s.packet m s.homeId s.domain who 0 0
    set { s with ruIn := s.ruIn ++ [⟨p, s.homeId, st.req.world, 0⟩] } (.sent s.tod)
  else
    match (set s .queued).send m { stall := some ri } with
    | (t, true) => t
    | (t, false) =>
      let t := t.relayFailNote ri st who 2
      if n < t.fld R.GLB_RCVCTL 8 2 then set t (.resend (t.tod + BitVec.ofNat 64 (usec 1))) else t.declare 8 1

/-- A relay multicast of stall `i` opened in a relay stall (R40, R105). -/
def State.multicast (s : State) (i : Nat) (h : HIdx) (relays : List EpId) (detail : BitVec 40) : State :=
  match s.aStall 3 with
  | none => s
  | some ri =>
    if relays.isEmpty then s
    else
      let r : Req := s.inner 0 (s.worldOfH h) (s.lineOf h) detail []
      let st := { Stall.new (.relay i) r h s.tod with
        blocks := false, waits := relays.map (fun w => ⟨w, Op.rlyInv, false, false, .queued, 0⟩) }
      let s := (s.openStall ri st).updStall i (fun x => { x with relay := some ri })
      relays.foldl (fun t w => t.rlySend ri st w 0) s

/-! ### What a transaction does -/

/-- What R78 asks of a transaction before its outcome: direct Invs, a relayed Inv with EX0, the snoop to the holder, and
the outcome when no snoop decides it. -/
structure Plan where
  invs : List EpId
  rly : Bool
  ex0 : Option EpId
  hold : Option (EpId × BitVec 6 × Bool)
  out : Option Out
  deriving DecidableEq, Repr

/-- The rows of R78 for an operation on an entry; `op` of `Stroke` stands for every gathering (R170), `WrFull` also for
a gathering without data (R196, R215). -/
def State.plan (s : State) (r : Req) (op : BitVec 6) (e : Option (Nat × DirEntry)) : Plan :=
  match e with
  | none => ⟨[], false, none, none, some .direct⟩
  | some (_, e) =>
    let q := r.qid
    let own := e.owner
    let isO := own.isSome && own == q
    let sh := s.exact e
    let rly := decide (2 ≤ e.sh.form)
    let ex0 := if (s.marked e).contains (clusterOf r.q) then q else none
    let less := sh.filter (fun x => some x != q)
    let o := own.getD 0
    if op = Op.rdShared || op = Op.rdOnce then
      match e.st with
      | .s => ⟨[], false, none, none, some .direct⟩
      | .x => if isO then ⟨[], false, none, none, some .direct⟩
              else ⟨[], false, none, some (o, Op.snpShare, !r.home), none⟩
      | .o => ⟨[], false, none, some (o, Op.snpShare, !r.home), none⟩
    else if op = Op.rdUnique || op = Op.upgrade then
      match e.st with
      | .s => ⟨less, rly, ex0, none, some .direct⟩
      | .x => if isO then ⟨[], false, none, none, some .direct⟩
              else ⟨[], false, none, some (o, Op.snpUnique, true), none⟩
      | .o => if isO then ⟨sh, rly, ex0, none, some .direct⟩
              else if op = Op.upgrade && q.any (fun x => sh.contains x) then ⟨less ++ [o], rly, ex0, none, some .direct⟩
              else ⟨less, rly, ex0, some (o, Op.snpUnique, true), none⟩
    else if op = Op.claimZero then
      match e.st with
      | .s => ⟨less, rly, ex0, none, some .direct⟩
      | .x => ⟨if isO then [] else [o], false, none, none, some .direct⟩
      | .o => ⟨less ++ (if isO then [] else [o]), rly, ex0, none, some .direct⟩
    else if op = Op.wrFull then
      match e.st with
      | .s => ⟨sh, rly, none, none, some .direct⟩
      | .x => ⟨[o], false, none, none, some .direct⟩
      | .o => ⟨sh ++ [o], rly, none, none, some .direct⟩
    else
      match e.st with
      | .s => ⟨sh, rly, none, none, some .direct⟩
      | .x => ⟨[], false, none, some (o, Op.snpUnique, false), none⟩
      | .o => ⟨sh, rly, none, some (o, Op.snpUnique, false), none⟩

/-- The kind of reply that ends a transaction. -/
inductive Rep where
  | data (excl : Bool) | grant (dirty : Bool) | cmpZ | cmpW | fwd | gather
  deriving DecidableEq, Repr

/-- Sh of an entry is empty (R79). -/
def State.shEmpty (s : State) (e : DirEntry) : Bool := decide (e.sh.form < 2) && (s.exact e).isEmpty

/-- The reply of R78 and R79 for an outcome, taken before the next state is recorded. -/
def State.repOf (s : State) (r : Req) (op : BitVec 6) (o : Out) (e : Option (Nat × DirEntry)) : Rep :=
  let q := r.qid
  if op = Op.rdShared then
    match o, e with
    | .fwdO, _ => .fwd
    | .ackS, _ => .data false
    | .direct, some (_, e) => .data (e.st != .s)
    | _, some (_, e) => .data (s.shEmpty e)
    | _, none => .data true
  else if op = Op.rdOnce then (if o = .fwdO then .fwd else .data false)
  else if op = Op.rdUnique || op = Op.upgrade then
    match o, e with
    | .fwdI, _ => .fwd
    | .direct, some (_, e) =>
      let own := e.owner.isSome && e.owner == q
      if op = Op.rdUnique then (if own && e.st == .o then .grant true else .data true)
      else if own then .grant (e.st == .o)
      else if q.any (fun x => (s.exact e).contains x) then .grant (e.st == .o)
      else .data true
    | _, _ => .data true
  else if op = Op.claimZero then .cmpZ
  else if op = Op.wrFull || op = Op.wrPart then .cmpW
  else .gather

/-- The next state of R78 and R79 recorded (R95, R99, R101). `poison`: the requester of `RdShared` received no copy, and
the row of `RdOnce` applies (R318). The entry and its words are read where it is written (R129). -/
def State.record (s : State) (st : Stall) (o : Out) (rep : Rep) (poison : Bool) : State :=
  let r := st.req
  let s := s.holdsRead st.h
  if s.chk then s
  else match s.dirOf st.h with
  | none =>
    match st.way with
    | some k =>
      if (r.op = Op.rdShared && !poison) || r.op = Op.rdUnique || r.op = Op.upgrade || r.op = Op.claimZero then
        (s.putX k st.h r.q).ev 0x82 { l := some r.line.toNat }
      else s
    | none => s
  | some (k, e) =>
    let once := fun (s : State) =>
      match o with
      | .fwdO | .dataO => s.putEntry k { e with st := .o, sh := if e.st = .x then .ptr e.owner none else e.sh }
      | .ackS => s.putEntry k { e with st := .s, sh := .ptr e.owner none }
      | .direct => s.putEntry k { e with ref := true }
      | _ => if e.st = .o then s.dropOwner k st.h e else s.freeEntry k
    if r.op = Op.rdOnce || poison then once s
    else if r.op = Op.rdShared then
      match rep with
      | .data true => s.putX k st.h r.q
      | .fwd =>
        if (s.exact e).contains r.q || e.owner == some r.q then
          s.putEntry k { e with st := .o, ref := true, sh := if e.st = .x then .ptr e.owner none else e.sh }
        else (s.addSharer k st.h e .o e.owner r.q).1
      | _ =>
        let e := if e.st = .x then { e with st := .s } else e
        if (s.exact e).contains r.q then (if e.st = .o then s.dropOwner k st.h e else s.putEntry k { e with ref := true })
        else (s.addSharer k st.h e .s none r.q).1
    else if r.op = Op.rdUnique || r.op = Op.upgrade || r.op = Op.claimZero then s.putX k st.h r.q
    else s.freeEntry k

/-- The sharer that the recording of a `RdShared` would displace (R100). -/
def State.displaces (s : State) (st : Stall) (rep : Rep) : Option EpId :=
  if st.req.op != Op.rdShared then none
  else match s.dirOf st.h, rep with
    | some (k, e), .fwd =>
      if (s.exact e).contains st.req.q || e.owner == some st.req.q then none else (s.addSharer k st.h e .o e.owner st.req.q).2
    | some (k, e), .data false =>
      let e := if e.st = .x then { e with st := .s } else e
      if (s.exact e).contains st.req.q then none else (s.addSharer k st.h e .s none st.req.q).2
    | _, _ => none

/-! ### Channel-port responses -/

/-- The link and credits let the channel port send (R283, R291): responses leave in order, and a completion that leaves is the
first response of its command (R156, R159). -/
def State.cpPumpN (s : State) : Nat → State
  | 0 => s
  | f + 1 =>
    match s.cp.eg with
    | [] => s
    | (x, acc) :: r =>
      let n := 1 + (if x.data.isEmpty then 0 else 8)
      if (s.link 4 = 1 || s.link 4 = 2) && decide (n ≤ s.cp.cred) then
        let t : State := { s with cp := { s.cp with eg := r, cred := s.cp.cred - n }, cpTx := s.cpTx ++ [x] }
        State.cpPumpN (match acc with | some a => t.respMeasured 4 a | none => t) f
      else s
/-- The channel port sends what it can; responses that cannot be delivered during a function reset are dropped (R291). -/
def State.cpPump (s : State) : State :=
  if s.link 4 = 3 then { s with cp := { s.cp with eg := [] } } else s.cpPumpN s.cp.eg.length

/-- The register of a stream (R293). -/
def cpReg (st : Nat) : Nat := R.CP_STREAM + 8 * st
/-- NEXT of a stream. -/
def State.cpNext (s : State) (st : Nat) : BitVec 16 := BitVec.ofNat 16 (s.fld (cpReg st) 0 16)
/-- DACK of a stream. -/
def State.cpDack (s : State) (st : Nat) : BitVec 16 := BitVec.ofNat 16 (s.fld (cpReg st) 16 16)

/-- The commands of a stream that hold DACK back (R289): NEW commands not closed and writes not committed. -/
def State.cpBusy (s : State) (st : Nat) : List (BitVec 16) :=
  (((SMap.find s.cp.opens st).getD []).filter (fun c => !c.dup)).map (fun c => c.seq) ++
  ((s.cp.retry.filter (fun c => c.1.stream.val == st && !c.2.2)).map (fun c => c.1.seq)) ++
  (s.ink.flatMap (fun e => e.2.cps)).filterMap (fun p => if p.1 = st then some p.2 else none)

/-- An acknowledgement due takes the place of one of its stream that has not left (R289, R291). -/
def ackPut (x : CpRsp) : List (CpRsp × Option Tod) → List (CpRsp × Option Tod)
  | [] => [(x, none)]
  | y :: r => if y.1.ack && y.1.stream == x.stream then (x, none) :: r else y :: ackPut x r

/-- DACK of a stream follows its commands (R289); an advance makes a durable acknowledgement due. -/
def State.cpAdvance (s : State) (st : Nat) : State :=
  if s.chk then s
  else
    let d := s.cpDack st
    let top := (s.cpNext st - 1 - d).toNat
    let n := ((s.cpBusy st).map (fun q => (q - d).toNat)).foldl (fun m x => if 1 ≤ x ∧ x ≤ m then x - 1 else m) (if top ≤ 512 then top else 0)
    if n = 0 then s
    else
      let v := d + BitVec.ofNat 16 n
      let s := s.setFld (cpReg st) 16 16 v.toNat
      if s.link 4 = 3 then s
      else ({ s with cp := { s.cp with eg := ackPut ⟨st, v, 0, true, v, []⟩ s.cp.eg } }.ev 0xDB {}).cpPump

/-- A response of the channel port queued for its link (R288); `acc`: when its command was accepted (R156). -/
def State.cpRespond (s : State) (x : CpRsp) (acc : Option Tod) : State :=
  ({ s with cp := { s.cp with eg := s.cp.eg ++ [({ x with dack := s.cpDack x.stream }, acc)] } }).cpPump

/-! ### Close -/

/-- The transaction takes a `CmpAck` (R69, R84). -/
def Req.acks (r : Req) : Bool := decide (r.src < 4) &&
  (r.op == Op.rdShared || r.op == Op.rdUnique || r.op == Op.upgrade || r.op == Op.claimZero)

/-- A channel-port SYNC waits for the commit of earlier writes of its stream (R286). -/
def State.cpSyncWaits (s : State) (t : Stall) : Bool :=
  match t.req.cp with
  | some (st, q, _) => t.req.op == Op.sync &&
      s.ink.any (fun e => e.2.cps.any (fun p => p.1 == st && decide ((q - p.2).toNat < 0x8000)))
  | none => false

/-- Every condition of R84 holds for a stall (and R120, R38). -/
def State.canClose (s : State) (i : Nat) (t : Stall) : Bool :=
  t.waits.isEmpty && t.relay.isNone && t.evict.isNone && t.wbWait.isNone && t.recorded && t.final &&
  (!t.req.acks || t.ackGot) && !s.awaitsCommit i && !s.cpSyncWaits t

/-- A stall closes (R84): its entry is written under R128, its unused inkwell slot freed, and the stall returned. -/
def State.doClose (s : State) (i : Nat) (t : Stall) : State :=
  let s : State := if t.blocks && !s.rcv.purge.isEmpty then
      let u := s.holdsRead t.h
      match u.dirOf t.h with | some (k, _) => if u.chk then u else u.purgeEntry k | none => u
    else s
  let s : State := match t.ink with
    | some sl => (match SMap.find s.ink sl with
        | some x => if x.phase = .reserved then s.inkDrop sl else s
        | none => s)
    | none => s
  let s := s.freeStall i
  match t.role with
  | .dump l =>
    match s.pmc.dump with
    | some d =>
      if l = 0 then
        { s.setFld R.PMC_DUMPSEQ 0 48 (s.fld R.PMC_DUMPSEQ 0 48 + 1) with pmc := { s.pmc with dump := none } }
      else { s with pmc := { s.pmc with dump := some { d with open_ := d.open_.filter (fun j => j != i) } } }
    | none => s
  | _ => s

/-- The commands at the front of a stream close and answer in order (R287). -/
def State.cpDrain (s : State) (st : Nat) : Nat → State
  | 0 => s
  | f + 1 =>
    match (SMap.find s.cp.opens st).getD [] with
    | [] => s
    | c :: rest =>
      let pop := fun (s : State) => { s with cp := { s.cp with opens := putQ s.cp.opens st rest } }
      match c.stall, c.ans with
      | none, some a => State.cpDrain ((pop s).cpRespond a c.acc) st f
      | some i, some a =>
        match SMap.find s.stalls i with
        | some t => if s.canClose i t then State.cpDrain ((pop (s.doClose i t)).cpRespond a c.acc) st f else s
        | none => State.cpDrain ((pop s).cpRespond a c.acc) st f
      | _, _ => s

/-- The answer of a channel-port command is prepared in its stream (R287). -/
def State.cpAnswer (s : State) (st : Nat) (i : Nat) (a : CpRsp) : State :=
  let q := (SMap.find s.cp.opens st).getD []
  { s with cp := { s.cp with opens := putQ s.cp.opens st (q.map (fun c => if c.stall = some i then { c with ans := some a } else c)) } }

/-- STATE of YARD.INSP0 for a stall in use outside the pen (R138, R286). A stall whose `CmpAck` has come waits for the
owner's forward answer in ACKWAIT. -/
def State.codeOf (s : State) (i : Nat) (t : Stall) : Nat :=
  if s.awaitsCommit i || s.cpSyncWaits t then 5
  else if t.req.acks && (t.final != t.ackGot) then 3
  else if t.final && t.evict.isSome then 4
  else 2

/-- A request's stall closes when it can; a channel-port command also waits for its stream's earlier ones (R287). -/
def State.closeReq (s : State) (i : Nat) : State :=
  match SMap.find s.stalls i with
  | none => s
  | some t =>
    let s := s.updStall i (fun x => { x with code := s.codeOf i t })
    if s.canClose i t then
      match t.req.cp with
      | some (st, _, _) =>
        let s := s.cpDrain st 64
        s.cpAdvance st
      | none => s.doClose i t
    else s

/-! ### Phases of a request -/

/-- The snoop to the holder leaves once every Inv is complete (R75), unless its `WbDirty` has been absorbed (R165). -/
def State.holdStep (s : State) (i : Nat) (t : Stall) : State :=
  if t.waits.isEmpty && t.relay.isNone then
    match t.hold with
    | some (o, op, fm) =>
      let s := s.updStall i (fun x => { x with hold := none })
      if t.absorbed.any (fun a => a.who == o) then s.updStall i (fun x => { x with out := some .wbPend })
      else s.snoop i o op fm true
    | none => s
  else s

/-- A reply of data, a grant or a completion to an agent (R55, R58, R83). -/
def State.reply (s : State) (i : Nat) (t : Stall) (op : BitVec 6) (detail n : Nat) (d : LineData) : State :=
  let m : Msg := ⟨op, t.req.q, t.req.world, t.req.line, t.req.tag, BitVec.ofNat 40 detail, n, d⟩
  let k : Meta := { stall := some i, first := if t.first then none else some (t.req.src, t.acc), final := true }
  let s := s.updStall i (fun x => { x with final := true, first := true })
  match s.send m k with
  | (u, true) => u
  | (u, false) => (u.noRouteNote m).updStall i (fun x => { x with respAt := some u.tod })

/-- The line of a stroke, ligature or preload is at home (R170): into its ALC entry, or kept for its inkwell slot in
bypass. `fromHolder`: the data came from a holder (R146). -/
def State.gathered (s : State) (i : Nat) (t : Stall) (d : LineData) (dirty : Bool) : State :=
  match t.alc with
  | some k =>
    if s.alcMoving k then s.updStall i (fun x => { x with got := some d })
    else
      let s : State := match SMap.find s.alc k with
        | some e =>
          if e.v && e.h == t.h then
            (if t.role = .preload 1 then s.alcPut k { e with d := true, ref := true, data := LineData.zero, known := 0 } else s)
          else s.alcPut k ⟨t.h, s.worldOfH t.h, true, dirty, e.lk && e.h == t.h, true, LineData.norm d, (LineData.norm d).badMask⟩
        | none => s.alcPut k ⟨t.h, s.worldOfH t.h, true, dirty, false, true, LineData.norm d, (LineData.norm d).badMask⟩
      s.updStall i (fun x => { x with ready := true, recorded := true, got := none })
  | none => s.updStall i (fun x => { x with ready := true, recorded := true, got := some (LineData.norm d) })

/-- A line of a ligature that has released it is left once its gathering ends (R146): in bypass a holder's data goes to
memory from its slot. Its stall passes to ticket `k`. -/
def State.ligLeave (s : State) (i : Nat) (t : Stall) (k : Nat) : State :=
  let s : State := match t.ink, t.got with
    | some sl, some d => if t.out == some .dataI || t.out == some .wbPend then s.inkFill sl d else s.inkDrop sl
    | some sl, none => s.inkDrop sl
    | none, _ => s
  let s := { s with stalls := SMap.del s.stalls i }
  match SMap.find s.tickets k with
  | some x => if x.owed = 0 then s.giveBack i else
      { s with tickets := SMap.put s.tickets k { x with held := x.held ++ [i], owed := x.owed - 1 } }
  | none => s.giveBack i

/-- Gathering ends: a stroke joins the stroke unit's work, a ligature's line may complete it, a preload ends (R189,
R190, R202, R219). -/
def State.gatherEnd (s : State) (i : Nat) (t : Stall) : State :=
  match t.role with
  | .preload op =>
    let k := t.alc.getD 0
    let s : State := match SMap.find s.alc k with
      | some e => s.alcPut k { e with lk := e.lk || op == 2 }
      | none => s
    let s := s.setReg R.ALC_PRESTAT (BitVec.ofNat 64 (16 + k * 32))
    (s.updStall i (fun x => { x with final := true })).ev 0xCE { l := some t.req.line.toNat }
  | .lig n _ =>
    if 8 ≤ n then (match SMap.find s.stalls i with | some x => s.ligLeave i x (n - 8) | none => s)
    else match SMap.find s.ligs n with
    | some g =>
      let all := (g.held.map (fun e => e.2)) ++ (g.jline.map (fun e => e.2)).toList
      if g.jline.isSome && all.all (fun j => (SMap.find s.stalls j).any (fun x => x.ready)) && !s.readyLig.contains n then
        { s with readyLig := s.readyLig ++ [n] }
      else s
    | none => s
  | _ => if s.readyStrk.contains i then s else { s with readyStrk := s.readyStrk ++ [i] }

/-- The outcome is known: data is fetched where the reply needs it, the displaced sharer is invalidated first (R75,
R100), the next state recorded, and the reply sent (R78, R79, R83, R318). -/
def State.completeStep (s : State) (i : Nat) (t : Stall) (o : Out) : State :=
  let r := t.req
  let op := match t.role with
    | .lig _ j => if j && r.op == Op.claimZero then Op.wrFull else Op.stroke
    | .preload p => if p = 1 then Op.wrFull else Op.stroke
    | _ => r.op
  let rep := match t.role with
    | .lig _ _ => Rep.gather
    | .preload _ => Rep.gather
    | _ => s.repOf r op o (s.dirOf t.h)
  let s : State := match (if t.displ then none else s.displaces t rep) with
    | some d => (s.updStall i (fun x => { x with displ := true })).snoop i d Op.snpInv false false
    | none => s
  if (SMap.find s.stalls i).any (fun x => !x.waits.isEmpty) then s
  else
    let late := fun (s : State) (poison : Bool) =>
      if t.evict.isSome then s else (s.record t o rep poison).updStall i (fun x => { x with recorded := true })
    match rep with
    | .fwd => late (s.updStall i (fun x => { x with final := true, respAt := some (x.respAt.getD s.tod) })) false
    | .grant d => late (s.reply i t Op.grantU (b2n d) 0 []) false
    | .cmpZ => late (s.reply i t Op.cmpZ 0 0 []) false
    | .data ex =>
      match s.need i t with
      | (s, none) => s
      | (s, some d) =>
        match r.cp with
        | some (st, q, _) =>
          let bad := d.poisoned
          let s := late (s.updStall i (fun x => { x with final := true, first := true })) false
          s.cpAnswer st i ⟨st, q, if bad then 7 else 0, false, 0, d⟩
        | none =>
          if s.flag R.GLB_RCVCTL 10 && d.poisoned && (r.op == Op.rdShared || r.op == Op.rdOnce) then
            let s := (s.ev 0xBB r.attr).respEv 6 r
            late ((s.reply i t Op.error Cause.poison 0 []).updStall i (fun x => { x with ackGot := true, noCopy := true })) true
          else late (s.reply i t (if ex then Op.dataE else Op.dataS) 0 8 d) false
    | .cmpW =>
      let base : State × Option LineData := if r.op = Op.wrFull then (s, some []) else s.need i t
      match base with
      | (s, none) => s
      | (s, some b) =>
        let d := if r.op = Op.wrFull then r.data else LineData.merge r.mask r.data b
        let ids := if decide (r.src < 4) && !r.dur then [r.q] else []
        let cps := match r.cp with | some (st, q, _) => [(st, q)] | none => []
        let sl := t.ink.getD 0
        let s := (late s false).inkFill sl d ids cps
        let s := s.updStall i (fun x => { x with ink := none, got := none })
        if r.dur then s.inkWait sl i
        else match r.cp with
          | some (st, q, _) =>
            (s.updStall i (fun x => { x with final := true, first := true })).cpAnswer st i ⟨st, q, 0, false, 0, []⟩
          | none => if r.src < 4 then s.reply i t Op.cmpW 0 0 [] else s.updStall i (fun x => { x with final := true })
    | .gather =>
      let s : State := match s.dirOf t.h with | some (k, _) => s.freeEntry k | none => s
      let resident := t.alc.any (fun k => (SMap.find s.alc k).any (fun e => e.v && e.h == t.h))
      let ends := fun (s : State) => if (SMap.find s.stalls i).any (fun x => x.ready) then s.gatherEnd i t else s
      if op = Op.wrFull then ends (s.gathered i t LineData.zero true)
      else if resident then (s.updStall i (fun x => { x with ready := true, recorded := true })).gatherEnd i t
      else match s.need i t with
        | (s, none) => s
        | (s, some d) =>
          ends (s.gathered i t d (o == .dataI || o == .wbPend))

/-- The stall has nothing left to send for its request. -/
def Stall.done (t : Stall) (waiting : Bool) : Bool := t.final || t.ready || waiting

/-- A stall's transaction moves on as far as its answers let it. -/
def State.advance (s : State) (i : Nat) : State :=
  match SMap.find s.stalls i with
  | none => s
  | some t =>
    if s.chk || t.code = 1 then s
    else
      let s := s.holdStep i t
      match SMap.find s.stalls i with
      | none => s
      | some t =>
        if t.waits.isEmpty && t.relay.isNone && t.wbWait.isNone && !t.done (s.awaitsCommit i) then
          match t.out with
          | some o => (s.completeStep i t o).closeReq i
          | none => s
        else s.closeReq i

/-! ### Evictions, relays and census -/

/-- The parent's next state is recorded once its eviction has closed (R120). -/
def State.recordLate (s : State) (i : Nat) : State :=
  match SMap.find s.stalls i with
  | none => s
  | some t =>
    if t.final && !t.recorded then
      match t.out with
      | some o => (s.record t o (s.repOf t.req t.req.op o none) t.noCopy).updStall i (fun x => { x with recorded := true })
      | none => s
    else s

/-- An eviction stall has every answer: its entry is freed, the stall closes, and the request that caused it goes on
(R119, R120). -/
def State.evictStep (s : State) (i : Nat) : State :=
  match SMap.find s.stalls i with
  | none => s
  | some t =>
    if s.chk || t.code = 1 || !(t.waits.isEmpty && t.relay.isNone && t.wbWait.isNone) then s
    else
      match t.role with
      | .evict k _ =>
        let s := s.freeEntry k
        let s := s.doClose i t
        match SMap.firstWith s.stalls (fun _ x => x.evict == some i) with
        | some (p, _) => ((s.updStall p (fun x => { x with evict := none })).recordLate p).closeReq p
        | none => s
      | _ => s

/-- A census ends (R114): a clear answer clears the cluster's mark; a `WbDirty` it absorbed has taken the owner out
(R166). `out` is `ackI` when the mark may be cleared. -/
def State.censusStep (s : State) (i : Nat) : State :=
  match SMap.find s.stalls i with
  | none => s
  | some t =>
    if s.chk || t.relay.isSome || t.wbWait.isSome then s
    else
      match t.role, s.dirOf t.h with
      | .census c, some (k, e) =>
        let s : State :=
          match t.out, e.sh with
          | some .ackI, .cluster x o =>
            let m := s.mapOf x &&& ~~~((1 : BitVec 512) <<< c)
            let s := s.ev 0x8C { l := some t.req.line.toNat }
            if m = 0 then
              if e.st = .o then ((s.freeExt e.sh).putEntry k { e with sh := .ptr (some o) none }).ev 0x88 (s.formAttr t.h o)
              else s.freeEntry k
            else { s with exts := SMap.put s.exts x (.map m) }
          | _, _ => s
        let s : State := match t.absorbed, s.dirOf t.h with
          | some _, some (k, e) => if e.st = .o then s.dropOwner k t.h e else s
          | _, _ => s
        s.doClose i t
      | _, _ => s.doClose i t

/-- The stall that owns a stall's work moves on, by its role. -/
def State.step1 (s : State) (i : Nat) : State :=
  match SMap.find s.stalls i with
  | none => s
  | some t =>
    match t.role with
    | .evict _ _ => s.evictStep i
    | .census _ => s.censusStep i
    | _ => s.advance i

/-- The last `RlyAck` has come: the relay stall closes and its parent moves on (R108). -/
def State.relayStep (s : State) (ri : Nat) : State :=
  match SMap.find s.stalls ri with
  | some t =>
    match t.role with
    | .relay p =>
      if t.waits.isEmpty && !s.chk then
        let s := s.freeStall ri
        (s.updStall p (fun x => { x with relay := none })).step1 p
      else s
    | _ => s
  | none => s

/-- The actions of a plan are begun in stall `i` (R75, R105): Invs and the relayed Inv, then what follows from them. -/
def State.begin (s : State) (i : Nat) (h : HIdx) (p : Plan) (relays : List EpId) (ex1 : Option EpId) (data : Bool) : State :=
  let s := s.updStall i (fun x => { x with hold := p.hold, out := p.out })
  let s := p.invs.foldl (fun t w => t.snoop i w Op.snpInv false false) s
  let s : State := if p.rly then s.multicast i h relays (rlyDetail p.ex0 ex1 0) else s
  let s : State := if data then (match SMap.find s.stalls i with
    | some t => if t.got.isNone && (s.inkNewest h).isNone then s.askRead i h else s
    | none => s) else s
  s.advance i

end Sys2Proof.Machine
end

