-- ==== Sys2Proof/Machine/Accept.lean ====
section
/-! DEFINITION. Dispatch of requests (R32, R78, R135-R150, R347): the checks and refusals, the pen, the resources taken all
or none, evictions (R115-R120), lines resident in the ALC (R216), gathering into the ALC or in bypass (R182, R206,
R212-R219). -/

namespace Sys2Proof.Machine

/-- The pen entry that a re-dispatch leaves (R142): its index and contents. -/
abbrev Re := Option (Nat × PenEntry)

/-- The kind of a request in events 0x00-0x3F (R439). -/
def kindOf (op : BitVec 6) : Nat := if op.toNat ≤ 6 then op.toNat - 1 else op.toNat - 2
/-- The class of a directory state in events 0x00-0x3F (R439). -/
def classIdx (e : Option (Nat × DirEntry)) : Nat :=
  match e with | none => 0 | some (_, e) => (match e.st with | .s => 1 | .x => 2 | .o => 3)
/-- A request of this opcode allocates an entry for a line without one (R115). -/
def Req.allocates (r : Req) : Bool :=
  r.op == Op.rdShared || r.op == Op.rdUnique || r.op == Op.upgrade || r.op == Op.claimZero
/-- A request of this opcode may be answered with data (R34, R135). -/
def Req.reads (r : Req) : Bool :=
  decide (r.src < 4) && (r.op == Op.rdShared || r.op == Op.rdUnique || r.op == Op.upgrade || r.op == Op.rdOnce)

/-! ### Answers without a stall -/

/-- An answer to a request that takes no stall. -/
def State.refuse (s : State) (r : Req) (op : BitVec 6) (detail nflit : Nat) (d : LineData) : State :=
  s.tell ⟨op, r.q, r.world, r.line, r.tag, BitVec.ofNat 40 detail, nflit, d⟩
/-- `Error` with a cause (R62). -/
def State.errorTo (s : State) (r : Req) (cause : Nat) : State := (s.respEv 6 r).refuse r Op.error cause 0 []
/-- The answer prepared for a channel-port command that has no stall (R287, R288). -/
def State.cpPrepare (s : State) (st : Nat) (q : BitVec 16) (d : Bool) (a : CpRsp) : State :=
  let p := fun c : CpOpen => c.seq == q && c.dup == d && c.stall.isNone && c.ans.isNone
  let s := { s with cp := { s.cp with opens := putQ s.cp.opens st (updFirst p (fun c => { c with ans := some a }) ((SMap.find s.cp.opens st).getD [])) } }
  (s.cpDrain st 64).cpAdvance st
/-- A request of a world that may not reach its line, or of a line in no region (R347): 1 NOREGION, 0 DENIED. `ring`: every
line of a ligature's ring lies in a region. -/
def State.vet (s : State) (r : Req) (lines : List LineAddr) (ring : Bool) : Option Nat :=
  if lines.any (fun l => (s.regionOf l).isNone) || !ring then some 1
  else if lines.any (fun l => s.denies r.world l) then some 0
  else none
/-- The refusal of R347. -/
def State.refuseRegion (s : State) (r : Req) (kind : Nat) : State :=
  let s := s.viol kind r.src r.q.toNat r.world r.line r.tag r.op
  match r.cp with
  | some (st, q, dup) =>
    let data := if kind = 0 && r.op == Op.rdOnce then LineData.zero else []
    (s.respEv (if kind = 0 then 7 else 6) r).cpPrepare st q dup ⟨st, q, if kind = 0 then 5 else 6, false, 0, data⟩
  | none =>
    if kind = 1 then (s.ev 0xBE r.attr).errorTo r Cause.noRegion
    else
      let zero := r.op == Op.rdShared || r.op == Op.rdUnique || r.op == Op.rdOnce
      (s.respEv 7 r).refuse r Op.denied 0 (if zero then 8 else 0) (if zero then LineData.zero else [])

/-- A ledger abort is counted, captured and logged (R208, R451). -/
def State.abortNote (s : State) (r : Req) (sts fop : Nat) (lig : Bool) : State :=
  let s := s.addFld R.LED_ABORTS (if sts = 1 then 0 else if sts = 2 then 16 else if sts = 3 then 32 else 48) 16 1
  let s : State := if sts = 1 then s else
    s.setReg R.LED_LASTABORT (BitVec.ofNat 64 (r.q.toNat + r.tag.toNat * 2 ^ 18 + sts * 2 ^ 30 + fop * 2 ^ 34 + b2n lig * 2 ^ 37 + 2 ^ 38))
  let s := s.ev (if lig then 0xC3 else 0xC1) { w := some r.world, i := some r.q.toNat, l := some r.line.toNat }
  if s.flag R.LED_CTL (if sts = 1 then 1 else 0) then s.note 0 0xA sts 0 r.world r.line r.tag r.q r.op else s

/-- The status of a `Stroke` refused at dispatch (R181). -/
def strokeFormat (r : Req) : Option Nat :=
  let f := opFlit r.data 0
  if f.ctl.bad then some Sts.poison
  else if f.line != r.line || f.op == 0xE || f.op == 0xF then some Sts.format
  else none

/-! ### Stalls, pen and lack of resources -/

/-- The request stall that a new request takes: one set aside for its ticket, or a free one (R134, R149). -/
def State.stallFor (s : State) (r : Req) (tk : Option (Nat × Ticket)) : Option Nat :=
  match tk with
  | some (_, t) =>
    (match t.held with
      | i :: _ => some i
      | [] => if s.mayTake r.src 1 (some t.order) then s.aStall 0 else none)
  | none => if s.mayTake r.src 1 none then s.aStall 0 else none

/-- A new request is accepted in stall `i` (R32, R149): its ticket becomes invalid, its command of the channel port or of
the service island has its stall. -/
def State.accept (s : State) (r : Req) (role : Role) (h : HIdx) (i : Nat) (tk : Option (Nat × Ticket)) : State :=
  let s : State := match tk with | some (k, _) => { s with tickets := SMap.del s.tickets k } | none => s
  let s := s.openStall i { Stall.new role r h s.tod with ticketed := tk.isSome, blocks := false }
  let s : State := match r.cp with
    | some (st, q, d) =>
      let p := fun c : CpOpen => c.seq == q && c.dup == d && c.stall.isNone && c.ans.isNone
      { s with cp := { s.cp with opens := putQ s.cp.opens st (updFirst p (fun c => { c with stall := some i, acc := some s.tod }) ((SMap.find s.cp.opens st).getD [])) } }
    | none => s
  let s : State := match role with
    | .preload _ => { s with preload := none }
    | .dump l => { s with pmc := { s.pmc with dump := s.pmc.dump.map (fun d => ⟨d.words, d.left.filter (fun x => x != l), d.open_ ++ [i], d.seq⟩) } }
    | _ => s
  s.respEv 0 r

/-- A request whose resources cannot all be taken (R136, R147, R149): `Retry`, with its own stall kept for the ticket.
An internal request waits. -/
def State.lack (s : State) (r : Req) (lines : List LineAddr) (n : Nat) (tk : Option (Nat × Ticket)) (re : Re) : State :=
  if r.src = 5 then s
  else match re with
    | some (k, e) =>
      let acc := ((SMap.find s.stalls e.stall).map (fun t => t.acc)).getD s.tod
      { s with pen := SMap.del s.pen k, stalls := SMap.del s.stalls e.stall }.retryFull r lines [e.stall] 0 none acc
    | none => s.retryFull r lines [] n (tk.map (fun x : Nat × Ticket => x.1)) s.tod

/-- A request is penned with a reason (R140-R145), or answered `Retry` when it gets no stall or the pen is full (R144). With a
full pen a redeemed ticket that is still owed its stall stays owed it, and the stall found stays free (R149; DESIGN CHOICE,
log 63). -/
def State.park (s : State) (r : Req) (role : Role) (h : HIdx) (reason : Nat) (tk : Option (Nat × Ticket)) (re : Re) : State :=
  match re with
  | some (k, e) => { s with pen := SMap.put s.pen k { e with reason := reason } }.updStall e.stall (fun t => { t with reason := reason })
  | none =>
    match s.stallFor r tk with
    | none => s.lack r [r.line] 1 tk re
    | some i =>
      match s.penFree with
      | some k =>
        let seq := s.penSeq
        ({ s.accept r role h i tk with penSeq := seq + 1 }).penPut k i reason h (tk.map (fun x : Nat × Ticket => x.2.order)) seq
      | none =>
        if r.src = 5 then s
        else match tk with
          | some (n, _) =>
            let s := (s.addFld R.YARD_RETRY 16 16 1).respEv 2 r
            { s with tickets := SMap.upd s.tickets n (fun t => { t with issued := s.tod }) }.sendRetry r r.ticket
              (s.fld R.YARD_TKTCTL 0 8) s.tod
          | none => s.retryPen r [r.line] [i] s.tod

/-- Why a request for an unrefused line is penned (R140, R149): LineBusy or Claim. An unticketed request for a claimed line
is penned with Claim whatever else holds (R150). -/
def State.penReason (s : State) (r : Req) (h : HIdx) (order : Option Nat) (re : Re) : Option Nat :=
  let earlier := s.pen.any (fun f => f.2.h == h && match re with
    | some (k, e) => f.1 != k && f.2.before e
    | none => f.2.before ⟨0, 0, h, order, s.penSeq⟩)
  if order.isNone && s.claimed r.line none then some 2
  else if s.blocked h || earlier then some 0
  else if s.claimed r.line order then some 2
  else none

/-! ### Evictions -/

/-- An eviction's `BackInv` messages go out (R119): to every recorded holder, relayed sharers by `RlyInv` with KIND 1. -/
def State.evictGo (s : State) (j k : Nat) : State :=
  let s := s.entryRead k
  if s.chk then s
  else match SMap.find s.dirs k with
  | none => s.evictStep j
  | some e =>
    let h := hOfKey k e
    let s := s.updStall j (fun t => { t with blocks := true, code := 2 })
    let cleaner := match (SMap.find s.stalls j).map (fun t => t.role) with | some (.evict _ c) => c | _ => false
    let s := s.ev (if cleaner then 0x84 else 0x83) { l := some (s.lineOf h).toNat }
    let s := (s.exact e).foldl (fun t w => t.snoop j w Op.backInv false false) s
    let s : State := match e.owner with | some o => s.snoop j o Op.backInv false true | none => s
    let s : State := if 2 ≤ e.sh.form then
      s.multicast j h (s.relaysOf e) (rlyDetail none (if e.st = .o then e.owner else none) 1) else s
    s.evictStep j

/-- The eviction stall and the inkwell slot of an eviction are taken (R118, R135). -/
def State.openEvict (s : State) (k : Nat) (cleaner : Bool) : State × Option Nat :=
  match SMap.find s.dirs k, s.aStall 2, s.inkFree with
  | some e, some j, some slot =>
    let h := hOfKey k e
    let r : Req := s.inner 0 (s.worldOfH h) (s.lineOf h) 0 []
    (((s.inkReserve slot h).openStall j { Stall.new (.evict k cleaner) r h s.tod with ink := some slot, way := some k, blocks := false }), some j)
  | _, _, _ => (s, none)

/-! ### Lines -/

/-- The effect of a request on the ALC entry that holds its line (R216): its data, and what becomes of the entry. -/
def State.takeResident (s : State) (i : Nat) (r : Req) (k : Nat) (a : AlcEntry) : State :=
  let s := s.ev 0xC8 (s.alcAttr a.h)
  if r.op = Op.rdOnce then
    let p := s.alcRead k
    ({ p.1 with alc := SMap.upd p.1.alc k (fun e => { e with ref := true }) }).updStall i (fun t => { t with got := some p.2 })
  else
    let s := s.ev 0xCD (s.alcAttr a.h)
    if r.op = Op.wrFull then s.alcGive k
    else
      let p := if r.op = Op.claimZero && !a.d then (s, []) else s.alcRead k
      let s := p.1
      let s : State := if r.op = Op.claimZero then s else s.updStall i (fun t => { t with got := some p.2 })
      let s : State :=
        if a.d && r.op != Op.wrPart then
          match (SMap.find s.stalls i).bind (fun t => t.ink) with
          | some sl => (s.inkFill sl p.2).updStall i (fun t => { t with ink := none })
          | none => s
        else s
      s.alcGive k

/-- An ordinary request proceeds in stall `i` with its resources (R78, R116-R120, R135, R216). -/
def State.proceed (s : State) (r : Req) (i : Nat) (h : HIdx) (way : Option (Nat × Bool × Bool)) (port : Option Nat)
    (slot : Bool) : State :=
  let e := s.dirOf h
  let hit := if e.isNone then s.alcHit h else none
  let waited := (SMap.find s.stalls i).any (fun t => t.waited)
  let s := s.ev (8 * kindOf r.op + classIdx e + (if waited then 4 else 0)) r.attr
  let p := s.plan r r.op e
  let key := match e, way with | some (k, _), _ => some k | none, some (k, _, _) => some k | none, none => none
  let s := s.updStall i (fun t => { t with code := 2, blocks := true, way := key, datPort := port })
  let s : State := match e with | some (k, d) => s.putEntry k { d with ref := true } | none => s
  let s : State := if slot then
      (match s.inkFree with
        | some sl => (s.inkReserve sl h).updStall i (fun t => { t with ink := some sl })
        | none => s)
    else s
  let s : State := match hit with | some (k, a) => s.takeResident i r k a | none => s
  let s : State := match way with
    | some (k, true, sweep) =>
      let s : State := if sweep then s.sweepRef (posOf h) else s
      (match s.openEvict k false with
        | (s, some j) => (s.updStall i (fun t => { t with evict := some j })).evictGo j k
        | (s, none) => s)
    | _ => s
  let data := p.out.isSome && (match s.repOf r r.op .direct e with | .data _ => true | .cmpW => r.op == Op.wrPart | _ => false)
  let relays := match e with | some (_, d) => s.relaysOf d | none => []
  let ex1 := match e with | some (_, d) => if d.st = .o then d.owner else none | none => none
  s.begin i h p relays ex1 data

/-- A transaction that may end with its requester as holder in X, who may write the line back before its `CmpAck` arrives
(R81, R166): it may then bring data home (R34, R135; DEDUCED, log 74). -/
def Req.mayOwn (r : Req) (e : Option (Nat × DirEntry)) : Bool :=
  r.acks && (r.op != Op.rdShared || match e with | some (_, d) => d.st == .x | none => true)

/-- The port whose egress DAT queue keeps a place for what a request is answered with (R34, R135). -/
def State.datSeat (s : State) (r : Req) : Option Nat := (s.route (s.toPhys r.q)).map (fun x => x.1)
/-- That queue has a place left. -/
def State.datRoom (s : State) (port : Option Nat) : Bool := port.all (fun n => decide (s.datUsed n < Config.datEgress))

/-- An ordinary request whose line is free: the way, the resources all or none, then its transaction (R116, R135). -/
def State.dispatchLine (s : State) (r : Req) (role : Role) (h : HIdx) (tk : Option (Nat × Ticket)) (re : Re) : State :=
  let e := s.dirOf h
  let hit := if e.isNone then s.alcHit h else none
  let wants := e.isNone && r.allocates
  let way := if wants then s.chooseWay h else none
  if wants && way.isNone then s.park r role h 1 tk re
  else
    let p := s.plan r r.op e
    let victim : Option DirEntry := match way with | some (k, true, _) => SMap.find s.dirs k | _ => none
    let slot := r.op == Op.wrFull || r.op == Op.wrPart ||
      (match e with | some (_, d) => d.owner.isSome && d.owner != r.qid | none => false) || hit.any (fun x => x.2.d) || r.mayOwn e
    let port := if r.reads then s.datSeat r else none
    let inks := b2n slot + b2n victim.isSome
    let rly := b2n p.rly + b2n (victim.any (fun v => decide (2 ≤ v.sh.form)))
    let ok := decide (inks ≤ s.inkRoom) && decide (rly ≤ s.freeStalls 3) && (victim.isNone || decide (1 ≤ s.freeStalls 2)) &&
      s.datRoom port
    match re, s.stallFor r tk, ok with
    | some (k, x), _, true => ({ s with pen := SMap.del s.pen k }).proceed r x.stall h way port slot
    | none, some i, true => (s.accept r role h i tk).proceed r i h way port slot
    | _, _, _ => s.lack r [r.line] 1 tk re

/-! ### Gathering for the ledger engine -/

/-- The entry `k` picked under R212 is taken: REF swept, a victim freed or put on the move path (R213, R214). -/
def State.alcTake (s : State) (h : HIdx) (pick : Nat × Bool × Bool × Bool) : State :=
  let s : State := if pick.2.2.2 then s.alcSweep else s
  let s := s.ev 0xC9 (s.alcAttr h)
  if pick.2.1 then s.alcEvict pick.1 pick.2.2.1 (if pick.2.2.1 then s.inkFree else none) 0 else s

/-- A gathering starts in stall `i` with an ALC entry or, in bypass, an inkwell slot (R170, R182, R189, R206). -/
def State.gatherGo (s : State) (i : Nat) (h : HIdx) (r : Req) (op : BitVec 6) (alc ink : Option Nat) : State :=
  let e := s.dirOf h
  let p := s.plan r op e
  let s := s.updStall i (fun t => { t with code := 2, blocks := true, way := e.map (fun x => x.1), alc := alc, ink := ink })
  let s : State := match e with | some (k, d) => s.putEntry k { d with ref := true } | none => s
  let resident := alc.any (fun k => (SMap.find s.alc k).any (fun a => a.v && a.h == h))
  let s : State := match alc with
    | some k => if resident then { s.ev 0xC8 (s.alcAttr h) with alc := SMap.upd s.alc k (fun a => { a with ref := true }) } else s
    | none => s
  let relays := match e with | some (_, d) => s.relaysOf d | none => []
  let ex1 := match e with | some (_, d) => if d.st = .o then d.owner else none | none => none
  s.begin i h p relays ex1 (p.out.isSome && !resident && op != Op.wrFull)

/-- A preload that leaves the pen after the ALC has been disabled ends DISABLED (R221; DEDUCED, log 65). -/
def State.preloadOff (s : State) (re : Re) : State :=
  match re with
  | some (k, x) =>
    let s := s.setReg R.ALC_PRESTAT (BitVec.ofNat 64 (2 + 16 + s.fld R.ALC_PRESTAT 5 6 * 32))
    { s with pen := SMap.del s.pen k }.freeStall x.stall
  | none => s

/-- A stroke or preload whose line is free (R34, R182, R212, R219). -/
def State.dispatchGather (s : State) (r : Req) (role : Role) (h : HIdx) (tk : Option (Nat × Ticket)) (re : Re) : State :=
  let e := s.dirOf h
  let byp := s.bypass
  let op := if role = .preload 1 then Op.wrFull else Op.stroke
  let p := s.plan r op e
  let hit := s.alcHit h
  let pick : Option (Nat × Bool × Bool × Bool) :=
    match hit with | some (k, _) => some (k, false, false, false) | none => s.alcPick h []
  let dirty := !byp && pick.any (fun x => x.2.2.1)
  let port := if r.op = Op.stroke then s.datSeat r else none
  let ok := decide (b2n (byp || dirty) ≤ s.inkRoom) && decide (b2n p.rly ≤ s.freeStalls 3) && (byp || pick.isSome) && s.datRoom port
  let s : State := if !byp && pick.isNone then s.ev 0xCF (s.alcAttr h) else s
  let go := fun (s : State) (i : Nat) =>
    let waited := (SMap.find s.stalls i).any (fun t => t.waited)
    let s : State := if r.op = Op.stroke then s.ev (8 * kindOf r.op + classIdx e + (if waited then 4 else 0)) r.attr else s
    let s := s.updStall i (fun t => { t with datPort := port })
    if byp then
      match s.inkFree with
      | some sl => (s.inkReserve sl h).gatherGo i h r op none (some sl)
      | none => s
    else match pick with
      | some x => (if hit.isSome then s else s.alcTake h x).gatherGo i h r op (some x.1) none
      | none => s
  match re, s.stallFor r tk, ok with
  | some (k, x), _, true => go { s with pen := SMap.del s.pen k } x.stall
  | none, some i, true => go (s.accept r role h i tk) i
  | _, _, _ => s.lack r [r.line] 1 tk re

/-! ### Sync -/

/-- A `Sync` is answered once every write that it waits for is committed (R86); until then it is in COMMITWAIT (R138). -/
def State.syncStep (s : State) (i : Nat) : State :=
  match SMap.find s.stalls i with
  | none => s
  | some t =>
    if s.chk || t.final then s
    else if s.awaitsCommit i then s.updStall i (fun x => { x with code := 5 })
    else match t.req.cp with
      | some (st, q, _) => ((s.updStall i (fun x => { x with final := true, first := true })).cpAnswer st i ⟨st, q, 0, false, 0, []⟩).closeReq i
      | none => (s.reply i t Op.syncDone 0 0 []).closeReq i

/-- Dispatch of `Sync` (R86): a stall that blocks no line waits for the slots that carry the requester's completed
writes. -/
def State.dispatchSync (s : State) (r : Req) (tk : Option (Nat × Ticket)) : State :=
  match s.stallFor r tk with
  | none => s.lack r [] 1 tk none
  | some i =>
    let s := s.accept r .req 0 i tk
    let s := s.updStall i (fun t => { t with recorded := true, out := some .direct })
    let s : State := if r.src < 4 then
      { s with ink := s.ink.map (fun e => if e.2.ids.contains r.q then (e.1, { e.2 with waiters := e.2.waiters ++ [i] }) else e) }
      else s
    s.syncStep i

/-- A request is dispatched after the checks (R135-R150). `role`: what its stall is for; `re`: it comes from the pen. -/
def State.dispatch (s : State) (r : Req) (role : Role) (re : Re) : State :=
  let s : State := if re.isSome then s else s.readTicket r.ticket
  let tk := if re.isSome then none else s.redeems r.ticket r.q r.line (r.src == 4)
  let s : State := if re.isNone && r.ticket != 0 && tk.isNone then s.addFld R.YARD_TKTERR 16 16 1 else s
  if r.op = Op.sync then s.dispatchSync r tk
  else
    let h := match re with | some (_, e) => e.h | none => (s.hIdx r.line).getD 0
    let s := (s.dirAccess h).alcLookup
    if s.chk then (if re.isSome || r.src = 5 then s else if r.src = 4 then s else s.refuse r Op.checkstop s.chkCause 0 [])
    else
      let order := match re with | some (_, e) => e.tkt | none => tk.map (fun x : Nat × Ticket => x.2.order)
      match s.penReason r h order re with
      | some n => s.park r role h n tk re
      | none =>
        match role with
        | .preload _ => if s.bypass then s.preloadOff re else s.dispatchGather r role h tk re
        | _ => if r.op = Op.stroke then s.dispatchGather r role h tk re else s.dispatchLine r role h tk re

end Sys2Proof.Machine
end

