-- ==== Sys2Proof/Machine/Ledger.lean ====
section
/-! DEFINITION. The ledger engine: journal rings (R194-R200), ligatures from dispatch to release (R146, R184-R189), the
stroke unit and the ligature unit (R182, R183, R190-R193, R202, R206). -/

namespace Sys2Proof.Machine

/-! ### Journal rings -/

/-- Ring `n` is enabled (R200). -/
def State.ringEn (s : State) (n : Nat) : Bool := s.flag (R.LED_JBASE + 0x20 * n) 63
/-- BASE of a ring. -/
def State.ringBase (s : State) (n : Nat) : Nat := s.fld (R.LED_JBASE + 0x20 * n) 0 52
/-- LINES of a ring. -/
def State.ringLines (s : State) (n : Nat) : Nat := s.fld (R.LED_JSIZE + 0x20 * n) 0 21
/-- SEQ of a ring. -/
def State.ringSeq (s : State) (n : Nat) : Nat := s.fld (R.LED_JSEQ + 0x20 * n) 0 48
/-- HEAD of a ring. -/
def State.ringHead (s : State) (n : Nat) : Nat := s.fld (R.LED_JHEAD + 0x20 * n) 0 48
/-- The world of a ring: that of its regions (R200), followed from BASE wherever it is used (DESIGN CHOICE, log 67). -/
def State.ringWorld (s : State) (n : Nat) : Bool :=
  match s.regionOf (BitVec.ofNat 52 (s.ringBase n)) with | some k => s.regionWorld k | none => false
/-- A line lies within a ring. -/
def State.inRing (s : State) (n : Nat) (l : LineAddr) : Bool :=
  decide (s.ringBase n ≤ l.toNat) && decide (l.toNat < s.ringBase n + s.ringLines n)
/-- The line that holds the record numbered SEQ (R195). -/
def State.journalLine (s : State) (n : Nat) : LineAddr :=
  BitVec.ofNat 52 (s.ringBase n + s.ringSeq n % (2 * s.ringLines n) / 2)
/-- The next record takes slot 0 of its line (R195, R196). -/
def State.slot0 (s : State) (n : Nat) : Bool := s.ringSeq n % 2 == 0
/-- A ring is full (R198). -/
def State.ringFull (s : State) (n : Nat) : Bool :=
  let d := (s.ringSeq n + 2 ^ 48 - s.ringHead n) % 2 ^ 48
  d == 2 * s.ringLines n || (s.slot0 n && d + 1 == 2 * s.ringLines n)

/-- The worlds of the regions that cover the lines from `lo` up to `hi`; none when some line lies in no valid region
(R200, R444). -/
def State.cover (s : State) (lo hi : Nat) : Nat → Option (List Bool)
  | 0 => none
  | f + 1 =>
    if hi ≤ lo then some []
    else if 2 ^ 52 ≤ lo then none
    else match s.regionOf (BitVec.ofNat 52 lo) with
      | none => none
      | some n => (s.cover ((s.regionBase n + s.regionSize n) * 256) hi f).map (fun l => s.regionWorld n :: l)
/-- Every line of a ring lies in a valid region (R200, R347). -/
def State.ringCovered (s : State) (n : Nat) : Bool := (s.cover (s.ringBase n) (s.ringBase n + s.ringLines n) 65).isSome

/-- The status and failing operation of a `Ligature` refused at dispatch (R187). -/
def State.ligFormat (s : State) (r : Req) : Option (Nat × Nat) :=
  let fs := opFlits r.data
  let n := ligRing r.detail
  let ls := dataLines fs
  match fs.findIdx? (fun f => f.ctl.bad) with
  | some k => some (Sts.poison, k)
  | none =>
    if fs.any (fun f => f.op == 0xF) || decide (1 < fs.countP OpFlit.isNote) || ls.isEmpty ||
        fs.any (fun f => f.isNote && f.guard != 0) || decide (4 < ls.length) || ls.head? != some r.line ||
        !s.ringEn n || s.ringWorld n != r.world ||
        ls.any (fun l => decide (s.ringBase n ≤ l.toNat)) ||
        ls.any (fun l => (List.range 8).any (fun k => s.ringEn k && s.inRing k l)) then some (Sts.format, 0)
    else none

/-! ### Resources of a ligature -/

/-- `m` free request stalls beside those already chosen (R135). -/
def State.pickStalls (s : State) (chosen : List Nat) : Nat → List Nat
  | 0 => []
  | m + 1 =>
    match s.freeFrom (s.setAside ++ chosen) Config.baseReq Config.poolReq with
    | some i => i :: State.pickStalls s (chosen ++ [i]) m
    | none => []
/-- ALC entries for lines, each chosen under R212 (R188). -/
def State.pickAlc (s : State) (chosen : List Nat) : List HIdx → List (Nat × Bool × Bool × Bool)
  | [] => []
  | h :: hs =>
    match s.alcPick h chosen with
    | some x => x :: State.pickAlc s (chosen ++ [x.1]) hs
    | none => []
/-- An inkwell slot reserved for each line in bypass (R188, R206): the slots. -/
def State.reserveAll (s : State) : List HIdx → State × List Nat
  | [] => (s, [])
  | h :: hs =>
    match s.inkFree with
    | some sl => let p := (s.inkReserve sl h).reserveAll hs; (p.1, sl :: p.2)
    | none => (s, [])

/-! ### Release -/

/-- A ligature gives up every line it holds and is answered `Retry` (R144, R146, R188): `field` is the counter of
YARD.RETRY, `kind` the event column, `hint` the hint's place in YARD.TKTCTL. A stall whose gathering is in flight is owed to
the ticket until it passes to it (DESIGN CHOICE, log 64). -/
def State.ligRelease (s : State) (slot field kind hint : Nat) : State :=
  match SMap.find s.ligs slot with
  | none => s
  | some g =>
    let r := g.req
    let mine := g.held.map (fun x => x.2) ++ (g.jline.map (fun x => x.2)).toList
    let ready := mine.filter (fun i => (SMap.find s.stalls i).any (fun t => t.ready))
    let flight := mine.filter (fun i => !ready.contains i)
    let unused := g.stalls.filter (fun i => !mine.contains i)
    let s : State := match g.penned with | some k => { s with pen := SMap.del s.pen k } | none => s
    let s := { s with ligs := SMap.del s.ligs slot }
    let s := g.inks.foldl (fun t sl => t.inkDrop sl) s
    let s := ready.foldl (fun t i => match SMap.find t.stalls i with
      | some x =>
        let u : State := match x.ink, x.got with
          | some sl, some d => if x.out == some .dataI || x.out == some .wbPend then t.inkFill sl d else t.inkDrop sl
          | some sl, none => t.inkDrop sl
          | none, _ => t
        { u with stalls := SMap.del u.stalls i }
      | none => t) s
    let s := unused.foldl (fun t i => { t with stalls := SMap.del t.stalls i }) s
    let p : State × BitVec 16 := (s.addFld R.YARD_RETRY field 16 1).respEv kind r |>.issue r g.lines (ready ++ unused) flight.length
    let k : Nat := if p.2 = 0 then Config.tickets else p.2.toNat / 256
    let s := flight.foldl (fun t i => t.updStall i (fun x => { x with role := .lig (8 + k) false, datPort := none })) p.1
    let s : State := if p.2 = 0 then (ready ++ unused).foldl (fun t i => t.giveBack i) s else s
    s.sendRetry r p.2 (s.hint p.2 hint) g.acc

/-! ### Blocking the lines -/

/-- Why a ligature cannot block a line yet (R139, R140, R188): LineBusy or Claim. A ligature of the ALC uses an entry that
the drain has not reached (R225). `seq`: its place in dispatch order. -/
def State.ligReason (s : State) (g : Lig) (l : LineAddr) (h : HIdx) (seq : Nat) : Option Nat :=
  if g.tkt.isNone && s.claimed l none then some 2
  else if (s.blocker h).isSome || s.moving h || (g.bypass && s.draining h) then some 0
  else if s.pen.any (fun f => g.penned != some f.1 && f.2.h == h && f.2.before ⟨0, 0, h, g.tkt, seq⟩) then some 0
  else if s.claimed l g.tkt then some 2
  else none

/-- The line that a ligature blocks next (R188): the lowest data line not held, then its journal line. -/
def State.ligNext (s : State) (g : Lig) : Option (LineAddr × Bool) :=
  match g.lines.find? (fun l => g.held.all (fun x => x.1 != l)) with
  | some l => some (l, false)
  | none => if g.jline.isNone then some (s.journalLine (ligRing g.req.detail), true) else none

/-- The ALC entry that a ligature uses for a line, as R212 picks one (R188): the one that holds it, else the one set aside
for it. A journal line resolved anew takes one set aside that is reserved for no other line, or an entry chosen now (R211;
DEDUCED, log 66). In bypass only an entry that holds the line is used (R216). -/
def State.ligEntry (s : State) (g : Lig) (h : HIdx) : Option (Nat × Bool × Bool × Bool) :=
  match s.alcHit h with
  | some (k, _) => some (k, false, false, false)
  | none =>
    if g.bypass then none
    else match g.aside.find? (fun x => x.1 == h) with
      | some (_, k) => some (k, false, false, false)
      | none =>
        match g.aside.find? (fun x => (SMap.find s.alc x.2).all (fun e => !e.lk)) with
        | some (_, k) => some (k, false, false, false)
        | none => s.alcPick h []

/-- A ligature blocks a line in a stall and gathers it (R188, R189, R196, R215). -/
def State.ligBlock (s : State) (slot : Nat) (g : Lig) (i : Nat) (l : LineAddr) (h : HIdx) (journal : Bool)
    (entry : Option (Nat × Bool × Bool × Bool)) : State :=
  let zero := journal && s.slot0 (ligRing g.req.detail)
  let r : Req := { g.req with line := l, op := if zero then Op.claimZero else g.req.op }
  let resident := (s.alcHit h).isSome
  let ink : Option Nat := if entry.isSome then none else g.inks.head?
  let s : State := match g.inks, entry with | sl :: _, some _ => s.inkDrop sl | _, _ => s
  let s : State := match entry with | some x => if x.2.1 then s.alcTake h x else s | none => s
  let g : Lig := { g with
    aside := if journal then [] else g.aside.filter (fun x => x.1 != h), inks := g.inks.tail,
    zeroed := g.zeroed || (zero && entry.isSome && !resident) }
  let g : Lig := if journal then { g with jline := some (l, i) } else { g with held := g.held ++ [(l, i)] }
  let s := { s with ligs := SMap.put s.ligs slot g }
  let waited := (SMap.find s.stalls i).any (fun t => t.waited)
  let s : State := if l = g.req.line then s.ev (56 + classIdx (s.dirOf h) + (if waited then 4 else 0)) g.req.attr else s
  let s := s.updStall i (fun t => { t with req := r, h := h, role := .lig slot journal })
  let s : State := match ink with
    | some sl => { s with ink := SMap.upd s.ink sl (fun x => { x with h := h, world := s.worldOfH h }) }
    | none => s
  s.gatherGo i h r (if zero then Op.wrFull else Op.stroke) (entry.map (fun x => x.1)) ink

/-- The stall of the next line that a ligature blocks. -/
def Lig.nextStall (g : Lig) : Nat := (g.stalls.find? (fun j => g.held.all (fun x => x.2 != j))).getD 0

/-- A ligature waits in the pen for its next line (R145, R188): in the place that it has there, or in a free one. -/
def State.ligWait (s : State) (slot : Nat) (g : Lig) (h : HIdx) (reason : Nat) : State :=
  match g.penned with
  | some k => s.penPut k g.nextStall reason h g.tkt (((SMap.find s.pen k).map (fun e => e.seq)).getD 0)
  | none =>
    match s.penFree with
    | some k =>
      let s := { s with penSeq := s.penSeq + 1, ligs := SMap.put s.ligs slot { g with penned := some k } }
      s.penPut k g.nextStall reason h g.tkt (s.penSeq - 1)
    | none => s.ligRelease slot 16 2 0

/-- What a ligature does after it has blocked a line (R188): it waits for a re-dispatch on the lane of the next one, or
leaves the pen when it holds every line (R146). -/
def State.ligAfter (s : State) (slot : Nat) : State :=
  match SMap.find s.ligs slot with
  | none => s
  | some g =>
    match s.ligNext g with
    | some (l, _) =>
      let h := (s.hIdx l).getD 0
      let seq := match g.penned.bind (fun k => SMap.find s.pen k) with | some e => e.seq | none => s.penSeq
      s.ligWait slot g h ((s.ligReason g l h seq).getD 0)
    | none =>
      let s : State := match g.penned with | some k => { s with pen := SMap.del s.pen k } | none => s
      { s with ligs := SMap.put s.ligs slot { g with penned := none } }

/-- A dispatch of a ligature toward its next line (R167, R188): the line is blocked, or the ligature waits for it, or gives
up its lines for lack of a relay stall or of an entry. -/
def State.ligStep (s : State) (slot : Nat) : State :=
  match SMap.find s.ligs slot with
  | none => s
  | some g =>
    match s.ligNext g with
    | none => s
    | some (l, journal) =>
      let h := (s.hIdx l).getD 0
      let seq := match g.penned.bind (fun k => SMap.find s.pen k) with | some e => e.seq | none => s.penSeq
      let s := (s.dirAccess h).alcLookup
      if s.chk then s
      else
        match s.ligReason g l h seq with
        | some n => s.ligWait slot g h n
        | none =>
          let zero := journal && s.slot0 (ligRing g.req.detail)
          let p := s.plan { g.req with line := l } (if zero then Op.wrFull else Op.stroke) (s.dirOf h)
          let entry := s.ligEntry g h
          if (p.rly && s.freeStalls 3 = 0) || (!g.bypass && entry.isNone) || (entry.any (fun x => x.2.2.1) && s.inkRoom = 0)
          then s.ligRelease slot 0 1 0
          else (s.ligBlock slot g g.nextStall l h journal entry).ligAfter slot

/-- `Retry` to a ligature that must be penned while the pen is full (R144, R149): a ticket that it redeemed stays valid,
else its own request stalls are kept for a new one. -/
def State.ligPenFull (s : State) (r : Req) (lines : List LineAddr) (stalls : List Nat) (tk : Option (Nat × Ticket)) : State :=
  match tk with
  | some (n, _) =>
    let s := (s.addFld R.YARD_RETRY 16 16 1).respEv 2 r
    { s with tickets := SMap.upd s.tickets n (fun t => { t with issued := s.tod }) }.sendRetry r r.ticket
      (s.fld R.YARD_TKTCTL 0 8) s.tod
  | none => s.retryPen r lines stalls s.tod

/-- First dispatch of a `Ligature` (R188): all its resources or none, then its header line. It needs a place in the pen from
then until it holds all of its lines (R145, R153; DEDUCED, log 66). -/
def State.dispatchLig (s : State) (r : Req) : State :=
  let s : State := s.readTicket r.ticket
  let tk := s.redeems r.ticket r.q r.line false
  let s : State := if r.ticket != 0 && tk.isNone then s.addFld R.YARD_TKTERR 16 16 1 else s
  let order := tk.map (fun x : Nat × Ticket => x.2.order)
  let lines := dataLines (opFlits r.data)
  let hs := (lines ++ [s.journalLine (ligRing r.detail)]).map (fun l => (s.hIdx l).getD 0)
  let n := hs.length
  let s := s.alcLookup
  if s.chk then s.refuse r Op.checkstop s.chkCause 0 []
  else
    let held : List Nat := match tk with | some (_, t) => t.held.take n | none => []
    let stalls := held ++ s.pickStalls held (n - held.length)
    let byp := s.bypass
    let picks := if byp then [] else s.pickAlc [] hs
    let dirty := picks.countP (fun x => x.2.2.1)
    let slot := SMap.firstFree s.ligs 0 Config.ligSlots
    let port := s.datSeat r
    let ok := stalls.length == n && s.mayTake r.src (n - held.length) order &&
      decide ((if byp then n else dirty) ≤ s.inkRoom) && (byp || picks.length == n) && s.datRoom port
    let s : State := if !byp && picks.length != n then s.ev 0xCF {} else s
    match slot, ok with
    | some sl, true =>
      if s.penFree.isNone then s.ligPenFull r lines stalls tk
      else
        let s : State := match tk with
          | some (k, t) => (t.held.drop n).foldl (fun u i => u.giveBack i) { s with tickets := SMap.del s.tickets k }
          | none => s
        let s := stalls.foldl (fun t i =>
          t.openStall i { Stall.new (.lig sl false) r 0 t.tod with ticketed := tk.isSome, blocks := false }) s
        let s := (s.updStall (stalls.headD 0) (fun t => { t with datPort := port })).respEv 0 r
        let s := (List.zip hs picks).foldl (fun t x => t.alcTake x.1 x.2) s
        let p := if byp then s.reserveAll hs else (s, [])
        let g : Lig := ⟨r, lines, stalls, [], none, List.zip hs (picks.map (fun x => x.1)), p.2, byp, none, s.tod, order, false, false⟩
        { p.1 with ligs := SMap.put p.1.ligs sl g }.ligStep sl
    | _, _ => s.lack r lines n tk none

/-! ### Execution -/

/-- One word of a held line is read (R203, R217): from its ALC entry, or in bypass from the stall's staged line. -/
def State.readWord (s : State) (i w : Nat) : State × DWord :=
  match SMap.find s.stalls i with
  | none => (s, DWord.zero)
  | some t =>
    match t.alc with
    | none =>
      let d := ((t.got.getD []).word w)
      (s.updStall i (fun x => { x with got := some ((t.got.getD []).setWord w d.fix) }), d.fix)
    | some k =>
      match SMap.find s.alc k with
      | none => (s, DWord.zero)
      | some e =>
        let d := e.data.word w
        match d.chk with
        | .ok => (s, d)
        | .ce =>
          (((({ s with alc := SMap.put s.alc k { e with data := e.data.setWord w d.fix } }).addFld R.ALC_ECC 0 16 1).alcLoc k w 0 false).ev
            0xB2 (s.alcAttr e.h) |>.note 0 0 2 1 e.world (s.lineOf e.h), d.fix)
        | .ue =>
          let s : State := (s.addFld R.ALC_ECC 32 16 1).alcLoc k w 0 false
          if e.known.getLsbD w then (s, d)
          else (({ s with alc := SMap.put s.alc k { e with known := e.known ||| BitVec.ofNat 32 (2 ^ w) } }.ev 0xB8 (s.alcAttr e.h)).note 0 1 0 2
            e.world (s.lineOf e.h) (arg := BitVec.ofNat 40 (7 + w * 16)), d)

/-- One word of a held line is written (R182, R192). -/
def State.writeWord (s : State) (i w : Nat) (x : DWord) : State :=
  match SMap.find s.stalls i with
  | none => s
  | some t =>
    match t.alc with
    | none => s.updStall i (fun y => { y with got := some ((y.got.getD []).setWord w x) })
    | some k => { s with alc := SMap.upd s.alc k (fun e => { e with d := true, ref := true, data := e.data.setWord w x }) }

/-- In bypass a line that changed, or that came from a holder, is committed from its slot; another releases it (R206). -/
def State.settleLine (s : State) (i : Nat) (changed : Bool) : State :=
  match SMap.find s.stalls i with
  | none => s
  | some t =>
    match t.ink with
    | some sl =>
      if changed || t.out == some .dataI || t.out == some .wbPend then
        (s.inkFill sl (t.got.getD [])).updStall i (fun x => { x with ink := none })
      else (s.inkDrop sl).updStall i (fun x => { x with ink := none })
    | none => s

/-- The stroke unit executes the stroke gathered longest ago (R182, R183, R202). -/
def State.strokeRun (s : State) (i : Nat) : State := s.reading 4 i (fun s =>
  match SMap.find s.stalls i with
  | none => s
  | some t =>
    let f := opFlit t.req.data 0
    let p := s.readWord i f.word
    let old := p.2
    let res := f.apply old
    let sts := res.1
    let new := if sts = 0 then res.2 else old
    let wrote := sts == 0 && f.op != 0x0
    let s := p.1
    let s : State := if wrote then s.writeWord i f.word new else s
    let s : State := if sts = 0 then
        s.ev 0xC0 { w := some t.req.world, i := some t.req.q.toNat, l := some t.req.line.toNat }
      else s.abortNote t.req sts 0 false
    let s : State := if t.alc.isNone then
        (s.ev 0xC5 { w := some t.req.world, i := some t.req.q.toNat, l := some t.req.line.toNat }).settleLine i wrote
      else s
    let d := if sts = Sts.poison then [DWord.zero, DWord.zero, DWord.zero, DWord.zero] else [old, new, DWord.zero, DWord.zero]
    let s := s.reply i t Op.strokeDone (strokeDetail f sts old.val new.val) 1 d
    match SMap.find s.stalls i with
    | some u => s.doClose i u
    | none => s)

/-- What the ligature unit has done so far (R190): staged words by stall and word, NEW of each operation, the JNOTE's A,
the status, the failing operation and its OLD. -/
structure LigRun where
  stage : List (Nat × Nat × DWord)
  res : List DWord
  user : DWord
  sts : Nat
  fop : Nat
  seen : DWord
  deriving DecidableEq, Repr

/-- The operations in ascending index order against the staging copy (R190, R191). -/
def State.ligOps (s : State) (held : List (LineAddr × Nat)) (k : Nat) (x : LigRun) : List OpFlit → State × LigRun
  | [] => (s, x)
  | f :: fs =>
    if f.isNote then s.ligOps held (k + 1) { x with user := f.a, res := x.res ++ [DWord.zero] } fs
    else
      let i := ((held.find? (fun e => e.1 == f.line)).map (fun e => e.2)).getD 0
      let p : State × DWord := match x.stage.find? (fun e => e.1 == i && e.2.1 == f.word) with
        | some e => (s, e.2.2)
        | none => s.readWord i f.word
      let r := f.apply p.2
      if r.1 = 0 then
        let stage := if f.op = 0x0 then x.stage
          else (i, f.word, r.2) :: x.stage.filter (fun e => !(e.1 == i && e.2.1 == f.word))
        p.1.ligOps held (k + 1) { x with stage := stage, res := x.res ++ [DWord.gen r.2.val] } fs
      else (p.1, { x with sts := r.1, fop := k, seen := p.2 })

/-- The journal record (R197). -/
def ligRecord (g : Lig) (seq : Nat) (tod : Tod) (x : LigRun) : List DWord :=
  let fs := opFlits g.req.data
  let mask := fun l : LineAddr => (List.range fs.length).foldl (fun m k =>
    match fs[k]? with | some f => if !f.isNote && f.line == l then m + 2 ^ k else m | none => m) 0
  let w0 := seq + ligRing g.req.detail * 2 ^ 48 + g.lines.length * 2 ^ 51 + fs.length * 2 ^ 54 + b2n g.req.world * 2 ^ 58 + 2 ^ 63
  let w2 := g.req.q.toNat + g.req.tag.toNat * 2 ^ 18 + ligJtag g.req.detail * 2 ^ 30
  let gen := fun n : Nat => DWord.gen (BitVec.ofNat 64 n)
  [gen w0, DWord.gen tod, gen w2, x.user] ++
  (List.range 4).map (fun j => match g.lines[j]? with | some l => gen (l.toNat + mask l * 2 ^ 52) | none => DWord.zero) ++
  (List.range 8).map (fun k => x.res.getD k DWord.zero)

/-- Words written at a place of a held line, one after another. -/
def State.writeWords (s : State) (i : Nat) : Nat → List DWord → State
  | _, [] => s
  | w, x :: r => (s.writeWord i w x).writeWords i (w + 1) r

/-- The commit of a ligature (R192, R193): the journal record at the ring's tail, the staged words, the ring's sequence, or the
note of the abort. -/
def State.ligCommit (s : State) (g : Lig) (n ji seq : Nat) (x : LigRun) : State :=
  if x.sts = 0 then
    let rec_ := ligRecord g seq s.tod x
    let s := if seq % 2 = 0 then s.writeWords ji 0 (rec_ ++ List.replicate 16 DWord.zero) else s.writeWords ji 16 rec_
    let s := x.stage.foldl (fun t e => t.writeWord e.1 e.2.1 e.2.2) s
    (s.setReg (R.LED_JSEQ + 0x20 * n) (BitVec.ofNat 64 ((seq + 1) % 2 ^ 48))).ev 0xC2
      { w := some g.req.world, i := some g.req.q.toNat, l := some g.req.line.toNat }
  else s.abortNote g.req x.sts x.fop true

/-- The two operand words of `LigDone` after its sequence word (R193): what the ligature gave, or what it saw. -/
def ligResult (x : LigRun) : DWord × DWord :=
  (if x.sts = 0 then x.res.getD 0 DWord.zero
   else if x.sts = 1 || x.sts = 2 || x.sts = 3 then DWord.gen x.seen.val else DWord.zero,
   if x.sts = 0 then x.res.getD 1 DWord.zero else DWord.zero)

/-- `LigDone` to the requester, on the stall that leads the ligature (R193). -/
def State.ligAnswer (s : State) (g : Lig) (n seq : Nat) (x : LigRun) : State :=
  let w0 := if x.sts = 0 then DWord.gen (BitVec.ofNat 64 (seq + n * 2 ^ 48)) else DWord.zero
  let fop := if x.sts = 5 || x.sts = 6 then 0 else x.fop
  let lead := g.stalls.headD 0
  match SMap.find s.stalls lead with
  | some t => s.reply lead { t with req := g.req, acc := g.acc, first := false } Op.ligDone (x.sts + fop * 16) 1
      [w0, DWord.gen s.tod, (ligResult x).1, (ligResult x).2]
  | none => s

/-- The end of a ligature: it leaves the ligature unit, its reserved slots are given up, and every stall closes (R193). -/
def State.ligEnd (s : State) (slot : Nat) (g : Lig) : State :=
  let s := { s with ligs := SMap.del s.ligs slot }
  let s := g.inks.foldl (fun t sl => t.inkDrop sl) s
  g.stalls.foldl (fun t i => match SMap.find t.stalls i with | some u => t.doClose i u | none => t) s

/-- The outcome that the full journal ring imposes (R192): `JFULL`, its event and its record. -/
def State.ligFull (s : State) (g : Lig) (n : Nat) (x : LigRun) : State × LigRun :=
  if x.sts = 0 && s.ringFull n then
    ((s.setFlag R.LED_EVENTS n true).ev 0xC6 { w := some g.req.world, i := some g.req.q.toNat, l := some g.req.line.toNat },
      { x with sts := Sts.jfull })
  else if x.sts = Sts.jfull then
    ((s.setFlag R.LED_EVENTS n true).ev 0xC6 { w := some g.req.world, i := some g.req.q.toNat, l := some g.req.line.toNat }, x)
  else (s, x)

/-- A ligature in the ligature unit (R190-R193): its operations, its record, its commit, `LigDone`, and the close of every
stall. A journal line that it zero-allocated is given up unless it commits, so that every line is left unchanged (R179). -/
def State.ligRun (s : State) (slot : Nat) : State :=
  match SMap.find s.ligs slot with
  | none => s
  | some g =>
    let s : State := s.readStalls g.stalls
    if s.chk then s
    else
    let n := ligRing g.req.detail
    let fs := opFlits g.req.data
    let ji := (g.jline.map (fun x => x.2)).getD 0
    let start : LigRun := ⟨[], [], DWord.zero, 0, 0, DWord.zero⟩
    let p := if g.dead || !s.ringEn n then (s, { start with sts := Sts.format }) else s.ligOps g.held 0 start fs
    let q := p.1.ligFull g n p.2
    let x := q.2
    let a : Attr := { w := some g.req.world, i := some g.req.q.toNat, l := some g.req.line.toNat }
    let seq := q.1.ringSeq n
    let s := (q.1.ligCommit g n ji seq x).evN 0xC4 (if x.sts = 0 then fs.length else x.fop) a
    let s := if g.bypass then s.ev 0xC5 a else s
    let all := g.held.map (fun e => e.2) ++ [ji]
    let s : State := if x.sts != 0 && g.zeroed then
        (match (SMap.find s.stalls ji).bind (fun t => t.alc) with | some k => s.alcGive k | none => s)
      else s
    let s := all.foldl (fun t i => t.settleLine i (x.sts == 0 && (i == ji || x.stage.any (fun e => e.1 == i)))) s
    (s.ligAnswer g n seq x).ligEnd slot g

end Sys2Proof.Machine
end

