-- ==== Sys2Proof/Machine/Answers.lean ====
section
/-! DEFINITION. Answers to snoops and relayed invalidations (R66, R79, R80, R108, R495), write-backs that meet a stall
(R81, R163-R166), and completions on a failed agent's behalf (R324). -/

namespace Sys2Proof.Machine

/-- An answer to a snoop, with the data it brings (R66). -/
inductive Ans where
  | ackI | ackS | fwdI | fwdO | wbPend
  | dataI (d : LineData)
  | dataO (d : LineData)
  deriving DecidableEq, Repr

/-- The answer is one that R66 permits for the snoop and for the directory's record of the responder (R79, R80). `owner`:
the state of the entry that records the responder as X holder or O owner. -/
def permitted (w : Wait) (owner : Option DState) (a : Ans) : Bool :=
  match owner with
  | some st =>
    let x := st == .x
    if w.op = Op.snpShare then
      (match a with
        | .fwdO => w.fmode | .dataO _ => !w.fmode | .wbPend => true | .ackI => x | .ackS => x | _ => false)
    else if w.op = Op.snpUnique then
      (match a with
        | .fwdI => w.fmode | .dataI _ => !w.fmode | .wbPend => true | .ackI => x | _ => false)
    else if w.op = Op.snpInv then (match a with | .ackI => true | .wbPend => true | _ => false)
    else (match a with | .dataI _ => true | .wbPend => true | .ackI => x | _ => false)
  | none => match a with | .ackI => true | _ => false

/-- The state of a line's entry that records an endpoint as X holder or O owner. -/
def State.ownsIn (s : State) (h : HIdx) (who : EpId) : Option DState :=
  match s.dirOf h with
  | some (_, e) => if e.owner == some who then some e.st else none
  | none => none

/-- `CmpW` to the writer of an absorbed `WbDirty` (R81, R83). -/
def State.cmpWb (s : State) (b : Absorb) (line : LineAddr) : State :=
  s.tell ⟨Op.cmpW, b.who, b.world, line, b.tag, 0, 0, []⟩

/-- The withheld `CmpW` of a stall is sent once its writer's answer has come (R164). -/
def State.release (s : State) (i : Nat) (who : EpId) : State :=
  match SMap.find s.stalls i with
  | some t =>
    match t.absorbed with
    | some b =>
      if b.who = who && b.withheld then
        (s.updStall i (fun x => { x with absorbed := some { b with withheld := false } })).cmpWb b (s.lineOf t.h)
      else s
    | none => s
  | none => s

/-- A permitted answer of `w` takes effect in stall `i` (R75, R79, R119): the wait ends; the holder's answer decides, and
with the arrival of a forward answer the wait for `CmpAck` begins (R85). -/
def State.settleAnswer (s : State) (i : Nat) (w : Wait) (a : Ans) : State :=
  let s := s.updStall i (fun t => { t with waits := t.waits.erase w })
  let s := s.release i w.who
  match SMap.find s.stalls i with
  | none => s
  | some t =>
    let absorbed := t.absorbed.any (fun b => b.who == w.who)
    let evicting := match t.role with | .evict _ _ => true | _ => false
    let s : State := match a with
      | .wbPend => if absorbed then s else s.updStall i (fun x => { x with wbWait := some w.who })
      | .dataI d =>
        if evicting then
          (match t.ink with
            | some sl => (s.inkFill sl d).updStall i (fun x => { x with ink := none })
            | none => s)
        else s.updStall i (fun x => { x with got := some (LineData.norm d) })
      | .dataO d => s.updStall i (fun x => { x with got := some (LineData.norm d) })
      | _ => s
    let s : State := if w.holder then
        let o : Out := match a with
          | .ackI => .ackI | .ackS => .ackS | .fwdI => .fwdI | .fwdO => .fwdO | .wbPend => .wbPend
          | .dataI _ => .dataI | .dataO _ => .dataO
        let at_ := if o = .fwdI || o = .fwdO then some s.tod else t.respAt
        s.updStall i (fun x => { x with out := some o, respAt := at_ })
      else s
    s.step1 i

/-- An answer that arrives for an awaited snoop (R79, R80): a violation stops the domain or counts as `SnpAckI`. -/
def State.takeAnswer (s : State) (i : Nat) (w : Wait) (a : Ans) (op : BitVec 6) : State :=
  match SMap.find s.stalls i with
  | none => s
  | some t =>
    let owner := s.ownsIn t.h w.who
    if permitted w owner a then s.settleAnswer i w a
    else
      let s := s.ev 0xA2 { w := some t.req.world, i := some w.who.toNat, l := some (s.lineOf t.h).toNat }
      let s := s.note 0 2 0 2 (s.worldOfH t.h) (s.lineOf t.h) (BitVec.ofNat 12 i) w.who op
      if owner.isSome then s.declare 8 1 else s.settleAnswer i w .ackI

/-- A snoop is completed on behalf of an endpoint whose fence entry is not FREE, or was released meanwhile (R324, after
its forwarding row). -/
def State.onBehalf (s : State) (i : Nat) (w : Wait) : State :=
  match SMap.find s.stalls i with
  | none => s
  | some t =>
    let a : Attr := { i := some w.who.toNat, l := some (s.lineOf t.h).toNat }
    if !w.holder || w.op = Op.snpInv then (s.ev 0xA3 a).settleAnswer i w .ackI
    else if t.absorbed.any (fun b => b.who == w.who) then (s.ev 0xA3 a).settleAnswer i w .wbPend
    else if s.fence w.who = 1 then
      s.updStall i (fun x => { x with waits := x.waits.map (fun y => if y = w then { y with st := .flush } else y) })
    else if s.fenceOut w.who = 2 then s.declare 8 1
    else (s.ev 0xA3 a).settleAnswer i w .ackI

/-- A forward is completed on the owner's behalf because the requester's `CmpAck` has come (R324). -/
def State.asForward (s : State) (i : Nat) (w : Wait) : State :=
  (s.ev 0xA3 { i := some w.who.toNat }).settleAnswer i w (if w.op = Op.snpUnique then .fwdI else .fwdO)

/-- Every snoop that waits for an endpoint's flush is completed (R324). -/
def State.flushed (s : State) (who : EpId) : State :=
  (s.stalls.map (fun e => e.1)).foldl (fun t i =>
    match (SMap.find t.stalls i).bind (fun x => x.waits.find? (fun w => w.who == who && w.st == .flush)) with
    | some w => t.onBehalf i w
    | none => t) s

/-- An arrival is a late answer (R495): a `CmpAck` by its source and tag, another by the stall that its tag names. -/
def State.isLate (s : State) (p : Packet) : Bool :=
  if p.opcode = Op.cmpAck then s.lates.any (fun e => e.2.contains ⟨p.src, p.tag, p.line, true⟩)
  else ((SMap.find s.lates p.tag.toNat).getD []).contains ⟨p.src, p.tag, p.line, false⟩

/-- An arrival that matches no awaited answer: a late answer (R253), or a stray (R495). -/
def State.unmatched (s : State) (p : Packet) : State :=
  if s.isLate p then
    ((s.addFld R.RTE_ERRCNT 0 16 1).ev 0xA1 { w := some p.world, i := some p.src.toNat, l := some p.line.toNat }).note 0 3 2 2 p.world p.line p.tag p.src p.opcode
  else s.stray p

/-- The awaited answer of a stall that an arrival matches by tag, source and line (R56, R495). -/
def State.awaited (s : State) (p : Packet) : Option (Nat × Wait) :=
  match SMap.find s.stalls p.tag.toNat with
  | some t =>
    if s.lineOf t.h = p.line then
      (t.waits.find? (fun w => w.who == p.src && w.op != Op.rlyInv && (match w.st with | .sent _ => true | .queued => true | _ => false))).map
        (fun w => (p.tag.toNat, w))
    else none
  | none => none

/-- The event of a received answer (R439). -/
def ansEvent (op : BitVec 6) : Nat :=
  if op = Op.snpAckI then 0x98 else if op = Op.snpAckS then 0x99 else if op = Op.snpFwdI then 0x9A
  else if op = Op.snpFwdO then 0x9B else if op = Op.snpWbPend then 0x9C
  else if op = Op.rlyAck then 0x9E else if op = Op.cmpAck then 0x9F else 0x9D

/-- The attributes of a packet from port `n`. -/
def pktAttr (n : Nat) (p : Packet) : Attr :=
  { w := some p.world, s := some n, i := some p.src.toNat, l := some p.line.toNat, c := some p.cls.toNat }

/-- A snoop answer arrives at dispatch (R79, R337, R495). -/
def State.snoopAnswer (s : State) (n : Nat) (p : Packet) (a : Ans) : State :=
  let s := s.ev (ansEvent p.opcode) (pktAttr n p)
  if s.chk then s
  else s.reading 4 p.tag.toNat (fun s => match s.awaited p with
    | some (i, w) => s.takeAnswer i w a p.opcode
    | none => s.unmatched p)

/-! ### CmpAck -/

/-- The stall that a `CmpAck` names by source and tag (R55). -/
def State.ackStall (s : State) (q : EpId) (tag : Tag) : Option Nat :=
  (SMap.firstWith s.stalls (fun _ t => t.role == .req && t.req.acks && t.req.q == q && t.req.tag == tag && t.code != 1 && !t.ackGot)).map
    (fun e => e.1)

/-- A `CmpAck` arrives (R84, R324, R495). -/
def State.takeAck (s : State) (n : Nat) (p : Packet) : State :=
  let s := s.ev 0x9F (pktAttr n p)
  if s.chk then s
  else match s.ackStall p.src p.tag with
    | none => s.unmatched p
    | some i => s.reading 4 i (fun s =>
      let s := s.updStall i (fun t => { t with ackGot := true })
      match (SMap.find s.stalls i).bind (fun t => t.waits.find? (fun w => w.holder && (match w.st with | .window _ => true | _ => false))) with
      | some w => s.asForward i w
      | none => s.closeReq i)

/-! ### Write-backs -/

/-- A stall that commits the line it absorbs has used its reserved slot for a first one, and no slot is free (R166; log 62):
then a second `WbDirty` waits. -/
def State.noRoom (s : State) (t : Stall) : Bool :=
  let commits := match t.role with
    | .lig _ _ => false
    | .preload _ => false
    | _ => t.req.op != Op.stroke && t.req.op != Op.wrFull && t.req.op != Op.wrPart
  commits && t.ink.isNone && s.inkFree.isNone

/-- A stall's absorbed line goes where R166 says. Its writer's `Sync` waits for the line that replaces it or is merged from
it (R86). -/
def State.absorbLine (s : State) (i : Nat) (t : Stall) (d : LineData) (who : EpId) : State :=
  let op := t.req.op
  match t.role with
  | .lig _ _ => s.updStall i (fun x => { x with got := some (LineData.norm d) })
  | .preload _ => s.updStall i (fun x => { x with got := some (LineData.norm d) })
  | _ =>
    if op = Op.stroke then s.updStall i (fun x => { x with got := some (LineData.norm d) })
    else if op = Op.wrFull || op = Op.wrPart then
      let s : State := match t.ink with
        | some sl => { s with ink := SMap.upd s.ink sl (fun x => { x with ids := x.ids ++ [who] }) }
        | none => s
      if op = Op.wrFull then s else s.updStall i (fun x => { x with got := some (LineData.norm d) })
    else match t.ink with
      | some sl => (s.inkFill sl d [who]).updStall i (fun x => { x with ink := none, got := some (LineData.norm d) })
      | none =>
        match s.inkFree with
        | some sl => ((s.inkReserve sl t.h).inkFill sl d [who]).updStall i (fun x => { x with got := some (LineData.norm d) })
        | none => s

/-- A stall absorbs a `WbDirty` (R81, R163-R166, R324). -/
def State.absorb (s : State) (n : Nat) (p : Packet) (i : Nat) (t : Stall) : State :=
  let s := s.ev 0xA5 (pktAttr n p)
  let pend := t.waits.find? (fun w => w.who == p.src && w.op != Op.rlyInv)
  let b : Absorb := ⟨p.src, p.tag, p.world, pend.isSome⟩
  let s := s.absorbLine i t p.data p.src
  let s := s.updStall i (fun x => { x with absorbed := some b })
  let waiting := t.wbWait == some p.src
  let s : State := if waiting then s.updStall i (fun x => { x with wbWait := none }) else s
  match pend with
  | some w => if w.st = .flush then s.onBehalf i w else s
  | none => (s.cmpWb b p.line).step1 i

/-- An endpoint is awaited by a stall, or recorded as the owner of its line (R78, R81). -/
def State.wbOwner (s : State) (h : HIdx) (q : EpId) : Bool :=
  (s.ownsIn h q).isSome || s.stalls.any (fun e => e.2.h == h && e.2.blocks && e.2.wbWait == some q)

/-- A stray `WbDirty` (R71, R78): its data is discarded and its sender told. -/
def State.strayWb (s : State) (n : Nat) (p : Packet) : State :=
  let s := (s.ev 0xBC (pktAttr n p)).note 0 2 6 2 p.world p.line p.tag p.src p.opcode
  s.tell ⟨Op.error, p.src, p.world, p.line, p.tag, BitVec.ofNat 40 Cause.strayWb, 0, []⟩

/-- A `WbDirty` of a line that no stall blocks (R78, R136): stall `i` and inkwell slot `sl` take it, the owner leaves the
entry, and the sender is told. -/
def State.wbTake (s : State) (n : Nat) (p : Packet) (h : HIdx) (i sl : Nat) : State :=
  let r : Req := ⟨p.opcode, n, p.world, p.src, p.tag, p.line, 0, p.detail, [], none⟩
  let s := (s.ev 0xA4 (pktAttr n p)).openStall i (Stall.new .wb r h s.tod)
  let s := (s.inkReserve sl h).inkFill sl p.data [p.src]
  let s : State := match s.dirOf h with
    | some (k, e) => if e.st = .o then s.dropOwner k h e else s.freeEntry k
    | none => s
  let s := s.tell ⟨Op.cmpW, p.src, p.world, p.line, p.tag, 0, 0, []⟩
  match SMap.find s.stalls i with
  | some t => s.doClose i t
  | none => s

/-- What becomes of the `WbDirty` at the head of a write-back queue (R78, R81, R135, R136, R321, R337, R347): none when
it must wait. -/
def State.writeBack (s : State) (n : Nat) (p : Packet) : Option State :=
  if s.chk then some (s.tell ⟨Op.checkstop, p.src, p.world, p.line, p.tag, BitVec.ofNat 40 s.chkCause, 0, []⟩)
  else if s.fence p.src = 3 then some (s.strayWb n p)
  else match s.hIdx p.line with
    | none => some (s.viol 1 n p.src.toNat p.world p.line p.tag p.opcode)
    | some h =>
      let s := s.dirAccess h
      if s.chk then some (s.tell ⟨Op.checkstop, p.src, p.world, p.line, p.tag, BitVec.ofNat 40 s.chkCause, 0, []⟩)
      else if !s.wbOwner h p.src then some (s.strayWb n p)
      else match s.blocker h with
        | some i =>
          (match SMap.find s.stalls i with
            | some t => if s.noRoom t then none else some (s.absorb n p i t)
            | none => none)
        | none =>
          match s.aStall 1, s.inkFree with
          | some i, some sl => some (s.wbTake n p h i sl)
          | _, _ => none

/-! ### Relay answers -/

/-- A relay failure (R108, R319, R333): the `RlyInv` is sent again, or the domain stops. `why`: 0 timeout, 1 ERR. -/
def State.relayFail (s : State) (ri : Nat) (t : Stall) (w : Wait) (why : Nat) : State :=
  let s := s.relayFailNote ri t w.who why
  if w.resends < s.fld R.GLB_RCVCTL 8 2 then
    (((s.setFlag R.GLB_RCVSTAT 20 true).ev 0xAF { l := some t.req.line.toNat }).redo 0x96).rlySend ri t w.who (w.resends + 1)
  else s.declare 8 1

/-- One relay's part of a multicast is complete (R108, R114). -/
def State.relayDone (s : State) (ri : Nat) (t : Stall) (w : Wait) (clear : Bool) : State :=
  let s := s.updStall ri (fun x => { x with waits := x.waits.erase w })
  let s : State := match t.role with
    | .relay p => if clear then s else s.updStall p (fun x => { x with out := some .direct })
    | _ => s
  s.relayStep ri

/-- A `RlyAck` arrives (R107, R108, R114). -/
def State.takeRlyAck (s : State) (n : Nat) (p : Packet) : State :=
  let s := s.ev 0x9E (pktAttr n p)
  if s.chk then s
  else s.reading 4 p.tag.toNat (fun s =>
    let hit : Option (Stall × Wait) := match SMap.find s.stalls p.tag.toNat with
      | some t =>
        (match t.role with
          | .relay _ => if t.req.line = p.line then
              (t.waits.find? (fun w => w.who == p.src && (match w.st with | .sent _ => true | .queued => true | _ => false))).map (fun w => (t, w))
            else none
          | _ => none)
      | none => none
    match hit with
    | none => s.unmatched p
    | some (t, w) =>
      let d := p.detail.toNat
      let viol := bit d 20
      let fail := bit d 21
      let err := bit d 22
      if err then s.relayFail p.tag.toNat t w 1
      else
        let s : State := if viol then s.note 0 2 0 2 p.world p.line p.tag p.src p.opcode else s
        let s : State := if fail then (s.setFlag R.GLB_RCVSTAT 21 true).note 0 5 4 2 p.world p.line p.tag p.src p.opcode else s
        let isCensus := match t.role with
          | .relay q => (SMap.find s.stalls q).any (fun x => match x.role with | .census _ => true | _ => false)
          | _ => false
        s.relayDone p.tag.toNat t w (!isCensus || (d / 2 ^ 10 % 2 ^ 10 == 0 && !viol && !fail)))

end Sys2Proof.Machine
end

