-- ==== Sys2Proof/Machine/Recovery.lean ====
section
/-! DEFINITION. Failed agents (R320-R328), the purge walk (R125-R128), sparing and stop broadcasts (R329, R330, R338), the
alias CAM (R260), and what a checkstop does (R337). -/

namespace Sys2Proof.Machine

/-! ### Fence table -/

/-- The address of fence entry `k`. -/
def fenceReg (k : Nat) : Nat := R.GLB_FENCE + 8 * k
/-- The lowest-numbered FREE fence entry (R320). -/
def State.fenceFree (s : State) : Option Nat := (List.range 16).find? (fun k => s.fld (fenceReg k) 18 2 == 0)

/-- The next flush request is raised on TK_RCV when the handshake is idle (R322), with the ID that the alias CAM gives (R41,
R315). A halted ostler raises none. -/
def State.flushPump (s : State) : State :=
  match s.rcv.req, s.rcv.asks with
  | none, a :: r =>
    if s.ostHalted then s
    else
      let t : State := s.readAll 6
      { t with rcv := { t.rcv with req := some a, reqHigh := true, asks := r }, rcvTx := t.rcvTx ++ [t.toPhys a] }
  | _, _ => s

/-- An entry takes a new state: its event bit, which FREE has not, its record and its notice (R327, R340, R426, R451). -/
def State.fenceMoved (s : State) (k st : Nat) (who : EpId) : State :=
  let s : State := if st = 0 then s else s.setFlag R.GLB_RCVSTAT (16 + st) true
  (s.note 0 5 st 2 (id := who)).noticeFence k

/-- An entry leaves the fence table (R327): its state becomes FREE, the other fields stay. -/
def State.unfence (s : State) (k : Nat) : State :=
  (s.setFld (fenceReg k) 18 2 0).fenceMoved k 0 (BitVec.ofNat 18 (s.fld (fenceReg k) 0 18))

/-- An ID becomes SUSPECT (R320, R322); without a FREE entry the domain stops. -/
def State.suspect (s : State) (who : EpId) (trig : Nat) : State :=
  match s.fenceIdx who, s.fenceFree with
  | some _, _ => s
  | none, none => s.declare 8 1
  | none, some k =>
    let s : State := s.setReg (fenceReg k) (BitVec.ofNat 64 (who.toNat + 1 * 2 ^ 18 + trig * 2 ^ 22 + 2 ^ 25))
    let s : State := s.fenceMoved k 1 who
    ({ s with rcv := { s.rcv with asks := s.rcv.asks ++ [who] } }).flushPump

/-- An ID joins the purge walk at its current position, or waits for a place (R125, R126). -/
def State.joinPurge (s : State) (who : EpId) : State :=
  if s.rcv.purge.length < 16 then
    { s with rcv := { s.rcv with purge := s.rcv.purge ++ [(who, s.fld R.DIR_PURGE_STATUS 6 17, false)] } }
  else { s with rcv := { s.rcv with purgeWait := s.rcv.purgeWait ++ [who] } }

/-- An outcome for a SUSPECT ID (R322, R327): 1 FLUSHED, any other code NOFLUSH. -/
def State.outcome (s : State) (who : EpId) (code : Nat) : State :=
  match s.fenceIdx who with
  | none => s
  | some k =>
    let o := if code = 1 then 1 else 2
    let s : State := (s.setFld (fenceReg k) 18 2 2).setFld (fenceReg k) 20 2 o
    let s : State := { s with rcv := { s.rcv with ackAt := SMap.del s.rcv.ackAt k } }
    let s : State := (s.fenceMoved k 2 who).joinPurge who
    s.flushed who


/-- An ID has left the purge walk's set: it retires (R126, R327). -/
def State.retire (s : State) (who : EpId) : State :=
  match s.fenceIdx who with
  | some k => if s.fld (fenceReg k) 18 2 = 2 then (s.setFld (fenceReg k) 18 2 3).fenceMoved k 3 who else s
  | none => s

/-- The purge walk at its insertion slot (R123, R126-R128): the position's open ways, then the next position. -/
def State.purgeVisit (s : State) : State :=
  if s.rcv.purge.isEmpty || s.chk then s
  else
    let pos := s.fld R.DIR_PURGE_STATUS 6 17
    let gone := s.rcv.purge.filter (fun e => e.2.2 && e.2.1 == pos)
    let stay := (s.rcv.purge.filter (fun e => !(e.2.2 && e.2.1 == pos))).map (fun e => (e.1, e.2.1, true))
    let s : State := { s with rcv := { s.rcv with purge := stay } }
    let s : State := gone.foldl (fun t e => t.retire e.1) s
    let s : State := match s.rcv.purgeWait with
      | w :: r => if s.rcv.purge.length < 16 then ({ s with rcv := { s.rcv with purgeWait := r } }).joinPurge w else s
      | [] => s
    if s.rcv.purge.isEmpty then s.setReg R.DIR_PURGE_DONE s.tod
    else
      let s : State := { s with rcv := { s.rcv with purge := s.rcv.purge.map (fun e => (e.1, e.2.1, true)) } }
      let s : State := (List.range s.lookupWays).foldl (fun t w =>
        let k := dirKey pos w
        match SMap.find t.dirs k with
        | some e =>
          let l := t.lineAt k
          let t := (t.dirProbe 0 k l).extRead k e
          if t.chk || t.pinned k then t else t.purgeEntry k
        | none => t.dirProbe 0 k 0) s
      s.setFld R.DIR_PURGE_STATUS 6 17 ((pos + 1) % Config.positions)

/-! ### Alias CAM -/

/-- The address of CAM entry `k`. -/
def camReg (k : Nat) : Nat := R.RTE_CAM + 8 * k
/-- The entries of the CAM that are valid: index, logical ID, physical ID. -/
def State.camList (s : State) : List (Nat × Nat × Nat) :=
  (s.win.filter (fun e => decide (R.RTE_CAM / 8 ≤ e.1) && decide (e.1 < R.RTE_CAM / 8 + 1024) && bit e.2.toNat 36)).map
    (fun e => (e.1 - R.RTE_CAM / 8, getBits e.2 0 18, getBits e.2 18 18))
/-- The result of R260 for a request, and the entry it concerns. -/
def State.aliasResult (s : State) (lo ph : Nat) (set : Bool) : Nat × Nat :=
  let c := s.camList
  if set then
    if lo = ph || c.any (fun e => e.2.1 == ph) || c.any (fun e => e.2.2 == lo) then (3, 0)
    else if c.any (fun e => e.2.2 == ph && e.2.1 != lo) then (2, 0)
    else match c.find? (fun e => e.2.1 == lo) with
      | some e => (0, e.1)
      | none =>
        match (List.range 1024).find? (fun k => c.all (fun e => e.1 != k)) with
        | some k => (0, k)
        | none => (1, 0)
  else match c.find? (fun e => e.2.1 == lo) with
    | some e => (0, e.1)
    | none => (4, 0)

/-- A request is applied to the alias CAM (R260): the result stands in RTE.ALIASSTAT. An ID that gains an entry is freed
when it is RETIRED (R327). The CAM is read first (R315). -/
def State.aliasApply (s : State) (lo ph : Nat) (set : Bool) : State × Nat :=
  let s := s.readAll 6
  let r := s.aliasResult lo ph set
  let s : State := if r.1 = 0 then
      let s : State := s.setReg (camReg r.2) (if set then BitVec.ofNat 64 (lo + ph * 2 ^ 18 + 2 ^ 36) else setBits (s.reg (camReg r.2)) 36 1 0)
      let s : State := { s with faults := s.faults.filter (fun f => !(f.1 == 6 && f.2.1 == r.2)) }
      let s : State := s.ev 0xEF { i := some lo }
      let s : State := match s.fenceIdx (BitVec.ofNat 18 lo) with
        | some k => if set && s.fld (fenceReg k) 18 2 = 3 then s.unfence k else s
        | none => s
      s.setFld R.RTE_ALIASSTAT 5 10 r.2
    else s
  ((s.setFld R.RTE_ALIASSTAT 1 3 r.1).setFlag R.RTE_ALIASSTAT 4 true, r.1)

/-! ### Broadcasts -/

/-- The local IDs of a set register (R330, R340). -/
def State.setLocals (s : State) (a : Nat) : List Nat :=
  let base := s.fld a 0 9
  (List.range (min (min 512 (s.fld a 9 10)) (512 - base))).map (fun l => base + l)
/-- The home set (R330). -/
def State.homeSet (s : State) : List EpId := s.cmask.flatMap (fun c => (s.setLocals R.GLB_HOMESET).map (fun l => endpoint c l))
/-- The homes that a sparing broadcast names: every home of the set other than this one (R329). -/
def State.otherHomes (s : State) : List EpId := s.homeSet.filter (fun e => e != s.homeId)
/-- The stop set in this home's cluster (R338). -/
def State.stopSet (s : State) : List EpId := (s.setLocals R.GLB_STOPSET).map (fun l => endpoint (clusterOf s.homeId) l)

/-- The tag of broadcast messages (DESIGN CHOICE, log 12). -/
def bcastTag : Tag := 0x800

/-- A broadcast ends when no target is left (R329, R340). -/
def State.bcastEnd (s : State) : State :=
  if s.mgt.bMsg.isSome && s.mgt.bTargets.isEmpty && s.mgt.bOut.isEmpty then
    let s : State := { s with mgt := { s.mgt with bMsg := none } }
    let s : State := s.setFld R.GLB_BCAST 59 3 (if s.fld R.GLB_BCAST 40 19 = 0 then 1 else 2)
    (s.setFlag R.GLB_BCAST 0 false).setFlag R.GLB_BCAST 62 true
  else s

/-- A broadcast sends to its next targets, at most 64 of them unacknowledged (R329). A target without a route is one that
does not answer (R243). A halted ostler sends nothing (R338). -/
def State.bcastPump (s : State) : Nat → State
  | 0 => s
  | f + 1 =>
    match s.mgt.bMsg, s.mgt.bTargets with
    | some (op, det), t :: r =>
      if s.mgt.bOut.length < 64 && !s.ostHalted then
        let s : State := { s with mgt := { s.mgt with bTargets := r } }
        let m : Msg := ⟨op, t, true, 0, bcastTag, det, 0, []⟩
        let s : State := s.tell m
        let s : State := { s with mgt := { s.mgt with bOut := s.mgt.bOut ++ [(t, s.tod)] } }
        (s.addFld R.GLB_BCAST 2 19 1).bcastPump f
      else s
    | _, _ => s

/-- A broadcast starts (R329, R338): `kind` 0 `AliasSet`, 1 `DomainStop`. -/
def State.bcastStart (s : State) (kind : Nat) (op : BitVec 6) (det : BitVec 40) (targets : List EpId) : State :=
  let s : State := s.setReg R.GLB_BCAST (BitVec.ofNat 64 (1 + kind * 2 + s.fld R.GLB_BCAST 59 4 * 2 ^ 59))
  ({ s with mgt := { s.mgt with bMsg := some (op, det), bTargets := targets, bOut := [] } }.bcastPump 64).bcastEnd

/-! ### Checkstop -/

/-- A stall's requester is answered `Checkstop` if its final response has not been sent (R337). -/
def State.stopStall (s : State) (t : Stall) : State :=
  let go := !t.final && decide (t.req.src < 4) && (match t.role with | .req => true | .wb => true | _ => false)
  if go then s.tell ⟨Op.checkstop, t.req.q, t.req.world, t.req.line, t.req.tag, BitVec.ofNat 40 s.chkCause, 0, []⟩
    { first := if t.first then none else some (t.req.src, t.acc) }
  else s

/-- Every open command of a channel-port stream is answered CHECKSTOP in order (R282, R337). -/
def State.stopStream (s : State) (e : Nat × List CpOpen) : State :=
  e.2.foldl (fun t c => t.cpRespond ⟨e.1, c.seq, 8, false, 0, []⟩ c.acc) s

/-- What a declaration does in its cycle (R337, R338): open stalls are answered and close, the pen empties, the slow paths
stop, the purge walk among them (R132), a broadcast in progress is aborted, and `DomainStop` is sent. -/
def State.sweep (s : State) : State :=
  let ligs := s.ligs
  let s : State := s.stalls.foldl (fun t e => t.stopStall e.2) s
  let s : State := ligs.foldl (fun t e =>
    t.tell ⟨Op.checkstop, e.2.req.q, e.2.req.world, e.2.req.line, e.2.req.tag, BitVec.ofNat 40 t.chkCause, 0, []⟩
      { first := some (e.2.req.src, e.2.acc) }) s
  let opens := s.cp.opens
  let s : State := opens.foldl State.stopStream s
  let s : State := { s with cp := { s.cp with opens := [], retry := [] }, stalls := [], pen := [], ligs := [] }
  let s : State := { s with readyStrk := [], readyLig := [], moves := [], preload := none }
  let s : State := { s with pmc := { s.pmc with dump := none, due := false } }
  let s : State := if s.rcv.purge.isEmpty then s else s.setReg R.DIR_PURGE_DONE s.tod
  let s : State := { s with mps := s.mps.map (fun e => (e.1, { e.2 with reads := e.2.reads.filter (fun r => r.tag.isSome) })) }
  let s : State := { s with ink := s.ink.filter (fun e => e.2.phase != .reserved) }
  let s : State := { s with ink := s.ink.map (fun e => (e.1, { e.2 with waiters := [] })) }
  let s : State := if s.mgt.bMsg.isSome then
      ({ s with mgt := { s.mgt with bMsg := none, bTargets := [], bOut := [] } }.setFld R.GLB_BCAST 59 3 4).setFlag R.GLB_BCAST 0 false
    else s
  let src := s.fld R.GLB_CHKSTOP 8 3
  if s.fld R.GLB_CHKSTOP 37 3 = 4 then s
  else
    s.bcastStart 1 Op.domainStop (BitVec.ofNat 40 s.chkCause)
      (if src = 2 then s.stopSet else s.homeSet ++ s.stopSet)

end Sys2Proof.Machine
end

