-- ==== Sys2Proof/Machine/Slow.lean ====
section
/-! DEFINITION. The slow paths of the core that run on whenever their conditions hold: the ALC drain and bank cleaning
(R214, R225, R226), a waiting preload (R219), the end of way cleaning (R121, R124). -/

namespace Sys2Proof.Machine

/-! ### ALC drain and bank cleaning -/

/-- A penned request asks for a line (R225). -/
def State.demanded (s : State) (h : HIdx) : Bool := s.pen.any (fun e => e.2.h == h)
/-- An entry that a drain may move or free: unpinned, not on the move path (R211, R225). -/
def State.drainable (s : State) (k : Nat) : Bool := !s.alcPinned k && !s.alcMoving k
/-- The next drain move: a demanded dirty entry first, else the lowest (R225). -/
def State.drainNext (s : State) : Option (Nat × AlcEntry) :=
  let p := fun (k : Nat) (e : AlcEntry) => e.v && e.d && s.drainable k
  match SMap.firstWith s.alc (fun k e => p k e && s.demanded e.h) with
  | some x => some x
  | none => SMap.firstWith s.alc p
/-- The next bank-cleaning move (R226). -/
def State.bankNext (s : State) : Option (Nat × AlcEntry) :=
  SMap.firstWith s.alc (fun k e => s.bank (k / 8) == 1 && e.v && e.d && !e.lk && s.drainable k)
/-- Bank-cleaning moves join the move path as they become due and slots are free for them (R214, R226). -/
def State.bankMoves (s : State) : Nat → State
  | 0 => s
  | f + 1 =>
    match s.bankNext, s.inkFree with
    | some (k, e), some sl => State.bankMoves { s.inkReserve sl e.h with moves := s.moves ++ [⟨k, sl, 2, e.h⟩] } f
    | _, _ => s
/-- The moves of the drain and of bank cleaning (R214, R225, R226). The drain chooses its next entry when the path is idle, so
that a demanded one comes next. -/
def State.startMove (s : State) : State :=
  if s.alcState = 2 then
    if s.moves.isEmpty then
      match s.drainNext, s.inkFree with
      | some (k, e), some sl => { s.inkReserve sl e.h with moves := [⟨k, sl, 1, e.h⟩] }
      | _, _ => s
    else s
  else s.bankMoves Config.alcEntries
/-- The clean, unlocked, unpinned entries of a bank in CLEANING are freed (R226). -/
def State.bankFree (s : State) : State :=
  { s with alc := s.alc.filter (fun x => !(s.bank (x.1 / 8) == 1 && x.2.v && !x.2.d && !x.2.lk && s.drainable x.1)) }
/-- The state of a bank written. -/
def State.setBank (s : State) (b v : Nat) : State := s.setFld R.ALC_BANKPWR (8 + 2 * b) 2 v
/-- A bank in CLEANING that holds nothing is powered down (R226); with the ALC OFF any bank is, and its contents are lost
(R227). -/
def State.bankOff (s : State) (b : Nat) : State :=
  if s.bank b = 1 && (s.alcState == 0 || (!s.chk && s.alc.all (fun x => x.1 / 8 != b) &&
      (List.range 8).all (fun i => !s.alcTaken (8 * b + i)))) then
    let s : State := { s with alc := s.alc.filter (fun x => x.1 / 8 != b), alcUndef := s.alcUndef ||| BitVec.ofNat 8 (2 ^ b) }
    (s.setBank b 2).setFlag R.ALC_BANKPWR (24 + b) true
  else s
/-- The drain ends when no entry is valid or locked and no stall uses the ALC (R225). -/
def State.drainEnd (s : State) : State :=
  if s.alcState = 2 && s.alc.isEmpty && s.moves.isEmpty && s.stalls.all (fun e => e.2.alc.isNone) &&
      s.ligs.all (fun e => e.2.aside.isEmpty) then s.setFld R.ALC_CTL 1 2 0
  else s
/-- Some bank is in CLEANING. -/
def State.cleaningBank (s : State) : Bool := (List.range 8).any (fun b => s.bank b == 1)
/-- The drain and the cleaning of banks go on, reading the tags (R218); a checkstop stops them (R337). -/
def State.alcWork (s : State) : State :=
  if s.alcState = 2 || s.cleaningBank then
    let t : State := if s.chk then s else s.alcTags
    let t : State := if t.chk then t else t.bankFree.startMove
    let t : State := (List.range 8).foldl (fun u b => u.bankOff b) t
    if t.chk then t else t.drainEnd
  else s

/-! ### Preloads -/

/-- A preload ends with a result (R219-R221). -/
def State.preEnd (s : State) (result : Nat) : State :=
  { s.setReg R.ALC_PRESTAT (BitVec.ofNat 64 (result * 2 + 16 + s.fld R.ALC_PRESTAT 5 6 * 32)) with preload := none }
/-- An operation of ALC.PRELOAD has ended with result DONE at entry `k` (R219, R228). -/
def State.preDone (s : State) (k : Nat) : State := { s.setReg R.ALC_PRESTAT (BitVec.ofNat 64 (16 + k * 32)) with preload := none }
/-- A flush of a line (R219, R220): a dirty entry is copied to the inkwell, the entry freed and its lock cleared. It waits
for a request stall, for an inkwell slot, and while the entry is pinned or on the move path. -/
def State.flushTry (s : State) (r : Req) : State :=
  let h := (s.hIdx r.line).getD 0
  let s := s.alcTags
  if s.chk then s
  else match s.alcHit h, s.alcReserved h with
  | some (k, e), _ =>
    if s.alcPinned k || s.alcMoving k || (s.stallFor r none).isNone then s
    else if !e.d then (s.alcFree k).preDone k
    else match s.inkFree with
      | some sl =>
        let p := (s.inkReserve sl h).alcRead k
        ((p.1.inkFill sl p.2).alcFree k).preDone k
      | none => s
  | none, some (k, _) => if s.alcTaken k then s else (s.alcFree k).preDone k
  | none, none => s.preEnd 5
/-- A waiting preload is dispatched as soon as it can be (R219). -/
def State.preWork (s : State) : State :=
  match s.preload with
  | none => s
  | some (r, op) => if s.chk then s else if s.alcState != 1 then s.preEnd 1 else if op = 3 then s.flushTry r
    else s.dispatch r (.preload op) none

/-! ### Directory ways -/

/-- Entries of ways 8-15 (R121). -/
def State.highWays (s : State) : Nat := s.dirs.countP (fun e => decide (8 ≤ e.1 % 16))
/-- Cleaning ends when ways 8-15 hold only free entries and no stall pins any of them (R121). -/
def State.wayWork (s : State) : State :=
  if s.wayState = 1 && s.highWays = 0 && s.stalls.all (fun e => e.2.way.all (fun k => decide (k % 16 < 8))) && !s.chk then
    (s.setFld R.DIR_WAYPWR 1 2 2).setFlag R.DIR_WAYPWR 3 true
  else s

/-! ### Function reset of a network port -/

/-- The drain of a network port is over: nothing accepted is left in it (R257). -/
def State.npDrained (s : State) (n : Nat) : Bool := (s.np n).inq.isEmpty && (s.np n).buf.isEmpty && (s.np n).ans.isEmpty
/-- The credits of a port in both directions are lost with its link (R258, R493). -/
def State.loseCredits (s : State) (n : Nat) : State :=
  s.setNp n { s.np n with cred := [0, 0, 0, 0, 0, 0], grant := [0, 0, 0, 0, 0, 0] }
/-- The drain before a function reset ends: the NI logic is reset, and the bridge is in RESET (R365, R493). -/
def State.npWork (s : State) (n : Nat) : State :=
  if s.flag R.ISL_RSTSTAT (1 + n) && s.link n == 2 && s.npDrained n then (s.setLink n 3).loseCredits n else s

/-- The slow paths of the core go on as far as they can, and the drains of the network ports. -/
def State.slow (s : State) : State := (List.range 4).foldl (fun t n => t.npWork n) s.alcWork.preWork.wayWork

end Sys2Proof.Machine
end

