-- ==== Sys2Proof/Machine/Reset.lean ====
section
/-! DEFINITION. Writing the blotter (R449-R453), and the domain reset (R362, R363, R377). -/

namespace Sys2Proof.Machine

/-! ### The blotter's write port -/

/-- The words of a record (R450). -/
def BlotRec.words (r : BlotRec) (wseq : Nat) (ff : Bool) : List Word :=
  [r.tod,
   BitVec.ofNat 64 (wseq % 2 ^ 32 + r.src * 2 ^ 32 + r.code.toNat * 2 ^ 36 + r.sev * 2 ^ 48 + b2n ff * 2 ^ 50 +
     b2n r.rcv * 2 ^ 51 + b2n r.world * 2 ^ 52),
   BitVec.ofNat 64 (r.addr.toNat + r.tag.toNat * 2 ^ 52),
   BitVec.ofNat 64 (r.id.toNat + r.opcode.toNat * 2 ^ 18 + r.arg.toNat * 2 ^ 24)]

/-- The island whose first waiting record goes next: the earliest time stamp, equal stamps in island order with the boot
island last (R360, R449). -/
def State.blotNext (s : State) : Option Nat :=
  leastBy (fun k => match SMap.find s.svc.blotQ k with | some (r :: _) => r.tod.toNat | _ => 0)
    ((s.svc.blotQ.filter (fun e => !e.2.isEmpty)).map (fun e => e.1))

/-- A record is lost (R449). -/
def State.blotLost (s : State) (src : Nat) : State :=
  ((s.addFld R.BLOT_STATUS 17 16 1).setFld R.BLOT_STATUS 33 4 src).ev 0xFC {}

/-- One record is written, or lost while the blotter has stopped (R452, R453). -/
def State.blotStore (s : State) (r : BlotRec) : State :=
  if s.flag R.BLOT_STATUS 0 then s.blotLost r.src
  else
    let v := s.flag R.BLOT_FF 12
    let ff := !v && (r.sev == 3 || (r.sev == 2 && s.flag R.BLOT_CTL 12))
    let idx := s.fld R.BLOT_PTR 0 12
    let cnt := s.fld R.BLOT_PTR 12 13
    let wseq := s.fld R.BLOT_PTR 25 32
    let s : State := { s with svc := { s.svc with blot := SMap.put s.svc.blot idx (r.words wseq ff) } }
    let s : State := if cnt = Config.blotSize then s.addFld R.BLOT_STATUS 1 16 1 else s
    let s : State := s.setReg R.BLOT_PTR (BitVec.ofNat 64 ((idx + 1) % Config.blotSize + min Config.blotSize (cnt + 1) * 2 ^ 12 +
      (wseq + 1) % 2 ^ 32 * 2 ^ 25))
    let s : State := s.ev 0xFB {}
    if ff then
      let s : State := (s.setReg R.BLOT_FF (BitVec.ofNat 64 (idx + 2 ^ 12 + wseq * 2 ^ 13))).setReg R.BLOT_FFTOD r.tod
      let s : State := { s with svc := { s.svc with blotPost := 0 } }
      if s.fld R.BLOT_CTL 0 12 = 0 then s.setFlag R.BLOT_STATUS 0 true else s
    else if v then
      let n := s.svc.blotPost + 1
      let s : State := { s with svc := { s.svc with blotPost := n } }
      if s.fld R.BLOT_CTL 0 12 ≤ n then s.setFlag R.BLOT_STATUS 0 true else s
    else s

/-- The blotter write port takes one record (R360, R449). -/
def State.blotWrite (s : State) : State :=
  match s.blotNext with
  | none => s
  | some k =>
    match SMap.find s.svc.blotQ k with
    | some (r :: q) => ({ s with svc := { s.svc with blotQ := putQ s.svc.blotQ k q } }).blotStore r
    | _ => s

/-- Every waiting record passes to the write port (R363). -/
def State.blotFlush (s : State) : Nat → State
  | 0 => s
  | f + 1 => s.blotWrite.blotFlush f

/-! ### Domain reset -/

/-- A register that a domain reset keeps: the blotter's (R452), GLB.SCRATCH, and what the boot island holds of the flash
(R363, R382). -/
def keptReg (a : Nat) : Bool :=
  a == R.BLOT_STATUS || a == R.BLOT_PTR || a == R.BLOT_FF || a == R.BLOT_FFTOD ||
  (decide (R.GLB_SCRATCH ≤ a) && decide (a < R.GLB_SCRATCH + 64)) || a == R.BOOT_FPINFO

/-- The islands that are OFF keep their state (R362). -/
def State.keptPower (s : State) : Nat :=
  (List.range 8).foldl (fun m i => if s.isl i = 3 then m + 3 * 2 ^ (3 * i) else m) 0
/-- The power requests that stay withdrawn over a domain reset. -/
def State.keptReq (s : State) : Nat :=
  (List.range 8).foldl (fun m i => if s.isl i = 3 then m else m + 2 ^ i) 0

/-- The hitching-rail locks held: their abort lines rise at domain reset (R425). -/
def State.heldLocks (s : State) : BitVec 64 :=
  BitVec.ofNat 64 ((List.range 64).foldl (fun m k => if s.flag (R.RAIL_LOCK + 8 * k) 13 then m + 2 ^ k else m) 0)

/-- Step 3 and 4 of a domain reset (R363): every island is reset, and start-up resumes at the image load, or at DISCOVER
for `discover` (R392). A powered-down boot island is waited for (R375). -/
def State.domainReset (s : State) (discover : Bool) : State :=
  let s : State := { s with svc := { s.svc with abort := s.svc.abort ||| s.heldLocks } }
  let s : State := s.blotFlush ((s.svc.blotQ.map (fun e => e.2.length)).sum)
  let z := State.reset
  let svc : SvcSt := { z.svc with stage := s.svc.stage, rsp := s.svc.rsp, blot := s.svc.blot, blotPost := s.svc.blotPost,
                                  tapFf := s.svc.tapFf, bistCtl := s.svc.bistCtl, bistRun := s.svc.bistRun, scanCfg := s.svc.scanCfg, bistStat := s.svc.bistStat,
                                  repair := s.svc.repair, abort := s.svc.abort }
  let boot : BootSt := ⟨s.boot.fpCfg, s.boot.testMode, s.boot.readable, s.boot.altOff, [], [], 0, false, 0, 0, 0,
    s.boot.safeSeen, false, 0, s.boot.warnAt, false⟩
  let t : State := { z with win := s.win.filter (fun e => keptReg (8 * e.1)), tod := s.tod, svc := svc, boot := boot }
  let t : State := { t with freeCtr := s.freeCtr, tx := s.tx, mpTx := s.mpTx, cpTx := s.cpTx, rcvTx := s.rcvTx, pending := s.pending }
  let t := t.setReg R.ISL_PWRSTAT (BitVec.ofNat 64 s.keptPower)
  let t := t.setFld R.ISL_PWRREQ 0 8 s.keptReq
  let t := t.setFld R.ISL_RSTSTAT 8 2 (s.fld R.ISL_RSTSTAT 8 2)
  let t := t.setFlag R.ISL_PWRWARN 0 s.warn
  t.setFld R.BOOT_STATUS 0 4 (if s.isl 7 = 3 then 10 else if discover then 1 else 2)

/-- Every FILLED and ISSUED slot has been committed (R281). -/
def State.inkClear (s : State) : Bool := s.ink.all (fun e => e.2.phase == .reserved)

/-- A domain reset is in progress (R377). -/
def State.inDomainReset (s : State) : Bool := !(s.fromReady || s.phase == 9)

/-- A domain reset that waits goes on once the inkwell is clear or the domain is in checkstop (R281, R363). -/
def State.resetWork (s : State) : State :=
  if s.boot.domWait && (s.chk || s.inkClear) then s.domainReset false else s

/-- A domain reset is requested (R363, R377): doormen take up their work again, stalls of network requests send nothing
further, and the reset waits for the inkwell. `src`: LASTDOM. -/
def State.domainRequest (s : State) (src : Nat) (discover : Bool) : State :=
  if s.inDomainReset then s
  else
    let s : State := (s.setFld R.ISL_RSTSTAT 8 2 src).setFlag R.ISL_RSTSTAT 0 true
    let s : State := (List.range 4).foldl (fun t n => t.setFlag (npBase R.NP_CTL n) 8 false) s
    let s : State := (List.range 4).foldl (fun t n => t.setNp n { t.np n with inq := [], buf := [] }) s
    let s : State := s.setFld R.BOOT_STATUS 0 4 0
    let keep := s.stalls.filter (fun e => e.2.req.src == 4)
    let s : State := { s with stalls := keep, pen := s.pen.filter (fun e => keep.any (fun k => k.1 == e.2.stall)), ligs := [] }
    let s : State := { s with readyStrk := [], readyLig := [], moves := [], preload := none, boot := { s.boot with domWait := true } }
    if discover then s.domainReset true else s.resetWork

end Sys2Proof.Machine
end

