-- ==== Sys2Proof/Machine/Settle.lean ====
section
/-! DEFINITION. What follows every command of the core: a declaration's effects (R337), the slow paths, a waiting domain
reset (R363), and the times at which recovery begins and ends (R334). -/

namespace Sys2Proof.Machine

/-- GLB.RCVENTRY and GLB.RCVEXIT record the time when recovery begins or ends (R334); the next dump record shows that the
domain was in recovery (R446). -/
def State.edges (s : State) (was : Bool) : State :=
  if s.recovering = was then s
  else if was then s.setReg R.GLB_RCVEXIT s.tod
  else { s.setReg R.GLB_RCVENTRY s.tod with pmc := { s.pmc with rcv := true } }

/-- The power warning's safe signal (R371, R373). -/
def State.safe (s : State) : Bool :=
  s.warn && s.alcState == 0 && s.ink.all (fun e => e.2.phase == .reserved || (s.chk && e.2.phase == .filled))

/-- ISL.PWRWARN.DRAIN takes the time from the warning to the first SAFE = 1 (R374). -/
def State.safeStep (s : State) : State :=
  if s.safe && !s.boot.safeSeen then
    { s.setFld R.ISL_PWRWARN 18 24 (min (elapsed s.boot.warnAt s.tod) 0xFFFFFF) with boot := { s.boot with safeSeen := true } }
  else s

/-- A declaration since `s0` has its effects (R337). -/
def State.swept (s s0 : State) : State := if s.chk && !s0.chk then s.sweep else s

/-- A domain reset has come between two states (R363): start-up has begun again. -/
def State.restarted (s s0 : State) : Bool :=
  (s.phase == 1 || s.phase == 2 || s.phase == 10) && (s0.fromReady || s0.phase == 0 || s0.phase == 9)

/-- What follows from a command's own effect: `s0` is the state before it. A domain reset leaves no time of recovery's end
(R340). -/
def finish (s0 s : State) : State :=
  let t := s.swept s0
  let u := t.slow.swept t
  let v := u.resetWork.safeStep
  let w := if v.restarted s0 then v else v.edges s0.recovering
  { w with penSince := w.penTimes }

end Sys2Proof.Machine
end

