-- ==== Sys2Proof/Machine/Ingress.lean ====
section
/-! DEFINITION. NI_INGRESS: the ordered checks of an arriving packet (R234, R239, R494), the doorman (R254), the draining
bridge (R257), the effective world (R341, R342), and the ingress queues (R31, R250). -/

namespace Sys2Proof.Machine

/-- The kinds of sender (R494). -/
inductive Sender where
  | home | relay | agent
  deriving DecidableEq, Repr

/-- An ID in the home set (R330). -/
def State.inHomeSet (s : State) (id : EpId) : Bool :=
  s.inCmask (clusterOf id) && (s.setLocals R.GLB_HOMESET).contains (localOf id)
/-- An ID named by a valid DIR.RLYOVR entry (R494). -/
def State.overrideRelay (s : State) (id : EpId) : Bool :=
  (List.range 16).any (fun k => s.flag (R.DIR_RLYOVR + 8 * k) 27 && s.fld (R.DIR_RLYOVR + 8 * k) 9 18 == id.toNat)
/-- The kind of a sender (R494). -/
def State.senderOf (s : State) (id : EpId) : Sender :=
  if id = s.homeId || s.inHomeSet id then .home
  else if s.overrideRelay id then .relay
  else if (s.flag R.DIR_CTL 0 || s.flag R.DIR_CTL 1) && s.cmask.any (fun c => s.relayOf c == id) then .relay
  else .agent

/-- An opcode of which the Sender → receiver column of R53 names a sender's kind (R54, R494). An `Error` is never legal. -/
def legalHome (op : BitVec 6) (k : Sender) : Bool :=
  let n := op.toNat
  if n = 0x3A ∨ n = 0x3B then true
  else match k with
    | .home => decide (0x10 ≤ n ∧ n ≤ 0x14) || n == 0x20 || n == 0x21 || decide (0x23 ≤ n ∧ n ≤ 0x25) ||
        decide (0x28 ≤ n ∧ n ≤ 0x2D) || n == 0x2F || n == 0x38 || n == 0x39
    | .relay => n == 0x10 || n == 0x12 || n == 0x13 || n == 0x1D
    | .agent => decide (1 ≤ n ∧ n ≤ 0x0A) || n == 0x0C || n == 0x0D || decide (0x18 ≤ n ∧ n ≤ 0x1C) || n == 0x1E || n == 0x1F ||
        decide (0x20 ≤ n ∧ n ≤ 0x22) || n == 0x30

/-- An opcode of which the Sender → receiver column of R53 names a home as receiver. -/
def toHome (op : BitVec 6) : Bool :=
  let n := op.toNat
  decide (1 ≤ n ∧ n ≤ 0x0A) || n == 0x0C || n == 0x0D || decide (0x18 ≤ n ∧ n ≤ 0x1F) || n == 0x30 || decide (0x38 ≤ n ∧ n ≤ 0x3B)

/-- An opcode that may be sent to the relay unit's ID (R110, R494). -/
def legalRelay (op : BitVec 6) : Bool :=
  let n := op.toNat
  n == 0x14 || n == 0x18 || n == 0x19 || n == 0x1C || n == 0x1E || n == 0x1F || decide (0x38 ≤ n ∧ n ≤ 0x3B)

/-- A record of a packet in the blotter queue of its port (R450, R451). -/
def State.npNote (s : State) (n : Nat) (p : Packet) (cls det sev : Nat)
    (arg : BitVec 40 := Config.blotArg (cls * 256 + det)) : State :=
  s.note (3 + n) cls det sev p.world p.line p.tag p.src p.opcode arg

/-- A packet accepted: a `RlyInv` for the relay unit; another behind the packets of its order group that wait in the link
buffer, from which it moves into the ingress queue of its class when that has room (R31, R250). -/
def State.queueIn (s : State) (n : Nat) (p : Packet) (phys : EpId) (raw : Bool) : State :=
  let q := s.np n
  let c := p.cls.toNat
  let x : InItem := ⟨p, phys, raw, q.seqs⟩
  let q : NpSt := { q with seqs := q.seqs + 1 }
  if c = 3 then s.setNp n { q with inq := SMap.put q.inq c (q.inqOf c ++ [x]) }
  else s.setNp n { q with buf := SMap.put q.buf (poolOf c) (q.bufOf (poolOf c) ++ [x]) }

/-- The doorman's handling of a packet (R254, R255). -/
def State.doorman (s : State) (n : Nat) (p : Packet) : State :=
  if p.cls.toNat ≤ 1 && p.opcode != Op.evictNote then
    ((s.addFld (npBase R.NP_DOORCNT n) 0 32 1).ev (0xDC + n) { s := some n, i := some p.src.toNat }).answerAt n p Op.notReady 0 true
  else if p.cls = 6 then
    if p.opcode = Op.mgtAck then s.queueIn n p p.src p.world else s.answerAt n p Op.mgtAck 0 true
  else s.addFld (npBase R.NP_DOORCNT n) 32 16 1

/-- The answer of a draining bridge, or of the link-side half of a bridge in DOWN (R257). -/
def State.bridge (s : State) (n : Nat) (p : Packet) : State :=
  let up := s.link n != 0
  if p.cls.toNat ≤ 1 && p.opcode != Op.evictNote then s.answerAt n p Op.error Cause.unavailable up
  else if p.opcode = Op.rlyInv then s.answerAt n p Op.rlyAck (2 ^ 22) up
  else s

/-- A packet that fails check 4 or 6 (R234). -/
def State.malformed (s : State) (n : Nat) (p : Packet) (answer : Bool) : State :=
  let s : State := (s.addFld (npBase R.NP_ERRCNT n) 48 16 1).npNote n p 2 Cause.malformed 2
  if answer then (s.ev 0xBD (pktAttr n p)).answerAt n p Op.error Cause.malformed true else s

/-- The first uncorrectable word of an arriving line that Tirkar uses (R63, R268). -/
def badWord (p : Packet) : Option Nat :=
  if p.data.length = 32 then
    (List.range 32).find? (fun w => (LineData.word p.data w).bad && (p.opcode != Op.wrPart || bit p.detail.toNat w))
  else none

/-- A packet that has passed every check: its data corrected, its effective world decided, a line that receivers ignore
dropped, and queued (R9, R31, R41, R57, R268, R314, R341, R342; log 68). -/
def State.letIn (s : State) (n : Nat) (p : Packet) : State :=
  let lo := s.toLog p.src
  let raw := p.world
  let demote := raw && !s.flag R.SEC_WORLDCFG n && (p.cls.toNat ≤ 1 || p.cls == 6)
  let line : LineAddr := if p.opcode = Op.sync || p.cls == 6 then 0 else p.line
  let q : Packet := { p with src := lo, world := raw && !demote, line := line, data := p.data.fix, syn := 0 }
  let s : State := if p.data.ceCount = 0 then s else s.npNote n q 0 Config.entryDetail.toNat 1
  let s : State := match badWord p with
    | some w => (s.ev 0xB8 (pktAttr n q)).npNote n q 1 0 2 (BitVec.ofNat 40 (2 + n + w * 16))
    | none => s
  let s : State := if demote then
      (s.viol 3 n lo.toNat false p.line p.tag p.opcode (3 + n)).ev 0xBF (pktAttr n q)
    else s
  s.queueIn n q p.src raw

/-- Checks 3 to 6 of R234. A legal packet of a message that no home receives matches nothing: a stray (R495; log 62). -/
def State.check36 (s : State) (n : Nat) (p : Packet) : State :=
  if !s.isOpen n then s.doorman n p
  else
    let s : State := s.readAll 6
    let unit := s.ruId == some p.dst
    let legal := if unit then legalRelay p.opcode else legalHome p.opcode (s.senderOf (s.toLog p.src))
    if !(legal && classOf p.opcode == p.cls.toNat && flitsOk p.opcode p.nflit.toNat) then
      s.malformed n p (decide (p.cls.toNat ≤ 1))
    else if s.impostor p.src then
      let s : State := ((s.addFld R.RTE_ERRCNT 32 16 1).ev 0xED { i := some p.src.toNat }).npNote n p 2 Cause.fenced 2
      if p.cls = 0 then s.answerAt n p Op.error Cause.fenced true else s
    else if !unit && p.domain != s.domain then s.malformed n p (p.cls == 0)
    else if !unit && !toHome p.opcode then s.stray { p with src := s.toLog p.src }
    else s.letIn n p

/-- One header word of an arriving packet is corrected (R234 check 1). -/
def State.hdrFixed (s : State) (n : Nat) (p : Packet) : State :=
  let s : State := (s.addFld (npBase R.NP_ERRCNT n) 0 16 1).ev 0xB6 { l := some p.line.toNat }
  if s.flag (npBase R.NP_CTL n) 7 then s.npNote n p 0 6 1 else s

/-- Check 2 of R234, then the further checks or, for a packet that the bridge keeps out, its answer (R257). -/
def State.checked (s : State) (n : Nat) (p : Packet) (out : Bool) : State :=
  if p.hopcnt != p.nhop || decide (12 < p.nhop.toNat) || (s.isOpen n && p.dst != s.homeId && s.ruId != some p.dst) then
    (s.addFld (npBase R.NP_ERRCNT n) 32 16 1).npNote n p 0xC 1 2
  else if out then s.bridge n p
  else s.check36 n p

/-- A packet arrives at port `n` (R234, R237, R257). A bridge in RESET, or that has not yet run, takes none (R493). -/
def State.receive (s : State) (n : Nat) (p : Packet) : State :=
  let l := s.link n
  let off := l == 0 && (s.isl n == 3 || s.isl n == 4)
  if !(l == 1 || l == 2 || off) then s
  else
    let c := p.corrected
    let s : State := s.evN (0xE0 + n) (1 + c.nflit.toNat) { c := some c.cls.toNat }
    let s : State := if off then s else s.setNp n ((s.np n).charge (poolOf c.cls.toNat) (1 + c.nflit.toNat))
    let s : State :=
      if p.hdrBad then (s.addFld (npBase R.NP_ERRCNT n) 16 16 1).note (3 + n) 0xC 0 2
      else (p.hdrWrong.foldl (fun t _ => t.hdrFixed n c) s).checked n c (off || (l == 2 && decide (c.cls.toNat ≤ 3)))
    s.settleIn n

/-- NI_INGRESS (R234): a packet arrives on a network port. -/
def execNiIngress (port : Fin 4) (p : Packet) (s : State) : Host.Outcome State Fault Refusal :=
  .next (finish s (s.receive port.val p))

/-! ### Taking items from the ingress queues -/

/-- The slice of a line; a line in no region has none (R154). -/
def State.sliceAt (s : State) (l : LineAddr) : Option Nat := (s.hIdx l).map sliceOf
/-- The slice of an item; `Sync`, which concerns no line (R57, R86), has none. -/
def State.itemSlice (s : State) (x : InItem) : Option Nat := if x.p.opcode = Op.sync then none else s.sliceAt x.p.line
/-- An item leaves the ingress queue of its class; its place and its credit come free (R31, R237). -/
def State.dropIn (s : State) (n c : Nat) (x : InItem) : State :=
  let q := s.np n
  (s.setNp n { q with inq := putQ q.inq c ((q.inqOf c).erase x) }).settleIn n
/-- Two items are of one slice (R154). -/
def State.oneSlice (s : State) (x y : InItem) : Bool := (s.itemSlice y).isSome && s.itemSlice y == s.itemSlice x
/-- The first item that a test admits and that no item of the other list precedes in its slice (R154). -/
def State.firstOf (s : State) (l others : List InItem) (p : InItem → Bool) : Option InItem :=
  l.find? (fun x => p x && !others.any (fun y => decide (y.seq < x.seq) && s.oneSlice x y))
/-- An arrival of rank 1 for the home, of an opcode that a test admits (R153, R154). -/
def State.arrival (s : State) (n : Nat) (p : BitVec 6 → Bool) : Option InItem :=
  let q := (s.np n).inqOf 4 ++ (s.np n).inqOf 5
  let home := q.filter (fun x => s.ruId != some x.p.dst)
  s.firstOf home home (fun x => p x.p.opcode)
/-- The lane of a line (R28). -/
def State.laneOf (s : State) (l : LineAddr) : Nat := (s.sliceAt l).getD 0 % 2
/-- The pointer of a lane and rank moves past a source (R154). -/
def State.taken (s : State) (rank lane src : Nat) : State := { s with lanePtr := SMap.put s.lanePtr (rank * 2 + lane) ((src + 1) % 5) }

end Sys2Proof.Machine
end

