-- ==== Sys2Proof/Machine/RelayUnit.lean ====
section
/-! DEFINITION. The relay unit (R46, R110-R113, R333): a `RlyInv` fanned out to the members of its cluster, the members'
answers counted, and one combined `RlyAck`. -/

namespace Sys2Proof.Machine

/-- The tag of the relay unit's member snoops (DESIGN CHOICE, log 11): 0x800 above the slot. -/
def ruTag (k : Nat) : Tag := BitVec.ofNat 12 (2048 + k)
/-- The endpoint ID that DIR.RUCTL holds. -/
def State.ruEp (s : State) : EpId := BitVec.ofNat 18 (s.fld R.DIR_RUCTL 1 18)
/-- The lowest-numbered valid entry that serves a domain (R110). -/
def State.ruDom (s : State) (d : BitVec 12) : Option Nat :=
  (List.range 8).find? (fun e => s.flag (R.DIR_RUDOM + 8 * e) 12 && s.fld (R.DIR_RUDOM + 8 * e) 0 12 == d.toNat)
/-- The excluded IDs of a `RlyInv` (R106). -/
def excluded (d : BitVec 40) : List EpId :=
  (if bit d.toNat 36 then [BitVec.ofNat 18 d.toNat] else []) ++ (if bit d.toNat 37 then [BitVec.ofNat 18 (d.toNat / 2 ^ 18)] else [])
/-- KIND of a `RlyInv` (R106). -/
def rlyKind (d : BitVec 40) : Nat := d.toNat / 2 ^ 38
/-- The members of the fan-out set, in ascending local order (R110). -/
def State.fanOut (s : State) (e : Nat) (d : BitVec 40) : List EpId :=
  ((List.range 512).filter (fun l => s.flag (R.DIR_RUMASK + 64 * e + 8 * (l / 64)) (l % 64))).map (fun l => endpoint (clusterOf s.ruEp) l)
    |>.filter (fun m => !(excluded d).contains m)
/-- The member snoop of a KIND (R106, R110). -/
def memberOp (kind : Nat) : BitVec 6 := if kind = 0 then Op.snpInv else if kind = 1 then Op.backInv else Op.snpShare

/-- The `RlyAck` of a multicast goes to the home that asked, inside the core for this instance's own (R110, R112). -/
def State.rlyAckTo (s : State) (port : Nat) (x : InItem) (detail : Nat) : State :=
  let s : State := if bit detail 20 then (s.setFlag R.DIR_RUSTATUS 7 true).ev 0xA9 { l := some x.p.line.toNat } else s
  let s : State := if bit detail 21 then (s.setFlag R.DIR_RUSTATUS 8 true).ev 0xAA { l := some x.p.line.toNat } else s
  let s : State := if bit detail 22 then (s.setFlag R.DIR_RUSTATUS 9 true).ev 0xAB { l := some x.p.line.toNat } else s
  let own := x.p.domain == s.domain
  let m : Msg := ⟨Op.rlyAck, if own then x.p.src else x.phys, x.raw, x.p.line, x.p.tag, BitVec.ofNat 40 detail, 0, []⟩
  if port = 4 then
    let p := { s.packet m s.ruEp x.p.domain s.homeId 0 0 with src := s.ruEp }
    { s with ruBack := s.ruBack ++ [⟨p, s.ruEp, x.raw, 0⟩] }
  else
    match s.sendFrom s.ruEp x.p.domain own m {} with
    | (t, true) => t
    | (t, false) => t.noRouteNote m

/-- A multicast whose members have all answered sends its combined `RlyAck` and frees its slot (R110). -/
def State.rlyFinish (s : State) (k : Nat) : State :=
  match SMap.find s.rlys k with
  | none => s
  | some o =>
    if o.waits.isEmpty then
      { s with rlys := SMap.del s.rlys k }.rlyAckTo o.port o.inv
        (o.sent % 2 ^ 10 + o.shared % 2 ^ 10 * 2 ^ 10 + b2n o.viol * 2 ^ 20 + b2n o.fail * 2 ^ 21)
    else s

/-- A member snoop whose `Error` was synthesised: the member has failed (R110). -/
def State.memberFail (s : State) (k : Nat) (who : EpId) : State :=
  s.updRly k (fun o => { o with fail := true, waits := o.waits.filter (fun w => w.who != who) })

/-- One member snoop (R110, R113, R333). -/
def State.memberSnoop (s : State) (k : Nat) (x : InItem) (who : EpId) : State :=
  if s.fence who != 0 then s
  else
    let own := x.p.domain == s.domain
    let op := memberOp (rlyKind x.p.detail)
    let m : Msg := ⟨op, who, x.raw, x.p.line, ruTag k, 0, 0, []⟩
    let s : State := s.ev 0x97 { w := some x.raw, i := some who.toNat, l := some x.p.line.toNat, c := some 2 }
    let s : State := s.updRly k (fun o => { o with sent := o.sent + 1, waits := o.waits ++ [⟨who, op, false, false, .queued, 0⟩] })
    match s.sendFrom s.ruEp x.p.domain own m { stall := some (2048 + k) } with
    | (t, true) => t
    | (t, false) => (t.noRouteNote m).memberFail k who

/-- The relay unit takes a `RlyInv` (R110, R111, R333). -/
def State.rlyOpen (s : State) (port : Nat) (x : InItem) (k : Nat) : State :=
  let s : State := s.ev 0xA8 { l := some x.p.line.toNat }
  match s.ruDom x.p.domain with
  | some e =>
    if rlyKind x.p.detail = 3 then (s.note 0 2 Cause.malformed 2 x.raw x.p.line x.p.tag x.p.src x.p.opcode).rlyAckTo port x (2 ^ 22)
    else if s.chk && x.p.domain == s.domain then s.rlyAckTo port x (2 ^ 22)
    else
      let o : RlyOpen := ⟨port, x, [], 0, 0, false, false⟩
      let s : State := { s with rlys := SMap.put s.rlys k o, lates := SMap.del s.lates (2048 + k) }
      ((s.fanOut e x.p.detail).foldl (fun t w => t.memberSnoop k x w) s).rlyFinish k
  | none => (s.note 0 2 Cause.malformed 2 x.raw x.p.line x.p.tag x.p.src x.p.opcode).rlyAckTo port x (2 ^ 22)

/-- The next `RlyInv` of a port, or of this instance's own home (port 4). -/
def State.nextRly (s : State) (port : Nat) : Option InItem :=
  if port = 4 then s.ruIn.head? else ((s.np port).inqOf 3).head?

/-- RLY_INV (R110, R111): it waits while all 64 slots are taken. -/
def execRlyInv (port : Fin 5) (s : State) : Host.Outcome State Fault Refusal :=
  .next (finish s (match s.nextRly port.val, SMap.firstFree s.rlys 0 Config.relaySlots with
    | some x, some k =>
      let t : State := if port.val = 4 then { s with ruIn := s.ruIn.tail } else s.dropIn port.val 3 x
      t.rlyOpen port.val x k
    | _, _ => s))

/-- An answer counts for the relay unit: whether it counts as shared, and whether R66 does not permit it for a sharer
(R107, R110). -/
def memberCounts (op ans : BitVec 6) : Bool × Bool :=
  if ans = Op.snpAckI ∨ ans = Op.snpWbPend then (false, false)
  else if ans = Op.snpAckS ∧ op = Op.snpShare then (true, false)
  else (false, true)

/-- The member that an arrival answers for (R113): logical for this domain, untranslated for another. -/
def RlyOpen.whoOf (o : RlyOpen) (own : BitVec 12) (x : InItem) : EpId := if o.inv.p.domain = own then x.p.src else x.phys

/-- A member's answer reaches the relay unit (R110, R495). -/
def State.memberAnswer (s : State) (n : Nat) (x : InItem) : State :=
  let s : State := s.ev (ansEvent x.p.opcode) (pktAttr n x.p)
  let k := x.p.tag.toNat - 2048
  match (if x.p.tag.toNat < 2048 then none else SMap.find s.rlys k) with
  | none => if s.chk then s else s.unmatched x.p
  | some o =>
    let who := o.whoOf s.domain x
    if s.chk && o.inv.p.domain == s.domain then s
    else match o.waits.find? (fun w => w.who == who) with
      | some w =>
        if o.inv.p.line = x.p.line then
          let c := memberCounts w.op x.p.opcode
          let s : State := if c.1 then s.ev 0xAC { l := some x.p.line.toNat } else s
          let s : State := if c.2 then s.note 0 2 0 2 x.p.world x.p.line x.p.tag who x.p.opcode else s
          (s.updRly k (fun o => { o with shared := o.shared + b2n c.1, viol := o.viol || c.2, waits := o.waits.erase w })).rlyFinish k
        else s.unmatched x.p
      | none => s.unmatched x.p

/-- The next member's answer for the relay unit in a port's RSP and DAT queues. -/
def State.nextMember (s : State) (n : Nat) : Option InItem :=
  ((s.np n).inqOf 4 ++ (s.np n).inqOf 5).find? (fun x => s.ruId == some x.p.dst)

/-- RELAY_MEMBER_ANSWER (R110). -/
def execRelayMemberAnswer (port : Fin 4) (s : State) : Host.Outcome State Fault Refusal :=
  .next (finish s (match s.nextMember port.val with
    | some x => (s.dropIn port.val x.p.cls.toNat x).memberAnswer port.val x
    | none => s))

/-- A member snoop of the relay unit has timed out (R110, R252, R320). -/
def State.memberTimeout (s : State) (k : Nat) (who : EpId) : State :=
  match SMap.find s.rlys k with
  | none => s
  | some o =>
    match o.waits.find? (fun w => w.who == who) with
    | some w =>
      (match w.st with
        | .sent t =>
          if s.snpTmo ≤ elapsed t s.tod then
            let key := 2048 + k
            let s : State := (s.ev 0xA0 { i := some who.toNat, l := some o.inv.p.line.toNat }).note 0 3 0 2 o.inv.raw o.inv.p.line (ruTag k) who w.op
            let old := (SMap.find s.lates key).getD []
            let s : State := { s with lates := SMap.put s.lates key (old ++ [⟨who, ruTag k, o.inv.p.line, false⟩]) }
            let s : State := s.memberFail k who
            let s : State := if o.inv.p.domain = s.domain && !s.chk then s.suspect who 3 else s
            s.rlyFinish k
          else s
        | _ => s)
    | none => s

end Sys2Proof.Machine
end

