-- ==== Sys2Proof/Machine/AnswerRows.lean ====
section
/-! DEFINITION. The arrivals of rank 1 (R79, R84, R108, R153), and the timers of the home: snoops, `CmpAck`, `RlyInv`,
resends and the forward window (R85, R108, R252, R319, R324, R325). -/

namespace Sys2Proof.Machine

/-- An arrival of an opcode for the home leaves its queue and is handled; with none, nothing happens. -/
def State.onArrival (s : State) (n : Nat) (op : BitVec 6) (f : State → Packet → State) : State :=
  match s.arrival n (fun o => o == op) with
  | some x => f ((s.dropIn n x.p.cls.toNat x).taken 1 (s.laneOf x.p.line) n) x.p
  | none => s

/-- SNP_ACK_I (R79). -/
def execSnpAckI (port : Fin 4) (s : State) : Host.Outcome State Fault Refusal :=
  .next (finish s (s.onArrival port.val Op.snpAckI (fun t p => t.snoopAnswer port.val p .ackI)))
/-- SNP_ACK_S (R79). -/
def execSnpAckS (port : Fin 4) (s : State) : Host.Outcome State Fault Refusal :=
  .next (finish s (s.onArrival port.val Op.snpAckS (fun t p => t.snoopAnswer port.val p .ackS)))
/-- SNP_FWD_I (R79). -/
def execSnpFwdI (port : Fin 4) (s : State) : Host.Outcome State Fault Refusal :=
  .next (finish s (s.onArrival port.val Op.snpFwdI (fun t p => t.snoopAnswer port.val p .fwdI)))
/-- SNP_FWD_O (R79). -/
def execSnpFwdO (port : Fin 4) (s : State) : Host.Outcome State Fault Refusal :=
  .next (finish s (s.onArrival port.val Op.snpFwdO (fun t p => t.snoopAnswer port.val p .fwdO)))
/-- SNP_WB_PEND (R79). -/
def execSnpWbPend (port : Fin 4) (s : State) : Host.Outcome State Fault Refusal :=
  .next (finish s (s.onArrival port.val Op.snpWbPend (fun t p => t.snoopAnswer port.val p .wbPend)))
/-- SNP_DATA_I (R79). -/
def execSnpDataI (port : Fin 4) (s : State) : Host.Outcome State Fault Refusal :=
  .next (finish s (s.onArrival port.val Op.snpDataI (fun t p => t.snoopAnswer port.val p (.dataI p.data))))
/-- SNP_DATA_O (R79). -/
def execSnpDataO (port : Fin 4) (s : State) : Host.Outcome State Fault Refusal :=
  .next (finish s (s.onArrival port.val Op.snpDataO (fun t p => t.snoopAnswer port.val p (.dataO p.data))))
/-- RLY_ACK (R108): port 4 brings the answer of this instance's own relay unit (R112). -/
def execRlyAck (port : Fin 5) (s : State) : Host.Outcome State Fault Refusal :=
  .next (finish s (if port.val = 4 then
      (match s.ruBack with
        | x :: r => { s with ruBack := r }.takeRlyAck 5 x.p
        | [] => s)
    else s.onArrival port.val Op.rlyAck (fun t p => t.takeRlyAck port.val p)))
/-- CMP_ACK (R84). -/
def execCmpAck (port : Fin 4) (s : State) : Host.Outcome State Fault Refusal :=
  .next (finish s (s.onArrival port.val Op.cmpAck (fun t p => t.takeAck port.val p)))

/-! ### Timers -/

/-- An answer that may still come late (R253, R495). -/
def State.addLate (s : State) (i : Nat) (who : EpId) (tag : Tag) (line : LineAddr) (ack : Bool := false) : State :=
  { s with lates := SMap.put s.lates i ((SMap.find s.lates i).getD [] ++ [⟨who, tag, line, ack⟩]) }

/-- A time of day lies in the past or is now (R12). -/
def State.due (s : State) (t : Tod) : Bool := decide (elapsed t s.tod < 2 ^ 63)

/-- A snoop of stall `i` has timed out (R252, R320, R324). -/
def State.snoopLate (s : State) (i : Nat) (t : Stall) (w : Wait) : State :=
  let line := s.lineOf t.h
  let s : State := (s.ev 0xA0 { w := some t.req.world, s := some t.req.src, i := some w.who.toNat, l := some line.toNat }).note 0 3 0 2
    (s.worldOfH t.h) line (BitVec.ofNat 12 i) w.who w.op
  let s : State := (s.addLate i w.who (BitVec.ofNat 12 i) line).suspect w.who 0
  if s.chk then s
  else if w.fmode && s.fence w.who == 1 then
    if t.ackGot then s.asForward i w
    else s.updStall i (fun x => { x with waits := x.waits.map (fun y => if y = w then { y with st := .window s.tod } else y) })
  else s.onBehalf i w

/-- SNOOP_TIMEOUT (R252): no answer within RTE.TMO.SNP. A tag from 0x800 on names a slot of the relay unit. -/
def execSnoopTimeout (tag : Tag) (who : EpId) (s : State) : Host.Outcome State Fault Refusal :=
  .next (finish s (if 2048 ≤ tag.toNat then s.memberTimeout (tag.toNat - 2048) who
    else s.reading 4 tag.toNat fun s => match SMap.find s.stalls tag.toNat with
      | some t =>
        (match t.waits.find? (fun w => w.who == who && w.op != Op.rlyInv) with
          | some w =>
            (match w.st with
              | .sent x => if s.snpTmo ≤ elapsed x s.tod && !s.chk then s.snoopLate tag.toNat t w else s
              | _ => s)
          | none => s)
      | none => s))

/-- CMPACK_TIMEOUT (R85, R320, R325). -/
def execCmpackTimeout (stall : Fin 2048) (s : State) : Host.Outcome State Fault Refusal :=
  .next (finish s (s.reading 4 stall.val fun s => match SMap.find s.stalls stall.val with
    | some t =>
      (match t.respAt with
        | some x =>
          if t.req.acks && !t.ackGot && s.snpTmo ≤ elapsed x s.tod && !s.chk then
            let r := t.req
            let s : State := s.note 0 3 1 2 r.world r.line r.tag r.q Op.cmpAck (BitVec.ofNat 40 stall.val)
            let s : State := (s.addLate stall.val r.q r.tag r.line true).suspect r.q 1
            (s.updStall stall.val (fun y => { y with ackGot := true })).closeReq stall.val
          else s
        | none => s)
    | none => s))

/-- RLYINV_TIMEOUT (R108, R319). -/
def execRlyinvTimeout (stall : Fin 2048) (relay : EpId) (s : State) : Host.Outcome State Fault Refusal :=
  .next (finish s (s.reading 4 stall.val fun s => match SMap.find s.stalls stall.val with
    | some t =>
      (match t.waits.find? (fun w => w.who == relay && w.op == Op.rlyInv) with
        | some w =>
          (match w.st with
            | .sent x =>
              if s.rlyTmo ≤ elapsed x s.tod && !s.chk then
                let s : State := (s.ev 0xAE { l := some t.req.line.toNat }).addLate stall.val relay (BitVec.ofNat 12 stall.val) t.req.line
                s.relayFail stall.val t w 0
              else s
            | _ => s)
        | none => s)
    | none => s))

/-- A message is sent again (R319): GLB.RCVSTAT.RESENDEV and event 0xAF. -/
def State.resent (s : State) (l : LineAddr) : State := (s.setFlag R.GLB_RCVSTAT 20 true).ev 0xAF { l := some l.toNat }

/-- A snoop that is due is sent again, or its agent becomes suspect (R319, R324). -/
def State.resendSnoop (s : State) (i : Nat) (t : Stall) (w : Wait) : State :=
  if s.fence w.who != 0 then s.onBehalf i w
  else if w.resends < s.fld R.GLB_RCVCTL 8 2 then
    let n := w.resends + 1
    let s : State := ((s.resent (s.lineOf t.h)).redo (snpEvent w.op w.fmode)).setWait i w.who (fun y => { y with st := .queued, resends := n })
    match s.snoopMsg i t w.who w.op w.fmode with
    | (u, true) => u
    | (u, false) => u.setWait i w.who (fun y => { y with st := .resend (u.resendAt n) })
  else
    let s : State := s.suspect w.who 2
    if s.chk then s else s.onBehalf i w

/-- RESEND_TIMER (R319). -/
def execResendTimer (stall : Fin 2048) (who : EpId) (s : State) : Host.Outcome State Fault Refusal :=
  .next (finish s (s.reading 4 stall.val fun s => match SMap.find s.stalls stall.val with
    | some t =>
      (match t.waits.find? (fun w => w.who == who) with
        | some w =>
          (match w.st with
            | .resend x =>
              if s.due x && !s.chk then
                if w.op = Op.rlyInv then ((s.resent t.req.line).redo 0x96).rlySend stall.val t who (w.resends + 1) else s.resendSnoop stall.val t w
              else s
            | _ => s)
        | none => s)
    | none => s))

/-- FWD_WINDOW_EXPIRY (R324): RTE.TMO.SNP after the timeout of a forwarding snoop. -/
def execFwdWindowExpiry (stall : Fin 2048) (s : State) : Host.Outcome State Fault Refusal :=
  .next (finish s (s.reading 4 stall.val fun s => match SMap.find s.stalls stall.val with
    | some t =>
      (match t.waits.find? (fun w => match w.st with | .window _ => true | _ => false) with
        | some w =>
          (match w.st with
            | .window x => if s.snpTmo ≤ elapsed x s.tod && !s.chk then s.onBehalf stall.val w else s
            | _ => s)
        | none => s)
    | none => s))

end Sys2Proof.Machine
end

