-- ==== Sys2Proof/Machine/Requests.lean ====
section
/-! DEFINITION. Dispatch of the requests and write-backs that wait in the ingress queues of the network ports (R78, R81,
R82, R86, R103, R114, R154, R168, R181, R187, R321, R337, R347, R371). -/

namespace Sys2Proof.Machine

/-- The lines that a request is for, as its source names them (R168, R186). -/
def InItem.named (x : InItem) : List LineAddr := if x.p.opcode = Op.ligature then dataLines (opFlits x.p.data) else [x.p.line]
/-- An `EvictNote` of a request's source, for a line that it names, has arrived before it and still waits (R168). -/
def State.noteHolds (s : State) (n : Nat) (x : InItem) : Bool :=
  ((s.np n).inqOf 1).any (fun y => y.p.opcode == Op.evictNote && decide (y.seq < x.seq) && y.p.src == x.p.src && x.named.contains y.p.line)
/-- The first queued request of an opcode that may dispatch now (R154, R168): no `EvictNote` holds it, and nothing of its
slice waits before it but requests for other lines that are held themselves. -/
def State.nextReq (s : State) (n : Nat) (op : BitVec 6) : Option InItem :=
  let q := (s.np n).inqOf 0
  s.firstOf (q.filter (fun x => !s.noteHolds n x)) [] (fun x => x.p.opcode == op && !q.any (fun y =>
    decide (y.seq < x.seq) && s.oneSlice x y && (!s.noteHolds n y || y.named.any x.named.contains)))

/-- The request that a queued packet carries (R148, R149, R230). -/
def InItem.req (x : InItem) (n : Nat) : Req := ⟨x.p.opcode, n, x.p.world, x.p.src, x.p.tag, x.p.line, x.p.seq, x.p.detail, x.p.data, none⟩

/-- A request that is refused before any of the checks of its line: stopped, outside the cluster mask, or fenced (R103,
R321, R337). -/
def State.barred (s : State) (r : Req) : Option State :=
  if s.chk then some (s.refuse r Op.checkstop s.chkCause 0 [])
  else if !s.inCmask (clusterOf r.q) then
    some (((s.note 0 2 Cause.malformed 2 r.world r.line r.tag r.q r.op).ev 0xBD r.attr).errorTo r Cause.malformed)
  else if s.fence r.q != 0 then some (s.errorTo r Cause.fenced)
  else none

/-- The answer to a `Stroke` or `Ligature` refused with a status (R181, R183, R187, R193). OLD of a `Stroke` with status FORMAT,
which has read no word, is a free value (log 73). -/
def State.ledgerRefuse (s : State) (r : Req) (sts fop : Nat) : State :=
  let z := DWord.zero
  if r.op = Op.stroke then
    let old := if sts = Sts.poison then z else DWord.gen (Config.freeOld s.freeCtr)
    (({ s with freeCtr := s.freeCtr + 1 }).abortNote r sts 0 false).refuse r Op.strokeDone sts 1 [old, old, z, z]
  else (s.abortNote r sts fop true).refuse r Op.ligDone (sts + fop * 16) 1 [z, DWord.gen s.tod, z, z]

/-- The checks of the ledger engine that come before the region checks (R181, R187): status and failing operation. -/
def State.formatOf (s : State) (r : Req) : Option (Nat × Nat) :=
  if r.op = Op.stroke then (strokeFormat r).map (fun x => (x, 0))
  else if r.op = Op.ligature then s.ligFormat r
  else none

/-- The region and world checks of a request (R347); `Sync` has none. -/
def State.regionCheck (s : State) (r : Req) : Option Nat :=
  if r.op = Op.sync then none
  else if r.op = Op.ligature then s.vet r (dataLines (opFlits r.data)) (s.ringCovered (ligRing r.detail))
  else s.vet r [r.line] true

/-- A request of a network port is dispatched (R32, R78, R86, R182, R188, R371). -/
def State.handle (s : State) (r : Req) : State :=
  match s.barred r with
  | some t => t
  | none =>
    match s.formatOf r with
    | some (sts, fop) => s.ledgerRefuse r sts fop
    | none =>
      match s.regionCheck r with
      | some k => s.refuseRegion r k
      | none =>
        if s.warn then s.sendRetry r 0 (s.fld R.YARD_TKTCTL 16 8) s.tod
        else if r.op = Op.ligature then s.dispatchLig r
        else s.dispatch r .req none

/-- The next request of an opcode leaves the REQ queue of a port and is dispatched; with none, nothing happens. -/
def State.request (s : State) (n : Nat) (op : BitVec 6) : State :=
  match s.nextReq n op with
  | none => s
  | some x => ((s.dropIn n 0 x).taken 5 (s.laneOf x.p.line) n).handle (x.req n)

/-- RD_SHARED (R78). -/
def execRdShared (port : Fin 4) (s : State) : Host.Outcome State Fault Refusal := .next (finish s (s.request port.val Op.rdShared))
/-- RD_UNIQUE (R78). -/
def execRdUnique (port : Fin 4) (s : State) : Host.Outcome State Fault Refusal := .next (finish s (s.request port.val Op.rdUnique))
/-- UPGRADE (R78). -/
def execUpgrade (port : Fin 4) (s : State) : Host.Outcome State Fault Refusal := .next (finish s (s.request port.val Op.upgrade))
/-- CLAIM_ZERO (R78). -/
def execClaimZero (port : Fin 4) (s : State) : Host.Outcome State Fault Refusal := .next (finish s (s.request port.val Op.claimZero))
/-- RD_ONCE (R78). -/
def execRdOnce (port : Fin 4) (s : State) : Host.Outcome State Fault Refusal := .next (finish s (s.request port.val Op.rdOnce))
/-- WR_FULL (R78). -/
def execWrFull (port : Fin 4) (s : State) : Host.Outcome State Fault Refusal := .next (finish s (s.request port.val Op.wrFull))
/-- WR_PART (R78). -/
def execWrPart (port : Fin 4) (s : State) : Host.Outcome State Fault Refusal := .next (finish s (s.request port.val Op.wrPart))
/-- STROKE (R182). -/
def execStroke (port : Fin 4) (s : State) : Host.Outcome State Fault Refusal := .next (finish s (s.request port.val Op.stroke))
/-- LIGATURE (R188). -/
def execLigature (port : Fin 4) (s : State) : Host.Outcome State Fault Refusal := .next (finish s (s.request port.val Op.ligature))
/-- SYNC (R86). -/
def execSync (port : Fin 4) (s : State) : Host.Outcome State Fault Refusal := .next (finish s (s.request port.val Op.sync))

/-! ### The write-back queue -/

/-- The `WbDirty` at the head of a write-back queue is offered to its slice (R81, R136): it proceeds or stays. -/
def State.offerWb (s : State) (n : Nat) : State :=
  match (s.np n).inqOf 1 with
  | x :: _ =>
    if x.p.opcode = Op.wbDirty then
      match ((s.dropIn n 1 x).taken 2 (s.laneOf x.p.line) n).writeBack n x.p with
      | some t => t
      | none => s
    else s
  | [] => s

/-- WB_DIRTY (R81). -/
def execWbDirty (port : Fin 4) (s : State) : Host.Outcome State Fault Refusal := .next (finish s (s.offerWb port.val))
/-- WB_RETRY_OFFER (R136): a held `WbDirty` is offered again. -/
def execWbRetryOffer (port : Fin 4) (s : State) : Host.Outcome State Fault Refusal := .next (finish s (s.offerWb port.val))

/-- An `EvictNote` that changes nothing is discarded and counted (R78, R82). -/
def State.noteDropped (s : State) (n : Nat) (p : Packet) : State := s.ev 0xA7 (pktAttr n p)

/-- A census may start (R114, R135, R402): cluster form with the sender's cluster marked, 256 free request stalls, a relay
stall and an inkwell slot. It is held to R134 like a network request. -/
def State.mayCensus (s : State) (e : DirEntry) (q : EpId) : Bool :=
  s.flag R.DIR_CTL 2 && s.boot.rlyReady && e.st != .x && e.sh.form == 2 && (s.marked e).contains (clusterOf q) &&
  decide (256 ≤ s.freeStalls 0) && s.mayTake 5 1 none && (s.aStall 0).isSome && decide (1 ≤ s.freeStalls 3) && decide (1 ≤ s.inkRoom)

/-- A census of the sender's cluster starts (R114): a stall that blocks the line, and one `RlyInv` with KIND = census. -/
def State.census (s : State) (q : EpId) (h : HIdx) (e : DirEntry) : State :=
  match s.aStall 0, s.inkFree with
  | some i, some sl =>
    let r : Req := s.inner 0 (s.worldOfH h) (s.lineOf h) 0 []
    let t := { Stall.new (.census (clusterOf q)) r h s.tod with ink := some sl, out := some .ackI, way := (s.dirOf h).map (fun x => x.1) }
    let s : State := ((s.inkReserve sl h).openStall i t).ev 0x8B { l := some (s.lineOf h).toNat }
    (s.multicast i h [s.relayOf (clusterOf q)] (rlyDetail none (if e.st = .o then e.owner else none) 2)).censusStep i
  | _, _ => s

/-- An `EvictNote` on an unblocked line that has an entry (R78, R101, R114). -/
def State.evictNoteOn (s : State) (n : Nat) (p : Packet) (h : HIdx) (k : Nat) (e : DirEntry) : State :=
  if e.owner = some p.src then
    if e.st = .x then (s.freeEntry k).ev 0xA6 (pktAttr n p) else s.noteDropped n p
  else if (s.exact e).contains p.src then (s.setExact k h e e.owner (fun x => x != p.src)).ev 0xA6 (pktAttr n p)
  else
    let s : State := s.noteDropped n p
    if s.mayCensus e p.src then s.census p.src h e else s

/-- The `EvictNote` at the head of a write-back queue (R78, R82, R321, R337, R347). -/
def State.takeNote (s : State) (n : Nat) (p : Packet) : State :=
  if s.chk || s.fence p.src != 0 then s.noteDropped n p
  else match s.hIdx p.line with
    | none => (s.viol 1 n p.src.toNat p.world p.line p.tag p.opcode).noteDropped n p
    | some h =>
      let s : State := s.dirAccess h
      if s.chk || s.blocked h then s.noteDropped n p
      else match s.dirOf h with
        | some (k, e) => s.evictNoteOn n p h k e
        | none => s.noteDropped n p

/-- EVICT_NOTE (R78, R82). -/
def execEvictNote (port : Fin 4) (s : State) : Host.Outcome State Fault Refusal :=
  .next (finish s (match (s.np port.val).inqOf 1 with
    | x :: _ => if x.p.opcode = Op.evictNote then
        ((s.dropIn port.val 1 x).taken 2 (s.laneOf x.p.line) port.val).takeNote port.val x.p else s
    | [] => s))

/-! ### Pen and tickets -/

/-- A penned request is dispatched again (R142, R145). A penned cleaner eviction whose entry has gone, or that needs a relay
stall and finds none, closes; the cleaner's next visit tries again (R122, R136). -/
def State.redispatch (s : State) (k : Nat) (e : PenEntry) : State :=
  match SMap.find s.stalls e.stall with
  | none => s
  | some t =>
    match t.role with
    | .lig n _ => s.ligStep n
    | .evict d _ =>
      let s : State := { s with pen := SMap.del s.pen k }
      (match SMap.find s.dirs d with
        | some x => if hOfKey d x != t.h || (decide (2 ≤ x.sh.form) && s.freeStalls 3 == 0) then s.doClose e.stall t else s.evictGo e.stall d
        | none => s.doClose e.stall t)
    | _ => s.dispatch t.req t.role (some (k, e))

/-- PEN_REDISPATCH (R142, R143, R153): an entry whose turn has come. -/
def execPenRedispatch (pen : Fin 512) (s : State) : Host.Outcome State Fault Refusal :=
  .next (finish s (match SMap.find s.pen pen.val with
    | some e => if !s.chk && s.penTurn pen.val e then
        s.reading 4 (penSram pen.val) (fun s => s.reading 4 e.stall (fun s => s.redispatch pen.val e)) else s
    | none => s))

/-- PEN.CTL.DEADLINE in units of the time of day (R146, R160). -/
def State.deadline (s : State) : Nat := nsec (16 * max 1 (s.fld R.PEN_CTL 0 12))

/-- A penned request whose deadline has passed is answered `Retry` (R146); an internal request stays. -/
def State.expirePen (s : State) (k : Nat) (e : PenEntry) : State :=
  match SMap.find s.stalls e.stall with
  | none => s
  | some t =>
    match t.role with
    | .lig n _ =>
      (match SMap.find s.ligs n with
        | some g => if s.deadline ≤ elapsed g.acc s.tod then s.ligRelease n 32 3 8 else s
        | none => s)
    | .req =>
      if s.deadline ≤ elapsed t.acc s.tod && decide (e.reason < 3) && t.req.src != 5 then
        let s : State := { s with pen := SMap.del s.pen k, stalls := SMap.del s.stalls e.stall }
        let s : State := (s.addFld R.YARD_RETRY 32 16 1).respEv 3 t.req
        let p := s.issue t.req [t.req.line] [e.stall] 0
        let s : State := if p.2 = 0 then p.1.giveBack e.stall else p.1
        s.sendRetry t.req p.2 (s.hint p.2 8) t.acc
      else s
    | _ => s

/-- PEN_DEADLINE (R146). -/
def execPenDeadline (pen : Fin 512) (s : State) : Host.Outcome State Fault Refusal :=
  .next (finish s (match SMap.find s.pen pen.val with
    | some e => s.reading 4 (penSram pen.val) (fun s => s.reading 4 e.stall (fun s => s.expirePen pen.val e))
    | none => s))

/-- TICKET_EXPIRY (R151). -/
def execTicketExpiry (idx : Fin 256) (s : State) : Host.Outcome State Fault Refusal :=
  .next (finish s (s.reading 4 (tktSram idx.val) (fun s => match SMap.find s.tickets idx.val with
    | some t =>
      if usec (max 1 (s.fld R.YARD_TKTCTL 24 6)) ≤ elapsed t.issued s.tod then
        let s : State := ({ s with tickets := SMap.del s.tickets idx.val }).addFld R.YARD_TKTERR 0 16 1
        let s : State := s.ev 0x8F { i := some t.who.toNat, l := some t.line.toNat }
        t.held.foldl (fun u i => u.giveBack i) s
      else s
    | none => s)))

end Sys2Proof.Machine
end

