-- ==== Sys2Proof/Machine/ChannelPort.lean ====
section
/-! DEFINITION. The channel port (R283-R293): classification of commands, their dispatch in stream order, replays, commands
retried inside the CP island (R136), and the link's resets (R291, R365). -/

namespace Sys2Proof.Machine

/-- The request opcode of a channel-port command (R286); none for an unassigned OP (R284). -/
def cpOpcode (op : BitVec 4) : Option (BitVec 6) :=
  if op = 1 then some Op.rdOnce else if op = 2 then some Op.wrFull else if op = 3 then some Op.wrPart
  else if op = 4 then some Op.sync else none

/-- The request that carries out a channel-port command (R76, R286). Its requester's ID and tag are free values (log 15). -/
def State.cpReq (s : State) (c : CpCmd) (op : BitVec 6) (tkt : BitVec 16) (dup : Bool) : Req :=
  ⟨op, 4, s.flag R.SEC_WORLDCFG 4, Config.freeReqId 4 (c.stream.val * 2 ^ 16 + c.seq.toNat),
    Config.freeReqTag 4 (c.stream.val * 2 ^ 16 + c.seq.toNat), c.line, tkt, BitVec.ofNat 40 c.mask.toNat, c.data, some (c.stream.val, c.seq, dup)⟩

/-- Classes of R285. -/
inductive CpClass where
  | fresh | window | dup | gap | stale
  deriving DecidableEq, Repr

/-- The class of a command with an assigned OP (R285). -/
def State.cpClass (s : State) (c : CpCmd) : CpClass :=
  let st := c.stream.val
  let next := s.cpNext st
  let d := (next - c.seq).toNat
  let a := (c.seq - next).toNat
  if d = 0 then (if (c.seq - s.cpDack st).toNat ≤ 256 then .fresh else .window)
  else if d ≤ 512 then .dup
  else if 1 ≤ a ∧ a ≤ 256 then .gap
  else .stale

/-- An answer given at once (R285): counted in the CP.ERRCNT field at `lo`, recorded under CP.CTL.ERRLOG. -/
def State.cpAtOnce (s : State) (c : CpCmd) (status lo : Nat) : State :=
  let s : State := (s.addFld R.CP_ERRCNT lo 16 1).ev 0xDA { s := some 4, l := some c.line.toNat }
  let s : State := if s.flag R.CP_CTL 0 then
      s.note 7 8 status 0 (s.flag R.SEC_WORLDCFG 4) c.line
    else s
  s.cpRespond ⟨c.stream.val, c.seq, status, false, 0, []⟩ none

/-- A command joins its stream's open commands (R287). -/
def State.cpOpen (s : State) (st : Nat) (o : CpOpen) : State :=
  { s with cp := { s.cp with opens := SMap.put s.cp.opens st (((SMap.find s.cp.opens st).getD []) ++ [o]) } }

/-- A command reaches dispatch after its world and region checks (R286, R347); the channel port has had its turn in the lane
(R154). -/
def State.cpDispatch (s : State) (r : Req) : State :=
  let s : State := s.taken 5 (s.laneOf r.line) 4
  match s.regionCheck r with
  | some k => s.refuseRegion r k
  | none => s.dispatch r .req none

/-- A command is kept behind the earlier commands of its stream that wait in the CP island (R136, R286). -/
def State.cpHeld (s : State) (st : Fin 64) : Bool := s.cp.retry.any (fun x => x.1.stream == st)

/-- A command that executes: it joins its stream and is dispatched, or waits behind the stream's retried ones. -/
def State.cpExecute (s : State) (c : CpCmd) (op : BitVec 6) (dup : Bool) : State :=
  let s : State := s.cpOpen c.stream.val ⟨c.seq, dup, none, none, none⟩
  if s.cpHeld c.stream then { s with cp := { s.cp with retry := s.cp.retry ++ [(c, 0, dup)] } }
  else s.cpDispatch (s.cpReq c op 0 dup)

/-- A duplicate (R290): a write is answered DUP in stream order, a READ or SYNC is executed again. -/
def State.cpReplay (s : State) (c : CpCmd) (op : BitVec 6) : State :=
  let s : State := (s.addFld R.CP_ERRCNT 48 16 1).ev 0xD9 { s := some 4, l := some c.line.toNat }
  if op = Op.wrFull || op = Op.wrPart then
    (s.cpOpen c.stream.val ⟨c.seq, true, none, some ⟨c.stream.val, c.seq, 1, false, 0, []⟩, none⟩).cpDrain c.stream.val 64
  else s.cpExecute c op true

/-- The first uncorrectable word of a command's data that Tirkar uses (R63, R268). -/
def cpBadWord (c : CpCmd) : Option Nat :=
  if c.data.length = 32 then
    (List.range 32).find? (fun w => (LineData.word c.data w).bad && (c.op != 3 || bit c.mask.toNat w))
  else none

/-- The data of an executed write is corrected on entry, and poison in it recorded (R9, R268, R314; log 68). -/
def State.cpIntake (s : State) (c : CpCmd) : State :=
  let s : State := if c.data.ceCount = 0 then s
    else s.note 7 0 Config.entryDetail.toNat 1 (s.flag R.SEC_WORLDCFG 4) c.line
  match cpBadWord c with
  | some w => (s.ev 0xB8 { s := some 4, l := some c.line.toNat }).note 7 1 0 2 (s.flag R.SEC_WORLDCFG 4) c.line (arg := BitVec.ofNat 40 (8 + w * 16))
  | none => s

/-- A NEW command (R285, R286). -/
def State.cpFresh (s : State) (c : CpCmd) (op : BitVec 6) : State :=
  let s : State := s.setFld (cpReg c.stream.val) 0 16 (c.seq + 1).toNat
  let s : State := (s.cpIntake c).ev 0xD8 { s := some 4, l := some c.line.toNat }
  s.cpExecute { c with data := c.data.fix } op false

/-- The credits that the channel subsystem holds while the link runs (R283, R371, R400, R493): its limit, less the flits whose
credits a power warning keeps back. A command leaves the receive buffer in the step that takes it. -/
def State.cpGranted (s : State) : Nat :=
  if s.cp.opened && (s.link 4 == 1 || s.link 4 == 2) then s.cp.limit - s.cp.spent else 0
/-- A command uses the credits of its flits; while a power warning stands they do not come back (R371). -/
def State.cpSpend (s : State) (c : CpCmd) : State :=
  if s.warn then { s with cp := { s.cp with spent := s.cp.spent + (if c.data.isEmpty then 1 else 9) } } else s

/-- A command arrives on the channel-port link (R285, R337). Commands arrive only once muster has opened the port and the
link has run (R400, R493). -/
def State.cpCommand (s : State) (c : CpCmd) : State :=
  let open_ := s.cp.opened && (s.link 4 == 1 || s.link 4 == 2)
  let s : State := if open_ then s.cpSpend c else s
  if !open_ then s
  else if s.chk then s.cpRespond ⟨c.stream.val, c.seq, 8, false, 0, []⟩ none
  else match cpOpcode c.op with
    | none => s.cpAtOnce c 9 32
    | some op =>
      let s : State := s.probe 5 c.stream.val
      if s.chk then s.cpRespond ⟨c.stream.val, c.seq, 8, false, 0, []⟩ none
      else match s.cpClass c with
        | .fresh => s.cpFresh c op
        | .window => s.cpAtOnce c 3 16
        | .dup => s.cpReplay c op
        | .gap => s.cpAtOnce c 2 0
        | .stale => s.cpAtOnce c 4 32

/-- CP_READ (R286). -/
def execCpRead (c : CpCmd) (s : State) : Host.Outcome State Fault Refusal := .next (finish s (s.cpCommand c))
/-- CP_WRFULL (R286, R290). -/
def execCpWrfull (c : CpCmd) (s : State) : Host.Outcome State Fault Refusal := .next (finish s (s.cpCommand c))
/-- CP_WRPART (R286, R290). -/
def execCpWrpart (c : CpCmd) (s : State) : Host.Outcome State Fault Refusal := .next (finish s (s.cpCommand c))
/-- CP_SYNC (R286). -/
def execCpSync (c : CpCmd) (s : State) : Host.Outcome State Fault Refusal := .next (finish s (s.cpCommand c))

/-- The earliest command of a stream that waits in the CP island is presented again (R136). -/
def State.cpAgain (s : State) (st : Fin 64) : State :=
  match s.cp.retry.find? (fun x => x.1.stream == st) with
  | none => s
  | some x =>
    let s : State := { s with cp := { s.cp with retry := s.cp.retry.erase x } }
    match cpOpcode x.1.op with
    | some op => s.cpDispatch (s.cpReq x.1 op x.2.1 x.2.2)
    | none => s

/-- CP_COMMAND_RETRY (R136). -/
def execCpCommandRetry (stream : Fin 64) (s : State) : Host.Outcome State Fault Refusal :=
  .next (finish s (if s.chk then s else s.cpAgain stream))

/-- A function reset of the channel port (R291, R365): what is not accepted is lost, undelivered completions are dropped.
`driven`: CP_FRST is driven. -/
def State.cpReset (s : State) (driven : Bool) : State :=
  let s : State := ((s.setLink 4 3).addFld R.ISL_RSTSTAT 10 16 1).setFlag R.ISL_RSTSTAT 7 true
  { s with cp := { s.cp with eg := [], cred := 0, spent := 0, lost := true, driven := driven || s.cp.driven } }

/-- CP_LINK_RST (R291, R493): a reset from the channel subsystem, while the CP island is powered. -/
def execCpLinkRst (s : State) : Host.Outcome State Fault Refusal :=
  .next (finish s (if s.isl 6 = 3 || s.isl 6 = 4 then s else s.cpReset false))

/-- The durable acknowledgements that follow a function reset, one for every stream, before any other response (R291). -/
def State.cpAckAll (s : State) : State :=
  let acks := (List.range 64).map (fun st => (⟨st, s.cpDack st, 0, true, s.cpDack st, []⟩ : CpRsp))
  { s with cp := { s.cp with eg := acks.map (fun x => (x, none)) ++ s.cp.eg, lost := false } }.evN 0xDB 64 {}

end Sys2Proof.Machine
end

