-- ==== Sys2Proof/Machine/MemoryPorts.lean ====
section
/-! DEFINITION. The memory ports and the inkwell's way to memory: issue of reads and writes (R264, R265, R276, R280),
returned lines and repair writes (R266, R267, R496), commits (R269, R277), failure (R270, R271), function reset (R272,
R365, R492) and resync (R273). -/

namespace Sys2Proof.Machine

/-- The port line index of a home line index (R262). -/
def portLine (h : HIdx) : BitVec 33 := BitVec.ofNat 33 h.toNat
/-- The island of a memory port is powered and takes commands (R366, R368). -/
def State.mpPowered (s : State) (n : Nat) : Bool := s.isl (4 + n) == 0 || s.isl (4 + n) == 1
/-- MPn.CFG.PRESENT. -/
def State.mpPresent (s : State) (n : Nat) : Bool := s.flag (mpBase R.MP_CFG n) 0
/-- The state of a memory port written (R292); a change of it is noticed (R426). -/
def State.setMpState (s : State) (n v : Nat) : State :=
  (if s.mpState n = v then s else s.notice 6 (n + v * 2) []).setFld (mpBase R.MP_STATUS n) 0 3 v

/-! ### Issue -/

/-- The filled slots that still go to port `n` (R276). -/
def State.writesFor (s : State) (n : Nat) : SMap InkSlot :=
  s.ink.filter (fun e => e.2.phase != .reserved && e.2.need.contains n && !e.2.sent.contains n)
/-- A copy of a line is on its way to a port (R273). -/
def MpSt.copying (p : MpSt) (h : HIdx) : Bool := p.writes.any (fun e => e.2.1 == Config.inkSlots && e.2.2.1 == h.toNat)
/-- The slot issued next to a port: the oldest fill whose line has no older slot ISSUED (R275, R276), nor a copy of its line on
its way to the port (R273; DEDUCED, log 69). -/
def State.nextWrite (s : State) (n : Nat) : Option (Nat × InkSlot) :=
  let ok := (s.writesFor n).filter (fun e => !(s.mp n).copying e.2.h &&
    s.ink.all (fun o => o.2.phase != .issued || o.2.h != e.2.h || decide (e.2.seq ≤ o.2.seq)))
  match leastBy (fun k => ((SMap.find s.ink k).map (fun x => x.seq)).getD 0) (ok.map (fun e => e.1)) with
  | some k => (SMap.find s.ink k).map (fun x => (k, x))
  | none => none
/-- The write goes before a waiting read (R276, R280). -/
def State.writeFirst (s : State) (n : Nat) : Bool :=
  let ws := s.writesFor n
  s.warn || decide (s.fld R.INK_CTL 0 9 ≤ ws.length) ||
  ws.any (fun e => decide (nsec (32 * max 1 (s.fld R.INK_CTL 9 7)) ≤ elapsed e.2.filledAt s.tod)) ||
  ws.any (fun e => !e.2.waiters.isEmpty || !e.2.cps.isEmpty)
/-- A write can be issued to a port now. -/
def State.canWrite (s : State) (n : Nat) : Bool :=
  let p := s.mp n
  !s.chk && s.mpPowered n && s.mpPresent n && (s.mpState n == 1 || s.mpState n == 4) && decide (1 ≤ p.wrCred) &&
    decide (p.writes.length < 32) && (s.nextWrite n).isSome
/-- A read can be issued to a port now. -/
def State.canRead (s : State) (n : Nat) : Bool :=
  let p := s.mp n
  s.mpPowered n && s.mpPresent n && s.mpState n == 1 && decide (1 ≤ p.rdCred) && p.reads.any (fun r => r.tag.isNone) &&
    decide (p.reads.countP (fun r => r.tag.isSome) < 64)

/-- The first waiting read of a list takes a tag. -/
def tagFirst (t : Nat) (now : Tod) : List MpRead → List MpRead
  | [] => []
  | r :: rs => if r.tag.isNone then { r with tag := some t, since := now } :: rs else r :: tagFirst t now rs
/-- A place of the command queue comes free: the first read that waits for one enters (R31, R157). -/
def enterNext (now : Tod) (rs : List MpRead) : List MpRead :=
  updFirst (fun r => r.tag.isNone && r.entered.isNone) (fun r => { r with entered := some now, since := now }) rs

/-- A read is made a second time: its event is of repeated work (R312), and a resend of R319 shows in GLB.RCVSTAT. -/
def State.reread (s : State) (n : Nat) (r : MpRead) : State :=
  let s : State := if r.again.isSome || r.rerun != .no then s.redo (0xD0 + n) else s
  if r.again.isSome || r.rerun == .reset then s.setFlag R.GLB_RCVSTAT 20 true else s

/-- A read command goes to a port (R264, R276). -/
def State.issueRead (s : State) (n : Nat) : State :=
  let p := s.mp n
  match p.reads.find? (fun r => r.tag.isNone), (List.range 64).find? (fun t => p.reads.all (fun r => r.tag != some t)) with
  | some r, some t =>
    let s : State := s.setMp n { p with rdCred := p.rdCred - 1, reads := enterNext s.tod (tagFirst t s.tod p.reads) }
    let s : State := s.reread n r
    { s with mpTx := s.mpTx ++ [(⟨n, false, portLine r.h, t, []⟩ : MpCmd)] }.ev (0xD0 + n) { l := some (s.lineOf r.h).toNat }
  | _, _ => s

/-! ### The resync's copy engine (R273; log 69) -/

/-- The first line of a valid mirrored region at or above a home line index. -/
def State.mirrorFrom (s : State) (pos : Nat) : Option Nat :=
  leastBy id (((List.range 64).filter (fun k => s.regionV k && s.regionMirror k &&
    decide (pos < (s.regionOff k + s.regionSize k) * 256))).map (fun k => max pos (s.regionOff k * 256)))
/-- An inkwell write takes a line to port `n`. -/
def State.inkTakes (s : State) (n : Nat) (h : HIdx) : Bool :=
  s.ink.any (fun e => e.2.phase != .reserved && e.2.h == h && e.2.ports.contains n)
/-- The next line to copy, lines that an inkwell write takes to the port skipped; `fuel` bounds their number. -/
def State.copyNext (s : State) (n pos : Nat) : Nat → Option Nat
  | 0 => none
  | f + 1 =>
    match s.mirrorFrom pos with
    | none => none
    | some h => if s.inkTakes n (BitVec.ofNat 34 h) then s.copyNext n (h + 1) f else some h
/-- The next line that port `n` lacks. -/
def State.copyLine (s : State) (n : Nat) (c : CopySt) : Option Nat := s.copyNext n c.pos (s.ink.length + 1)
/-- The units that a resync has finished (R292): those passed, less those that hold a line still being copied. -/
def State.copyUnits (s : State) (n : Nat) (c : CopySt) : Nat :=
  let pos := (s.copyLine n c).getD (2 ^ 34)
  let passed := ((List.range 64).map (fun k => if s.regionV k && s.regionMirror k then
    min (s.regionSize k) (pos / 256 - s.regionOff k) else 0)).sum
  passed - ((c.busy.map (fun h => h.toNat / 256)).eraseDups.filter (fun u => decide (u < pos / 256))).length
/-- Half of a port's credits of a kind, held and in use (R273). -/
def halfOf (cred out : Nat) : Nat := (cred + out) / 2

/-- The copy engine of port `1 - m` reads a line from port `m`, when nothing else is to be read there. -/
def State.copyRead (s : State) (m : Nat) : State :=
  let n := 1 - m
  let p := s.mp m
  match (s.mp n).copy with
  | none => s
  | some c =>
    let out := p.reads.countP (fun r => r.tag.isSome)
    match s.copyLine n c, (List.range 64).find? (fun t => p.reads.all (fun r => r.tag != some t)) with
    | some h, some t =>
      if s.mpState n = 4 && !s.chk && s.mpPowered m && s.mpPresent m && s.mpState m == 1 && decide (1 ≤ p.rdCred) &&
          decide (p.reads.countP (fun r => r.copy) < halfOf p.rdCred out) then
        let hx : HIdx := BitVec.ofNat 34 h
        let s : State := s.setMp m { p with rdCred := p.rdCred - 1, reads := p.reads ++ [⟨hx, 0, some t, s.tod, some s.tod, none, .no, true⟩] }
        let s : State := s.setMp n { s.mp n with copy := some { c with pos := h + 1, busy := c.busy ++ [hx] } }
        { s with mpTx := s.mpTx ++ [(⟨m, false, portLine hx, t, []⟩ : MpCmd)] }.ev (0xD0 + m) { l := some (s.lineOf hx).toNat }
      else s
    | _, _ => s
/-- A line read for the copy waits for its write, unless an inkwell write has taken it over. -/
def State.copyGot (s : State) (n : Nat) (h : HIdx) (d : LineData) : State :=
  match (s.mp n).copy with
  | some c => if c.busy.contains h then s.setMp n { s.mp n with copy := some { c with data := c.data ++ [(h, d)] } } else s
  | none => s
/-- The copy engine writes a line to port `n`, when no inkwell write goes there. -/
def State.copyWrite (s : State) (n : Nat) : State :=
  let p := s.mp n
  match p.copy with
  | none => s
  | some c =>
    match c.data, SMap.firstFree p.writes 64 32 with
    | (h, d) :: rest, some t =>
      if s.mpState n = 4 && !s.chk && s.mpPowered n && s.mpPresent n && decide (1 ≤ p.wrCred) &&
          decide (p.writes.countP (fun e => e.2.1 == Config.inkSlots) < halfOf p.wrCred p.writes.length) then
        let s : State := s.setMp n { p with wrCred := p.wrCred - 1, copy := some { c with data := rest },
                                            writes := SMap.put p.writes t (Config.inkSlots, h.toNat, s.tod) }
        { s with mpTx := s.mpTx ++ [(⟨n, true, portLine h, t, d⟩ : MpCmd)] }
      else s
    | _, _ => s
/-- A copied line is written. -/
def State.copyPut (s : State) (n : Nat) (h : HIdx) : State :=
  match (s.mp n).copy with
  | some c => s.setMp n { s.mp n with copy := some { c with busy := c.busy.filter (fun x => x != h) } }
  | none => s
/-- The copy stops (R273): RSPOS keeps what it has finished. What it still reads from the other port goes nowhere (its `stall`
is then 1). -/
def State.copyStop (s : State) (n : Nat) : State :=
  match (s.mp n).copy with
  | none => s
  | some c =>
    let s : State := s.setFld (mpBase R.MP_STATUS n) 16 26 (s.copyUnits n c)
    let s : State := s.setMp n { s.mp n with copy := none }
    let q := s.mp (1 - n)
    s.setMp (1 - n) { q with reads := (q.reads.filter (fun r => !r.copy || r.tag.isSome)).map (fun r =>
      if r.copy then { r with stall := 1 } else r) }

/-- MP_READ_ISSUE (R276): a waiting read; when there is none, a line for the resync of the other port (R273). -/
def execMpReadIssue (port : Fin 2) (s : State) : Host.Outcome State Fault Refusal :=
  .next (finish s (
    let n := port.val
    if s.writeFirst n && s.canWrite n then s
    else if s.canRead n then s.issueRead n
    else s.copyRead n))

/-- A write command goes to a port (R264, R276, R278); write tags run from 64 (DESIGN CHOICE, log 11). -/
def State.issueWrite (s : State) (n : Nat) : State :=
  match s.nextWrite n with
  | none => s
  | some (k, _) =>
    let r := s.inkRead k
    let s : State := r.1
    let p := s.mp n
    match SMap.find s.ink k, SMap.firstFree p.writes 64 32 with
    | some x, some t =>
      if s.chk then s
      else
        let s : State := s.setMp n { p with wrCred := p.wrCred - 1, writes := SMap.put p.writes t (k, x.seq, s.tod) }
        let s : State := { s with ink := SMap.put s.ink k { x with phase := .issued, sent := x.sent ++ [n], again := false } }
        let s : State := if x.again then s.setFlag R.GLB_RCVSTAT 20 true else s
        { s with mpTx := s.mpTx ++ [(⟨n, true, portLine x.h, t, r.2⟩ : MpCmd)] }
    | _, _ => s

/-- INK_WRITE_ISSUE (R276): a filled slot; when none can go, a line that the port's resync has read (R273). -/
def execInkWriteIssue (port : Fin 2) (s : State) : Host.Outcome State Fault Refusal :=
  .next (finish s (
    let n := port.val
    if s.canRead n && !(s.writeFirst n && s.canWrite n) then s
    else if s.canWrite n then s.issueWrite n
    else s.copyWrite n))

/-! ### Commits -/

/-- A stall that waited for commits goes on (R83, R86). -/
def State.commitStep (s : State) (i : Nat) : State :=
  match SMap.find s.stalls i with
  | none => s
  | some t =>
    if s.chk || s.awaitsCommit i then s
    else if t.req.op = Op.sync then s.syncStep i
    else (s.reply i t Op.cmpW 1 0 []).closeReq i

/-- A slot is committed and freed; what waited only for it goes on (R277, R289). -/
def State.commit (s : State) (k : Nat) : State :=
  match SMap.find s.ink k with
  | none => s
  | some x =>
    let t := elapsed x.filledAt s.tod
    let s : State := { s with ink := SMap.del s.ink k }
    let s : State := s.maxFld R.INK_COMMIT 0 24 t
    let s : State := if usec 1 < t then s.addFld R.INK_COMMIT 24 24 1 else s
    let s : State := x.waiters.foldl (fun u i => u.commitStep i) s
    if s.chk then s else ((x.cps.map (fun c => c.1)).eraseDups).foldl (fun u st => (u.cpDrain st 64).cpAdvance st) s

/-- A port's answer is no longer missing for a slot. After a checkstop with cause MemoryLost nothing is committed (R271). -/
def State.portDone (s : State) (n k : Nat) : State :=
  match SMap.find s.ink k with
  | none => s
  | some x =>
    if s.chk && s.chkCause = Cause.memoryLost then s
    else
    let need := x.need.filter (fun m => m != n)
    let s : State := { s with ink := SMap.put s.ink k { x with need := need } }
    if need.isEmpty then s.commit k else s

/-- A slot need no longer be held by a port that has failed (R269, R271). -/
def State.portGone (s : State) (n k : Nat) : State :=
  ({ s with ink := SMap.upd s.ink k (fun x => { x with ports := x.ports.filter (fun m => m != n) }) }).portDone n k
/-- The slots that a port must hold (R269, R279). -/
def State.owedBy (s : State) (n : Nat) : List Nat :=
  (s.ink.filter (fun e => e.2.ports.contains n && e.2.phase != .reserved)).map (fun e => e.1)

/-! ### Failure -/

/-- A region places unmirrored lines on a port (R262, R271). -/
def State.strands (s : State) (n : Nat) : Bool :=
  (List.range 64).any (fun k => s.regionV k && !s.regionMirror k && decide (1 ≤ s.regionSize k) &&
    (if n = 0 then decide (s.regionOff k < 2 ^ 25) else decide (2 ^ 25 < s.regionOff k + s.regionSize k)))

/-- The record of a port's damaged copy (R266, R451): detail 0 found, 1 marked, 2 repaired from the mirror. -/
def State.copyNote (s : State) (n : Nat) (h : HIdx) (d : LineData) (det : Nat) : State :=
  s.note (1 + n) 1 det 2 (s.worldOfH h) (s.lineOf h) (arg := BitVec.ofNat 40 (n + d.firstBad * 16))

/-- A line that memory returned reaches the stall that asked for it. -/
def State.deliver (s : State) (i : Nat) (h : HIdx) (d : LineData) : State := s.reading 4 i (fun s =>
  match SMap.find s.stalls i with
  | none => s
  | some t =>
    if t.rd = .asked && t.h = h then
      (s.updStall i (fun x => { x with rd := .got, got := some (x.got.getD d) })).step1 i
    else s)

/-- The reads that a failed or resetting port owed are made on the other port (R271, R272): `why` is why those already issued
are made again. -/
def State.moveReads (s : State) (n : Nat) (why : Rerun) (rs : List MpRead) : State :=
  rs.foldl (fun t r =>
    let p := t.mp (1 - n)
    let q := p.ask r.h r.stall t.tod
    t.setMp (1 - n) { p with reads := p.reads ++ [{ q with again := r.again, rerun := if r.tag.isSome then why else r.rerun, copy := r.copy }] }) s

/-- Port `n` becomes FAILED (R270, R271, R273): `why` is the trigger in the order of R270. -/
def State.failPort (s : State) (n why : Nat) : State :=
  if s.mpState n = 2 || !s.mpPresent n then s
  else
    let s : State := s.copyStop n
    let s : State := (s.setMpState n 2).note (1 + n) 7 2 2 (arg := Config.mpTrigger n why)
    let s : State := s.setFlag R.ISL_RSTSTAT (5 + n) false
    let p := s.mp n
    let s : State := s.setMp n { p with reads := [], writes := [], driven := false }
    if s.strands n || s.mpState (1 - n) != 1 then s.declare Cause.memoryLost 1
    else
      let s : State := s.setFlag R.INK_STATUS 30 true
      let s : State := s.moveReads n .failed p.reads
      (s.owedBy n).foldl (fun t k => t.portGone n k) s

/-- MP_FAIL (R270): MPn_FAIL is asserted. -/
def execMpFail (port : Fin 2) (s : State) : Host.Outcome State Fault Refusal := .next (finish s (s.failPort port.val 0))

/-- A timeout field in units of the time of day: 1 to 64 µs (R292). -/
def State.mpTmo (s : State) (n lo : Nat) : Nat := usec (min 64 (max 1 (s.fld (mpBase R.MP_CFG n) lo 8)))
/-- The timeouts of R270 run: not in RESET, nor once the port has failed. -/
def State.mpTimed (s : State) (n : Nat) : Bool := s.mpState n == 0 || s.mpState n == 1 || s.mpState n == 4

/-- MP_RD_TIMEOUT (R270, R492): while the port is ABSENT, a read waits from its entry into the queue. -/
def execMpRdTimeout (port : Fin 2) (s : State) : Host.Outcome State Fault Refusal :=
  .next (finish s (
    let n := port.val
    let late := (s.mp n).reads.any (fun r => (r.tag.isSome || s.mpState n == 0 && r.entered.isSome) && decide (s.mpTmo n 27 ≤ elapsed r.since s.tod))
    if s.mpTimed n && s.mpPresent n && late then (s.addFld (mpBase R.MP_ERR n) 48 8 1).failPort n 2 else s))

/-- MP_WR_TIMEOUT (R270, R492). -/
def execMpWrTimeout (port : Fin 2) (s : State) : Host.Outcome State Fault Refusal :=
  .next (finish s (
    let n := port.val
    let late := (s.mp n).writes.any (fun e => decide (s.mpTmo n 35 ≤ elapsed e.2.2.2 s.tod)) ||
      (s.mpState n == 0 && (s.writesFor n).any (fun e => decide (s.mpTmo n 35 ≤ elapsed e.2.filledAt s.tod)))
    if s.mpTimed n && s.mpPresent n && late then (s.addFld (mpBase R.MP_ERR n) 48 8 1).failPort n 3 else s))

/-- MP_WR_DONE (R269, R273, R277): an answer with an error makes the port FAILED (R270). -/
def execMpWrDone (port : Fin 2) (tag : BitVec 7) (err : Bool) (s : State) : Host.Outcome State Fault Refusal :=
  .next (finish s (
    let n := port.val
    let p := s.mp n
    match SMap.find p.writes tag.toNat with
    | none => s
    | some (k, seq, _) =>
      let s : State := s.setMp n { p with writes := SMap.del p.writes tag.toNat }
      if err then s.failPort n 1
      else if k = Config.inkSlots then
        let h : HIdx := BitVec.ofNat 34 seq
        (s.ev (0xD2 + n) { l := some (s.lineOf h).toNat }).copyPut n h
      else match SMap.find s.ink k with
        | some x => if x.seq = seq then (s.ev (0xD2 + n) { l := some (s.lineOf x.h).toNat }).portDone n k else s
        | none => s))

/-! ### Returned lines -/

/-- The copy of a line as it is carried on: corrected, or marked in every word (R266, R267). -/
def copyOf (d : LineData) (err : Bool) : LineData := if err then (LineData.norm d).map DWord.mark else (LineData.norm d).fix

/-- A port's damaged copy is counted and captured (R266, R267). -/
def State.badCopy (s : State) (n : Nat) (h : HIdx) (d : LineData) (err : Bool) : State :=
  let w := d.firstBad
  let s : State := s.addFld (mpBase R.MP_ERR n) (if err then 32 else 16) 16 1
  s.setReg (mpBase R.MP_ERRLOC n) (BitVec.ofNat 64 ((portLine h).toNat + w * 2 ^ 33 + b2n err * 2 ^ 38 + 2 ^ 39))

/-- The line formed word by word from two copies (R266). -/
def formLine (a b : LineData) : LineData :=
  (List.range 32).map (fun w => if (a.word w).bad && !(b.word w).bad then b.word w else a.word w)

/-- The repair write of a formed line to the ports whose copy was damaged (R496). -/
def State.repair (s : State) (h : HIdx) (d : LineData) (ports : List Nat) : State :=
  if (s.inkNewest h).isSome then s
  else match s.inkFree with
    | none => ports.foldl (fun t n => t.addFld (mpBase R.MP_ERR n) 56 8 1) s
    | some k =>
      let s : State := (s.inkReserve k h).inkFill k d
      let s : State := { s with ink := SMap.upd s.ink k (fun x => { x with ports := ports, need := ports, repair := true }) }
      s.ev 0xD7 { l := some (s.lineOf h).toNat }

/-- The line goes to its stall, or to the copy engine of the other port (R273); a line that carries poison is counted where it
is first found (R268). -/
def State.supply (s : State) (n : Nat) (r : MpRead) (d : LineData) (err : Bool) : State :=
  let s : State := if d.poisoned then s.ev (if err then 0xB9 else 0xB8) { w := some (s.worldOfH r.h), l := some (s.lineOf r.h).toNat } else s
  if r.copy then (if r.stall = 0 then s.copyGot (1 - n) r.h d else s) else s.deliver r.stall r.h d

/-- A line returns for an outstanding read (R266). -/
def State.returned (s : State) (n : Nat) (r : MpRead) (data : LineData) (err : Bool) : State :=
  let c := if err then 0 else (LineData.norm data).ceCount
  let s : State := if c = 0 then s else
    ((s.addFld (mpBase R.MP_ERR n) 0 16 c).evN 0xB5 c { l := some (s.lineOf r.h).toNat }).note (1 + n) 0 5 1 (s.worldOfH r.h) (s.lineOf r.h)
  let d := copyOf data err
  let s : State := if d.poisoned then s.badCopy n r.h d err else s
  match r.again with
  | none =>
    if d.poisoned && (s.portsOf r.h).length == 2 && s.mpState (1 - n) == 1 then
      let p := s.mp (1 - n)
      let s : State := s.setMp (1 - n) { p with reads := p.reads ++ [{ p.ask r.h r.stall s.tod with again := some (n, d, err) }] }
      s.ev 0xBA { w := some (s.worldOfH r.h), l := some (s.lineOf r.h).toNat }
    else (if d.poisoned then s.copyNote n r.h d (b2n err) else s).supply n r d err
  | some (m, d0, err0) =>
    let f := formLine d0 d
    let s : State := s.copyNote m r.h d0 (if f.poisoned then b2n err0 else 2)
    let s : State := if d.poisoned then s.copyNote n r.h d (if f.poisoned then b2n err else 2) else s
    let s : State := if f.poisoned then s else s.repair r.h f (if d.poisoned && m != n then [m, n] else [m])
    s.supply n r f (err0 && err)

/-- MP_READ_DATA (R266): the latency of the read is measured (R157, R292). -/
def execMpReadData (port : Fin 2) (tag : BitVec 7) (data : LineData) (err : Bool) (s : State) : Host.Outcome State Fault Refusal :=
  .next (finish s (
    let n := port.val
    let p := s.mp n
    match p.reads.find? (fun r => r.tag == some tag.toNat) with
    | none => s
    | some r =>
      let t := elapsed (r.entered.getD r.since) s.tod
      let s : State := s.setMp n { p with reads := p.reads.erase r }
      let s : State := s.maxFld (mpBase R.MP_LAT n) 0 24 t
      let s : State := if usec 1 < t then (s.addFld (mpBase R.MP_LAT n) 24 24 1).ev 0xD4 { l := some (s.lineOf r.h).toNat } else s
      s.returned n r data err))

/-! ### Reset and resync -/

/-- A write that a reset interrupted returns to FILLED; a newer FILLED slot for its line takes its place (R272). -/
def State.unissue (s : State) (n k seq : Nat) : State :=
  match SMap.find s.ink k with
  | none => s
  | some x =>
    if x.seq != seq then s
    else match SMap.firstWith s.ink (fun j y => j != k && y.h == x.h && y.phase == .filled && decide (x.seq < y.seq)) with
      | some (j, y) => { s with ink := SMap.put (SMap.del s.ink k) j (y.inherit x) }
      | none => { s with ink := SMap.put s.ink k { x with phase := .filled, sent := x.sent.filter (fun m => m != n), again := true } }

/-- A read that a reset interrupted waits to be issued again (R272). -/
def MpRead.back (r : MpRead) (now : Tod) : MpRead := if r.tag.isSome then { r with tag := none, since := now, rerun := .reset } else r
/-- The commands that a reset of port `n` interrupted (R272). -/
def State.interrupt (s : State) (n : Nat) : State :=
  let p := s.mp n
  let s : State := p.writes.foldl (fun t e => t.unissue n e.2.1 e.2.2.1) s
  let other := s.mpState (1 - n) == 1
  let goes := fun r : MpRead => other && (s.portsOf r.h).length == 2
  let stay := (p.reads.filter (fun r => !goes r)).map (fun r => r.back s.tod)
  let s : State := s.setMp n { p with rdCred := 0, wrCred := 0, seenRd := false, seenWr := false, reads := stay, writes := [] }
  s.moveReads n .reset (p.reads.filter goes)

/-- A resync stops and its port is FAILED again: mirrored writes wait for the other port alone (R269, R273, R365). -/
def State.resyncStop (s : State) (n : Nat) : State :=
  let s : State := (s.copyStop n).setMpState n 2
  let s : State := s.setMp n { s.mp n with writes := [] }
  (s.owedBy n).foldl (fun t k => t.portGone n k) s

/-- A function reset of a memory port (R272, R365): `driven` while MPn_FRST is asserted by Tirkar. No credit is left after it
(R264). -/
def State.mpReset (s : State) (n : Nat) (driven : Bool) : State :=
  let st := s.mpState n
  let s : State := s.addFld R.ISL_RSTSTAT 10 16 1
  if st = 1 || st = 3 then
    let s : State := (s.setMpState n 3).interrupt n
    (s.setMp n { s.mp n with driven := driven || (s.mp n).driven }).setFlag R.ISL_RSTSTAT (5 + n) true
  else
    let s : State := if st = 4 then s.resyncStop n else s
    let s : State := s.setMp n { s.mp n with rdCred := 0, wrCred := 0, driven := driven || (s.mp n).driven }
    if driven then s.setFlag R.ISL_RSTSTAT (5 + n) true else s

/-- A port without a controller is ABSENT; another enters RUN once its reset is over and both kinds of credit have come (R365,
R492). -/
def State.mpBack (s : State) (n : Nat) : State :=
  let p := s.mp n
  let seen := p.seenRd && p.seenWr
  if !s.mpPresent n then
    let s : State := if s.mpState n = 3 && !p.driven then s.setFlag R.ISL_RSTSTAT (5 + n) false else s
    (s.copyStop n).setMpState n 0
  else if s.mpState n = 3 then
    if seen && !p.driven then (s.setMpState n 1).setFlag R.ISL_RSTSTAT (5 + n) false else s
  else if s.mpState n = 0 && seen && s.mpPowered n then s.setMpState n 1
  else s

/-- MP_CTRL_RST (R272): a reset by the controller. -/
def execMpCtrlRst (port : Fin 2) (s : State) : Host.Outcome State Fault Refusal := .next (finish s (s.mpReset port.val false))

/-- MP_CMD_CREDIT (R264, R492). -/
def execMpCmdCredit (port : Fin 2) (write : Bool) (s : State) : Host.Outcome State Fault Refusal :=
  .next (finish s (
    let p := s.mp port.val
    let p := if write then { p with wrCred := p.wrCred + 1, seenWr := true } else { p with rdCred := p.rdCred + 1, seenRd := true }
    (s.setMp port.val p).mpBack port.val))

/-- The 64 KiB units of valid mirrored regions (R292). -/
def State.mirrorUnits (s : State) : Nat :=
  ((List.range 64).map (fun k => if s.regionV k && s.regionMirror k then s.regionSize k else 0)).sum

/-- A resync starts (R273): from then on every mirrored write goes to both ports, and the copy begins at the lowest line. -/
def State.resyncStart (s : State) (n : Nat) : State :=
  if s.mpState n != 2 || s.chk then s
  else
    let s : State := ((s.setMpState n 4).setFld (mpBase R.MP_STATUS n) 16 26 0).setFlag (mpBase R.MP_CTL n) 0 false
    let s : State := s.setMp n { s.mp n with copy := some ⟨0, [], []⟩ }
    { s with ink := s.ink.map (fun e =>
      if e.2.phase != .reserved && !e.2.repair && (s.portsOf e.2.h).length == 2 && !e.2.ports.contains n then
        (e.1, { e.2 with ports := e.2.ports ++ [n], need := e.2.need ++ [n] }) else e) }

/-- The copy has reached the end and nothing of it is on its way (R273). -/
def State.copyOver (s : State) (n : Nat) : Bool :=
  match (s.mp n).copy with
  | some c => c.busy.isEmpty && c.data.isEmpty && (s.copyLine n c).isNone && !(s.mp n).writes.any (fun e => e.2.1 == Config.inkSlots)
  | none => false

/-- RESYNC_COPY_DONE (R273): the copy ends, once every line is copied or skipped. -/
def execResyncCopyDone (port : Fin 2) (s : State) : Host.Outcome State Fault Refusal :=
  .next (finish s (
    let n := port.val
    if s.mpState n = 4 && !s.chk && s.copyOver n then
      let s : State := s.setMp n { s.mp n with copy := none }
      ((s.setMpState n 1).setFld (mpBase R.MP_STATUS n) 16 26 s.mirrorUnits).setFlag R.INK_STATUS 30 false
    else s))

end Sys2Proof.Machine
end

