-- ==== Sys2Proof/Machine/Mgt.lean ====
section
/-! DEFINITION. The ostler's MGT messages: received `DomainStop`, `AliasSet`, `EpochSwap` and `MgtAck` (R61, R238, R248,
R260, R336, R337, R343), epoch swaps (R244, R245), broadcasts (R329, R338). -/

namespace Sys2Proof.Machine

/-! ### Epoch swaps -/

/-- CUR (R259). -/
def State.curEpoch (s : State) : Nat := s.fld R.RTE_EPOCHCTL 0 1
/-- STATE of RTE.EPOCHCTL: 0 IDLE, 1 SWAPPING, 2 RETIRING. -/
def State.swapState (s : State) : Nat := s.fld R.RTE_EPOCHCTL 2 2
/-- The address of RTE.SWAPTGTk. -/
def swapReg (k : Nat) : Nat := R.RTE_SWAPTGT + 16 * k
/-- MAXOUT in force. -/
def State.maxOut (s : State) : Nat := min 8 (max 1 (s.fld R.RTE_EPOCHTIME 16 4))
/-- ACKTMO in units of the time of day. -/
def State.ackTmo (s : State) : Nat := usec (max 1 (s.fld R.RTE_EPOCHTIME 0 8))

/-- CUR flips and the retirement begins (R244 step 3). -/
def State.flip (s : State) : State :=
  let s : State := (s.setFld R.RTE_EPOCHCTL 0 1 (1 - s.curEpoch)).setFld R.RTE_EPOCHCTL 2 2 2
  { s with mgt := { s.mgt with flipAt := s.tod } }

/-- The `EpochSwap` to target `k` (R244 step 2); its port is a free value (log 4). -/
def State.sendSwap (s : State) (k : Nat) : State :=
  let id : EpId := BitVec.ofNat 18 (s.fld (swapReg k) 0 18)
  let rt := s.reg (swapReg k + 8)
  let m : Msg := ⟨Op.epochSwap, id, true, 0, BitVec.ofNat 12 k, BitVec.ofNat 40 (1 - s.curEpoch), 0, []⟩
  let p := s.packet m s.homeId s.domain id (getBits rt 0 48) (getBits rt 48 4)
  let n := (Config.swapPort s.freeCtr).val
  let s : State := { s with freeCtr := s.freeCtr + 1 }
  s.enqueue n ⟨p, none, id, none, false, none⟩

/-- Targets are served in ascending order while fewer than MAXOUT are unacknowledged (R244). -/
def State.swapPump (s : State) : Nat → State
  | 0 => s
  | f + 1 =>
    let k := s.mgt.swapNext
    if s.chk || s.mgt.swapFail.isSome || decide (64 ≤ k) then s
    else if !s.flag (swapReg k) 18 then State.swapPump { s with mgt := { s.mgt with swapNext := k + 1 } } f
    else if s.mgt.swapOut.length < s.maxOut then
      State.swapPump ({ s with mgt := { s.mgt with swapNext := k + 1, swapOut := SMap.put s.mgt.swapOut k s.tod } }.sendSwap k) f
    else s

/-- A swap with no message outstanding and none to send flips CUR, or has failed (R244, R245). -/
def State.swapEnd (s : State) : State :=
  if s.swapState = 1 && s.mgt.swapOut.isEmpty && !s.chk then
    if s.mgt.swapFail.isSome then (s.setFld R.RTE_EPOCHCTL 2 2 0).setFld R.RTE_EPOCHCTL 4 3 2
    else if 64 ≤ s.mgt.swapNext then s.flip
    else s
  else s

/-- A swap goes on: further targets, then its end. -/
def State.swapGo (s : State) : State := (s.swapPump 65).swapEnd

/-- A write of 1 to RTE.EPOCHCTL.GO (R244, R245). -/
def State.swapStart (s : State) : State :=
  if s.swapState = 0 then
    if s.chk then s
    else
    let s : State := s.setFld R.RTE_EPOCHCTL 2 2 1
    let s : State := (List.range 64).foldl (fun t k => t.setFlag (swapReg k) 19 false) s
    { s with mgt := { s.mgt with swapOut := [], swapNext := 0, swapFail := none } }.swapGo
  else s.setFld R.RTE_EPOCHCTL 4 3 3

/-- EPOCH_ACK_TIMEOUT (R245). -/
def execEpochAckTimeout (k : Fin 64) (s : State) : Host.Outcome State Fault Refusal :=
  .next (finish s (match SMap.find s.mgt.swapOut k.val with
    | some t =>
      if s.ackTmo ≤ elapsed t s.tod && !s.chk then
        let id : EpId := BitVec.ofNat 18 (s.fld (swapReg k.val) 0 18)
        let u : State := match s.mgt.swapFail with
          | some _ => s
          | none => { s with mgt := { s.mgt with swapFail := some k.val } }.note 8 0xB 4 0 true 0 (BitVec.ofNat 12 k.val) id Op.epochSwap
        { u with mgt := { u.mgt with swapOut := SMap.del u.mgt.swapOut k.val } }.swapGo
      else s
    | none => s))

/-- EPOCH_RETIRE (R244 step 4). -/
def execEpochRetire (s : State) : Host.Outcome State Fault Refusal :=
  .next (finish s (if s.swapState = 2 && !s.chk && usec (max 1 (s.fld R.RTE_EPOCHTIME 8 8)) ≤ elapsed s.mgt.flipAt s.tod then
      ((s.setFld R.RTE_EPOCHCTL 2 2 0).setFld R.RTE_EPOCHCTL 4 3 1).ev 0xEE {}
    else s))

/-! ### Received messages -/

/-- The next MGT message, if it is of an opcode; a `MgtAck` is consumed wherever it stands (R238). -/
def State.nextMgt (s : State) (n : Nat) (op : BitVec 6) : Option InItem :=
  let q := (s.np n).inqOf 6
  if op = Op.mgtAck then (q ++ (s.np n).bufOf 5).find? (fun x => x.p.opcode == op)
  else match q.filter (fun x => x.p.opcode != Op.mgtAck) with
    | x :: _ => if x.p.opcode = op then some x else none
    | [] => none

/-- An MGT message is taken from its queue, or a `MgtAck` from the link buffer (R238). -/
def State.dropMgt (s : State) (n : Nat) (x : InItem) : State :=
  let q := s.np n
  (s.setNp n { q with buf := putQ q.buf 5 ((q.bufOf 5).erase x) }).dropIn n 6 x

/-- A message of the queue is taken and handled; with none, nothing happens. -/
def State.onMgt (s : State) (n : Nat) (op : BitVec 6) (f : State → InItem → State) : State :=
  match s.nextMgt n op with
  | some x => f (s.dropMgt n x) x
  | none => s

/-- The `MgtAck` to a received message (R61, R235). -/
def State.ackMgt (s : State) (n : Nat) (x : InItem) : State := s.answerAt n x.arrived Op.mgtAck 0

/-- A message of the non-secure world is not applied (R343). -/
def State.mgtDemoted (s : State) (n : Nat) (x : InItem) : State := s.viol 4 n x.p.src.toNat false 0 x.p.tag x.p.opcode 8

/-- A received `DomainStop` (R336, R337, R343). -/
def State.takeStop (s : State) (n : Nat) (x : InItem) : State :=
  if !x.p.world then (s.mgtDemoted n x).ackMgt n x
  else if s.chk || x.p.domain != s.domain then s.ackMgt n x
  else (s.ackMgt n x).declare (x.p.detail.toNat % 256) 2 x.p.src

/-- DOMAIN_STOP_RECEIVED (R336). -/
def execDomainStopReceived (port : Fin 4) (s : State) : Host.Outcome State Fault Refusal :=
  .next (finish s (s.onMgt port.val Op.domainStop (fun t x => t.takeStop port.val x)))

/-- A refused `AliasSet` is recorded (R260, R451). -/
def State.aliasNote (s : State) (x : InItem) : State := s.note 8 0xB 3 0 x.p.world 0 x.p.tag x.p.src x.p.opcode

/-- A received `AliasSet` (R260, R337, R343). -/
def State.takeAlias (s : State) (n : Nat) (x : InItem) : State :=
  if !x.p.world then ((s.mgtDemoted n x).aliasNote x).ackMgt n x
  else if s.chk || x.p.domain != s.domain then s.ackMgt n x
  else
    let d := x.p.detail.toNat
    let p : State × Nat := s.aliasApply (d % 2 ^ 18) (d / 2 ^ 18 % 2 ^ 18) (bit d 36)
    (if p.2 = 0 then p.1 else p.1.aliasNote x).ackMgt n x

/-- ALIAS_SET_RECEIVED (R260). -/
def execAliasSetReceived (port : Fin 4) (s : State) : Host.Outcome State Fault Refusal :=
  .next (finish s (s.onMgt port.val Op.aliasSet (fun t x => t.takeAlias port.val x)))

/-- A received `EpochSwap` that is not applied (R248). -/
def State.swapIgnored (s : State) (x : InItem) : State :=
  (s.setFlag R.RTE_EPOCHCTL 9 true).note 8 0xB 4 0 x.p.world 0 x.p.tag x.p.src x.p.opcode

/-- A received `EpochSwap` (R248, R343). -/
def State.takeSwap (s : State) (n : Nat) (x : InItem) : State :=
  let s : State := s.setFlag R.RTE_EPOCHCTL 8 true
  let d := x.p.detail.toNat % 2
  let s : State :=
    if !x.p.world then (s.mgtDemoted n x).swapIgnored x
    else if x.p.dst != s.homeId || d = s.curEpoch then s
    else if s.flag R.RTE_EPOCHCTL 7 && s.swapState == 0 then s.flip
    else s.swapIgnored x
  s.ackMgt n x

/-- EPOCH_SWAP_RECEIVED (R248). -/
def execEpochSwapReceived (port : Fin 4) (s : State) : Host.Outcome State Fault Refusal :=
  .next (finish s (s.onMgt port.val Op.epochSwap (fun t x => t.takeSwap port.val x)))

/-- A received `MgtAck`: of a swap by its tag, of a broadcast by its tag and source, otherwise discarded (R238, R244,
R329). -/
def State.takeMgtAck (s : State) (x : InItem) : State :=
  let k := x.p.tag.toNat
  if k < 64 && (SMap.find s.mgt.swapOut k).isSome then
    ({ s with mgt := { s.mgt with swapOut := SMap.del s.mgt.swapOut k } }.setFlag (swapReg k) 19 true).swapGo
  else if x.p.tag = bcastTag && s.mgt.bOut.any (fun e => e.1 == x.p.src) then
    let s : State := { s with mgt := { s.mgt with bOut := s.mgt.bOut.filter (fun e => e.1 != x.p.src) } }
    ((s.addFld R.GLB_BCAST 21 19 1).bcastPump 64).bcastEnd
  else s

/-- MGT_ACK (R238, R244). -/
def execMgtAck (port : Fin 4) (s : State) : Host.Outcome State Fault Refusal :=
  .next (finish s (s.onMgt port.val Op.mgtAck (fun t x => t.takeMgtAck x)))

/-- BCAST_ACK_TIMEOUT (R329). -/
def execBcastAckTimeout (target : EpId) (s : State) : Host.Outcome State Fault Refusal :=
  .next (finish s (match s.mgt.bOut.find? (fun e => e.1 == target) with
    | some e =>
      if s.ackTmo ≤ elapsed e.2 s.tod then
        let t : State := { s with mgt := { s.mgt with bOut := s.mgt.bOut.filter (fun x => x.1 != target) } }
        ((t.addFld R.GLB_BCAST 40 19 1).bcastPump 64).bcastEnd
      else s
    | none => s))

end Sys2Proof.Machine
end

