-- ==== Sys2Proof/Machine/Islands.lean ====
section
/-! DEFINITION. Islands, links and resets: power-off and wake (R368, R369), function resets (R365), domain and power-on reset
(R362, R363), link states and credits (R237, R258, R493), clock gating (R358, R359), the time of day (R355), TK_CHKSTOP_IN
(R336). -/

namespace Sys2Proof.Machine

/-- The power state of an island written (R366). -/
def State.setIsl (s : State) (i v : Nat) : State := s.setFld R.ISL_PWRSTAT (3 * i) 3 v
/-- An island reaches ON or OFF after a change: its DONE bit (R374). -/
def State.islDone (s : State) (i v : Nat) : State := (s.setIsl i v).setFlag R.ISL_PWREVT i true

/-! ### Ports, their credits and muster -/

/-- A network port opens and its ramp begins (R399). -/
def State.openPort (s : State) (n : Nat) : State :=
  let s : State := s.setFlag (npBase R.NP_CTL n) 8 true
  let s : State := (List.range 6).foldl (fun t k => t.setCredNow n k (t.credStart n k)) s
  (s.setNp n { s.np n with mustered := true, openAt := s.tod }).settleIn n

/-! ### Power -/

/-- The queues of a network port hold nothing. -/
def NpSt.idle (p : NpSt) : Bool := p.inq.isEmpty && p.buf.isEmpty && p.ans.isEmpty && p.eg.isEmpty
/-- The inkwell holds writes for an island (R279). -/
def State.inkHolds (s : State) (i : Nat) : Bool :=
  if i = 4 || i = 5 then s.ink.any (fun e => e.2.phase != .reserved && e.2.ports.contains (i - 4))
  else if i = 6 then s.ink.any (fun e => !e.2.cps.isEmpty)
  else false
/-- CP.STATUS.INFL (R293): the commands of the channel port that hold a stall. -/
def State.cpInfl (s : State) : Nat := (s.cp.opens.map (fun e => e.2.countP (fun c => c.stall.isSome))).sum
/-- An open stall references an island (R367): a read outstanding on a memory port, a command of the channel port. -/
def State.stallHolds (s : State) (i : Nat) : Bool :=
  if i = 4 || i = 5 then !(s.mp (i - 4)).reads.isEmpty
  else if i = 6 then s.cpInfl != 0
  else false
/-- A draining island has nothing left (R368). -/
def State.drained (s : State) (i : Nat) : Bool :=
  !s.inkHolds i && !s.stallHolds i &&
  (if i < 4 then (s.np i).idle
   else if i = 4 || i = 5 then (s.mp (i - 4)).writes.isEmpty
   else if i = 6 then s.cp.eg.isEmpty && s.cp.retry.isEmpty
   else true)

/-- ISLAND_POWER_OFF (R368). -/
def execIslandPowerOff (i : Fin 8) (s : State) : Host.Outcome State Fault Refusal :=
  .next (finish s (
    let i := i.val
    if s.isl i = 2 && s.drained i then
      let s : State := s.islDone i 3
      if i < 4 then
        let s : State := ((s.setLink i 0).setReg (npBase R.NP_CREDNOW i) 0).setFlag (npBase R.NP_CTL i) 8 false
        s.setNp i { s.np i with cred := [0, 0, 0, 0, 0, 0], grant := [0, 0, 0, 0, 0, 0] }
      else if i = 6 then s.setLink 4 0
      else s
    else s))

/-- What an island does on waking (R369). A FAILED memory port stays so. -/
def State.awake (s : State) (i : Nat) : State :=
  if i < 4 then
    let p := s.np i
    if p.mustered then s.openPort i else s
  else if i = 4 || i = 5 then
    let n := i - 4
    let s : State := if s.mpState n = 4 then s.resyncStop n else s
    let s : State := s.setMp n { s.mp n with rdCred := 0, wrCred := 0, seenRd := false, seenWr := false }
    if s.mpState n = 2 then s else s.setMpState n 0
  else if i = 6 then { s with cp := { s.cp with lost := true, cred := 0, spent := 0 } }
  else if s.phase = 10 then s.setFld R.BOOT_STATUS 0 4 1
  else s

/-- ISLAND_WAKE_DONE (R369, R382). -/
def execIslandWakeDone (i : Fin 8) (s : State) : Host.Outcome State Fault Refusal :=
  .next (finish s (if s.isl i.val = 4 then (s.islDone i.val 0).awake i.val else s))

/-! ### Function resets -/

/-- The reset of an NI's logic ends (R365, R493), once the drain before it is over: its link comes back under R493. -/
def State.npResetEnd (s : State) (n : Nat) : State :=
  if s.link n = 2 then s else s.setFlag R.ISL_RSTSTAT (1 + n) false

/-- The driven reset of a memory port or of the channel port ends (R365). -/
def State.mpResetEnd (s : State) (n : Nat) : State :=
  let s : State := s.setMp n { s.mp n with driven := false }
  if s.mpState n = 3 then s.mpBack n else (s.setFlag R.ISL_RSTSTAT (5 + n) false).mpBack n

/-- FUNC_RESET_END (R365). -/
def execFuncResetEnd (i : Fin 7) (s : State) : Host.Outcome State Fault Refusal :=
  .next (finish s (if s.flag R.ISL_RSTSTAT (1 + i.val) then
      (if i.val < 4 then s.npResetEnd i.val
       else if i.val < 6 then s.mpResetEnd (i.val - 4)
       else { s with cp := { s.cp with driven := false } })
    else s))

/-! ### Resets of the whole instance -/

/-- DOMRST_REQ (R363, R377). -/
def execDomrstReq (s : State) : Host.Outcome State Fault Refusal := .next (finish s (s.domainRequest 1 false))

/-- POWER_ON_RESET (R362): every island, register and SRAM. What has left the block stays sent, and the model's own
counter of free values goes on (log 8). -/
def execPowerOnReset (s : State) : Host.Outcome State Fault Refusal :=
  .next { State.reset with freeCtr := s.freeCtr, tx := s.tx, mpTx := s.mpTx, cpTx := s.cpTx, rcvTx := s.rcvTx, pending := s.pending }

/-! ### Links -/

/-- LINK_PARTNER_RESET (R258): while the island is powered. -/
def execLinkPartnerReset (port : Fin 4) (s : State) : Host.Outcome State Fault Refusal :=
  .next (finish s (if s.isl port.val = 3 || s.isl port.val = 4 then s
    else ((s.setLink port.val 3).loseCredits port.val).note (3 + port.val) 0xC 2 2))

/-- The island of a link: NP0–NP3, or CP for index 4 (R374). -/
def linkIsland (n : Nat) : Nat := if n = 4 then 6 else n
/-- A bridge may enter RUN (R493): its island is ON or GATED, no function reset of it is in progress. -/
def State.mayRun (s : State) (n : Nat) : Bool :=
  (s.isl (linkIsland n) == 0 || s.isl (linkIsland n) == 1) && (s.link n == 0 || s.link n == 3) && !s.boot.testMode &&
  (if n = 4 then !s.cp.driven else !s.flag R.ISL_RSTSTAT (1 + n))

/-- LINK_RUN (R493): the bridge enters RUN without outbound credits. The channel port first owes the acknowledgements of
R291 after a function reset or a wake. -/
def execLinkRun (port : Fin 5) (s : State) : Host.Outcome State Fault Refusal :=
  .next (finish s (if s.mayRun port.val then
      let s : State := s.setLink port.val 1
      if port.val = 4 then
        let s : State := { s with cp := { s.cp with cred := 0, spent := 0 } }.setFlag R.ISL_RSTSTAT 7 false
        if s.cp.lost then s.cpAckAll else s
      else (s.loseCredits port.val).settleIn port.val
    else s))

/-- LINK_CREDIT_RETURN (R237, R283): a credit arrives from the link partner. -/
def execLinkCreditReturn (port : Fin 5) (pool : Fin 6) (s : State) : Host.Outcome State Fault Refusal :=
  .next (finish s (
    let n := port.val
    let off := s.link n == 0 && n != 4 && (s.isl n == 3 || s.isl n == 4)
    if s.link n = 1 || s.link n = 2 || off then
      if n = 4 then { s with cp := { s.cp with cred := s.cp.cred + 1 } }.cpPump
      else
        let p := s.np n
        (s.setNp n { p with cred := p.cred.set pool.val (p.cred.getD pool.val 0 + 1) }).pump n
    else s))

/-! ### Clocks, time and stop -/

/-- The ostler has no work (R358, R360). -/
def State.ostlerIdle (s : State) : Bool :=
  s.mgt.bMsg.isNone && s.swapState == 0 && s.rcv.req.isNone && s.wayState != 1 && s.wayState != 3 && s.preload.isNone &&
  !s.cleaningBank && s.alcState != 2 && s.alcState != 3 && s.fromReady
/-- An island is idle (R358). -/
def State.islIdle (s : State) (i : Nat) : Bool :=
  if i < 4 then (s.np i).idle
  else if i = 4 || i = 5 then (s.mp (i - 4)).reads.isEmpty && (s.mp (i - 4)).writes.isEmpty && (s.writesFor (i - 4)).isEmpty
  else if i = 6 then s.cp.opens.isEmpty && s.cp.eg.isEmpty && s.cp.retry.isEmpty
  else if i = 7 then s.phase != 1 && s.phase != 2 && s.phase != 3 && s.phase != 4 && s.phase != 7
  else if i = 10 then s.ostlerIdle
  else false

/-- ISLAND_CLOCK_GATE (R358): the core and service islands never stop. -/
def execIslandClockGate (i : Fin 11) (s : State) : Host.Outcome State Fault Refusal :=
  .next (finish s (if s.flag R.ISL_CTL i.val && s.isl i.val = 0 && s.islIdle i.val then s.setIsl i.val 1 else s))

/-- ISLAND_WAKE (R359). -/
def execIslandWake (i : Fin 11) (s : State) : Host.Outcome State Fault Refusal :=
  .next (finish s (if s.isl i.val = 1 then s.setIsl i.val 0 else s))

/-- WAKE_LATE (R359): the access goes on waiting. -/
def execWakeLate (i : Fin 11) (s : State) : Host.Outcome State Fault Refusal :=
  .next (finish s (if s.isl i.val = 1 then
      ((s.addFld R.ISL_WAKE 10 16 1).setFld R.ISL_WAKE 26 4 i.val).note 0 3 5 2
    else s))

/-- TOD_PUBLISH (R355). -/
def execTodPublish (tod : Tod) (s : State) : Host.Outcome State Fault Refusal := .next (finish s { s with tod := tod })

/-- CHKSTOP_IN (R336): TK_CHKSTOP_IN declares domain checkstop with cause Integrity. -/
def execChkstopIn (s : State) : Host.Outcome State Fault Refusal := .next (finish s (s.declare 8 3))

end Sys2Proof.Machine
end

