-- ==== Sys2Proof/Machine/LedgerRows.lean ====
section
/-! DEFINITION. The execution units' work, oldest gathering first (R182, R190, R202), the ALC's move path (R214), drain (R225),
invalidate (R223) and bank clearing (R226). -/

namespace Sys2Proof.Machine

/-- STROKE_EXECUTE (R182, R202): the stroke gathered longest ago. -/
def execStrokeExecute (s : State) : Host.Outcome State Fault Refusal :=
  .next (finish s (match s.readyStrk with
    | i :: r => if s.chk then s else { s with readyStrk := r }.strokeRun i
    | [] => s))

/-- LIGATURE_EXECUTE (R190, R202): the ligature gathered longest ago. -/
def execLigatureExecute (s : State) : Host.Outcome State Fault Refusal :=
  .next (finish s (match s.readyLig with
    | n :: r => if s.chk then s else { s with readyLig := r }.ligRun n
    | [] => s))

/-- The stalls that gather into an entry go on once it has been moved out of their way (R214). -/
def State.entryFreed (s : State) (k : Nat) : State :=
  (s.stalls.filter (fun e => e.2.alc == some k && !e.2.ready)).foldl (fun t e => t.advance e.1) s

/-- The move at the head of the move path ends (R214, R217): its words are in the inkwell, its entry is free. -/
def State.moveDone (s : State) (m : Move) : State :=
  let p := (s.alcTag m.entry).alcRead m.entry
  let s : State := p.1.inkFill m.slot p.2
  let s : State := { s with moves := s.moves.tail }
  ((s.alcFree m.entry).ev (0xCA + m.kind) (s.alcAttr m.h)).entryFreed m.entry

/-- ALC_MOVE_DONE (R214). -/
def execAlcMoveDone (s : State) : Host.Outcome State Fault Refusal :=
  .next (finish s (match s.moves with
    | m :: _ => if s.chk then s else s.moveDone m
    | [] => s))

/-- The next entry that the drain frees without a move (R225): a demanded one first, else the lowest. -/
def State.drainFree (s : State) : Option (Nat × AlcEntry) :=
  let p := fun (k : Nat) (e : AlcEntry) => !e.d && s.drainable k
  match SMap.firstWith s.alc (fun k e => p k e && s.demanded e.h) with
  | some x => some x
  | none => SMap.firstWith s.alc p

/-- ALC_DRAIN_FREE (R225). -/
def execAlcDrainFree (s : State) : Host.Outcome State Fault Refusal :=
  .next (finish s (if s.alcState = 2 && !s.chk then (match s.drainFree with | some (k, _) => s.alcFree k | none => s) else s))

/-- The damage of ALC tags that a test admits is gone: their tags have been written anew. -/
def State.tagsWritten (s : State) (p : Nat → Bool) : State :=
  { s with faults := s.faults.filter (fun f => !(f.1 == 2 && p f.2.1)) }

/-- The banks without power, one bit each (R226). -/
def State.banksOff (s : State) : BitVec 8 :=
  BitVec.ofNat 8 ((List.range 8).foldl (fun m b => if s.bank b = 2 then m + 2 ^ b else m) 0)

/-- ALC_INVALIDATE_DONE (R223): the tags of the banks with power are written. -/
def execAlcInvalidateDone (s : State) : Host.Outcome State Fault Refusal :=
  .next (finish s (if s.alcState = 3 then
      (({ s with alc := [], alcUndef := s.alcUndef &&& s.banksOff }.tagsWritten (fun k => s.bank (k / 8) != 2)).setFld R.ALC_CTL 1 2 0).setFlag R.ALC_STATUS 0 true
    else s))

/-- BANK_CLEAR_DONE (R226): a power-down asked for meanwhile then begins. -/
def execBankClearDone (bank : Fin 8) (s : State) : Host.Outcome State Fault Refusal :=
  .next (finish s (if s.bank bank.val = 3 then
      let t : State := { s with alc := s.alc.filter (fun x => x.1 / 8 != bank.val),
                                alcUndef := s.alcUndef &&& ~~~(BitVec.ofNat 8 (2 ^ bank.val)) }.tagsWritten (fun k => k / 8 == bank.val)
      let t : State := (t.setBank bank.val 0).setFlag R.ALC_BANKPWR (24 + bank.val) true
      if t.flag R.ALC_BANKPWR bank.val then t else t.setBank bank.val 1
    else s))

end Sys2Proof.Machine
end

