-- ==== Sys2Proof/Machine/SpRead.lean ====
section
/-! DEFINITION. Register reads: the values that follow the machine (R132, R160, R208, R222, R228, R259, R260, R292, R293,
R340, R351, R374, R434-R436, R455, R464), and what the reader's master and world hide (R350, R414, R421, R441, R454). -/

namespace Sys2Proof.Machine

/-- A value with some of its fields replaced: lowest bit, width, value. -/
def withFields (v : Word) (l : List (Nat × Nat × Nat)) : Word := l.foldl (fun v f => setBits v f.1 f.2.1 f.2.2) v

/-! ### Blocks of the window -/

/-- The SEC.REGW bit of a byte address (R349, R460); none where no block lies. -/
def regwBit (a : Nat) : Option Nat :=
  if a < 0x1000 then some 0 else if a < 0x2000 then some 1 else if a < 0x3000 then some 2 else if a < 0x4000 then some 3
  else if a < 0x5000 then some 4 else if a < 0x6000 then some 5 else if a < 0x7000 then some 6 else if a < 0x8000 then some 7
  else if a < 0x9000 then some 8 else if a < 0xA000 then some 9 else if a < 0xB000 then some 10 else if a < 0xC000 then some 11
  else if a < 0xD000 then some 12 else if a < 0x10000 then some 13 else if a < 0x18000 then some 14
  else if a < 0x20000 then some 15 else if a < 0x40000 then some 16 else none
/-- A block is secure (R348). -/
def State.secureBlock (s : State) (b : Nat) : Bool := s.flag R.SEC_REGW b
/-- The island that can be powered down in which a byte address lies (R460). -/
def islandOf (a : Nat) : Option Nat :=
  if 0x5000 ≤ a ∧ a < 0x6000 then some ((a - 0x5000) / 0x400)
  else if 0x6000 ≤ a ∧ a < 0x6080 then some 4 else if 0x6080 ≤ a ∧ a < 0x6100 then some 5
  else if 0x7000 ≤ a ∧ a < 0x8000 then some 6 else if 0xA000 ≤ a ∧ a < 0xB000 then some 7 else none

/-! ### Mailboxes -/

/-- The address of a channel's registers (R434). -/
def mbxReg (r : RegAddr) (c : Nat) : Nat := r + 0x40 * c
/-- The channel and the offset of an address among the channels' registers (R434). -/
def mbxChan (a : Nat) : Option (Nat × Nat) := if 0xB400 ≤ a ∧ a < 0xBC00 then some ((a - 0xB400) / 0x40, a % 0x40) else none
/-- A channel is bound (R413). -/
def State.mbxV (s : State) (c : Nat) : Bool := s.flag (mbxReg R.MBX_BIND c) 63
/-- SENDER of a channel. -/
def State.mbxSender (s : State) (c : Nat) : Nat := s.fld (mbxReg R.MBX_BIND c) 0 10
/-- RECEIVER of a channel. -/
def State.mbxReceiver (s : State) (c : Nat) : Nat := s.fld (mbxReg R.MBX_BIND c) 10 10
/-- FULL of a channel. -/
def State.mbxFull (s : State) (c : Nat) : Bool := s.flag (mbxReg R.MBX_STAT c) 0
/-- The channel crosses a reverse channel (R417). -/
def State.crossing (s : State) (c : Nat) : Bool :=
  s.mbxV c && s.mbxFull c && (List.range 32).any (fun d => s.mbxV d && s.mbxFull d &&
    s.mbxSender d == s.mbxReceiver c && s.mbxReceiver d == s.mbxSender c)
/-- The world of doorbell bit `b` (R421). -/
def State.bellSecure (s : State) (b : Nat) : Bool := if s.mbxV b then s.flag (mbxReg R.MBX_BIND b) 20 else true
/-- The doorbell bits that a world reaches (R421). -/
def State.bells (s : State) (world : Bool) : Nat :=
  (List.range 32).foldl (fun m b => if world || !s.bellSecure b then m + 2 ^ b else m) 0

/-! ### Rail -/

/-- The address of lock `k` (R435). -/
def railReg (k : Nat) : Nat := R.RAIL_LOCK + 8 * k
/-- Lock `k` is held. -/
def State.railHeld (s : State) (k : Nat) : Bool := s.flag (railReg k) 13
/-- The holder of lock `k`. -/
def State.railHolder (s : State) (k : Nat) : Nat := s.fld (railReg k) 0 10
/-- Lock `k` is secure (R435). -/
def State.railSecure (s : State) (k : Nat) : Bool := s.flag R.RAIL_WORLD k

/-! ### Notice queue -/

/-- AVAIL (R427). -/
def State.nqAvail (s : State) : Nat := (s.fld R.NQ_PTR 0 16 + 2 ^ 16 - s.fld R.NQ_PTR 16 16) % 2 ^ 16
/-- FREE (R427). -/
def State.nqFree (s : State) : Nat := Config.nqSize - (s.fld R.NQ_PTR 0 16 + 2 ^ 16 - s.fld R.NQ_PTR 32 16) % 2 ^ 16

/-! ### Counters -/

/-- A filter set is secure (R441). -/
def State.filterSecure (s : State) (n : Nat) : Bool := s.flag (R.PMC_FSCTL + 0x20 * n) 1
/-- RECORDS of the dump ring. -/
def State.dumpRecords (s : State) : Nat := s.fld R.PMC_DUMPSIZE 0 17
/-- The dump ring is full (R444). -/
def State.dumpFull (s : State) : Bool :=
  s.flag R.PMC_CTL 0 &&
  (s.fld R.PMC_DUMPSEQ 0 48 + 2 ^ 48 - s.fld R.PMC_DUMPHEAD 0 48) % 2 ^ 48 == s.dumpRecords
/-- The secure filter set or counter that an address belongs to is hidden from the non-secure world (R350, R441). -/
def State.pmcSecret (s : State) (a : Nat) : Bool :=
  (decide (R.PMC_FSCTL ≤ a) && decide (a < R.PMC_FSCTL + 0x100) && s.filterSecure ((a - R.PMC_FSCTL) / 0x20)) ||
  (decide (R.PMC_CNT ≤ a) && decide (a < R.PMC_CNT + 0x800) && s.filterSecure (s.filterOf ((a - R.PMC_CNT) / 8)))

/-! ### Live fields -/

/-- The conditions of GLB.EVSUM, each with the SEC.REGW bit of its source register (R464). -/
def State.evsumBits (s : State) : List (Bool × Nat) :=
  [(s.fld R.GLB_RCVSTAT 17 5 != 0, 0), (s.chk, 0), (s.flag R.DIR_ECC_STATUS 16, 1), (s.flag R.ALC_ECC 48, 4),
   (s.flag R.INK_ECC 32, 6), (s.flag R.INK_STATUS 30, 6), (s.flag R.BOOT_STATUS 15, 10), (s.flag R.BLOT_FF 12, 15),
   (s.flag R.SEC_REGSTAT 9, 8), (s.flag R.ALC_STATUS 4, 4), (s.flag R.ISL_PWREVT 8, 9), (s.reg R.ISL_XOVF != 0, 9),
   (s.reg R.LED_EVENTS != 0, 3), (s.fld R.DIR_RUSTATUS 7 3 != 0, 1), (s.fld R.MBX_CROSS 32 32 != 0, 11),
   (s.flag R.PMC_STATUS 2, 14)]
/-- GLB.EVSUM as a world reads it (R464). -/
def State.evsum (s : State) (world : Bool) : Word :=
  BitVec.ofNat 64 ((List.range 16).foldl (fun m k =>
    match s.evsumBits[k]? with
    | some (v, b) => if v && (world || !s.secureBlock b) then m + 2 ^ k else m
    | none => m) 0)

/-- An operation of ALC.PRELOAD is in progress (R219). -/
def State.preBusy (s : State) : Bool :=
  s.preload.isSome || s.stalls.any (fun e => match e.2.role with | .preload _ => true | _ => false)

/-- ALC.STATUS with its counts (R227, R228). -/
def State.alcStatus (s : State) : Word :=
  let v := s.reg R.ALC_STATUS
  if s.alcState = 0 && !s.flag R.ALC_STATUS 0 then v
  else withFields v [(5, 7, SMap.count s.alc (fun e => e.v)), (12, 7, SMap.count s.alc (fun e => e.v && e.d)),
    (19, 7, SMap.count s.alc (fun e => e.lk)), (26, 7, (List.range Config.alcEntries).countP s.alcPinned)]

/-- The fields of YARD.STATUS, YARD.TKTSTATUS and PEN.STATUS (R160, R161). OWED shows the number owed modulo 512 (DESIGN
CHOICE, log 72). -/
def State.yardValue (s : State) (a : Nat) : Word :=
  if a = R.YARD_STATUS then withFields 0 [(0, 11, s.freeStalls 0), (11, 8, s.freeStalls 1), (19, 7, s.freeStalls 2),
    (26, 7, s.freeStalls 3), (33, 4, s.ligs.length)]
  else if a = R.YARD_TKTSTATUS then withFields 0 [(0, 9, s.tickets.length), (9, 9, s.owed none)]
  else
    let n := fun k => SMap.count s.pen (fun e => e.reason == k)
    withFields (s.reg a) [(0, 10, s.pen.length), (10, 10, n 0), (20, 10, n 1), (30, 10, n 2), (40, 10, n 3)]

/-- NPn.STATUS (R259). -/
def State.npStatus (s : State) (n : Nat) : Word :=
  withFields (s.reg (npBase R.NP_STATUS n)) [(2, 1, s.fld R.RTE_EPOCHCTL 0 1),
    (3, 1, b2n (s.isOpen n && (List.range 6).any (fun k => decide (s.credNow n k < s.credMax n k))))]
/-- NPn.CREDNOW (R259). -/
def State.credNowValue (s : State) (n : Nat) : Word :=
  withFields 0 ((List.range 6).map (fun k => ((credFld k).1, (credFld k).2, s.credNow n k)))

/-- INK.STATUS (R279, R280, R292). -/
def State.inkStatus (s : State) : Word :=
  withFields (s.reg R.INK_STATUS) [(0, 10, s.ink.length), (10, 10, SMap.count s.ink (fun x => x.phase == .filled)),
    (20, 10, SMap.count s.ink (fun x => x.phase == .issued)), (31, 1, b2n s.warn), (32, 1, b2n (s.inkHolds 4)),
    (33, 1, b2n (s.inkHolds 5)), (34, 1, b2n (s.inkHolds 6))]

/-- INFL of CP.STREAMs (R293): commands accepted and not closed, and closed writes not yet committed. -/
def State.streamInfl (s : State) (st : Nat) : Nat :=
  ((SMap.find s.cp.opens st).getD []).length +
  (s.ink.map (fun e => e.2.cps.countP (fun c => c.1 == st &&
    ((SMap.find s.cp.opens st).getD []).all (fun o => o.seq != c.2)))).sum

/-- PMC.STATUS (R455). -/
def State.pmcStatus (s : State) : Word :=
  withFields (s.reg R.PMC_STATUS) [(0, 1, b2n s.pmc.dump.isSome), (1, 1, b2n s.dumpFull)]

/-- The value of a register with the fields that follow the machine. -/
def State.value (s : State) (a : Nat) : Word :=
  let v := s.reg a
  if a = R.GLB_TOD then s.tod
  else if a = R.GLB_RCVSTAT then withFields v [(0, 2, if s.chk then 2 else b2n s.recovering), (2, 5, s.fenceCount 1),
    (7, 5, s.fenceCount 2), (12, 5, s.fenceCount 3)]
  else if a = R.DIR_STATUS then withFields v [(1, 5, if s.wayState = 0 then 16 else 8)]
  else if a = R.DIR_CLEAN then withFields v [(7, 21, if s.wayState = 1 then s.highWays else 0)]
  else if a = R.DIR_EXT_STATUS then withFields v [(0, 15, Config.extEntries - s.exts.length)]
  else if a = R.DIR_PURGE_STATUS then withFields v [(0, 1, b2n (!s.rcv.purge.isEmpty && !s.chk)), (1, 5, s.rcv.purge.length)]
  else if a = R.DIR_RUSTATUS then withFields v [(0, 7, s.rlys.length)]
  else if a = R.YARD_STATUS || a = R.YARD_TKTSTATUS || a = R.PEN_STATUS then s.yardValue a
  else if a = R.LED_STATUS then withFields v [(0, 1, b2n s.bypass), (1, 4, s.readyLig.length), (5, 7, s.readyStrk.length)]
  else if a = R.ALC_CTL then withFields v [(0, 1, b2n (s.alcState == 1 || s.alcState == 2))]
  else if a = R.ALC_STATUS then s.alcStatus
  else if a = R.ALC_PRESTAT then withFields v [(0, 1, b2n s.preBusy)]
  else if 0x5000 ≤ a && a < 0x6000 && a % 0x400 = 8 then s.npStatus ((a - 0x5000) / 0x400)
  else if 0x5000 ≤ a && a < 0x6000 && a % 0x400 = 0x18 then s.credNowValue ((a - 0x5000) / 0x400)
  else if a = mpBase R.MP_STATUS 0 || a = mpBase R.MP_STATUS 1 then
    let n := (a - 0x6000) / 0x80
    let p := s.mp n
    let v : Word := match p.copy with | some c => withFields v [(16, 26, s.copyUnits n c)] | none => v
    withFields v [(3, 7, p.reads.countP (fun r => r.tag.isSome)), (10, 6, p.writes.length)]
  else if a = R.INK_STATUS then s.inkStatus
  else if a = R.CP_STATUS then withFields v [(2, 7, s.cpInfl)]
  else if R.CP_STREAM ≤ a && a < R.CP_STREAM + 512 then withFields v [(32, 9, s.streamInfl ((a - R.CP_STREAM) / 8))]
  else if a = R.SEC_REGSTAT then withFields v [(10, 7, (List.range 64).countP s.regionV)]
  else if a = R.RTE_ALIASSTAT then withFields v [(15, 11, s.camList.length)]
  else if a = R.ISL_PWRWARN then withFields v [(1, 1, b2n s.safe)]
  else if a = R.MBX_CROSS then withFields v [(0, 32, (List.range 32).foldl (fun m c => if s.crossing c then m + 2 ^ c else m) 0)]
  else if a = R.NQ_STATUS then withFields v [(0, 11, s.nqAvail), (11, 11, s.nqFree)]
  else if a = R.PMC_STATUS then s.pmcStatus
  else v

/-! ### Readers -/

/-- The fields of a register that a read clears (R18, R20). -/
def rcFields (a : Nat) : List Fld := match regRow a with | some r => r.fields.filter (fun f => f.acc == .rc) | none => []
/-- A register has such fields. -/
def hasRc (a : Nat) : Bool := !(rcFields a).isEmpty
/-- They are cleared as the read completes (R18). -/
def State.readClear (s : State) (a : Nat) : State := (rcFields a).foldl (fun t f => t.setFld a f.lo f.width 0) s

/-- A refused access of a world to an object (R350): counted, without a record. -/
def State.violObject (s : State) (x : SpAcc) : State :=
  (s.addFld R.SEC_VIOL 32 16 1).setReg R.SEC_LASTVIOL (BitVec.ofNat 64 (2 + 5 * 8 + x.master.toNat * 64 + 2 ^ 24))

/-- A read of a channel's STAT or DATA register (R414-R416). A read of DATAc3 that takes the message is MBX_TAKE. -/
def State.mbxRead (s : State) (x : SpAcc) (c off : Nat) : State × Word :=
  let m := x.master.toNat
  if s.mbxV c && (m == s.mbxSender c || m == s.mbxReceiver c) then
    if off = 8 then (s, withFields (s.reg (mbxReg R.MBX_STAT c)) [(4, 1, b2n (s.crossing c))])
    else
      let w := (off - 0x10) / 8
      if m = s.mbxSender c then (s, s.reg (mbxReg R.MBX_DATA0 c + 8 * w))
      else (s, if s.mbxFull c then ((SMap.find s.svc.msg c).getD []).getD w 0 else 0)
  else (s.addFld R.MBX_ERR 0 16 1, 0)

/-- A read without an action of its own, answered OK (R408): the value that the reader gets, and what its refusal counts. -/
def State.plainRead (s : State) (x : SpAcc) : State × Word :=
  let a := 8 * x.slot.toNat
  if a = R.GLB_EVSUM then (s, s.evsum x.world)
  else if a = R.MBX_DB || a = R.MBX_DBSET then (s, s.reg R.MBX_DB &&& BitVec.ofNat 64 (s.bells x.world))
  else if a = R.MBX_DBMASK then (s, s.reg a &&& BitVec.ofNat 64 (s.bells x.world))
  else if a = R.RAIL_HELD then
    (s, BitVec.ofNat 64 ((List.range 64).foldl (fun v k => if s.railHeld k && (x.world || !s.railSecure k) then v + 2 ^ k else v) 0))
  else if (a = R.BLOT_REC + 16 || a = R.BLOT_REC + 24) && s.svc.recWorld && !x.world then (s, 0)
  else if !x.world && s.pmcSecret a then (s.violObject x, 0)
  else match mbxChan a with
    | some (c, off) => if 8 ≤ off && off < 0x30 then s.mbxRead x c off else (s, s.value a)
    | none => (s, s.value a)

end Sys2Proof.Machine
end

