-- ==== Sys2Proof/Machine/SpCore.lean ====
section
/-! DEFINITION. Register writes: storing fields by their access codes (R18), and what a write of a core, port or channel
register does beside (R121, R124, R161, R199, R200, R219-R228, R244, R247, R260, R263, R270, R273, R293, R344, R345). -/

namespace Sys2Proof.Machine

/-! ### Access codes -/

/-- The lock bit of a register's RWL fields is set (R18). -/
def State.lockedReg (s : State) (r : RegRow) : Bool := r.lock != 0 && s.flag r.lock 63
/-- One field written (R18). -/
def State.storeFld (s : State) (a : Nat) (locked : Bool) (v : Word) (f : Fld) : State :=
  let x := getBits v f.lo f.width
  match f.acc with
  | .rw => s.setFld a f.lo f.width x
  | .rwl => if locked then s else s.setFld a f.lo f.width x
  | .w1c => s.setFld a f.lo f.width (s.fld a f.lo f.width - (s.fld a f.lo f.width &&& x))
  | .w1s => s.setFld a f.lo f.width (s.fld a f.lo f.width ||| x)
  | .ro | .rc | .wo => s
/-- A register written: each field by its access code; a slot that holds no register has none (R18, R22). -/
def State.storeReg (s : State) (a : Nat) (v : Word) : State :=
  match regRow a with
  | some r => r.fields.foldl (fun t f => t.storeFld a (s.lockedReg r) v f) s
  | none => s
/-- GO of a register, bit 63. -/
def goBit (v : Word) : Bool := bit v.toNat 63

/-! ### Directory, yard -/

/-- A write of DIR.WAYPWR (R121, R124, R395). -/
def State.waypwr (s : State) (v : Word) : State :=
  let was := s.flag R.DIR_WAYPWR 0
  let now := bit v.toNat 0
  let s : State := s.storeReg R.DIR_WAYPWR v
  let go := fun (t : State) (st : Nat) (done : Bool) =>
    let t : State := t.setFld R.DIR_WAYPWR 1 2 st
    if done then t.setFlag R.DIR_WAYPWR 3 true else t
  if was = now then s
  else if !s.flag R.DIR_STATUS 0 then go s (if now then 0 else 2) true
  else if now then (if s.wayState = 2 then go s 3 false else if s.wayState = 1 then go s 0 true else s)
  else if s.wayState = 0 then go { s with rcv := { s.rcv with cleanPos := 0 } } 1 false
  else s

/-- The four words that a capture of a stall shows (R161). -/
def State.inspWords (s : State) (i : Nat) (t : Stall) : List Word :=
  let op := match t.role with
    | .evict _ _ => 0
    | .census _ => 0
    | .relay _ => 0
    | .lig _ _ => Op.ligature.toNat
    | _ => t.req.op.toNat
  let far := match t.relay with | some r => ((SMap.find s.stalls r).map (fun x => x.waits.length)).getD 0 | none => 0
  let link := match t.relay with | some r => some r | none => t.evict
  [withFields 0 [(0, 3, t.code), (3, 2, poolOfStall i), (5, 6, op), (11, 3, t.req.src), (14, 1, b2n t.req.world),
     (15, 18, t.req.q.toNat), (33, 12, t.req.tag.toNat), (45, 1, b2n t.ticketed), (46, 4, (t.way.getD 0) % 16),
     (50, 2, if t.code = 1 then t.reason else 0)],
   withFields 0 [(0, 34, t.h.toNat)],
   withFields 0 [(0, 10, t.waits.length + far), (10, 1, b2n (t.final && t.req.acks && !t.ackGot)),
     (11, 1, b2n (t.waits.any (fun w => w.holder && w.fmode))), (12, 1, b2n t.wbWait.isSome),
     (13, 1, b2n (s.awaitsCommit i)), (14, 11, link.getD 0), (25, 1, b2n link.isSome), (26, 9, t.ink.getD 0),
     (35, 1, b2n t.ink.isSome)],
   t.acc]
/-- Four words stored in a capture's registers. -/
def State.putCapture (s : State) (a : Nat) (ws : List Word) : State :=
  (List.range 4).foldl (fun t k => t.setReg (a + 8 * k) (ws.getD k 0)) s
/-- A write of YARD.INSP_SEL (R161): what a FREE stall holds beside STATE and POOL is a free value (log 13). -/
def State.insp (s : State) (v : Word) : State :=
  let s : State := s.storeReg R.YARD_INSP_SEL v
  let i := s.fld R.YARD_INSP_SEL 0 11
  s.reading 4 i fun s => match SMap.find s.stalls i with
  | some t => s.putCapture R.YARD_INSP0 (s.inspWords i t)
  | none =>
    let f := fun k => Config.freeStall (s.freeCtr + k)
    { s with freeCtr := s.freeCtr + 4 }.putCapture R.YARD_INSP0
      [withFields (f 0) [(0, 3, 0), (3, 2, poolOfStall i), (52, 12, 0)], withFields (f 1) [(34, 30, 0)],
       withFields (f 2) [(36, 28, 0)], f 3]

/-! ### Ledger -/

/-- A write of LED.JHEADn (R199). -/
def State.jhead (s : State) (n : Nat) (v : Word) : State :=
  let head := s.ringHead n
  let new := getBits v 0 48
  if (new + 2 ^ 48 - head) % 2 ^ 48 ≤ (s.ringSeq n + 2 ^ 48 - head) % 2 ^ 48 then s.setFld (R.LED_JHEAD + 0x20 * n) 0 48 new
  else s.setFlag R.LED_EVENTS (16 + n) true

/-- Two ranges of lines overlap. -/
def overlap (a n b m : Nat) : Bool := decide (a < b + m) && decide (b < a + n)

/-- Ring `n` may be enabled at `base` (R200). -/
def State.ringOk (s : State) (n base : Nat) : Bool :=
  let lines := s.ringLines n
  decide (2 ≤ lines) && decide (lines ≤ 1048576) &&
  (match s.cover base (base + lines) 65 with
   | some (w :: ws) => ws.all (fun x => x == w)
   | _ => false) &&
  (List.range 8).all (fun k => k == n || !s.ringEn k || !overlap base lines (s.ringBase k) (s.ringLines k))

/-- A write of LED.JBASEn that sets EN (R200, R451). -/
def State.ringEnable (s : State) (n : Nat) (v : Word) (who : BitVec 10) : State :=
  let a := R.LED_JBASE + 0x20 * n
  if s.ringOk n (getBits v 0 52) then
    ((s.storeReg a v).setReg (R.LED_JSEQ + 0x20 * n) 0).setReg (R.LED_JHEAD + 0x20 * n) 0
  else
    ((s.storeReg a (setBits v 63 1 0)).setFlag R.LED_EVENTS (8 + n) true).note 0 0xB 2 0 (line := BitVec.ofNat 52 a) (id := who.setWidth 18)
/-- A write of LED.JBASEn that does not set EN: a ring that it disables leaves its ligatures without a ring (R200). -/
def State.ringWrite (s : State) (n : Nat) (v : Word) : State :=
  let t : State := s.storeReg (R.LED_JBASE + 0x20 * n) v
  if s.ringEn n && !t.ringEn n then
    { t with ligs := t.ligs.map (fun e => (e.1, if ligRing e.2.req.detail = n then { e.2 with dead := true } else e.2)) }
  else t

/-! ### Atomic line cache -/

/-- A refusal of ALC.CTL or ALC.BANKPWR (R223, R224, R227). -/
def State.alcRefuse (s : State) (cause : Nat) : State := (s.setFld R.ALC_STATUS 1 3 cause).setFlag R.ALC_STATUS 4 true
/-- The ALC begins to drain (R225). -/
def State.alcDrain (s : State) : State :=
  if s.alcState = 1 then (s.setFld R.ALC_CTL 1 2 2).setFlag R.ALC_STATUS 0 false else s
/-- A write of 1 to ALC.CTL.EN (R224). While TK_PWR_WARN is asserted the ALC is disabled again at once (R280). -/
def State.alcOn (s : State) : State :=
  let st := s.alcState
  if st = 0 then
    if !s.flag R.ALC_STATUS 0 then s.alcRefuse 1
    else if s.bank 0 = 2 then s.alcRefuse 4
    else
      let t : State := s.setFld R.ALC_CTL 1 2 1
      if t.warn then t.alcDrain else t
  else if st = 1 then s
  else s.alcRefuse 3
/-- A write of ALC.CTL (R223-R225): INV first, EN second. -/
def State.alcCtl (s : State) (v : Word) : State :=
  let s : State := if bit v.toNat 3 then (if s.alcState = 0 then s.setFld R.ALC_CTL 1 2 3 else s.alcRefuse 2) else s
  if bit v.toNat 0 then s.alcOn else s.alcDrain

/-- The cleaning of a bank stops (R226): its moves that have not begun give up their slots. -/
def State.movesStop (s : State) (b : Nat) : State :=
  let gone := s.moves.tail.filter (fun m => m.kind == 2 && m.entry / 8 == b)
  gone.foldl (fun t m => t.inkDrop m.slot) { s with moves := s.moves.filter (fun m => !gone.contains m) }

/-- A bit of ALC.BANKPWR.REQ written (R226, R227). -/
def State.bankReq (s : State) (b : Nat) (on : Bool) : State :=
  let st := s.bank b
  if s.flag R.ALC_BANKPWR b = on then s
  else if on then
    let t : State := s.setFlag R.ALC_BANKPWR b true
    if st = 1 then ((t.movesStop b).setBank b 0).setFlag R.ALC_BANKPWR (24 + b) true else if st = 2 then t.setBank b 3 else t
  else if b = 0 && s.alcState != 0 then s.alcRefuse 4
  else
    let t : State := s.setFlag R.ALC_BANKPWR b false
    if st = 0 then t.setBank b 1 else t
/-- A write of ALC.BANKPWR (R226, R227). -/
def State.bankpwr (s : State) (v : Word) : State :=
  let s : State := s.setFld R.ALC_BANKPWR 24 8 (s.fld R.ALC_BANKPWR 24 8 - (s.fld R.ALC_BANKPWR 24 8 &&& getBits v 24 8))
  (List.range 8).foldl (fun t b => t.bankReq b (bit v.toNat b)) s

/-- A lock would pass the limit of R220: the locked entries of the open banks, with one more unless the line is locked or
its entry lies in a bank that is closed to allocation. -/
def State.lockLimit (s : State) (h : HIdx) : Bool :=
  let locked := s.alcOpen.countP (fun k => match SMap.find s.alc k with | some e => e.lk | none => false)
  let more := match s.alcHit h, s.alcReserved h with
    | some (k, e), _ => !e.lk && s.bank (k / 8) == 0
    | none, some _ => false
    | none, none => true
  more && decide (s.alcOpen.length < locked + 1 + 8)
/-- A write of ALC.PRELOAD with GO (R219-R221, R347): ignored while an operation is in progress; else checks first, then the
operation waits for what it needs. -/
def State.preloadGo (s : State) (x : SpAcc) : State :=
  if s.preBusy then s.setFld R.ALC_PRESTAT 1 3 6
  else
  let s : State := s.storeReg R.ALC_PRELOAD x.data
  if s.alcState != 1 then s.preEnd 1
  else
    let l : LineAddr := BitVec.ofNat 52 (s.fld R.ALC_PRELOAD 0 52)
    let op := s.fld R.ALC_PRELOAD 52 2
    match s.hIdx l with
    | none => (s.viol 1 6 x.master.toNat x.world l).preEnd 2
    | some h =>
      if s.denies x.world l then (s.viol 0 6 x.master.toNat x.world l).preEnd 3
      else if op = 2 && s.lockLimit h then s.preEnd 4
      else { s with preload := some (s.inner 0 x.world l 0 [], op) }

/-- A write of ALC.INSP_SEL (R218, R228): an undefined tag is a free value (R222, log 3), and so is what an invalid entry holds
beside V, LK and PIN, and beside REF once it has been allocated (R213). -/
def State.alcInsp (s : State) (v : Word) : State :=
  let s : State := s.storeReg R.ALC_INSP_SEL v
  let k := s.fld R.ALC_INSP_SEL 0 6
  let s : State := if s.bank (k / 8) < 2 then s.alcTag k else s
  let pin := (39, 1, b2n (s.alcPinned k))
  let free := (Config.freeTag s.freeCtr).setWidth 64
  if s.alcUndef.getLsbD (k / 8) || s.bank (k / 8) = 2 then { s with freeCtr := s.freeCtr + 1 }.setReg R.ALC_INSP (withFields free [pin])
  else match SMap.find s.alc k with
    | some e => s.setReg R.ALC_INSP (withFields 0 [(0, 34, e.h.toNat), (34, 1, b2n e.world), (35, 1, b2n e.v), (36, 1, b2n e.d),
        (37, 1, b2n e.lk), (38, 1, b2n e.ref), pin])
    | none => { s with freeCtr := s.freeCtr + 1 }.setReg R.ALC_INSP (withFields free ([(35, 1, 0), (37, 1, 0), pin] ++ (if s.alcTaken k then [(38, 1, 1)] else [])))

/-! ### Routes, aliases -/

/-- A write of RTE.EPOCHCTL with GO (R244, R245). -/
def State.swapGoWrite (s : State) (v : Word) : State := (s.storeReg R.RTE_EPOCHCTL v).swapStart
/-- A write of RTE.ALIASCMD with GO (R260). -/
def State.aliasCmd (s : State) (v : Word) : State :=
  ((s.storeReg R.RTE_ALIASCMD v).aliasApply (getBits v 0 18) (getBits v 18 18) (bit v.toNat 36)).1
/-- A write of a route entry (R247). What it writes has a correct check. -/
def State.routeWrite (s : State) (a : Nat) (v : Word) : State :=
  if s.fromReady && (s.swapState != 0 || (a - R.RTE_ROUTE) / 0x2000 % 2 == s.curEpoch) then s.setFlag R.RTE_EPOCHCTL 10 true
  else ({ s with faults := s.faults.filter (fun f => !(f.1 == 8 && f.2.1 == a)) }).storeReg a v

/-! ### Memory ports, channel port -/

/-- A write of MPn.CTL (R270, R273): FAIL first. RESYNC is judged by the state that the write finds. -/
def State.mpCtl (s : State) (n : Nat) (v : Word) : State :=
  let was := s.mpState n
  let s : State := if bit v.toNat 0 then s.failPort n 4 else s
  let s : State := s.setFlag (mpBase R.MP_CTL n) 0 (s.mpState n == 2 && (s.flag (mpBase R.MP_CTL n) 0 || bit v.toNat 0))
  if bit v.toNat 1 && was = 2 then s.resyncStart n else s
/-- A write of CP.STREAMs with RST (R293). -/
def State.streamRst (s : State) (st : Nat) (v : Word) : State :=
  let s : State := s.storeReg (cpReg st) v
  if s.streamInfl st = 0 then
    let base := s.fld (cpReg st) 41 16
    (s.setFld (cpReg st) 0 16 base).setFld (cpReg st) 16 16 ((base + 2 ^ 16 - 1) % 2 ^ 16)
  else s.setFlag R.CP_STATUS 9 true
/-- A write of NPn.CREDMAX (R259): the limit in force starts from what it is now. -/
def State.credMaxWrite (s : State) (n : Nat) (v : Word) : State :=
  let s : State := (List.range 6).foldl (fun t k => t.setCredNow n k (t.credNow n k)) s
  s.storeReg (npBase R.NP_CREDMAX n) v

/-! ### Regions -/

/-- A refused write to the region table (R344, R345, R451). -/
def State.regionRefuse (s : State) (n cause a : Nat) (who : BitVec 10) : State :=
  let s : State := s.setFld R.SEC_REGSTAT 0 6 n
  let s : State := (s.setFld R.SEC_REGSTAT 6 3 cause).setFlag R.SEC_REGSTAT 9 true
  s.note 0 0xB 1 0 (line := BitVec.ofNat 52 a) (id := who.setWidth 18)
/-- The home ranges that a region occupies (R263). -/
def homeRanges (off size : Nat) (mirror : Bool) : List (Nat × Nat) := (off, size) :: (if mirror then [(off + 2 ^ 25, size)] else [])
/-- Region `m` as its registers hold it: first block, size, offset, mirrored. -/
def State.regionVals (s : State) (m : Nat) : Nat × Nat × Nat × Bool := (s.regionBase m, s.regionSize m, s.regionOff m, s.regionMirror m)
/-- The capacity of a memory port in 64 KiB units, 0 where no controller is present (R263, R292). -/
def State.mpCap (s : State) (n : Nat) : Nat := if s.mpPresent n then min (2 ^ 25) (s.fld (mpBase R.MP_CFG n) 1 26) else 0
/-- Each port that holds lines of the range is present and large enough (R263). -/
def State.portsFit (s : State) (off size : Nat) (mirror : Bool) : Bool :=
  let e := off + size
  if mirror then decide (e ≤ s.mpCap 0) && decide (e ≤ s.mpCap 1)
  else (decide (2 ^ 25 ≤ off) || decide (min e (2 ^ 25) ≤ s.mpCap 0)) && (decide (e ≤ 2 ^ 25) || decide (e - 2 ^ 25 ≤ s.mpCap 1))
/-- The cause for which R263 refuses region `n`, 0 for none (R351). -/
def State.regionCause (s : State) (n base : Nat) (mirror : Bool) : Nat :=
  let size := s.regionSize n
  let off := s.regionOff n
  let others := (List.range 64).filter (fun m => m != n && s.regionV m)
  if size = 0 || decide (2 ^ 26 < off + size) || (mirror && decide (2 ^ 25 < off + size)) then 1
  else if others.any (fun m => overlap base size (s.regionVals m).1 (s.regionVals m).2.1) then 2
  else if others.any (fun m => (homeRanges off size mirror).any (fun r =>
      (homeRanges (s.regionVals m).2.2.1 (s.regionVals m).2.1 (s.regionVals m).2.2.2).any (fun q => overlap r.1 r.2 q.1 q.2))) then 3
  else if !s.portsFit off size mirror then 4
  else 0
/-- A region is fixed (R345). -/
def State.regionFixed (s : State) (n : Nat) : Bool := s.regionV n || s.flag R.SEC_CTL 63
/-- A write of SEC.REGIONnA or, for `b`, SEC.REGIONnB (R344, R345). -/
def State.regionWrite (s : State) (n : Nat) (b : Bool) (v : Word) (who : BitVec 10) : State :=
  let a := (if b then R.SEC_REGIONB else R.SEC_REGIONA) + 16 * n
  if s.regionFixed n then s.regionRefuse n 5 a who
  else if b then s.storeReg (R.SEC_REGIONB + 16 * n) v
  else if bit v.toNat 46 then
    let c := s.regionCause n (getBits v 0 44) (bit v.toNat 44)
    if c = 0 then s.storeReg (R.SEC_REGIONA + 16 * n) v
    else (s.storeReg (R.SEC_REGIONA + 16 * n) (setBits v 46 1 0)).regionRefuse n c a who
  else s.storeReg (R.SEC_REGIONA + 16 * n) v

end Sys2Proof.Machine
end

