-- ==== Sys2Proof/Machine/Muster.lean ====
section
/-! DEFINITION. The end of start-up: READY (R396), muster's schedule and credit ramps (R398-R400), the hold on cluster and
broadcast forms (R402), and the power-loss warning (R280, R371-R373, R403). -/

namespace Sys2Proof.Machine

/-! ### READY and muster -/

/-- STEP of BOOT.MUSTER in units of the time of day (R404). -/
def State.musterStep (s : State) : Nat := usec (max 1 (s.fld R.BOOT_MUSTER 0 8))
/-- RAMP of BOOT.MUSTER in units of the time of day (R404). -/
def State.musterRamp (s : State) : Nat := usec (max 1 (s.fld R.BOOT_MUSTER 8 8))
/-- SKIP of the channel port (0) or of NP0 to NP3 (1 to 4) (R404). -/
def State.musterSkip (s : State) (k : Nat) : Bool := s.flag R.BOOT_MUSTER (17 + k)
/-- PHASE written (R375). -/
def State.setPhase (s : State) (p : Nat) : State := s.setFld R.BOOT_STATUS 0 4 p
/-- An island can be opened by muster: it is not OFF or WAKING. -/
def State.powered (s : State) (i : Nat) : Bool := s.isl i != 3 && s.isl i != 4

/-- The channel port opens, unless its SKIP bit keeps it closed (R398, R400). -/
def State.openCp (s : State) : State :=
  if s.musterSkip 0 || !s.powered 6 then s else { s with cp := { s.cp with opened := true, openAt := s.tod, limit := 9 } }

/-- Muster starts, and opens the channel port (R398); the warning holds its opening (R403). -/
def State.musterStart (s : State) : State :=
  let s : State := { s.setPhase 7 with boot := { s.boot with musterAt := s.tod, nextPort := 1 } }
  if s.warn then s else s.openCp

/-- PHASE becomes READY once the directory is clear and the ostler is ready (R396). -/
def State.readyCheck (s : State) : State :=
  if s.phase = 5 && s.flag R.DIR_STATUS 0 && s.flag R.BOOT_CTL 0 then
    let s : State := (s.setPhase 6).setReg R.BOOT_TREADY s.tod
    if s.flag R.BOOT_MUSTER 16 then s else s.musterStart
  else s

/-- MUSTER_GO (R396). -/
def execMusterGo (s : State) : Host.Outcome State Fault Refusal :=
  .next (finish s (if s.phase = 6 && s.flag R.BOOT_MUSTER 16 then s.musterStart else s))

/-- When the next item of the schedule is due, from the start of muster (R398). -/
def State.musterDue (s : State) (k : Nat) : Nat :=
  if k ≤ 5 then k * s.musterStep else max (4 * s.musterStep + s.musterRamp) (5 * s.musterStep)

/-- The next item of the schedule (R398): a port, the SP clients, or the end of muster. -/
def State.musterNext (s : State) : State :=
  let k := s.boot.nextPort
  let s : State := { s with boot := { s.boot with nextPort := k + 1 } }
  if k ≤ 4 then (if s.musterSkip k || !s.powered (k - 1) then s else s.openPort (k - 1))
  else if k = 5 then s
  else { (s.setPhase 8).setReg R.BOOT_TMUSTER s.tod with boot := { s.boot with nextPort := k + 1, runAt := s.tod } }

/-- PORT_OPEN (R398, R399, R403). -/
def execPortOpen (s : State) : Host.Outcome State Fault Refusal :=
  .next (finish s (if s.phase = 7 && !s.warn && s.musterDue s.boot.nextPort ≤ elapsed s.boot.musterAt s.tod then s.musterNext else s))

/-- The rise to `v + 1` of a ramp from `lo` to `hi` that began at `t` is due (R399). -/
def State.rampDue (s : State) (t : Tod) (lo hi v : Nat) : Bool :=
  decide (v < hi) && decide ((v + 1 - lo) * s.musterRamp ≤ elapsed t s.tod * (hi - lo)) && !(s.warn && s.phase == 7)

/-- CREDIT_RAMP_STEP (R399, R400, R403). -/
def execCreditRampStep (port : Fin 5) (pool : Fin 6) (s : State) : Host.Outcome State Fault Refusal :=
  .next (finish s (
    let n := port.val
    let k := pool.val
    if n = 4 then
      (if s.cp.opened && s.rampDue s.cp.openAt 9 144 s.cp.limit then { s with cp := { s.cp with limit := s.cp.limit + 1 } } else s)
    else if s.isOpen n && s.rampDue (s.np n).openAt (s.credStart n k) (s.credMax n k) (s.credNow n k) then
      (s.setCredNow n k (s.credNow n k + 1)).settleIn n
    else s))

/-- RLYHOLD_END (R402). -/
def execRlyholdEnd (s : State) : Host.Outcome State Fault Refusal :=
  .next (finish s (if s.phase = 8 && !s.boot.rlyReady && usec (s.fld R.BOOT_MUSTER 22 8) ≤ elapsed s.boot.runAt s.tod then
      { s with boot := { s.boot with rlyReady := true } }
    else s))

/-! ### Power-loss warning -/

/-- PWR_WARN_ASSERT (R280, R371): the ALC is disabled under R225; DRAIN of ISL.PWRWARN is measured anew (R374). -/
def execPwrWarnAssert (s : State) : Host.Outcome State Fault Refusal :=
  .next (finish s (if s.warn then s
    else
      let t : State := (s.setFlag R.ISL_PWRWARN 0 true).setFld R.ISL_PWRWARN 18 24 0
      { t with boot := { t.boot with warnAt := t.tod, safeSeen := false } }.alcDrain))

/-- A time is delayed by the part of the warning that came after it (R403). -/
def State.delayed (s : State) (t : Tod) : Tod := t + BitVec.ofNat 64 (s.tod.toNat - max t.toNat s.boot.warnAt.toNat)

/-- PWR_WARN_DEASSERT (R372, R403): the credits kept back from the channel subsystem go out, and a channel port whose time fell
into the warning opens now. -/
def execPwrWarnDeassert (s : State) : Host.Outcome State Fault Refusal :=
  .next (finish s (if s.warn then
      let t : State := ({ s with cp := { s.cp with spent := 0 } }.setFlag R.ISL_PWRWARN 0 false).addFld R.ISL_PWRWARN 2 16 1
      if t.phase = 7 then
        let held := decide (t.boot.warnAt.toNat ≤ t.boot.musterAt.toNat)
        let u : State := { t with boot := { t.boot with musterAt := t.delayed t.boot.musterAt } }
        let u : State := (List.range 4).foldl (fun w n => if w.isOpen n then w.setNp n { w.np n with openAt := t.delayed (w.np n).openAt } else w) u
        if held then u.openCp else if u.cp.opened then { u with cp := { u.cp with openAt := t.delayed u.cp.openAt } } else u
      else t
    else s))

end Sys2Proof.Machine
end

