-- ==== Sys2Proof/Machine/RecoveryRows.lean ====
section
/-! DEFINITION. The recovery fabric's handshakes and outcomes (R322, R327), the purge walk (R126, R127), the cleaner
(R121, R122), the scrubber (R131) and the clearing of ways 8-15 (R124). -/

namespace Sys2Proof.Machine

/-- FLUSH_REQUEST_ACK (R322): the fabric raises or lowers TK_RCV_REQ_ACK. -/
def execFlushRequestAck (level : Bool) (s : State) : Host.Outcome State Fault Refusal :=
  .next (finish s (match s.rcv.req with
    | some a =>
      if level && s.rcv.reqHigh then
        let ack : SMap Tod := match s.fenceIdx a with
          | some k => if s.fld (fenceReg k) 18 2 = 1 then SMap.put s.rcv.ackAt k s.tod else s.rcv.ackAt
          | none => s.rcv.ackAt
        { s with rcv := { s.rcv with reqHigh := false, ackAt := ack } }
      else if !level && !s.rcv.reqHigh then { s with rcv := { s.rcv with req := none } }.flushPump
      else s
    | none => s))

/-- An outcome that the fabric reports (R322, R327): for an ID without a SUSPECT entry it is ignored and recorded. -/
def State.flushTold (s : State) (id : EpId) (code : Nat) : State :=
  let s : State := s.readAll 6
  let a := s.toLog id
  if s.fence a = 1 then s.outcome a code
  else s.note 8 5 (s.fence a) 2 (id := a)

/-- FLUSH_OUTCOME (R322, R327): the fabric raises TK_RCV_RSP with an outcome, which Tirkar takes and acknowledges, or lowers
it. -/
def execFlushOutcome (id : EpId) (code : Option (BitVec 2)) (s : State) : Host.Outcome State Fault Refusal :=
  .next (finish s (match code with
    | some c => if s.rcv.rspAck then s else ({ s with rcv := { s.rcv with rspAck := true } }).flushTold id c.toNat
    | none => { s with rcv := { s.rcv with rspAck := false } }))

/-- FLUSH_TIMEOUT (R322): no outcome within GLB.RCVCTL.FLUSHTMO counts as NOFLUSH. -/
def execFlushTimeout (entry : Fin 16) (s : State) : Host.Outcome State Fault Refusal :=
  .next (finish s (match SMap.find s.rcv.ackAt entry.val with
    | some t =>
      if s.fld (fenceReg entry.val) 18 2 = 1 && decide (usec (max 1 (s.fld R.GLB_RCVCTL 0 8)) ≤ elapsed t s.tod) then
        s.outcome (BitVec.ofNat 18 (s.fld (fenceReg entry.val) 0 18)) 2
      else s
    | none => s))

/-- PURGE_WALK_VISIT (R126, R127). -/
def execPurgeWalkVisit (s : State) : Host.Outcome State Fault Refusal := .next (finish s s.purgeVisit)

/-- The cleaner's evictions that are open. -/
def State.cleanOpen (s : State) : Nat :=
  s.stalls.countP (fun e => match e.2.role with | .evict _ c => c | _ => false)
/-- An eviction of the entry at a key is open. -/
def State.evicting (s : State) (k : Nat) : Bool :=
  s.stalls.any (fun e => match e.2.role with | .evict d _ => d == k | _ => false)

/-- The cleaner finds an entry (R121, R122): it is evicted, or its eviction waits in the pen behind the stalls of its
line; without resources it is left for the next visit (R136). -/
def State.cleanEntry (s : State) (k : Nat) (e : DirEntry) : State :=
  if s.evicting k || decide (max 1 (s.fld R.DIR_CLEAN 0 7) ≤ s.cleanOpen) || (2 ≤ e.sh.form && s.freeStalls 3 = 0) then s
  else if s.pinned k then
    match s.penFree, s.openEvict k true with
    | some p, (t, some j) =>
      let seq := t.penSeq
      ({ t with penSeq := seq + 1 }).penPut p j 3 (hOfKey k e) none seq
    | _, _ => s
  else match s.openEvict k true with
    | (t, some j) => t.evictGo j k
    | (_, none) => s

/-- One visit of the cleaner (R121): the ways 8-15 of the set at its position. -/
def State.cleanVisit (s : State) : State :=
  if s.wayState != 1 || s.chk then s
  else
    let pos := s.rcv.cleanPos
    let s : State := (List.range 8).foldl (fun t w =>
      let k := dirKey pos (8 + w)
      let l := t.lineAt k
      let t : State := t.dirProbe 0 k l
      if t.chk then t
      else match SMap.find t.dirs k with
        | some e =>
          let t := t.extRead k e
          if t.chk then t else t.cleanEntry k e
        | none => t) s
    { s with rcv := { s.rcv with cleanPos := (pos + 1) % Config.positions } }

/-- CLEANER_VISIT (R121, R122). -/
def execCleanerVisit (s : State) : Host.Outcome State Fault Refusal := .next (finish s s.cleanVisit)

/-- One scrub (R131): a set of every slice, with the extension entry of the same number. -/
def State.scrub (s : State) : State :=
  let n := s.rcv.scrubSet
  let s : State := (List.range 8).foldl (fun t sl => (List.range t.lookupWays).foldl (fun u w => u.dirProbe 0 (dirKey (n * 8 + sl) w) (u.lineAt (dirKey (n * 8 + sl) w))) t) s
  { s.extProbe n 0 with rcv := { s.rcv with scrubSet := (n + 1) % 2 ^ 14, scrubAt := s.tod } }

/-- SCRUB_READ (R131): from the end of the directory clear on, while DIR.SCRUB.INTERVAL is not zero, once that many units of
32 ns have passed since the latest scrub. -/
def execScrubRead (s : State) : Host.Outcome State Fault Refusal :=
  .next (finish s (if s.flag R.DIR_STATUS 0 && s.fld R.DIR_SCRUB 0 16 != 0 &&
      decide (nsec (32 * s.fld R.DIR_SCRUB 0 16) ≤ elapsed s.rcv.scrubAt s.tod) then s.scrub else s))

/-- WAY_CLEAR_DONE (R124): the ways open; a power-down asked for meanwhile then begins. -/
def execWayClearDone (s : State) : Host.Outcome State Fault Refusal :=
  .next (finish s (if s.wayState = 3 then
      let t : State := { s with faults := s.faults.filter (fun f => !(f.1 == 0 && decide (8 ≤ f.2.1 % 16))) }
      let t : State := (t.setFld R.DIR_WAYPWR 1 2 0).setFlag R.DIR_WAYPWR 3 true
      if t.flag R.DIR_WAYPWR 0 then t else t.setFld R.DIR_WAYPWR 1 2 1
    else s))

end Sys2Proof.Machine
end

