-- ==== Sys2Proof/Machine/SpSystem.lean ====
section
/-! DEFINITION. What a write of a system register does beside storing: the fence table (R320, R327, R328), checkstop (R336),
sparing (R329), the home ID (R463), island power (R367-R369), resets (R363, R365), start-up (R392, R394). -/

namespace Sys2Proof.Machine

/-! ### Recovery -/

/-- GLB.FENCECMD ends with a result (R340). -/
def State.fenceEnd (s : State) (result : Nat) : State := (s.setFld R.GLB_FENCECMD 21 3 result).setFlag R.GLB_FENCECMD 24 true
/-- An outcome written for an ID without an entry (R327): it is FENCED without a flush request, and joins the purge walk. -/
def State.fenceNew (s : State) (who : EpId) (k o : Nat) : State :=
  let s : State := s.setReg (fenceReg k) (BitVec.ofNat 64 (who.toNat + 2 * 2 ^ 18 + o * 2 ^ 20 + 4 * 2 ^ 22))
  (s.fenceMoved k 2 who).joinPurge who
/-- GLB.FENCECMD with OP = SUSPECT (R320, R340). -/
def State.fenceSuspect (s : State) (who : EpId) : State :=
  match s.fenceIdx who, s.fenceFree with
  | some _, _ => s.fenceEnd 2
  | none, none => (s.suspect who 4).fenceEnd 1
  | none, some _ => (s.suspect who 4).fenceEnd 0
/-- GLB.FENCECMD with OP = FLUSHED (`o` 1) or NOFLUSH (2) (R327). -/
def State.fenceOutcome (s : State) (who : EpId) (o : Nat) : State :=
  match s.fenceIdx who, s.fenceFree with
  | some k, _ => if s.fld (fenceReg k) 18 2 = 1 then (s.outcome who o).fenceEnd 0 else s.fenceEnd 3
  | none, some k => (s.fenceNew who k o).fenceEnd 0
  | none, none => s.fenceEnd 1
/-- GLB.FENCECMD with OP = RELEASE (R327). -/
def State.fenceRelease (s : State) (who : EpId) : State :=
  match s.fenceIdx who with
  | some k => if s.fld (fenceReg k) 18 2 = 3 then (s.unfence k).fenceEnd 0 else s.fenceEnd 3
  | none => s.fenceEnd 4
/-- A write of GLB.FENCECMD with GO (R327, R340). -/
def State.fenceCmd (s : State) (v : Word) : State :=
  let s : State := s.storeReg R.GLB_FENCECMD v
  let who : EpId := BitVec.ofNat 18 (getBits v 0 18)
  let op := getBits v 18 2
  if op = 0 then s.fenceSuspect who else if op = 3 then s.fenceRelease who else s.fenceOutcome who op

/-- A write of GLB.CHKCMD with GO (R336): an unassigned cause acts as Integrity. -/
def State.chkCmd (s : State) (v : Word) : State :=
  let s : State := s.storeReg R.GLB_CHKCMD v
  let c := getBits v 0 8
  s.declare (if 1 ≤ c ∧ c ≤ 9 then c else Cause.integrity) 4

/-- A sparing command ends with a result and sends nothing (R329, R340). -/
def State.spareEnd (s : State) (result : Nat) : State := (s.setFld R.GLB_BCAST 59 3 result).setFlag R.GLB_BCAST 62 true
/-- A write of GLB.SPARECMD with GO (R329); in checkstop no broadcast starts (R337). -/
def State.spareCmd (s : State) (v : Word) : State :=
  let s : State := s.storeReg R.GLB_SPARECMD v
  let lo := getBits v 0 18
  let ph := getBits v 18 18
  if s.flag R.GLB_BCAST 0 then s.setFld R.GLB_BCAST 59 3 5
  else if s.chk then s.spareEnd 4
  else
    let p : State × Nat := s.aliasApply lo ph (bit v.toNat 36)
    if p.2 = 0 then p.1.bcastStart 0 Op.aliasSet (BitVec.ofNat 40 (lo + ph * 2 ^ 18 + b2n (bit v.toNat 36) * 2 ^ 36)) p.1.otherHomes
    else p.1.spareEnd 3

/-- A write of GLB.HOMEID (R463). -/
def State.homeIdWrite (s : State) (v : Word) : State := if s.fromReady then s else s.storeReg R.GLB_HOMEID v

/-! ### Power -/

/-- A power or reset request is refused (R365, R367, R374). -/
def State.islRefuse (s : State) (i cause : Nat) : State :=
  (((s.setFlag R.ISL_PWREVT 8 true).setFld R.ISL_PWREVT 9 4 i).setFld R.ISL_PWREVT 13 3 cause)
/-- A valid region places lines on memory port `n` (R367). -/
def State.regionOn (s : State) (n : Nat) : Bool :=
  (List.range 64).any (fun k => s.regionV k && (s.regionMirror k ||
    (if n = 0 then decide (s.regionOff k < 2 ^ 25) else decide (2 ^ 25 < s.regionOff k + s.regionSize k))))
/-- The cause for which a power-down is refused, 0 for none (R367, R371). -/
def State.downCause (s : State) (i : Nat) : Nat :=
  if s.inkHolds i then 1
  else if s.stallHolds i then 2
  else if (i = 4 || i = 5) && s.regionOn (i - 4) && s.mpState (i - 4) != 2 then 3
  else if i = 7 && s.phase != 8 then 4
  else if (i < 7 && s.flag R.ISL_RSTSTAT (1 + i)) || s.warn then 5
  else 0
/-- The link of an island that drains, or ends its drain (R257, R368). -/
def State.drainLink (s : State) (i : Nat) (drain : Bool) : State :=
  if i < 4 || i = 6 then
    let n := if i = 6 then 4 else i
    if drain then (if s.link n = 1 then s.setLink n 2 else s) else (if s.link n = 2 then s.setLink n 1 else s)
  else s
/-- A 0 written to a bit of ISL.PWRREQ (R367, R368). A transition in progress refuses it (BUSY). -/
def State.powerDown (s : State) (i : Nat) : State :=
  let st := s.isl i
  if st = 0 || st = 1 then
    let c := s.downCause i
    if c = 0 then ((s.setFlag R.ISL_PWRREQ i false).setIsl i 2).drainLink i true else s.islRefuse i c
  else if st = 4 then s.islRefuse i 5
  else s
/-- A 1 written to a bit of ISL.PWRREQ (R368, R369). -/
def State.powerUp (s : State) (i : Nat) : State :=
  let st := s.isl i
  let s : State := s.setFlag R.ISL_PWRREQ i true
  if st = 3 then s.setIsl i 4
  else if st = 2 then (s.islDone i 0).drainLink i false
  else s
/-- A write of ISL.PWRREQ (R367-R369). -/
def State.pwrReq (s : State) (v : Word) : State :=
  (List.range 8).foldl (fun t i => if bit v.toNat i then t.powerUp i else t.powerDown i) s
/-- The write asks some powered island to power down. -/
def State.asksDown (s : State) (v : Word) : Bool :=
  (List.range 8).any (fun i => !bit v.toNat i && (s.isl i == 0 || s.isl i == 1 || s.isl i == 4))

/-! ### Resets -/

/-- The function reset of a network port begins (R257, R365): a running bridge drains first. -/
def State.npReset (s : State) (n : Nat) : State :=
  let s : State := (s.addFld R.ISL_RSTSTAT 10 16 1).setFlag R.ISL_RSTSTAT (1 + n) true
  if s.link n = 1 || s.link n = 2 then s.setLink n 2 else (s.setLink n 3).loseCredits n
/-- ISL.RSTCMD with KIND = FUNC (R365, R374). -/
def State.funcReset (s : State) (i : Nat) : State :=
  if 6 < i then s.islRefuse i 5
  else if !s.powered i || s.flag R.ISL_RSTSTAT (1 + i) then s.islRefuse i 5
  else if i < 4 then s.npReset i
  else if i < 6 then s.mpReset (i - 4) true
  else s.cpReset true
/-- A write of ISL.RSTCMD with GO (R363, R365). -/
def State.rstCmd (s : State) (v : Word) : State :=
  let s : State := s.storeReg R.ISL_RSTCMD v
  if bit v.toNat 0 then s.domainRequest 2 false else s.funcReset (getBits v 1 4)

/-- A write of BOOT.CTL (R392, R394): OSTREADY by the ostler alone, RETRY in FAILED alone. What LASTDOM
shows of a reset by RETRY is a free value (log 14). -/
def State.bootCtl (s : State) (m : MasterId) (v : Word) : State :=
  let s : State := if bit v.toNat 63 then s.setFlag R.BOOT_CTL 63 true else s
  let s : State := if bit v.toNat 0 && m = 0x3FF && s.boot.ostRun then (s.setFlag R.BOOT_CTL 0 true).readyCheck else s
  if bit v.toNat 1 && s.phase = 9 then 
    { s with freeCtr := s.freeCtr + 1 }.domainRequest (Config.freeLast s.freeCtr).toNat true
  else s

end Sys2Proof.Machine
end

