-- ==== Sys2Proof/Machine/SpService.lean ====
section
/-! DEFINITION. The blocks of the service island: mailboxes and doorbells (R413-R421), the hitching rail (R422-R425), the
notice queue (R427-R432), counters and dumps (R441-R447), the blotter's registers (R453, R454). -/

namespace Sys2Proof.Machine

/-! ### Mailboxes -/

/-- MBX.CROSS.EV records each rise of NOW (R417): `s0` is the state before. -/
def State.crossEdges (s0 s : State) : State :=
  (List.range 32).foldl (fun t c => if s.crossing c && !s0.crossing c then t.setFlag R.MBX_CROSS (32 + c) true else t) s
/-- A doorbell bit set (R421). -/
def State.ringBell (s : State) (b : Nat) : State := s.setFlag R.MBX_DB b true
/-- The doorbell of a take or an abort (R416, R420). -/
def State.ackBell (s : State) (c : Nat) : State :=
  if s.flag (mbxReg R.MBX_BIND c) 26 then s.ringBell (s.fld (mbxReg R.MBX_BIND c) 21 5) else s

/-- A write of MBX.BINDc (R413): fixed once V is 1. -/
def State.mbxBindWrite (s : State) (c : Nat) (v : Word) (who : BitVec 10) : State :=
  if s.mbxV c then s
  else if bit v.toNat 63 && getBits v 0 10 = getBits v 10 10 then
    let t : State := s.storeReg (mbxReg R.MBX_BIND c) (setBits v 63 1 0)
    (((t.setFlag R.MBX_ERR 32 true).setFld R.MBX_ERR 33 5 c).note 9 0xB 5 0 (line := BitVec.ofNat 52 (mbxReg R.MBX_BIND c)) (id := who.setWidth 18))
  else s.storeReg (mbxReg R.MBX_BIND c) v

/-- A write of MBX.DATAc0 to MBX.DATAc3 by the sender (R415): word 3 posts the message. -/
def State.mbxStore (s : State) (c w : Nat) (v : Word) : State :=
  let s0 := s
  let s : State := s.setReg (mbxReg R.MBX_DATA0 c + 8 * w) v
  if w != 3 then s
  else if s.mbxFull c then (s.setFlag (mbxReg R.MBX_STAT c) 3 true).addFld R.MBX_ERR 16 16 1
  else
    let ws := (List.range 4).map (fun k => s.reg (mbxReg R.MBX_DATA0 c + 8 * k))
    let t : State := { s with svc := { s.svc with msg := SMap.put s.svc.msg c ws } }
    State.crossEdges s0 ((t.setFlag (mbxReg R.MBX_STAT c) 0 true).ringBell c)
/-- A write of a channel's STAT or DATA registers (R414, R415, R434). -/
def State.mbxWrite (s : State) (x : SpAcc) (c off : Nat) : State :=
  let m := x.master.toNat
  if s.mbxV c && (m == s.mbxSender c || m == s.mbxReceiver c) then
    if m != s.mbxSender c then s
    else if off = 8 then s.storeReg (mbxReg R.MBX_STAT c) x.data
    else s.mbxStore c ((off - 0x10) / 8) x.data
  else s.addFld R.MBX_ERR 0 16 1
/-- A read of MBX.DATAc3 (R415, R416): the receiver takes the message. -/
def State.mbxTake (s : State) (x : SpAcc) (c : Nat) : State × Word :=
  if s.mbxV c && x.master.toNat = s.mbxReceiver c && s.mbxFull c then
    let v := ((SMap.find s.svc.msg c).getD []).getD 3 0
    let t : State := { s with svc := { s.svc with msg := SMap.del s.svc.msg c } }
    (((t.setFlag (mbxReg R.MBX_STAT c) 0 false).setFlag (mbxReg R.MBX_STAT c) 1 true).ackBell c, v)
  else s.mbxRead x c 0x28
/-- A write of MBX.DB, MBX.DBSET or MBX.DBMASK (R421): on the bits that the writer's world reaches. -/
def State.bellWrite (s : State) (x : SpAcc) (a : Nat) : State :=
  let reach := BitVec.ofNat 64 (s.bells x.world)
  if a = R.MBX_DB then s.setReg R.MBX_DB (s.reg R.MBX_DB &&& ~~~(x.data &&& reach))
  else if a = R.MBX_DBSET then s.setReg R.MBX_DB (s.reg R.MBX_DB ||| (x.data &&& reach))
  else s.setReg R.MBX_DBMASK ((s.reg R.MBX_DBMASK &&& ~~~reach) ||| (x.data &&& reach))
/-- The mailbox part of a master reset (R420). -/
def State.mbxReset (s : State) (m : Nat) (c : Nat) : State :=
  let st := mbxReg R.MBX_STAT c
  if !s.mbxV c then s
  else if s.mbxReceiver c = m then
    let s : State := { s with svc := { s.svc with msg := SMap.del s.svc.msg c } }
    let s : State := ((s.setFlag st 0 false).setFlag st 2 true).setFlag R.MBX_DB c false
    let s : State := s.ackBell c
    if s.flag (mbxReg R.MBX_BIND c) 27 then s.notice 1 (c + m * 32) [] else s
  else if s.mbxSender c = m then
    (List.range 4).foldl (fun t k => t.setReg (mbxReg R.MBX_DATA0 c + 8 * k) 0) (s.setFld st 1 3 0)
  else s

/-! ### Hitching rail -/

/-- The value that a read of RAIL.LOCKk returns (R422). -/
def State.railValue (s : State) (k : Nat) (granted new : Bool) : Word :=
  withFields 0 [(0, 10, s.railHolder k), (10, 1, b2n granted), (11, 1, b2n new), (12, 1, b2n (s.railSecure k)), (13, 1, 1)]
/-- A read of RAIL.LOCKk (R422). -/
def State.railRead (s : State) (m : MasterId) (k : Nat) : State × Word :=
  if !s.railHeld k then
    let t : State := (s.setFld (railReg k) 0 10 m.toNat).setFlag (railReg k) 13 true
    (t, t.railValue k true true)
  else if s.railHolder k = m.toNat then (s, s.railValue k true false)
  else (s.addFld R.RAIL_STAT 0 16 1, s.railValue k false false)
/-- A lock freed. -/
def State.railFree (s : State) (k : Nat) : State := (s.setFld (railReg k) 0 10 0).setFlag (railReg k) 13 false
/-- A write of RAIL.LOCKk with REL = 1 (R423). -/
def State.railRel (s : State) (m : MasterId) (k : Nat) : State :=
  if s.railHeld k && s.railHolder k = m.toNat then s.railFree k else s.addFld R.RAIL_STAT 16 16 1
/-- A lock released by force, other than at domain reset (R425): `how` 0 holder reset, 1 RAIL.FORCE. -/
def State.railForce (s : State) (k how : Nat) : State :=
  if !s.railHeld k then s
  else
    let h := s.railHolder k
    let s : State := (s.railFree k).addFld R.RAIL_STAT 32 16 1
    let s : State := { s with svc := { s.svc with abort := s.svc.abort ||| BitVec.ofNat 64 (2 ^ k) } }
    if s.flag R.RAIL_CTL 0 then s.notice 2 (k + how * 64) [BitVec.ofNat 64 h] else s

/-! ### Notice queue -/

/-- A record is written whole at WP (R427); TIME is filled in (R426). -/
def State.nqPut (s : State) (ws : List Word) : State :=
  let wp := s.fld R.NQ_PTR 0 16
  let ws := match ws with | h :: r => setBits h 32 32 (s.tod.toNat / 4096) :: r | [] => []
  let nq := (ws.zipIdx).foldl (fun m e => SMap.put m ((wp + e.2) % Config.nqSize) e.1) s.svc.nq
  { s.setFld R.NQ_PTR 0 16 ((wp + ws.length) % 2 ^ 16) with svc := { s.svc with nq := nq } }
/-- A record that does not fit is dropped (R427). -/
def State.nqDrop (s : State) : State :=
  let t : State := ((s.addFld R.NQ_DROP 0 16 1).setFlag R.NQ_STATUS 26 true).setFlag R.NQ_STATUS 23 true
  { t with svc := { t.svc with gap := t.svc.gap + 1 } }.ev 0xFD {}
/-- NQ_RECORD_WRITE (R427, R428): the first of the competing records, a due GAP record going before it. -/
def execNqRecordWrite (s : State) : Host.Outcome State Fault Refusal :=
  .next (match s.svc.nqIn with
    | [] => s
    | ws :: r =>
      if s.flag R.NQ_STATUS 23 && decide (1 ≤ s.nqFree) then s
      else
        let t : State := { s with svc := { s.svc with nqIn := r } }
        if ws.length ≤ t.nqFree then t.nqPut ws else t.nqDrop)
/-- GAP_RECORD_WRITE (R428). -/
def execGapRecordWrite (s : State) : Host.Outcome State Fault Refusal :=
  .next (if s.flag R.NQ_STATUS 23 && 1 ≤ s.nqFree then
      let t : State := s.nqPut [BitVec.ofNat 64 (min s.svc.gap 0x1FFFFF * 1024)]
      { t.setFlag R.NQ_STATUS 23 false with svc := { t.svc with gap := 0 } }
    else s)

/-- A write of NQ.POSTj by the ostler (R429): the word whose number is LEN posts the record. -/
def State.nqPost (s : State) (j : Nat) (v : Word) : State :=
  let s : State := s.setReg (R.NQ_POST + 8 * j) v
  let h := s.reg R.NQ_POST
  let len := getBits h 0 2
  let kind := getBits h 2 8
  if j = len && decide (0x40 ≤ kind) && decide (kind ≤ 0x7F) then
    s.notice kind (getBits h 10 21) ((List.range len).map (fun k => s.reg (R.NQ_POST + 8 * (k + 1))))
  else s
/-- The reader of the queue (R436). -/
def State.nqReader (s : State) (m : MasterId) : Bool := s.fld R.NQ_CTL 0 10 == m.toNat
/-- An access of another master (R430, R431). -/
def State.notReader (s : State) : State := s.addFld R.NQ_DROP 32 16 1
/-- A read of NQ.READ (R430). -/
def State.nqTake (s : State) (m : MasterId) : State × Word :=
  if !s.nqReader m then (s.notReader, 0)
  else if s.nqAvail = 0 then ((s.addFld R.NQ_DROP 16 16 1).setFlag R.NQ_STATUS 24 true, 0)
  else
    let rp := s.fld R.NQ_PTR 16 16
    (s.setFld R.NQ_PTR 16 16 ((rp + 1) % 2 ^ 16), (SMap.find s.svc.nq (rp % Config.nqSize)).getD 0)
/-- The position in a field of NQ.PTR copied to another. -/
def State.nqCopy (s : State) (src dst : Nat) : State := s.setFld R.NQ_PTR dst 16 (s.fld R.NQ_PTR src 16)
/-- MARK (R431). -/
def State.nqDoMark (s : State) : State := (s.nqCopy 16 48).setFlag R.NQ_STATUS 22 true
/-- REWIND (R431). -/
def State.nqDoRewind (s : State) : State := if s.flag R.NQ_STATUS 22 then s.nqCopy 48 16 else s.setFlag R.NQ_STATUS 25 true
/-- RELEASE (R431). -/
def State.nqDoRelease (s : State) : State :=
  let s : State := s.nqCopy 16 32
  let d := (s.fld R.NQ_PTR 32 16 + 2 ^ 16 - s.fld R.NQ_PTR 48 16) % 2 ^ 16
  if s.flag R.NQ_STATUS 22 && 1 ≤ d && d ≤ Config.nqSize then s.setFlag R.NQ_STATUS 22 false else s
/-- A write of NQ.CMD (R431). -/
def State.nqCmd (s : State) (m : MasterId) (v : Word) : State :=
  if goBit v && !s.nqReader m then s.notReader
  else
    let s : State := s.storeReg R.NQ_CMD v
    if !goBit v then s else
    let op := getBits v 0 2
    if op = 1 then s.nqDoMark else if op = 2 then s.nqDoRewind else if op = 3 then s.nqDoRelease else s

/-! ### Counters and dumps -/

/-- The dump ring may be enabled (R444). -/
def State.dumpOk (s : State) : Bool :=
  let base := s.fld R.PMC_DUMPBASE 0 52
  let n := s.dumpRecords
  decide (1 ≤ n) && decide (n ≤ 65536) &&
  (match s.cover base (base + 9 * n) 65 with
   | some ws => s.flag R.SEC_WORLDCFG 5 || ws.all (fun w => !w)
   | none => false) &&
  (List.range 8).all (fun k => !s.ringEn k || !overlap base (9 * n) (s.ringBase k) (s.ringLines k))
/-- A write of PMC.CTL (R443, R444). -/
def State.pmcCtl (s : State) (v : Word) : State :=
  let rise := bit v.toNat 0 && !s.flag R.PMC_CTL 0
  let s : State :=
    if !rise then s.storeReg R.PMC_CTL v
    else if s.dumpOk then
      let t : State := ((s.storeReg R.PMC_CTL v).setReg R.PMC_DUMPSEQ 0).setReg R.PMC_DUMPHEAD 0
      { t with pmc := { t.pmc with prev := 0 } }
    else (s.storeReg R.PMC_CTL (setBits v 0 1 0)).setFlag R.PMC_STATUS 2 true
  if bit v.toNat 21 && s.flag R.PMC_CTL 0 then { s with pmc := { s.pmc with due := true, manual := true } } else s
/-- A write of PMC.DUMPHEAD (R199, R444). -/
def State.dumpHeadWrite (s : State) (v : Word) : State :=
  let head := s.fld R.PMC_DUMPHEAD 0 48
  let new := getBits v 0 48
  if (new + 2 ^ 48 - head) % 2 ^ 48 ≤ (s.fld R.PMC_DUMPSEQ 0 48 + 2 ^ 48 - head) % 2 ^ 48 then s.setFld R.PMC_DUMPHEAD 0 48 new
  else s.addFld R.PMC_STATUS 3 16 1
/-- A setting of the filters has changed (R442). -/
def State.cfgChange (s : State) : State := { s with pmc := { s.pmc with cfg := true } }
/-- A write of PMC.FSELj (R441): a non-secure one changes only fields between non-secure sets. -/
def State.fsel (s : State) (x : SpAcc) (j : Nat) : State :=
  let a := R.PMC_FSEL + 8 * j
  let old := s.reg a
  let may := fun i => x.world || (!s.filterSecure (getBits old (4 * i) 3) && !s.filterSecure (getBits x.data (4 * i) 3))
  let new := (List.range 16).foldl (fun v i => if may i then setBits v (4 * i) 3 (getBits x.data (4 * i) 3) else v) old
  let held := (List.range 16).any (fun i => !may i && getBits x.data (4 * i) 3 != getBits old (4 * i) 3)
  let s : State := s.setReg a new
  let s : State := if held then s.violObject x else s
  if new = old then s else s.cfgChange
/-- A write of a filter set's register (R350, R442): a secure set keeps its values from a non-secure writer. -/
def State.filterWrite (s : State) (x : SpAcc) (a : Nat) : State :=
  if !x.world && s.filterSecure ((a - R.PMC_FSCTL) / 0x20) then s.violObject x
  else
    let t : State := s.storeReg a x.data
    if t.reg a = s.reg a then t else t.cfgChange

/-- PMC.CTL.INT in µs (R455). -/
def State.dumpInt (s : State) : Nat := min 1000000 (max 1 (s.fld R.PMC_CTL 1 20))
/-- The time of day is one at which a periodic dump is due, not yet taken (R443). -/
def State.dumpPeriod (s : State) : Bool :=
  s.flag R.PMC_CTL 0 && s.tod.toNat / 4096 % s.dumpInt == 0 && s.pmc.lastPeriod != s.tod.toNat / 4096 + 1
/-- A counter in a dump record (R446, R447). -/
def State.dumpCount (s : State) (k : Nat) : Word :=
  if s.filterSecure (s.filterOf k) && !s.flag R.SEC_WORLDCFG 5 then 0 else s.reg (R.PMC_CNT + 8 * k)
/-- The words of line 0 of a record (R446). -/
def State.dumpHeader (s : State) : List (Nat × Word) :=
  let redo := (List.range 4).map (fun k => s.reg (R.PMC_REDO + 8 * k))
  [(0, withFields 0 [(0, 48, s.fld R.PMC_DUMPSEQ 0 48), (56, 1, b2n (redo.any (fun r => r != 0))), (57, 1, b2n s.pmc.manual),
      (58, 1, b2n (s.pmc.rcv || s.recovering)), (59, 1, b2n s.pmc.cfg), (63, 1, 1)]),
   (1, s.tod), (2, s.pmc.prev),
   (3, withFields 0 [(0, 18, s.homeId.toNat), (18, 12, s.domain.toNat), (30, 16, min s.pmc.missed 0xFFFF)])] ++
  (List.range 4).map (fun k => (8 + k, redo.getD k 0))
/-- A dump's snapshot (R443): its words, zero words left out, and the nine lines to write. -/
def State.snapshot (s : State) : State :=
  let words : SMap Word := (s.dumpHeader ++ (List.range 256).map (fun k => (32 + k, s.dumpCount k))).filter (fun e => e.2 != 0)
  let d : Dump := ⟨words, [1, 2, 3, 4, 5, 6, 7, 8, 0], [], s.fld R.PMC_DUMPSEQ 0 48⟩
  let s : State := (List.range 4).foldl (fun t k => t.setReg (R.PMC_REDO + 8 * k) 0) (s.setReg R.PMC_LASTDUMP s.tod)
  { s with pmc := { s.pmc with dump := some d, missed := 0, prev := s.tod, rcv := s.recovering, cfg := false } }
/-- DUMP_DUE (R443). -/
def execDumpDue (s : State) : Host.Outcome State Fault Refusal :=
  .next (if s.pmc.due || s.dumpPeriod then
      let t : State :=
        if !s.flag R.PMC_CTL 0 then s
        else if s.pmc.dump.isSome || s.dumpFull || s.chk then
          { s.addFld R.PMC_STATUS 3 16 1 with pmc := { s.pmc with missed := s.pmc.missed + 1 } }
        else s.snapshot
      { t with pmc := { t.pmc with due := false, manual := false, lastPeriod := if s.dumpPeriod then s.tod.toNat / 4096 + 1 else t.pmc.lastPeriod } }
    else s)
/-- The line of the dump ring that holds line `l` of record `seq` (R444). -/
def State.dumpLine (s : State) (seq l : Nat) : LineAddr :=
  BitVec.ofNat 52 (s.fld R.PMC_DUMPBASE 0 52 + 9 * (seq % max 1 s.dumpRecords) + l)
/-- DUMP_LINE_WRITE (R445): the next line, line 0 only once the stalls of the others have closed. A line that R347 refuses
ends the record (R350). -/
def execDumpLineWrite (s : State) : Host.Outcome State Fault Refusal :=
  .next (finish s (match s.pmc.dump with
    | some d =>
      match d.left with
      | l :: _ =>
        if s.chk || (l == 0 && !d.open_.isEmpty) then s
        else
          let data : LineData := (List.range 32).map (fun w => DWord.gen ((SMap.find d.words (32 * l + w)).getD 0))
          let r : Req := s.inner Op.wrFull (s.flag R.SEC_WORLDCFG 5) (s.dumpLine d.seq l) 0 data
          if s.denies r.world r.line || (s.hIdx r.line).isNone then
            { s.viol (if (s.hIdx r.line).isNone then 1 else 0) 6 0 r.world r.line with pmc := { s.pmc with dump := none } }
          else s.dispatch r (.dump l) none
      | [] => s
    | none => s))

/-! ### Blotter -/

/-- BLOTTER_WRITE (R449, R452, R453). -/
def execBlotterWrite (s : State) : Host.Outcome State Fault Refusal := .next s.blotWrite
/-- A write of BLOT.SEL (R454). -/
def State.blotSel (s : State) (v : Word) : State :=
  let s : State := s.storeReg R.BLOT_SEL v
  let ws := (SMap.find s.svc.blot (s.fld R.BLOT_SEL 0 12)).getD [0, 0, 0, 0]
  { s.putCapture R.BLOT_REC ws with svc := { s.svc with recWorld := bit (ws.getD 1 0).toNat 52 } }
/-- A write of BLOT.CTL (R454): CLEAR forgets the records. -/
def State.blotCtl (s : State) (v : Word) : State :=
  let s : State := s.storeReg R.BLOT_CTL v
  if goBit v then
    let t : State := ((s.setFld R.BLOT_PTR 0 25 0).setFlag R.BLOT_FF 12 false).setFlag R.BLOT_STATUS 0 false
    { t with svc := { t.svc with blot := [], blotPost := 0 } }
  else s
/-- A write of BLOT.FF (R453): a 1 to V clears V and STOPPED. -/
def State.blotRearm (s : State) (v : Word) : State :=
  if bit v.toNat 12 then
    let t : State := (s.setFlag R.BLOT_FF 12 false).setFlag R.BLOT_STATUS 0 false
    { t with svc := { t.svc with blotPost := 0 } }
  else s

end Sys2Proof.Machine
end

