-- ==== Sys2Proof/Machine/ServicePort.lean ====
section
/-! DEFINITION. The service port (R405-R412): the input stage, the checks of an access (R408), which command of the table an
access is, and the commands themselves. An access is carried out by the command of its own kind when the input arbiter
chooses it (R409); a plain read has no command of its own and is answered then. -/

namespace Sys2Proof.Machine

/-- The SP clients are open (R401). -/
def State.spOpen (s : State) : Bool := s.phase == 8 || (s.phase == 7 && decide (6 ≤ s.boot.nextPort))
/-- The access finds no island, or falls before its time (R370, R378, R401). -/
def State.spAway (s : State) (x : SpAcc) : Bool :=
  let a := x.addr
  (match islandOf a with | some i => !s.powered i | none => false) ||
  (x.write && x.master != 0x3FF && !s.fromReady && decide (a < 0x40000) && !(decide (0x9000 ≤ a) && decide (a < 0xB000))) ||
  (x.master != 0x3FF && !s.spOpen && decide (0xB000 ≤ a) && decide (a < 0x10000))
/-- A non-secure access to what is secure (R348, R350, R413, R421, R435). -/
def State.spSecret (s : State) (x : SpAcc) : Bool :=
  let a := x.addr
  !x.world &&
  ((match regwBit a with | some b => s.secureBlock b | none => false) ||
   (match mbxChan a with
    | some (c, off) => off == 0 || (decide (off < 0x30) && s.mbxV c && s.flag (mbxReg R.MBX_BIND c) 20)
    | none => false) ||
   (x.write && (a == R.MBX_DB || a == R.MBX_DBSET || a == R.MBX_DBMASK) &&
     (getBits x.data 0 32 &&& (2 ^ 32 - 1 - s.bells false)) != 0) ||
   a == R.RAIL_FORCE || (x.write && a == R.RAIL_WORLD) ||
   (decide (R.RAIL_LOCK ≤ a) && decide (a < R.RAIL_LOCK + 512) && s.railSecure ((a - R.RAIL_LOCK) / 8)))
/-- SP_RSP_STATUS of an access (R408): 0 OK, 1 CHECK, 2 WORLD, 3 UNAVAIL, in the order of the checks. -/
def State.spStatus (s : State) (x : SpAcc) : Nat :=
  if x.write && x.wrong then 1 else if s.spAway x then 3 else if s.spSecret x then 2 else 0

/-- The block of a byte address is secure in SEC.REGW (R348). -/
def State.inSecureBlock (s : State) (a : Nat) : Bool := match regwBit a with | some b => s.secureBlock b | none => false
/-- The island that holds the block of a byte address (R348, R450), numbered as SRC of a record. -/
def blockIsland (a : Nat) : Nat :=
  match islandOf a with
  | some i => if i < 4 then 3 + i else if i < 6 then i - 3 else if i = 6 then 7 else 10
  | none => if a < 0x1000 || (0x9000 ≤ a && a < 0x20000) then 9 else 0
/-- What a refused access records (R15, R348, R350, R465). -/
def State.spRefused (s : State) (x : SpAcc) (status : Nat) : State :=
  if status = 1 then s.note 9 0xB 0 0 x.world (BitVec.ofNat 52 x.addr) (id := x.master.setWidth 18)
  else if status = 2 then (if s.inSecureBlock x.addr then s.viol 2 5 x.master.toNat x.world 0 (isl := blockIsland x.addr) else s.violObject x)
  else s
/-- A response (R405, R407, R464, R465). The ostler's own accesses have none (R361). -/
def State.spAnswer (s : State) (x : SpAcc) (status : Nat) (v : Word) : State :=
  if x.master = 0x3FF then s
  else
    let s : State := { s with svc := { s.svc with rsp := s.svc.rsp ++ [⟨x.master, x.tag, status, DWord.gen v⟩] } }
    let s : State := s.ev 0xF9 { i := some x.master.toNat }
    if status = 0 then s
    else
      let s : State := s.addFld R.GLB_SPERR (if status = 1 then 0 else if status = 2 then 16 else 32) 16 1
      (s.setReg R.GLB_SPLAST (BitVec.ofNat 64 (x.slot.toNat + x.master.toNat * 2 ^ 17 + status * 2 ^ 27 + b2n x.write * 2 ^ 29 +
        2 ^ 30))).ev 0xFA { i := some x.master.toNat }

/-! ### Which command an access is -/

/-- The commands that a service-port access can be. -/
inductive SpRow where
  | waypwr | insp | alcInsp | jhead | ringEnable | alcInv | alcEnable | alcDisable | bankpwr | preload | preloadZero | preloadAndLock | flush | epochSwapGo | aliasSet | aliasRemove | route | mpCtlFail | resync | streamRst
  | regionEnable | fenceSuspect | fenceFlushed | fenceNoflush | fenceRelease | chkcmd | spareSet | spareRemove | homeid | powerDown | powerUp | rstFunc | rstDomain | ostready | bootRetry | mbxBind | mbxPost | mbxTake | railAcquire | railRelease
  | railForce | nqPost | nqRead | nqMark | nqRewind | nqRelease | dumpNow | dumpEnable | dumphead | fsel | blotSel | blotClear | blotRearm | write | readClear | read
  deriving DecidableEq, Repr

/-- An address lies in an array of `n` registers at distance `d` from `r`. -/
def within (a r n d : Nat) : Bool := decide (r ≤ a) && decide (a < r + n * d) && (a - r) % d == 0

/-- The command of a write to the directory, yard, ledger or ALC block. -/
def State.rowCore (s : State) (x : SpAcc) : SpRow :=
  let a := x.addr
  let v := x.data
  if a = R.DIR_WAYPWR then .waypwr
  else if a = R.YARD_INSP_SEL then .insp
  else if a = R.ALC_INSP_SEL then .alcInsp
  else if within a R.LED_JHEAD 8 0x20 then .jhead
  else if within a R.LED_JBASE 8 0x20 && goBit v && !s.ringEn ((a - R.LED_JBASE) / 0x20) && !s.flag R.LED_CTL 63 then .ringEnable
  else if a = R.ALC_CTL then (if bit v.toNat 3 then .alcInv else if bit v.toNat 0 then .alcEnable else .alcDisable)
  else if a = R.ALC_BANKPWR then .bankpwr
  else if a = R.ALC_PRELOAD && goBit v then
    (let op := getBits v 52 2
     if op = 0 then .preload else if op = 1 then .preloadZero else if op = 2 then .preloadAndLock else .flush)
  else .write
/-- The command of a write to the routes, the memory ports, the channel port or SEC. -/
def State.rowPorts (x : SpAcc) : SpRow :=
  let a := x.addr
  let v := x.data
  if a = R.RTE_EPOCHCTL && bit v.toNat 1 then .epochSwapGo
  else if a = R.RTE_ALIASCMD && goBit v then (if bit v.toNat 36 then .aliasSet else .aliasRemove)
  else if within a R.RTE_ROUTE 8192 8 then .route
  else if within a R.MP_CTL 2 0x80 && bit v.toNat 0 then .mpCtlFail
  else if within a R.MP_CTL 2 0x80 && bit v.toNat 1 then .resync
  else if within a R.CP_STREAM 64 8 && goBit v then .streamRst
  else if within a R.SEC_REGIONA 64 16 && bit v.toNat 46 then .regionEnable
  else .write
/-- The command of a write to GLB, ISL or BOOT. -/
def State.rowSystem (s : State) (x : SpAcc) : SpRow :=
  let a := x.addr
  let v := x.data
  if a = R.GLB_FENCECMD && goBit v then
    (let op := getBits v 18 2
     if op = 0 then .fenceSuspect else if op = 1 then .fenceFlushed else if op = 2 then .fenceNoflush else .fenceRelease)
  else if a = R.GLB_CHKCMD && goBit v then .chkcmd
  else if a = R.GLB_SPARECMD && goBit v then (if bit v.toNat 36 then .spareSet else .spareRemove)
  else if a = R.GLB_HOMEID then .homeid
  else if a = R.ISL_PWRREQ then (if s.asksDown v then .powerDown else .powerUp)
  else if a = R.ISL_RSTCMD && goBit v then (if bit v.toNat 0 then .rstDomain else .rstFunc)
  else if a = R.BOOT_CTL && bit v.toNat 1 then .bootRetry
  else if a = R.BOOT_CTL && bit v.toNat 0 then .ostready
  else .write
/-- The command of a write to the service island's blocks. -/
def State.rowService (s : State) (x : SpAcc) : SpRow :=
  let a := x.addr
  let v := x.data
  if within a R.MBX_BIND 32 0x40 && goBit v then .mbxBind
  else if within a R.MBX_DATA3 32 0x40 then .mbxPost
  else if within a R.RAIL_LOCK 64 8 && goBit v then .railRelease
  else if a = R.RAIL_FORCE && goBit v then .railForce
  else if within a R.NQ_POST 4 8 && x.master = 0x3FF &&
      (a - R.NQ_POST) / 8 == (if a = R.NQ_POST then getBits v 0 2 else s.fld R.NQ_POST 0 2) then .nqPost
  else if a = R.NQ_CMD && goBit v then
    (let op := getBits v 0 2
     if op = 1 then .nqMark else if op = 2 then .nqRewind else if op = 3 then .nqRelease else .write)
  else if a = R.PMC_CTL && bit v.toNat 0 && !s.flag R.PMC_CTL 0 then .dumpEnable
  else if a = R.PMC_CTL && bit v.toNat 21 then .dumpNow
  else if a = R.PMC_DUMPHEAD then .dumphead
  else if within a R.PMC_FSEL 16 8 then .fsel
  else if a = R.BLOT_SEL then .blotSel
  else if a = R.BLOT_CTL && goBit v then .blotClear
  else if a = R.BLOT_FF && bit v.toNat 12 then .blotRearm
  else .write
/-- The command that an access is: a write with a bad check byte is a plain one (R15). -/
def State.spRow (s : State) (x : SpAcc) : SpRow :=
  let a := x.addr
  if x.write then
    if x.wrong then .write
    else if a < 0x1000 || (0x9000 ≤ a && a < 0xB000) then s.rowSystem x
    else if a < 0x5000 then s.rowCore x
    else if a < 0x9000 || (0x20000 ≤ a && a < 0x40000) then State.rowPorts x
    else s.rowService x
  else if within a R.MBX_DATA3 32 0x40 then .mbxTake
  else if within a R.RAIL_LOCK 64 8 then .railAcquire
  else if a = R.NQ_READ then .nqRead
  else if hasRc a then .readClear
  else .read

/-! ### What the commands do -/

/-- A write without a row of its own (R18), with what its register does beside: fixed regions (R345), ring and port settings,
swap targets (R259), worlds of bells and filters, and registers that only some masters write (R414, R429, R431). -/
def State.plainWrite (s : State) (x : SpAcc) : State :=
  let a := x.addr
  let v := x.data
  if within a R.LED_JBASE 8 0x20 then s.ringWrite ((a - R.LED_JBASE) / 0x20) v
  else if within a R.NP_CREDMAX 4 0x400 then s.credMaxWrite ((a - R.NP_CREDMAX) / 0x400) v
  else if within a R.MP_CFG 2 0x80 then (s.storeReg a v).mpBack ((a - R.MP_CFG) / 0x80)
  else if within a R.MP_CTL 2 0x80 then s
  else if within a R.SEC_REGIONA 64 16 then s.regionWrite ((a - R.SEC_REGIONA) / 16) false v x.master
  else if within a R.SEC_REGIONB 64 16 then s.regionWrite ((a - R.SEC_REGIONB) / 16) true v x.master
  else if a = R.ISL_CTL then s.storeReg a (setBits v 8 2 0)
  else if (within a R.RTE_SWAPTGT 64 16 || within a R.RTE_SWAPRT 64 16) && s.swapState != 0 then s
  else if a = R.BOOT_CTL then s.bootCtl x.master v
  else if a = R.MBX_DB || a = R.MBX_DBSET || a = R.MBX_DBMASK then s.bellWrite x a
  else match mbxChan a with
    | some (c, off) =>
      if off = 0 then s.mbxBindWrite c v x.master else if off < 0x30 then s.mbxWrite x c off else s
    | none =>
      if within a R.NQ_POST 4 8 then (if x.master = 0x3FF then s.storeReg a v else s)
      else if a = R.NQ_CMD then s.nqCmd x.master v
      else if a = R.PMC_CTL then s.pmcCtl v
      else if a = R.BLOT_CTL then s.blotCtl v
      else if (a = R.PMC_DUMPBASE || a = R.PMC_DUMPSIZE) && s.flag R.PMC_CTL 0 then s
      else if 0x10100 ≤ a && a < 0x10200 then s.filterWrite x a
      else s.storeReg a v
/-- A read that clears RC fields (R18): the value first. -/
def State.readThenClear (s : State) (x : SpAcc) : State × Word :=
  let p := s.plainRead x
  (p.1.readClear x.addr, p.2)

/-- What an access does that R408 answers OK, and the value that its response carries (R405). -/
def State.spDo (s : State) (x : SpAcc) : SpRow → State × Word
  | .waypwr => (s.waypwr x.data, 0)
  | .insp => (s.insp x.data, 0)
  | .alcInsp => (s.alcInsp x.data, 0)
  | .jhead => (s.jhead ((x.addr - R.LED_JBASE) / 0x20) x.data, 0)
  | .ringEnable => (s.ringEnable ((x.addr - R.LED_JBASE) / 0x20) x.data x.master, 0)
  | .alcInv => (s.alcCtl x.data, 0)
  | .alcEnable => (s.alcCtl x.data, 0)
  | .alcDisable => (s.alcCtl x.data, 0)
  | .bankpwr => (s.bankpwr x.data, 0)
  | .preload => (s.preloadGo x, 0)
  | .preloadZero => (s.preloadGo x, 0)
  | .preloadAndLock => (s.preloadGo x, 0)
  | .flush => (s.preloadGo x, 0)
  | .epochSwapGo => (s.swapGoWrite x.data, 0)
  | .aliasSet => (s.aliasCmd x.data, 0)
  | .aliasRemove => (s.aliasCmd x.data, 0)
  | .route => (s.routeWrite x.addr x.data, 0)
  | .mpCtlFail => (s.mpCtl ((x.addr - R.MP_CFG) / 0x80) x.data, 0)
  | .resync => (s.mpCtl ((x.addr - R.MP_CFG) / 0x80) x.data, 0)
  | .streamRst => (s.streamRst ((x.addr - R.CP_STREAM) / 8) x.data, 0)
  | .regionEnable => (s.regionWrite ((x.addr - R.SEC_REGIONA) / 16) false x.data x.master, 0)
  | .fenceSuspect => (s.fenceCmd x.data, 0)
  | .fenceFlushed => (s.fenceCmd x.data, 0)
  | .fenceNoflush => (s.fenceCmd x.data, 0)
  | .fenceRelease => (s.fenceCmd x.data, 0)
  | .chkcmd => (s.chkCmd x.data, 0)
  | .spareSet => (s.spareCmd x.data, 0)
  | .spareRemove => (s.spareCmd x.data, 0)
  | .homeid => (s.homeIdWrite x.data, 0)
  | .powerDown => (s.pwrReq x.data, 0)
  | .powerUp => (s.pwrReq x.data, 0)
  | .rstFunc => (s.rstCmd x.data, 0)
  | .rstDomain => (s.rstCmd x.data, 0)
  | .ostready => (s.bootCtl x.master x.data, 0)
  | .bootRetry => (s.bootCtl x.master x.data, 0)
  | .mbxBind => (s.mbxBindWrite ((x.addr - R.MBX_BIND) / 0x40) x.data x.master, 0)
  | .mbxPost => (s.mbxWrite x ((x.addr - R.MBX_BIND) / 0x40) 0x28, 0)
  | .mbxTake => s.mbxTake x ((x.addr - R.MBX_BIND) / 0x40)
  | .railAcquire => s.railRead x.master ((x.addr - R.RAIL_LOCK) / 8)
  | .railRelease => (s.railRel x.master ((x.addr - R.RAIL_LOCK) / 8), 0)
  | .railForce => ((s.storeReg R.RAIL_FORCE x.data).railForce (getBits x.data 0 6) 1, 0)
  | .nqPost => (s.nqPost ((x.addr - R.NQ_POST) / 8) x.data, 0)
  | .nqRead => s.nqTake x.master
  | .nqMark => (s.nqCmd x.master x.data, 0)
  | .nqRewind => (s.nqCmd x.master x.data, 0)
  | .nqRelease => (s.nqCmd x.master x.data, 0)
  | .dumpNow => (s.pmcCtl x.data, 0)
  | .dumpEnable => (s.pmcCtl x.data, 0)
  | .dumphead => (s.dumpHeadWrite x.data, 0)
  | .fsel => (s.fsel x ((x.addr - R.PMC_FSEL) / 8), 0)
  | .blotSel => (s.blotSel x.data, 0)
  | .blotClear => (s.blotCtl x.data, 0)
  | .blotRearm => (s.blotRearm x.data, 0)
  | .write => (s.plainWrite x, 0)
  | .readClear => s.readThenClear x
  | .read => s.plainRead x

/-- An access is carried out (R407-R409): checked, acted on if its status is OK, answered; the arbiter's pointer moves past
its master. -/
def State.spServe (s : State) (x : SpAcc) (f : State → SpAcc → State × Word) : State :=
  let st := s.spStatus x
  let s : State := { s with svc := { s.svc with ptr := x.master + 1 } }
  if st = 0 then (let p := f s x; p.1.spAnswer x 0 p.2) else (s.spRefused x st).spAnswer x st 0

/-- The ostler's previous action is complete (R308, R393). -/
def State.ostlerDone (s : State) : Bool :=
  s.alcState != 3 && s.wayState != 1 && s.wayState != 3 && (List.range 8).all (fun b => s.bank b != 1 && s.bank b != 3) &&
  !s.preBusy && s.swapState == 0 && !s.flag R.GLB_BCAST 0
/-- A write that the image makes (R393): by the ostler, in the secure world, with a correct check byte. -/
def imageWrite (e : Nat × Word) : SpAcc := ⟨true, BitVec.ofNat 17 (e.1 / 8), 0x3FF, true, 0, DWord.gen e.2⟩
/-- The ostler's own accesses read its microcode (R315). -/
def State.ostRead (s : State) (m : MasterId) : State := if m = 0x3FF then s.readAll 7 else s

/-- The candidate of a master, with the state in which it has left its queue: the oldest of the input stage (R409), for
the ostler before that the image's queued writes, each once the action before it is complete (R393). -/
def State.spHeld (s : State) (m : MasterId) : Option (SpAcc × State) :=
  if m = 0x3FF && s.ostHalted then none
  else match (if m = 0x3FF then s.boot.queued else []) with
  | e :: r => if s.boot.ostRun && s.ostlerDone then some (imageWrite e, { s with boot := { s.boot with queued := r } }) else none
  | [] => match s.svc.stage.find? (fun x => x.master == m) with
    | some x => some (x, { s with svc := { s.svc with stage := s.svc.stage.erase x } })
    | none => none

/-- The master whose candidate the input arbiter chooses (R360, R409): the first in ascending ID from the pointer. No crossing
queue is ever full (log 71). -/
def State.spWinner (s : State) : Option Nat :=
  leastBy (fun k => (BitVec.ofNat 10 k - s.svc.ptr).toNat)
    ((0x3FF :: s.svc.stage.map (fun x => x.master.toNat)).filter (fun k => (s.spHeld (BitVec.ofNat 10 k)).isSome))
/-- The access that a command of a master carries out: its candidate, when the arbiter chooses it (R409). -/
def State.spNext (s : State) (m : MasterId) : Option (SpAcc × State) :=
  if s.spWinner = some m.toNat then s.spHeld m else none

/-- Plain reads are answered as the arbiter chooses them (R409). -/
def State.spReads (s : State) : Nat → State
  | 0 => s
  | f + 1 => match s.spWinner with
    | some k =>
      (match s.spHeld (BitVec.ofNat 10 k) with
      | some (x, t) => if s.spRow x = .read then (t.spServe x State.plainRead).spReads f else s
      | none => s)
    | none => s
/-- Every plain read that the arbiter chooses is answered. -/
def State.spIdle (s : State) : State := s.spReads (s.svc.stage.length + 1)

/-- An image's write of a BOOT register other than BOOT.MUSTER has no effect (R393). -/
def State.imageVoid (s : State) (x : SpAcc) : Bool :=
  x.master == 0x3FF && !s.boot.queued.isEmpty && decide (0xA000 ≤ x.addr) && decide (x.addr < 0xB000) && x.addr != R.BOOT_MUSTER

/-- The access that the arbiter chooses is carried out by the command of its own kind and master; an access of another kind
waits for its own command. Plain reads behind it are then answered. -/
def State.spTake (s : State) (m : MasterId) (row : SpRow) (f : State → SpAcc → State × Word) : State :=
  let s : State := s.ostRead m
  match s.spNext m with
  | some (x, t) =>
    if s.spRow x = row then (if s.imageVoid x then t else t.spServe x f).spIdle else s.spIdle
  | none => s.spIdle

/-! ### The commands -/

/-- SP_REQUEST_ACCEPT (R406): while the input stage holds fewer than 8 accesses of SP masters. The ostler's accesses are
secure (R361) and do not pass the port. -/
def execSpRequestAccept (a : SpAcc) (s : State) : Host.Outcome State Fault Refusal :=
  .next (finish s (
    let x : SpAcc := if a.master = 0x3FF then { a with world := true } else a
    let s : State := s.ostRead a.master
    if a.master = 0x3FF && s.ostHalted then s
    else if a.master = 0x3FF || s.svc.stage.countP (fun y => y.master != 0x3FF) < Config.spStage then
      ({ s with svc := { s.svc with stage := s.svc.stage ++ [x] } }).spIdle
    else s))

/-- SP_MASTER_RESET (R412): locks (R425) and mailbox channels (R420) of the master; an ID of 0x3FF has no effect. -/
def State.masterReset (s : State) (m : MasterId) : State :=
  let s : State := { s with svc := { s.svc with stage := s.svc.stage.filter (fun x => x.master != m) } }
  let s : State := (List.range 64).foldl (fun t k => if t.railHeld k && t.railHolder k = m.toNat then t.railForce k 0 else t) s
  (List.range 32).foldl (fun t c => t.mbxReset m.toNat c) s
/-- SP_MASTER_RESET (R412). -/
def execSpMasterReset (m : MasterId) (s : State) : Host.Outcome State Fault Refusal :=
  .next (if m = 0x3FF then s else (s.masterReset m).spIdle)

/-- RAIL_ABORT_PULSE_END (R425). -/
def execRailAbortPulseEnd (k : Fin 64) (s : State) : Host.Outcome State Fault Refusal :=
  .next { s with svc := { s.svc with abort := s.svc.abort &&& ~~~(BitVec.ofNat 64 (2 ^ k.val)) } }

/-- WAYPWR_REQ (R121, R124). -/
def execWaypwrReq (m : MasterId) (s : State) : Host.Outcome State Fault Refusal :=
  .next (finish s (s.spTake m .waypwr (fun t x => t.spDo x .waypwr)))
/-- INSP_SEL (R161). -/
def execInspSel (m : MasterId) (s : State) : Host.Outcome State Fault Refusal :=
  .next (finish s (s.spTake m .insp (fun t x => t.spDo x .insp)))
/-- ALC_INSP_SEL (R228). -/
def execAlcInspSel (m : MasterId) (s : State) : Host.Outcome State Fault Refusal :=
  .next (finish s (s.spTake m .alcInsp (fun t x => t.spDo x .alcInsp)))
/-- JHEAD_WRITE (R199). -/
def execJheadWrite (m : MasterId) (s : State) : Host.Outcome State Fault Refusal :=
  .next (finish s (s.spTake m .jhead (fun t x => t.spDo x .jhead)))
/-- RING_ENABLE (R200). -/
def execRingEnable (m : MasterId) (s : State) : Host.Outcome State Fault Refusal :=
  .next (finish s (s.spTake m .ringEnable (fun t x => t.spDo x .ringEnable)))
/-- ALC_INV (R223, R224). -/
def execAlcInv (m : MasterId) (s : State) : Host.Outcome State Fault Refusal :=
  .next (finish s (s.spTake m .alcInv (fun t x => t.spDo x .alcInv)))
/-- ALC_ENABLE (R224). -/
def execAlcEnable (m : MasterId) (s : State) : Host.Outcome State Fault Refusal :=
  .next (finish s (s.spTake m .alcEnable (fun t x => t.spDo x .alcEnable)))
/-- ALC_DISABLE (R225). -/
def execAlcDisable (m : MasterId) (s : State) : Host.Outcome State Fault Refusal :=
  .next (finish s (s.spTake m .alcDisable (fun t x => t.spDo x .alcDisable)))
/-- BANKPWR_REQ (R226, R227). -/
def execBankpwrReq (m : MasterId) (s : State) : Host.Outcome State Fault Refusal :=
  .next (finish s (s.spTake m .bankpwr (fun t x => t.spDo x .bankpwr)))
/-- PRELOAD (R219). -/
def execPreload (m : MasterId) (s : State) : Host.Outcome State Fault Refusal :=
  .next (finish s (s.spTake m .preload (fun t x => t.spDo x .preload)))
/-- PRELOAD_ZERO (R215, R219). -/
def execPreloadZero (m : MasterId) (s : State) : Host.Outcome State Fault Refusal :=
  .next (finish s (s.spTake m .preloadZero (fun t x => t.spDo x .preloadZero)))
/-- PRELOAD_AND_LOCK (R219, R220). -/
def execPreloadAndLock (m : MasterId) (s : State) : Host.Outcome State Fault Refusal :=
  .next (finish s (s.spTake m .preloadAndLock (fun t x => t.spDo x .preloadAndLock)))
/-- FLUSH (R219, R220). -/
def execFlush (m : MasterId) (s : State) : Host.Outcome State Fault Refusal :=
  .next (finish s (s.spTake m .flush (fun t x => t.spDo x .flush)))
/-- EPOCH_SWAP_GO (R244, R245). -/
def execEpochSwapGo (m : MasterId) (s : State) : Host.Outcome State Fault Refusal :=
  .next (finish s (s.spTake m .epochSwapGo (fun t x => t.spDo x .epochSwapGo)))
/-- ALIAS_SET (R260). -/
def execAliasSet (m : MasterId) (s : State) : Host.Outcome State Fault Refusal :=
  .next (finish s (s.spTake m .aliasSet (fun t x => t.spDo x .aliasSet)))
/-- ALIAS_REMOVE (R260). -/
def execAliasRemove (m : MasterId) (s : State) : Host.Outcome State Fault Refusal :=
  .next (finish s (s.spTake m .aliasRemove (fun t x => t.spDo x .aliasRemove)))
/-- ROUTE_ENTRY_WRITE (R247). -/
def execRouteEntryWrite (m : MasterId) (s : State) : Host.Outcome State Fault Refusal :=
  .next (finish s (s.spTake m .route (fun t x => t.spDo x .route)))
/-- MP_CTL_FAIL (R270). -/
def execMpCtlFail (m : MasterId) (s : State) : Host.Outcome State Fault Refusal :=
  .next (finish s (s.spTake m .mpCtlFail (fun t x => t.spDo x .mpCtlFail)))
/-- RESYNC (R273). -/
def execResync (m : MasterId) (s : State) : Host.Outcome State Fault Refusal :=
  .next (finish s (s.spTake m .resync (fun t x => t.spDo x .resync)))
/-- STREAM_RST (R293). -/
def execStreamRst (m : MasterId) (s : State) : Host.Outcome State Fault Refusal :=
  .next (finish s (s.spTake m .streamRst (fun t x => t.spDo x .streamRst)))
/-- REGION_ENABLE (R263, R344, R345). -/
def execRegionEnable (m : MasterId) (s : State) : Host.Outcome State Fault Refusal :=
  .next (finish s (s.spTake m .regionEnable (fun t x => t.spDo x .regionEnable)))
/-- FENCE_SUSPECT (R320, R327). -/
def execFenceSuspect (m : MasterId) (s : State) : Host.Outcome State Fault Refusal :=
  .next (finish s (s.spTake m .fenceSuspect (fun t x => t.spDo x .fenceSuspect)))
/-- FENCE_FLUSHED (R327). -/
def execFenceFlushed (m : MasterId) (s : State) : Host.Outcome State Fault Refusal :=
  .next (finish s (s.spTake m .fenceFlushed (fun t x => t.spDo x .fenceFlushed)))
/-- FENCE_NOFLUSH (R327, R328). -/
def execFenceNoflush (m : MasterId) (s : State) : Host.Outcome State Fault Refusal :=
  .next (finish s (s.spTake m .fenceNoflush (fun t x => t.spDo x .fenceNoflush)))
/-- FENCE_RELEASE (R327). -/
def execFenceRelease (m : MasterId) (s : State) : Host.Outcome State Fault Refusal :=
  .next (finish s (s.spTake m .fenceRelease (fun t x => t.spDo x .fenceRelease)))
/-- CHKCMD_GO (R336). -/
def execChkcmdGo (m : MasterId) (s : State) : Host.Outcome State Fault Refusal :=
  .next (finish s (s.spTake m .chkcmd (fun t x => t.spDo x .chkcmd)))
/-- SPARE_SET (R329). -/
def execSpareSet (m : MasterId) (s : State) : Host.Outcome State Fault Refusal :=
  .next (finish s (s.spTake m .spareSet (fun t x => t.spDo x .spareSet)))
/-- SPARE_REMOVE (R329). -/
def execSpareRemove (m : MasterId) (s : State) : Host.Outcome State Fault Refusal :=
  .next (finish s (s.spTake m .spareRemove (fun t x => t.spDo x .spareRemove)))
/-- HOMEID_WRITE (R463). -/
def execHomeidWrite (m : MasterId) (s : State) : Host.Outcome State Fault Refusal :=
  .next (finish s (s.spTake m .homeid (fun t x => t.spDo x .homeid)))
/-- POWER_DOWN_REQ (R367, R368). -/
def execPowerDownReq (m : MasterId) (s : State) : Host.Outcome State Fault Refusal :=
  .next (finish s (s.spTake m .powerDown (fun t x => t.spDo x .powerDown)))
/-- POWER_UP_REQ (R368, R369). -/
def execPowerUpReq (m : MasterId) (s : State) : Host.Outcome State Fault Refusal :=
  .next (finish s (s.spTake m .powerUp (fun t x => t.spDo x .powerUp)))
/-- RSTCMD_FUNC (R365). -/
def execRstcmdFunc (m : MasterId) (s : State) : Host.Outcome State Fault Refusal :=
  .next (finish s (s.spTake m .rstFunc (fun t x => t.spDo x .rstFunc)))
/-- RSTCMD_DOMAIN (R363). -/
def execRstcmdDomain (m : MasterId) (s : State) : Host.Outcome State Fault Refusal :=
  .next (finish s (s.spTake m .rstDomain (fun t x => t.spDo x .rstDomain)))
/-- OSTREADY (R394). -/
def execOstready (m : MasterId) (s : State) : Host.Outcome State Fault Refusal :=
  .next (finish s (s.spTake m .ostready (fun t x => t.spDo x .ostready)))
/-- BOOT_RETRY (R392). -/
def execBootRetry (m : MasterId) (s : State) : Host.Outcome State Fault Refusal :=
  .next (finish s (s.spTake m .bootRetry (fun t x => t.spDo x .bootRetry)))
/-- MBX_BIND (R413). -/
def execMbxBind (m : MasterId) (s : State) : Host.Outcome State Fault Refusal :=
  .next (finish s (s.spTake m .mbxBind (fun t x => t.spDo x .mbxBind)))
/-- MBX_POST (R415). -/
def execMbxPost (m : MasterId) (s : State) : Host.Outcome State Fault Refusal :=
  .next (finish s (s.spTake m .mbxPost (fun t x => t.spDo x .mbxPost)))
/-- MBX_TAKE (R416). -/
def execMbxTake (m : MasterId) (s : State) : Host.Outcome State Fault Refusal :=
  .next (finish s (s.spTake m .mbxTake (fun t x => t.spDo x .mbxTake)))
/-- RAIL_ACQUIRE (R422). -/
def execRailAcquire (m : MasterId) (s : State) : Host.Outcome State Fault Refusal :=
  .next (finish s (s.spTake m .railAcquire (fun t x => t.spDo x .railAcquire)))
/-- RAIL_RELEASE (R423). -/
def execRailRelease (m : MasterId) (s : State) : Host.Outcome State Fault Refusal :=
  .next (finish s (s.spTake m .railRelease (fun t x => t.spDo x .railRelease)))
/-- RAIL_FORCE (R425). -/
def execRailForce (m : MasterId) (s : State) : Host.Outcome State Fault Refusal :=
  .next (finish s (s.spTake m .railForce (fun t x => t.spDo x .railForce)))
/-- NQ_POST (R429). -/
def execNqPost (m : MasterId) (s : State) : Host.Outcome State Fault Refusal :=
  .next (finish s (s.spTake m .nqPost (fun t x => t.spDo x .nqPost)))
/-- NQ_READ (R430). -/
def execNqRead (m : MasterId) (s : State) : Host.Outcome State Fault Refusal :=
  .next (finish s (s.spTake m .nqRead (fun t x => t.spDo x .nqRead)))
/-- NQ_MARK (R431). -/
def execNqMark (m : MasterId) (s : State) : Host.Outcome State Fault Refusal :=
  .next (finish s (s.spTake m .nqMark (fun t x => t.spDo x .nqMark)))
/-- NQ_REWIND (R431). -/
def execNqRewind (m : MasterId) (s : State) : Host.Outcome State Fault Refusal :=
  .next (finish s (s.spTake m .nqRewind (fun t x => t.spDo x .nqRewind)))
/-- NQ_RELEASE (R431). -/
def execNqRelease (m : MasterId) (s : State) : Host.Outcome State Fault Refusal :=
  .next (finish s (s.spTake m .nqRelease (fun t x => t.spDo x .nqRelease)))
/-- DUMP_NOW (R443). -/
def execDumpNow (m : MasterId) (s : State) : Host.Outcome State Fault Refusal :=
  .next (finish s (s.spTake m .dumpNow (fun t x => t.spDo x .dumpNow)))
/-- DUMP_ENABLE (R444). -/
def execDumpEnable (m : MasterId) (s : State) : Host.Outcome State Fault Refusal :=
  .next (finish s (s.spTake m .dumpEnable (fun t x => t.spDo x .dumpEnable)))
/-- DUMPHEAD_WRITE (R199, R444). -/
def execDumpheadWrite (m : MasterId) (s : State) : Host.Outcome State Fault Refusal :=
  .next (finish s (s.spTake m .dumphead (fun t x => t.spDo x .dumphead)))
/-- FSEL_WRITE (R441, R442). -/
def execFselWrite (m : MasterId) (s : State) : Host.Outcome State Fault Refusal :=
  .next (finish s (s.spTake m .fsel (fun t x => t.spDo x .fsel)))
/-- BLOT_SEL (R454). -/
def execBlotSel (m : MasterId) (s : State) : Host.Outcome State Fault Refusal :=
  .next (finish s (s.spTake m .blotSel (fun t x => t.spDo x .blotSel)))
/-- BLOT_CLEAR (R454). -/
def execBlotClear (m : MasterId) (s : State) : Host.Outcome State Fault Refusal :=
  .next (finish s (s.spTake m .blotClear (fun t x => t.spDo x .blotClear)))
/-- BLOT_FF_REARM (R453). -/
def execBlotFfRearm (m : MasterId) (s : State) : Host.Outcome State Fault Refusal :=
  .next (finish s (s.spTake m .blotRearm (fun t x => t.spDo x .blotRearm)))
/-- REGISTER_WRITE (R18). -/
def execRegisterWrite (m : MasterId) (s : State) : Host.Outcome State Fault Refusal :=
  .next (finish s (s.spTake m .write (fun t x => t.spDo x .write)))
/-- REGISTER_READ_CLEAR (R18, R20). -/
def execRegisterReadClear (m : MasterId) (s : State) : Host.Outcome State Fault Refusal :=
  .next (finish s (s.spTake m .readClear (fun t x => t.spDo x .readClear)))

end Sys2Proof.Machine
end

