-- ==== Sys2Proof/Machine/Digest.lean ====
section
/-! DEFINITION. The checks of the Aprek image: CRC-32C (R386) and the SHA-256 digest (R390, FIPS 180-4). -/

namespace Sys2Proof.Digest

/-! ### CRC-32C -/

/-- One bit of the reflected division by 0x1EDC6F41 (R386). -/
def crcBit (c : BitVec 32) : BitVec 32 := if c.getLsbD 0 then (c >>> 1) ^^^ 0x82F63B78 else c >>> 1
/-- One byte (R386). -/
def crcByte (c : BitVec 32) (b : Byte) : BitVec 32 :=
  crcBit (crcBit (crcBit (crcBit (crcBit (crcBit (crcBit (crcBit (c ^^^ b.setWidth 32))))))))
/-- CRC-32C of a list of bytes (R386). -/
def crc32c (bs : List Byte) : BitVec 32 := bs.foldl crcByte 0xFFFFFFFF ^^^ 0xFFFFFFFF

/-! ### SHA-256 -/

/-- The round constants of FIPS 180-4, eight at a time. -/
def roundConsts : List (BitVec 32) :=
  [0x428a2f98, 0x71374491, 0xb5c0fbcf, 0xe9b5dba5, 0x3956c25b, 0x59f111f1, 0x923f82a4, 0xab1c5ed5] ++
  [0xd807aa98, 0x12835b01, 0x243185be, 0x550c7dc3, 0x72be5d74, 0x80deb1fe, 0x9bdc06a7, 0xc19bf174] ++
  [0xe49b69c1, 0xefbe4786, 0x0fc19dc6, 0x240ca1cc, 0x2de92c6f, 0x4a7484aa, 0x5cb0a9dc, 0x76f988da] ++
  [0x983e5152, 0xa831c66d, 0xb00327c8, 0xbf597fc7, 0xc6e00bf3, 0xd5a79147, 0x06ca6351, 0x14292967] ++
  [0x27b70a85, 0x2e1b2138, 0x4d2c6dfc, 0x53380d13, 0x650a7354, 0x766a0abb, 0x81c2c92e, 0x92722c85] ++
  [0xa2bfe8a1, 0xa81a664b, 0xc24b8b70, 0xc76c51a3, 0xd192e819, 0xd6990624, 0xf40e3585, 0x106aa070] ++
  [0x19a4c116, 0x1e376c08, 0x2748774c, 0x34b0bcb5, 0x391c0cb3, 0x4ed8aa4a, 0x5b9cca4f, 0x682e6ff3] ++
  [0x748f82ee, 0x78a5636f, 0x84c87814, 0x8cc70208, 0x90befffa, 0xa4506ceb, 0xbef9a3f7, 0xc67178f2]

/-- Rotation to the right. -/
def rotr (x : BitVec 32) (n : Nat) : BitVec 32 := (x >>> n) ||| (x <<< (32 - n))
/-- The chaining value. -/
structure Hash where
  a : BitVec 32
  b : BitVec 32
  c : BitVec 32
  d : BitVec 32
  e : BitVec 32
  f : BitVec 32
  g : BitVec 32
  h : BitVec 32
  deriving DecidableEq, Repr

/-- The initial chaining value. -/
def Hash.init : Hash :=
  ⟨0x6a09e667, 0xbb67ae85, 0x3c6ef372, 0xa54ff53a, 0x510e527f, 0x9b05688c, 0x1f83d9ab, 0x5be0cd19⟩
/-- One round with the sum of its constant and schedule word. -/
def Hash.round (v : Hash) (kw : BitVec 32) : Hash :=
  let s1 := rotr v.e 6 ^^^ rotr v.e 11 ^^^ rotr v.e 25
  let ch := (v.e &&& v.f) ^^^ (~~~v.e &&& v.g)
  let t1 := v.h + s1 + ch + kw
  let s0 := rotr v.a 2 ^^^ rotr v.a 13 ^^^ rotr v.a 22
  let maj := (v.a &&& v.b) ^^^ (v.a &&& v.c) ^^^ (v.b &&& v.c)
  ⟨t1 + (s0 + maj), v.a, v.b, v.c, v.d + t1, v.e, v.f, v.g⟩
/-- The next schedule word from the sixteen before it, oldest first. -/
def schedNext (w : List (BitVec 32)) : BitVec 32 :=
  let x := w.getD 1 0
  let y := w.getD 14 0
  (rotr y 17 ^^^ rotr y 19 ^^^ (y >>> 10)) + w.getD 9 0 + (rotr x 7 ^^^ rotr x 18 ^^^ (x >>> 3)) + w.getD 0 0
/-- The rounds of a block: the constants to come, and the next sixteen schedule words. -/
def rounds : List (BitVec 32) → List (BitVec 32) → Hash → Hash
  | [], _, v => v
  | k :: ks, w, v => rounds ks (w.tail ++ [schedNext w]) (v.round (k + w.getD 0 0))
/-- A block of sixteen words. -/
def Hash.block (v : Hash) (w : List (BitVec 32)) : Hash :=
  let r := rounds roundConsts w v
  ⟨v.a + r.a, v.b + r.b, v.c + r.c, v.d + r.d, v.e + r.e, v.f + r.f, v.g + r.g, v.h + r.h⟩
/-- Four bytes as a word, the first the most significant. -/
def beWord (b0 b1 b2 b3 : Byte) : BitVec 32 := (b0 ++ b1 : BitVec 16) ++ (b2 ++ b3 : BitVec 16)
/-- Bytes as words. -/
def beWords : List Byte → List (BitVec 32)
  | b0 :: b1 :: b2 :: b3 :: r => beWord b0 b1 b2 b3 :: beWords r
  | _ => []
/-- A message of `n` bytes padded to whole blocks. -/
def padded (bs : List Byte) (n : Nat) : List Byte :=
  bs ++ [0x80] ++ List.replicate ((119 - n % 64) % 64) 0 ++ (List.range 8).map (fun k => BitVec.ofNat 8 (8 * n / 2 ^ (8 * (7 - k))))
/-- The blocks of a padded message: `fuel` bounds their number. -/
def blocks (w : List (BitVec 32)) (v : Hash) : Nat → Hash
  | 0 => v
  | f + 1 => blocks (w.drop 16) (v.block (w.take 16)) f
/-- The SHA-256 digest of a list of bytes: its byte 0 in bits 255 to 248 (R390). -/
def sha256 (bs : List Byte) : BitVec 256 :=
  let n := bs.length
  let v := blocks (beWords (padded bs n)) Hash.init ((n + 72) / 64)
  let cat := fun (m : Nat) (x : BitVec 32) => m * 2 ^ 32 + x.toNat
  BitVec.ofNat 256 ([v.a, v.b, v.c, v.d, v.e, v.f, v.g, v.h].foldl cat 0)

end Sys2Proof.Digest
end

