-- ==== Sys2Proof/Machine/Startup.lean ====
section
/-! DEFINITION. Start-up: flash discovery (R379-R382), the Aprek image (R383-R388), its failures (R391), VERIFY (R390),
APPLY (R393), the ostler's start (R394), the directory clear (R395); and test access (R490, R491). -/

namespace Sys2Proof.Machine

/-! ### Failures -/

/-- A failure of R391: recorded with the image, the cause and, where there is one, the section (log 16), and shown in
BOOT.STATUS. -/
def State.bootNote (s : State) (cause : Nat) (sec : Option Nat) : State :=
  let alt := b2n (s.flag R.BOOT_STATUS 12)
  let s : State := (s.note 10 9 cause 2 (arg := Config.bootArg alt sec)).setFlag R.BOOT_STATUS 15 true
  let s : State := s.setFld R.BOOT_STATUS 4 4 cause
  if alt = 0 && cause != 1 then s.setFld R.BOOT_STATUS 8 4 cause else s
/-- Start-up fails (R391). -/
def State.bootFail (s : State) (cause : Nat) : State := (s.bootNote cause none).setPhase 9
/-- An image fails: the alternate image is loaded, or start-up fails (R391). -/
def State.imageFail (s : State) (cause : Nat) (sec : Option Nat) : State :=
  let first := !s.flag R.BOOT_STATUS 12
  let s : State := s.bootNote cause sec
  let s : State := { s with boot := { s.boot with img := [] } }
  if first && s.boot.altOff.isSome then (s.setFlag R.BOOT_STATUS 12 true).setPhase 2 else s.setPhase 9

/-! ### Discovery -/

/-- POWER_ON_RELEASE (R379, R380, R491): in test mode no functional work starts. -/
def execPowerOnRelease (fpCfg : BitVec 3) (testMode : Bool) (s : State) : Host.Outcome State Fault Refusal :=
  .next (finish s (if s.phase = 0 && !s.boot.domWait && !s.boot.testMode then
      let t : State := { s with boot := { s.boot with fpCfg := fpCfg, testMode := testMode } }
      if testMode then t else t.setPhase 1
    else s))

/-- MODE of BOOT.FPINFO (R380, R404). -/
def flashMode (cfg : BitVec 3) (p : Option Sfdp) : Nat :=
  match p with
  | none => 0
  | some d =>
    let c := cfg.toNat % 4
    let quad := (d.qer == 0 || c == 3) && c != 2
    if c = 1 then 1
    else if quad && d.r144 then 5 else if quad && d.r114 then 4 else if d.r122 then 3 else if d.r112 then 2 else 1
/-- The flash is read with 4-byte addresses (R381). -/
def flashAddr4 (p : Option Sfdp) : Bool :=
  match p with | some d => decide (24 < d.densLog2) && (d.form4 || d.enterB7 || d.enter06B7) | none => false
/-- How many bytes of the flash can be read (R381). -/
def flashReadable (p : Option Sfdp) : Nat :=
  match p with
  | some d => if flashAddr4 p || d.densLog2 ≤ 24 then 2 ^ d.densLog2 else 2 ^ 24
  | none => 2 ^ 24
/-- FLASH_DISCOVERY_DONE (R379-R382, R391). -/
def execFlashDiscoveryDone (jedec : BitVec 24) (sfdp : Option Sfdp) (s : State) : Host.Outcome State Fault Refusal :=
  .next (finish s (if s.phase = 1 then
      if jedec = 0 || jedec = 0xFFFFFF then (s.setReg R.BOOT_FPINFO (BitVec.ofNat 64 jedec.toNat)).bootFail 1
      else
        let mode := flashMode s.boot.fpCfg sfdp
        let t : State := s.setReg R.BOOT_FPINFO (withFields 0 [(0, 24, jedec.toNat),
          (24, 5, match sfdp with | some d => d.densLog2 | none => 0), (29, 1, b2n sfdp.isSome), (30, 1, b2n (flashAddr4 sfdp)),
          (31, 3, mode), (34, 1, b2n (mode != 0 && bit s.boot.fpCfg.toNat 2))])
        let n := flashReadable sfdp
        { t with boot := { t.boot with readable := n, altOff := if sfdp.isSome then some (n / 2) else none, img := [] } }.setPhase 2
    else s))

/-! ### The image -/

/-- The little-endian number in `n` bytes of an image from offset `o` (R383). -/
def leNum (img : List Byte) (o n : Nat) : Nat := ((img.drop o).take n).foldr (fun b m => b.toNat + 256 * m) 0
/-- Bytes of an image. -/
def slice (img : List Byte) (o n : Nat) : List Byte := (img.drop o).take n

/-- A section descriptor (R384). -/
structure Section where
  index : Nat
  type : Nat
  store : Nat
  off : Nat
  len : Nat
  crc : Nat
  deriving DecidableEq, Repr
/-- The descriptors of an image (R384). -/
def imgSections (img : List Byte) : List Section :=
  (List.range (leNum img 6 2)).map (fun k =>
    let o := 64 + 16 * k
    ⟨k, leNum img o 1, leNum img (o + 2) 2, leNum img (o + 4) 4, leNum img (o + 8) 4, leNum img (o + 12) 4⟩)
/-- The store's size in bytes (R385). -/
def storeSize : Nat := 393216
/-- What the header must hold (R383, R387, R391): `room` the readable bytes from the image's start. -/
def headerOk (img : List Byte) (room : Nat) : Bool :=
  leNum img 60 4 == (Digest.crc32c (slice img 0 60)).toNat &&
  slice img 0 4 == [0x41, 0x50, 0x52, 0x4B] && leNum img 4 2 == 1 && leNum img 12 4 == 0x51427200 &&
  decide (leNum img 8 4 ≤ storeSize) && decide (leNum img 8 4 ≤ room)
/-- A section type of R385. -/
def typeOk (t : Nat) : Bool := decide (1 ≤ t ∧ t ≤ 4) || decide (0x80 ≤ t)
/-- What one descriptor must hold (R384, R385, R387). -/
def sectionOk (nsec len : Nat) (x : Section) : Bool :=
  typeOk x.type && x.off % 8 == 0 && x.len % 8 == 0 && decide (64 + 16 * nsec ≤ x.off) && decide (x.off + x.len ≤ len) &&
  decide (8 * x.store + x.len ≤ storeSize) &&
  (x.type != 3 || x.len % 16 == 0) && (x.type != 4 || decide (8 ≤ x.len))
/-- No two sections overlap in the image or in the store (R387). -/
def sectionsApart : List Section → Bool
  | [] => true
  | x :: r => r.all (fun y => !overlap x.off x.len y.off y.len && !overlap (8 * x.store) x.len (8 * y.store) y.len) && sectionsApart r
/-- What the descriptors must hold together (R383-R385, R387): exactly one MICROCODE section, with ENTRY in it. -/
def tableOk (img : List Byte) : Bool :=
  let n := leNum img 6 2
  let xs := imgSections img
  decide (1 ≤ n) && decide (n ≤ 32) && leNum img 24 4 == (Digest.crc32c (slice img 64 (16 * n))).toNat &&
  xs.all (sectionOk n (leNum img 8 4)) && sectionsApart xs &&
  (match xs.filter (fun x => x.type == 1) with
   | [m] => decide (m.store ≤ leNum img 16 4) && decide (8 * leNum img 16 4 < 8 * m.store + m.len)
   | _ => false)
/-- What a section's body must hold (R387). -/
def bodyOk (img : List Byte) (x : Section) : Bool :=
  if x.type = 3 then (List.range (x.len / 16)).all (fun k => leNum img (x.off + 16 * k) 4 % 8 == 0 && decide (leNum img (x.off + 16 * k) 4 < 2 ^ 20))
  else if x.type = 4 then
    leNum img x.off 4 % 8 == 0 && x.len == 8 + 8 * leNum img (x.off + 4) 4 &&
    decide (leNum img x.off 4 + 8 * leNum img (x.off + 4) 4 ≤ 2 ^ 20)
  else true
/-- A section's CRC as read (R384). -/
def sectionCrc (img : List Byte) (x : Section) : BitVec 32 := Digest.crc32c (slice img x.off x.len)
/-- An image with a section's bytes taken from a second read (R391). -/
def reread (img again : List Byte) (x : Section) : List Byte :=
  img.take x.off ++ slice again x.off x.len ++ img.drop (x.off + x.len)
/-- A section put into a list in order of its place in the image (R388). -/
def insertSection (x : Section) : List Section → List Section
  | [] => [x]
  | y :: r => if x.off ≤ y.off then x :: y :: r else y :: insertSection x r
/-- The sections checked in the order in which they are read (R388, R391): the image as read in the end, or the cause, the
section and its CRC. -/
def checkSections (again : List Byte) : List Section → List Byte → Except (Nat × Nat × BitVec 32) (List Byte)
  | [], img => .ok img
  | x :: r, img =>
    if !bodyOk img x then .error (3, x.index, 0)
    else if (sectionCrc img x).toNat = x.crc then checkSections again r img
    else
      let img2 := reread img again x
      if !bodyOk img2 x then .error (3, x.index, 0)
      else if (sectionCrc img2 x).toNat = x.crc then checkSections again r img2
      else .error (4, x.index, sectionCrc img2 x)
/-- The writes of a section in entry order (R385, R393): byte offset and value. -/
def sectionWrites (img : List Byte) (x : Section) : List (Nat × Word) :=
  if x.type = 3 then (List.range (x.len / 16)).map (fun k =>
    (leNum img (x.off + 16 * k) 4, BitVec.ofNat 64 (leNum img (x.off + 16 * k + 8) 8)))
  else if x.type = 4 then (List.range ((x.len - 8) / 8)).map (fun k =>
    (leNum img x.off 4 + 8 * k, BitVec.ofNat 64 (leNum img (x.off + 8 + 8 * k) 8)))
  else []
/-- The writes of an image in section order (R393). -/
def imgWrites (img : List Byte) : List (Nat × Word) := (imgSections img).flatMap (sectionWrites img)

/-! ### APPLY -/

/-- The write starts an action that the ostler runs (R393): a GO, an INV, a change of a power request. -/
def State.startsAction (s : State) (x : SpAcc) : Bool :=
  match s.spRow x with
  | .waypwr => s.flag R.DIR_WAYPWR 0 != bit x.data.toNat 0
  | .bankpwr => s.fld R.ALC_BANKPWR 0 8 != getBits x.data 0 8
  | .alcInv | .preload | .preloadZero | .preloadAndLock | .flush | .epochSwapGo | .aliasSet | .aliasRemove => true
  | .fenceSuspect | .fenceFlushed | .fenceNoflush | .fenceRelease | .chkcmd | .spareSet | .spareRemove => true
  | .rstFunc | .rstDomain | .railForce | .nqMark | .nqRewind | .nqRelease => true
  | _ => false
/-- One write of APPLY (R393). -/
def State.applyOne (s : State) (x : SpAcc) : State :=
  if 0xA000 ≤ x.addr && x.addr < 0xB000 && x.addr != R.BOOT_MUSTER then s
  else s.spServe x (fun t y => t.spDo y (t.spRow y))
/-- The writes of APPLY up to the first that starts an action; the later ones are queued to the ostler (R393). -/
def State.applyAll (s : State) : List (Nat × Word) → State
  | [] => s
  | e :: r =>
    let t : State := s.applyOne (imageWrite e)
    if s.startsAction (imageWrite e) then { t with boot := { t.boot with queued := r } } else t.applyAll r
/-- A refusal was recorded during APPLY (R393). -/
def State.applyRefused (s : State) : Bool :=
  s.flag R.SEC_REGSTAT 9 || s.fld R.LED_EVENTS 8 8 != 0 || s.flag R.ALC_STATUS 4 || s.flag R.ISL_PWREVT 8
/-- APPLY, and at its end the start of the ostler and of the directory clear (R393, R394). -/
def State.apply (s : State) : State :=
  let img := s.boot.img
  let s : State := { s.setPhase 4 with boot := { s.boot with img := [] }, faults := s.faults.filter (fun f => f.1 != 7) }.applyAll (imgWrites img)
  if s.applyRefused then { s with boot := { s.boot with queued := [] } }.bootFail 6
  else { s.setPhase 5 with boot := { s.boot with ostRun := true, ostAt := s.tod } }

/-! ### LOAD and VERIFY -/

/-- The image has passed every check (R388): BOOT.IMGINFO, then VERIFY (R390). -/
def State.imageGood (s : State) (img : List Byte) (sbReq : Bool) : State :=
  let img := img.take (leNum img 8 4)
  let d := Digest.sha256 img
  let s : State := s.setReg R.BOOT_IMGINFO (withFields 0 [(0, 19, leNum img 8 4), (19, 6, leNum img 6 2), (25, 32, leNum img 20 4)])
  let s : State := ((s.setReg R.BOOT_TLOAD s.tod).setPhase 3).setFlag R.BOOT_STATUS 13 sbReq
  let s : State := { s with boot := { s.boot with img := img, digest := d } }
  if sbReq then s
  else
    ((List.range 4).foldl (fun t k => t.setReg (R.BOOT_DIGEST + 8 * k) (d.extractLsb' (64 * (3 - k)) 64)) s).apply

/-- IMAGE_LOAD_DONE (R388, R391). -/
def execImageLoadDone (img again : List Byte) (sbReq : Bool) (s : State) : Host.Outcome State Fault Refusal :=
  .next (finish s (if s.phase = 2 then
      let start := if s.flag R.BOOT_STATUS 12 then s.boot.altOff.getD 0 else 0
      if !headerOk img (s.boot.readable - start) then s.imageFail 2 none
      else if !tableOk img then s.imageFail 3 none
      else match checkSections again ((imgSections img).foldr insertSection []) img with
        | .ok good => s.imageGood good sbReq
        | .error (c, k, crc) =>
          (if c = 4 then s.setReg R.BOOT_SECFAIL (withFields 0 [(0, 5, k), (5, 1, 1), (6, 32, crc.toNat)]) else s).imageFail c (some k)
    else s))

/-- DIGEST_COMPARE (R390). -/
def execDigestCompare (digest : BitVec 256) (s : State) : Host.Outcome State Fault Refusal :=
  .next (finish s (if s.phase = 3 then
      if digest = s.boot.digest then (s.setFlag R.BOOT_STATUS 14 true).apply else s.imageFail 5 none
    else s))

/-- OSTREADY_TIMEOUT (R391). -/
def execOstreadyTimeout (s : State) : Host.Outcome State Fault Refusal :=
  .next (finish s (if s.phase = 5 && !s.flag R.BOOT_CTL 0 &&
      usec (100 * max 1 (s.fld R.BOOT_MUSTER 30 8)) ≤ elapsed s.boot.ostAt s.tod then s.bootFail 7
    else s))

/-- Is the way of the directory key `k` one that the present way partition clears (R395)? -/
def wayOpen (s : State) (k : Nat) : Bool := s.wayState == 0 || decide (k % 16 < 8)

/-- DIRECTORY_CLEAR_DONE (R395, R396): every array is clear. -/
def execDirectoryClearDone (s : State) : Host.Outcome State Fault Refusal :=
  .next (finish s (if s.boot.ostRun && !s.flag R.DIR_STATUS 0 then
      let t : State := { s with dirs := s.dirs.filter (fun e => !wayOpen s e.1), exts := [] }
      let t : State := { t with faults := t.faults.filter (fun f => !((f.1 == 0 && wayOpen s f.2.1) || f.1 == 1 || (3 ≤ f.1 && f.1 ≤ 6))) }
      (t.setFlag R.DIR_STATUS 0 true).readyCheck
    else s))

/-! ### Test access -/

/-- TAP_BLOTFF_CAPTURE (R491). -/
def execTapBlotffCapture (s : State) : Host.Outcome State Fault Refusal :=
  let ff := if s.flag R.BLOT_FF 12 then (SMap.find s.svc.blot (s.fld R.BLOT_FF 0 12)).getD [0, 0, 0, 0] else [0, 0, 0, 0]
  .next { s with svc := { s.svc with tapFf := ff } }
/-- BIST_START (R491): in test mode. -/
def execBistStart (ctl : BitVec 16) (s : State) : Host.Outcome State Fault Refusal :=
  .next (if s.boot.testMode then
      let go := bit ctl.toNat 0
      let st : Word := if go then 0 else s.svc.bistStat
      { s with svc := { s.svc with bistCtl := BitVec.ofNat 16 (ctl.toNat % 16), bistRun := go || s.svc.bistRun, bistStat := st } }
    else s)
/-- BIST_DONE (R491). -/
def execBistDone (fail : Bool) (macroIdx : BitVec 12) (addr : BitVec 50) (s : State) : Host.Outcome State Fault Refusal :=
  .next (if s.svc.bistRun then
      let st := BitVec.ofNat 64 (1 + b2n fail * 2 + macroIdx.toNat * 4 + addr.toNat * 2 ^ 14)
      { s with svc := { s.svc with bistRun := false, bistStat := st } }
    else s)
/-- TAP_REPAIR_LOAD (R490, R491): before the release of TK_PORST_N, or in test mode. -/
def execTapRepairLoad (repair : List (BitVec 24)) (s : State) : Host.Outcome State Fault Refusal :=
  .next (if s.phase = 0 && !s.boot.domWait then { s with svc := { s.svc with repair := repair } } else s)

end Sys2Proof.Machine
end

