-- ==== Sys2Proof/Machine/Dispatch.lean ====
section
/-! DEFINITION. What each command does: one arm per row of spec/opcode_table.json. -/

namespace Sys2Proof.Machine

/-- The effect of a command on everything but the queue of waiting commands. -/
def exec (i : Instr) (s : State) : Host.Outcome State Fault Refusal :=
  match i with
  | .niIngress port p => Sys2Proof.Machine.execNiIngress port p s
  | .rdShared port => Sys2Proof.Machine.execRdShared port s
  | .rdUnique port => Sys2Proof.Machine.execRdUnique port s
  | .upgrade port => Sys2Proof.Machine.execUpgrade port s
  | .claimZero port => Sys2Proof.Machine.execClaimZero port s
  | .rdOnce port => Sys2Proof.Machine.execRdOnce port s
  | .wrFull port => Sys2Proof.Machine.execWrFull port s
  | .wrPart port => Sys2Proof.Machine.execWrPart port s
  | .stroke port => Sys2Proof.Machine.execStroke port s
  | .ligature port => Sys2Proof.Machine.execLigature port s
  | .sync port => Sys2Proof.Machine.execSync port s
  | .wbDirty port => Sys2Proof.Machine.execWbDirty port s
  | .wbRetryOffer port => Sys2Proof.Machine.execWbRetryOffer port s
  | .evictNote port => Sys2Proof.Machine.execEvictNote port s
  | .penRedispatch pen => Sys2Proof.Machine.execPenRedispatch pen s
  | .penDeadline pen => Sys2Proof.Machine.execPenDeadline pen s
  | .ticketExpiry idx => Sys2Proof.Machine.execTicketExpiry idx s
  | .snpAckI port => Sys2Proof.Machine.execSnpAckI port s
  | .snpAckS port => Sys2Proof.Machine.execSnpAckS port s
  | .snpFwdI port => Sys2Proof.Machine.execSnpFwdI port s
  | .snpFwdO port => Sys2Proof.Machine.execSnpFwdO port s
  | .snpWbPend port => Sys2Proof.Machine.execSnpWbPend port s
  | .snpDataI port => Sys2Proof.Machine.execSnpDataI port s
  | .snpDataO port => Sys2Proof.Machine.execSnpDataO port s
  | .rlyAck port => Sys2Proof.Machine.execRlyAck port s
  | .cmpAck port => Sys2Proof.Machine.execCmpAck port s
  | .rlyInv port => Sys2Proof.Machine.execRlyInv port s
  | .relayMemberAnswer port => Sys2Proof.Machine.execRelayMemberAnswer port s
  | .domainStopReceived port => Sys2Proof.Machine.execDomainStopReceived port s
  | .aliasSetReceived port => Sys2Proof.Machine.execAliasSetReceived port s
  | .epochSwapReceived port => Sys2Proof.Machine.execEpochSwapReceived port s
  | .mgtAck port => Sys2Proof.Machine.execMgtAck port s
  | .snoopTimeout tag who => Sys2Proof.Machine.execSnoopTimeout tag who s
  | .cmpackTimeout stall => Sys2Proof.Machine.execCmpackTimeout stall s
  | .rlyinvTimeout stall relay => Sys2Proof.Machine.execRlyinvTimeout stall relay s
  | .resendTimer stall who => Sys2Proof.Machine.execResendTimer stall who s
  | .fwdWindowExpiry stall => Sys2Proof.Machine.execFwdWindowExpiry stall s
  | .flushRequestAck level => Sys2Proof.Machine.execFlushRequestAck level s
  | .flushOutcome id code => Sys2Proof.Machine.execFlushOutcome id code s
  | .flushTimeout entry => Sys2Proof.Machine.execFlushTimeout entry s
  | .purgeWalkVisit => Sys2Proof.Machine.execPurgeWalkVisit s
  | .cleanerVisit => Sys2Proof.Machine.execCleanerVisit s
  | .scrubRead => Sys2Proof.Machine.execScrubRead s
  | .wayClearDone => Sys2Proof.Machine.execWayClearDone s
  | .mpReadIssue port => Sys2Proof.Machine.execMpReadIssue port s
  | .inkWriteIssue port => Sys2Proof.Machine.execInkWriteIssue port s
  | .mpReadData port tag data err => Sys2Proof.Machine.execMpReadData port tag data err s
  | .mpWrDone port tag err => Sys2Proof.Machine.execMpWrDone port tag err s
  | .mpCmdCredit port write => Sys2Proof.Machine.execMpCmdCredit port write s
  | .mpFail port => Sys2Proof.Machine.execMpFail port s
  | .mpRdTimeout port => Sys2Proof.Machine.execMpRdTimeout port s
  | .mpWrTimeout port => Sys2Proof.Machine.execMpWrTimeout port s
  | .mpCtrlRst port => Sys2Proof.Machine.execMpCtrlRst port s
  | .resyncCopyDone port => Sys2Proof.Machine.execResyncCopyDone port s
  | .cpRead c => Sys2Proof.Machine.execCpRead c s
  | .cpWrfull c => Sys2Proof.Machine.execCpWrfull c s
  | .cpWrpart c => Sys2Proof.Machine.execCpWrpart c s
  | .cpSync c => Sys2Proof.Machine.execCpSync c s
  | .cpLinkRst => Sys2Proof.Machine.execCpLinkRst s
  | .strokeExecute => Sys2Proof.Machine.execStrokeExecute s
  | .ligatureExecute => Sys2Proof.Machine.execLigatureExecute s
  | .alcMoveDone => Sys2Proof.Machine.execAlcMoveDone s
  | .alcDrainFree => Sys2Proof.Machine.execAlcDrainFree s
  | .alcInvalidateDone => Sys2Proof.Machine.execAlcInvalidateDone s
  | .bankClearDone bank => Sys2Proof.Machine.execBankClearDone bank s
  | .waypwrReq m => Sys2Proof.Machine.execWaypwrReq m s
  | .inspSel m => Sys2Proof.Machine.execInspSel m s
  | .alcInspSel m => Sys2Proof.Machine.execAlcInspSel m s
  | .jheadWrite m => Sys2Proof.Machine.execJheadWrite m s
  | .ringEnable m => Sys2Proof.Machine.execRingEnable m s
  | .alcInv m => Sys2Proof.Machine.execAlcInv m s
  | .alcEnable m => Sys2Proof.Machine.execAlcEnable m s
  | .alcDisable m => Sys2Proof.Machine.execAlcDisable m s
  | .bankpwrReq m => Sys2Proof.Machine.execBankpwrReq m s
  | .preload m => Sys2Proof.Machine.execPreload m s
  | .preloadZero m => Sys2Proof.Machine.execPreloadZero m s
  | .preloadAndLock m => Sys2Proof.Machine.execPreloadAndLock m s
  | .flush m => Sys2Proof.Machine.execFlush m s
  | .epochSwapGo m => Sys2Proof.Machine.execEpochSwapGo m s
  | .epochAckTimeout k => Sys2Proof.Machine.execEpochAckTimeout k s
  | .epochRetire => Sys2Proof.Machine.execEpochRetire s
  | .aliasSet m => Sys2Proof.Machine.execAliasSet m s
  | .aliasRemove m => Sys2Proof.Machine.execAliasRemove m s
  | .routeEntryWrite m => Sys2Proof.Machine.execRouteEntryWrite m s
  | .mpCtlFail m => Sys2Proof.Machine.execMpCtlFail m s
  | .resync m => Sys2Proof.Machine.execResync m s
  | .streamRst m => Sys2Proof.Machine.execStreamRst m s
  | .regionEnable m => Sys2Proof.Machine.execRegionEnable m s
  | .fenceSuspect m => Sys2Proof.Machine.execFenceSuspect m s
  | .fenceFlushed m => Sys2Proof.Machine.execFenceFlushed m s
  | .fenceNoflush m => Sys2Proof.Machine.execFenceNoflush m s
  | .fenceRelease m => Sys2Proof.Machine.execFenceRelease m s
  | .chkcmdGo m => Sys2Proof.Machine.execChkcmdGo m s
  | .spareSet m => Sys2Proof.Machine.execSpareSet m s
  | .spareRemove m => Sys2Proof.Machine.execSpareRemove m s
  | .bcastAckTimeout target => Sys2Proof.Machine.execBcastAckTimeout target s
  | .homeidWrite m => Sys2Proof.Machine.execHomeidWrite m s
  | .powerDownReq m => Sys2Proof.Machine.execPowerDownReq m s
  | .powerUpReq m => Sys2Proof.Machine.execPowerUpReq m s
  | .islandPowerOff isl => Sys2Proof.Machine.execIslandPowerOff isl s
  | .islandWakeDone isl => Sys2Proof.Machine.execIslandWakeDone isl s
  | .rstcmdFunc m => Sys2Proof.Machine.execRstcmdFunc m s
  | .funcResetEnd isl => Sys2Proof.Machine.execFuncResetEnd isl s
  | .rstcmdDomain m => Sys2Proof.Machine.execRstcmdDomain m s
  | .domrstReq => Sys2Proof.Machine.execDomrstReq s
  | .powerOnReset => Sys2Proof.Machine.execPowerOnReset s
  | .powerOnRelease fpCfg testMode => Sys2Proof.Machine.execPowerOnRelease fpCfg testMode s
  | .flashDiscoveryDone jedec sfdp => Sys2Proof.Machine.execFlashDiscoveryDone jedec sfdp s
  | .imageLoadDone img reread sbReq => Sys2Proof.Machine.execImageLoadDone img reread sbReq s
  | .digestCompare digest => Sys2Proof.Machine.execDigestCompare digest s
  | .ostready m => Sys2Proof.Machine.execOstready m s
  | .ostreadyTimeout => Sys2Proof.Machine.execOstreadyTimeout s
  | .directoryClearDone => Sys2Proof.Machine.execDirectoryClearDone s
  | .bootRetry m => Sys2Proof.Machine.execBootRetry m s
  | .musterGo => Sys2Proof.Machine.execMusterGo s
  | .portOpen => Sys2Proof.Machine.execPortOpen s
  | .creditRampStep port pool => Sys2Proof.Machine.execCreditRampStep port pool s
  | .rlyholdEnd => Sys2Proof.Machine.execRlyholdEnd s
  | .pwrWarnAssert => Sys2Proof.Machine.execPwrWarnAssert s
  | .pwrWarnDeassert => Sys2Proof.Machine.execPwrWarnDeassert s
  | .chkstopIn => Sys2Proof.Machine.execChkstopIn s
  | .linkPartnerReset port => Sys2Proof.Machine.execLinkPartnerReset port s
  | .linkRun port => Sys2Proof.Machine.execLinkRun port s
  | .linkCreditReturn port pool => Sys2Proof.Machine.execLinkCreditReturn port pool s
  | .islandClockGate isl => Sys2Proof.Machine.execIslandClockGate isl s
  | .islandWake isl => Sys2Proof.Machine.execIslandWake isl s
  | .wakeLate isl => Sys2Proof.Machine.execWakeLate isl s
  | .todPublish tod => Sys2Proof.Machine.execTodPublish tod s
  | .spRequestAccept a => Sys2Proof.Machine.execSpRequestAccept a s
  | .spMasterReset m => Sys2Proof.Machine.execSpMasterReset m s
  | .mbxBind m => Sys2Proof.Machine.execMbxBind m s
  | .mbxPost m => Sys2Proof.Machine.execMbxPost m s
  | .mbxTake m => Sys2Proof.Machine.execMbxTake m s
  | .railAcquire m => Sys2Proof.Machine.execRailAcquire m s
  | .railRelease m => Sys2Proof.Machine.execRailRelease m s
  | .railForce m => Sys2Proof.Machine.execRailForce m s
  | .nqPost m => Sys2Proof.Machine.execNqPost m s
  | .nqRecordWrite => Sys2Proof.Machine.execNqRecordWrite s
  | .gapRecordWrite => Sys2Proof.Machine.execGapRecordWrite s
  | .nqRead m => Sys2Proof.Machine.execNqRead m s
  | .nqMark m => Sys2Proof.Machine.execNqMark m s
  | .nqRewind m => Sys2Proof.Machine.execNqRewind m s
  | .nqRelease m => Sys2Proof.Machine.execNqRelease m s
  | .dumpNow m => Sys2Proof.Machine.execDumpNow m s
  | .dumpDue => Sys2Proof.Machine.execDumpDue s
  | .dumpLineWrite => Sys2Proof.Machine.execDumpLineWrite s
  | .dumpEnable m => Sys2Proof.Machine.execDumpEnable m s
  | .dumpheadWrite m => Sys2Proof.Machine.execDumpheadWrite m s
  | .fselWrite m => Sys2Proof.Machine.execFselWrite m s
  | .blotterWrite => Sys2Proof.Machine.execBlotterWrite s
  | .blotSel m => Sys2Proof.Machine.execBlotSel m s
  | .blotClear m => Sys2Proof.Machine.execBlotClear m s
  | .blotFfRearm m => Sys2Proof.Machine.execBlotFfRearm m s
  | .registerWrite m => Sys2Proof.Machine.execRegisterWrite m s
  | .bistStart ctl => Sys2Proof.Machine.execBistStart ctl s
  | .tapBlotffCapture => Sys2Proof.Machine.execTapBlotffCapture s
  | .registerReadClear m => Sys2Proof.Machine.execRegisterReadClear m s
  | .railAbortPulseEnd k => Sys2Proof.Machine.execRailAbortPulseEnd k s
  | .cpCommandRetry stream => Sys2Proof.Machine.execCpCommandRetry stream s
  | .bistDone fail macroIdx addr => Sys2Proof.Machine.execBistDone fail macroIdx addr s
  | .tapRepairLoad repair => Sys2Proof.Machine.execTapRepairLoad repair s

end Sys2Proof.Machine
end

