-- ==== Sys2Proof/Machine/Outputs.lean ====
section
/-! DEFINITION. The block's output lines, each a function of the state (R280, R322, R337, R364, R371, R391, R396, R405, R421,
R425, R433, R484). -/

namespace Sys2Proof.Machine

/-- TK_PORST_N is low: from POWER_ON_RESET to POWER_ON_RELEASE (R484). -/
def State.inPorst (s : State) : Bool := s.phase == 0 && !s.boot.domWait && !s.boot.testMode
/-- SP_DB_IRQ[b] (R421). -/
def State.dbIrq (s : State) (b : Nat) : Bool := s.flag R.MBX_DB b && s.flag R.MBX_DBMASK b
/-- LEVEL of NQ.CTL in force: 1 to 1,024 (R436). -/
def State.nqLevel (s : State) : Nat := min 1024 (max 1 (s.fld R.NQ_CTL 11 11))
/-- SP_NQ_IRQ (R433). -/
def State.nqIrq (s : State) : Bool := s.flag R.NQ_CTL 10 && (decide (s.nqLevel ≤ s.nqAvail) || s.flag R.NQ_STATUS 23)
/-- SP_RAIL_ABORT[63:0] (R425). -/
def State.railAbort (s : State) : BitVec 64 := s.svc.abort
/-- SP_REQ_READY (R406). -/
def State.spReqReady (s : State) : Bool := decide (s.svc.stage.countP (fun y => y.master != 0x3FF) < Config.spStage)
/-- TK_CHKSTOP (R337). -/
def State.tkChkstop (s : State) : Bool := s.chk
/-- TK_MUSTER_RDY (R396). -/
def State.tkMusterRdy (s : State) : Bool := s.fromReady
/-- TK_BOOT_FAIL (R391). -/
def State.tkBootFail (s : State) : Bool := s.phase == 9
/-- TK_PWR_SAFE (R371, R373, R484). -/
def State.tkPwrSafe (s : State) : Bool := s.inPorst || s.safe
/-- TK_RCV_REQ (R322). -/
def State.tkRcvReq (s : State) : Bool := s.rcv.reqHigh
/-- TK_RCV_REQ_ID: the physical ID of the agent whose flush is asked for (R322). -/
def State.tkRcvReqId (s : State) : Option EpId := s.rcv.req.map s.toPhys
/-- TK_RCV_RSP_ACK (R322). -/
def State.tkRcvRspAck (s : State) : Bool := s.rcv.rspAck
/-- MPn_FRST (R365). -/
def State.mpFrst (s : State) (n : Nat) : Bool := (s.mp n).driven
/-- MPn_RD_READY (R264). -/
def State.mpRdReady (s : State) (n : Nat) : Bool := s.mpState n != 3
/-- CP_FRST (R365). -/
def State.cpFrst (s : State) : Bool := s.cp.driven

end Sys2Proof.Machine
end

