-- ==== Sys2Proof/Safety.lean ====
section
/-! DEFINITION. What every step of the block keeps, in the terms the statements use. -/

namespace Sys2Proof.Machine

/-- The canonical form of the register window: slots in rising order, none of them at its reset value, so that equal
windows are equal data. -/
def State.canonical (s : State) : Bool := SMap.wf s.win && s.win.all (fun e => e.2 != slotReset e.1)

/-- Nothing follows from a command's own effect `u` on `s0` (R121, R219, R225, R226, R257, R334, R337, R363, R371): no stop has
just been declared, no slow path runs, no drain of a network port ends, no domain reset waits, no power warning stands, recovery
neither begins nor ends, and no pen entry changes its eligibility. -/
def State.settled (u s0 : State) : Bool :=
  (!u.chk || s0.chk) && u.alcState != 2 && !u.cleaningBank && u.preload.isNone && u.wayState != 1 && !u.boot.domWait &&
    !u.warn && u.recovering == s0.recovering && u.penSince == u.penTimes &&
    (List.range 4).all (fun n => !(u.flag R.ISL_RSTSTAT (1 + n) && u.link n == 2 && u.npDrained n))

/-- The access that the input arbiter chooses (R360, R409), the oldest of its master, when that master is `m` and the access is
one of a row, R408 answers it OK, R393 does not void it, and, for the ostler, no damage lies in its store (R315); with the state
in which it is carried out: its place left, the arbiter's pointer past its master. -/
def State.oldest (s : State) (m : MasterId) (row : SpRow) : Option (SpAcc × State) :=
  if m = 0x3FF && s.faults.any (fun f => f.1 == 7) then none
  else match s.spNext m with
  | some (x, t) =>
    if s.spRow x = row && !s.imageVoid x && t.spStatus x == 0 then
      some (x, { t with svc := { t.svc with ptr := x.master + 1 } })
    else none
  | none => none

/-- An access whose effect is `u` is answered OK with a value; the plain reads that the arbiter chooses then are answered
(R405, R407). -/
def State.answered (u : State) (x : SpAcc) (v : Word) : State := (u.spAnswer x 0 v).spIdle

/-- Nothing but the registers of a list differs between two states. -/
def State.onlyRegs (s t : State) (as : List RegAddr) : Prop :=
  t = { s with win := t.win } ∧ ∀ b, as.all (fun a => a / 8 != b / 8) = true → t.reg b = s.reg b

/-- The fields of a register lie within its 64 bits and apart from each other (R5, R17). -/
def fieldsApart : List Fld → Bool
  | [] => true
  | f :: r => decide (f.lo + f.width ≤ 64) && r.all (fun g => decide (f.lo + f.width ≤ g.lo) || decide (g.lo + g.width ≤ f.lo)) &&
      fieldsApart r

/-- The registers outside a list read the same in two states. -/
def State.regsKept (s t : State) (as : List RegAddr) : Prop :=
  ∀ b, as.all (fun a => a / 8 != b / 8) = true → t.reg b = s.reg b

/-- The registers of the performance counters (R437, R448), which almost every command may count in. -/
def perfRegs : List RegAddr := (List.range 256).map (fun k => R.PMC_CNT + 8 * k) ++ (List.range 4).map (fun k => R.PMC_REDO + 8 * k)
/-- The registers that a blotter record may change, when its island's queue is full (R449). -/
def noteRegs : List RegAddr := [R.BLOT_STATUS, R.PMC_CNT + 8 * 0xFC]

/-- The registers that sending a message may change: the counters, the measure of a first response (R159), a missing route
(R243) and its record. -/
def sendRegs : List RegAddr := perfRegs ++ [R.YARD_RESP, R.RTE_ERRCNT, R.BLOT_STATUS]

/-- A command completes: it answers a next state, made of its own effect `u` and of what follows; `post` says what `u` is. -/
def does (c : Instr) (s : State) (post : State → Prop) : Prop := ∃ u : State, exec c s = .next (finish s u) ∧ post u

/-- The tables are in their canonical form, no stored word is damaged, and the domain is not in checkstop. -/
abbrev State.calm (s : State) : Prop :=
  s.canonical = true ∧ SMap.wf s.dirs = true ∧ SMap.wf s.stalls = true ∧ SMap.wf s.pen = true ∧ SMap.wf s.tickets = true ∧
  SMap.wf s.ink = true ∧ SMap.wf s.alc = true ∧ SMap.wf s.ligs = true ∧ SMap.wf s.rlys = true ∧ SMap.wf s.nps = true ∧
  SMap.wf s.mps = true ∧ s.faults = [] ∧ s.chk = false

/-- A command of the service port completes: whenever the arbiter chooses an access of its master and row, in a state `t` with
a canonical window in which `pre` holds, the command answers a next state. It is made of the command's own effect `u`, of the
answer OK with the value `v`, and of what follows; `post` says what `u` and `v` are. -/
def spDoes (c : MasterId → Instr) (row : SpRow) (pre : State → SpAcc → Prop) (post : State → SpAcc → State → Word → Prop) : Prop :=
  ∀ (s t : State) (m : MasterId) (x : SpAcc), s.oldest m row = some (x, t) → t.canonical = true → pre t x →
    ∃ (u : State) (v : Word), exec (c m) s = .next (finish s (u.answered x v)) ∧ post t x u v

/-- What a command leaves as it was: the queue of waiting commands, the time of day, the canonical form of the window, and
everything that has left the block. -/
structure Keeps (s t : State) : Prop where
  pending : t.pending = s.pending
  tod : t.tod = s.tod
  canonical : s.canonical = true → t.canonical = true
  tx : s.tx <+: t.tx
  mpTx : s.mpTx <+: t.mpTx
  cpTx : s.cpTx <+: t.cpTx
  rcvTx : s.rcvTx <+: t.rcvTx

end Sys2Proof.Machine
end

