-- ==== Sys2Proof/Certificates/Slice0/Obligations.lean ====
section
/-! DEFINITION. The statements about the block, for the provers. A statement in the form `exec c s = .next (finish s u)` gives
the command's own effect `u`; what `finish` adds is stated by itself. -/

open Sys2Proof Sys2Proof.Machine

namespace Sys2Proof.Machine

/-- The pointer of the notice queue whose lowest bit in NQ.PTR is `k` has kept its value (R430). -/
def ptrKept (t u : State) (k : Nat) : Bool := u.fld R.NQ_PTR k 16 == t.fld R.NQ_PTR k 16

/-- A request of a network port passes the checks of R103, R321, R347 and R371, and presents no ticket. -/
abbrev State.admits (s : State) (r : Req) : Prop :=
  s.inCmask (clusterOf r.q) = true ∧ s.fence r.q = 0 ∧ s.warn = false ∧ r.ticket = 0 ∧ s.regionCheck r = none

/-- A line in state I, unblocked, with no penned request, and with no copy in the ALC or in the inkwell (R51, R87, R139). -/
abbrev State.quietLine (s : State) (h : HIdx) : Prop :=
  s.dirHits h = [] ∧ s.alcHit h = none ∧ s.blocked h = false ∧ s.penHas h = false ∧ s.inkNewest h = none

/-- The read of a line by a stall waits behind the other reads of the port that it goes to (R262, R265, R276). -/
def State.readAsked (s u : State) (h : HIdx) (i : Nat) : Prop :=
  (u.mp (s.readPort h)).reads = (s.mp (s.readPort h)).reads ++ [(s.mp (s.readPort h)).ask h i s.tod]

/-- An inkwell slot has been reserved for a line, and no other slot has changed (R34, R274). -/
def State.reserves (s u : State) (sl : Nat) (h : HIdx) : Prop :=
  (∃ y, SMap.find u.ink sl = some y ∧ y.h = h ∧ y.phase = .reserved) ∧ ∀ j, j ≠ sl → SMap.find u.ink j = SMap.find s.ink j

/-- A request has been accepted in stall `i`, which blocks its line, and waits for a memory read (R78, R276). `slot`: the
inkwell slot that it has reserved (R34). -/
def asksMemory (s : State) (r : Req) (h : HIdx) (i : Nat) (way slot : Option Nat) (u : State) : Prop :=
  (∃ y, SMap.find u.stalls i = some y ∧ y.role = .req ∧ y.req = r ∧ y.h = h ∧ y.way = way ∧ y.ink = slot ∧ y.blocks = true ∧
    y.acc = s.tod ∧ y.out = some .direct ∧ y.rd = .asked ∧ y.final = false) ∧
  (∀ j, j ≠ i → SMap.find u.stalls j = SMap.find s.stalls j) ∧ s.readAsked u h i ∧
  (∀ sl, slot = some sl → s.reserves u sl h) ∧ (slot = none → u.ink = s.ink) ∧
  u.dirs = s.dirs ∧ u.pen = s.pen ∧ u.alc = s.alc ∧ u.tickets = s.tickets ∧ s.regsKept u (perfRegs ++ [R.YARD_PEAK, R.INK_PEAK])

/-- The answer to wait `w` of stall `i` has been taken, and the outcome of its snoop decided (R79). -/
def decided (i : Nat) (t : Stall) (w : Wait) (o : Out) (got : Option LineData) (wb : Option EpId) (u : State) : Prop :=
  ∃ y, SMap.find u.stalls i = some y ∧ y.req = t.req ∧ y.waits = t.waits.erase w ∧ y.out = some o ∧ y.got = got ∧ y.wbWait = wb ∧
    y.final = t.final

/-- A message of an opcode with a tag to `q` waits in an egress queue, or has left since `s` (R250). -/
def State.posts (s u : State) (q : EpId) (op : BitVec 6) (tag : Tag) : Prop :=
  ∃ (n : Nat) (x : EgItem), x.who = q ∧ x.p.opcode = op ∧ x.p.tag = tag ∧
    (x ∈ (u.np n).egq (poolOf (classOf op)) ∨ (n, x.p) ∈ u.tx.drop s.tx.length)

/-- What a waiting or outstanding read is for: all of it but its times. -/
abbrev MpRead.what (r : MpRead) : HIdx × Nat × Option Nat × Option (Nat × LineData × Bool) × Rerun × Bool :=
  (r.h, r.stall, r.tag, r.again, r.rerun, r.copy)
/-- What a read is for once another port owes it (R271, R272): it has no tag there, and one already issued is made again. -/
abbrev MpRead.movedBy (r : MpRead) (why : Rerun) : HIdx × Nat × Option Nat × Option (Nat × LineData × Bool) × Rerun × Bool :=
  (r.h, r.stall, none, r.again, if r.tag.isSome then why else r.rerun, r.copy)

/-- A command makes memory port `n`, in RUN and with no copy of a resync, FAILED (R271). -/
def portFails (c : Instr) (s : State) (n : Fin 2) : Prop :=
  (s.strands n = false → s.mpState (1 - n.val) = 1 → (s.mp n).copy = none → (∀ e ∈ s.ink, e.2.ports.contains n.val = false) →
    does c s (fun u => u.mpState n = 2 ∧ u.flag R.INK_STATUS 30 = true ∧ u.chk = false ∧ (u.mp n).reads = [] ∧ (u.mp n).writes = [] ∧
      (u.mp (1 - n.val)).reads.map MpRead.what =
        (s.mp (1 - n.val)).reads.map MpRead.what ++ (s.mp n).reads.map (fun r => r.movedBy .failed) ∧
      u.stalls = s.stalls ∧ u.ink = s.ink ∧ u.dirs = s.dirs)) ∧
  (s.strands n = true ∨ s.mpState (1 - n.val) ≠ 1 → does c s (fun u => u.mpState n = 2 ∧ u.chk = true ∧ u.chkCause = 9 ∧
    u.reg R.GLB_CHKTOD = s.tod ∧ u.dirs = s.dirs ∧ u.stalls = s.stalls ∧ u.ink = s.ink))

/-- The answer to a wait may arrive: its message stands in an egress queue or has left (R252, R495). -/
def Wait.asked (w : Wait) : Bool := match w.st with | .sent _ => true | .queued => true | _ => false

/-- A place is left in the egress DAT queue of the port by which `q` is answered (R34, R135). -/
abbrev State.seated (s : State) (q : EpId) : Prop := ∀ r ∈ s.route (s.toPhys q), s.datUsed r.1 < Config.datEgress

/-- A message to `q` finds a route (R242). -/
abbrev State.reaches (s : State) (q : EpId) : Prop := (s.route (s.toPhys q)).isSome = true

/-- A response to a channel-port command with a status waits for the link, or has left since `s` (R288). -/
def State.cpAnswered (s u : State) (c : CpCmd) (status : Nat) : Prop :=
  ∃ x : CpRsp, x.stream = c.stream.val ∧ x.seq = c.seq ∧ x.status = status ∧ x.ack = false ∧
    (x ∈ u.cp.eg.map (fun e => e.1) ∨ x ∈ u.cpTx.drop s.cpTx.length)

/-- The outcome commands of GLB.FENCECMD (R327): a SUSPECT ID becomes FENCED with the outcome recorded and joins the purge
walk at its position; an ID without an entry takes the lowest free one, no flush asked for; an ID in another state keeps it
(STATE). `o`: 1 FLUSHED, 2 NOFLUSH. `c` and `row`: the command. -/
def fenceOutcomes (c : MasterId → Instr) (row : SpRow) (o : Nat) : Prop :=
  ∀ (who : EpId) (k : Nat),
    spDoes c row
      (fun t x => who = BitVec.ofNat 18 (getBits x.data 0 18) ∧ t.fenceIdx who = some k ∧ t.fld (fenceReg k) 18 2 = 1 ∧
        t.rcv.purge.length < 16 ∧ t.stalls = [])
      (fun t _ u v => v = 0 ∧ u.fld (fenceReg k) 18 2 = 2 ∧ u.fld (fenceReg k) 20 2 = o ∧ u.fld R.GLB_FENCECMD 21 3 = 0 ∧
        u.flag R.GLB_RCVSTAT 18 = true ∧ u.rcv.purge = t.rcv.purge ++ [(who, t.fld R.DIR_PURGE_STATUS 6 17, false)] ∧
        u.dirs = t.dirs ∧ t.regsKept u ([fenceReg k, R.GLB_FENCECMD, R.GLB_RCVSTAT] ++ noteRegs)) ∧
    spDoes c row
      (fun t x => who = BitVec.ofNat 18 (getBits x.data 0 18) ∧ t.fenceIdx who = none ∧ t.fenceFree = some k ∧ t.rcv.purge.length < 16)
      (fun t _ u v => v = 0 ∧ u.fld (fenceReg k) 0 18 = who.toNat ∧ u.fld (fenceReg k) 18 2 = 2 ∧ u.fld (fenceReg k) 20 2 = o ∧
        u.fld (fenceReg k) 22 3 = 4 ∧ u.fld R.GLB_FENCECMD 21 3 = 0 ∧ u.rcv.req = t.rcv.req ∧ u.rcvTx = t.rcvTx ∧
        u.rcv.purge = t.rcv.purge ++ [(who, t.fld R.DIR_PURGE_STATUS 6 17, false)] ∧ u.dirs = t.dirs ∧ u.stalls = t.stalls ∧
        t.regsKept u ([fenceReg k, R.GLB_FENCECMD, R.GLB_RCVSTAT] ++ noteRegs)) ∧
    spDoes c row
      (fun t x => who = BitVec.ofNat 18 (getBits x.data 0 18) ∧ t.fenceIdx who = some k ∧ t.fld (fenceReg k) 18 2 ≠ 1)
      (fun t _ u v => v = 0 ∧ u.fld R.GLB_FENCECMD 21 3 = 3 ∧ u.flag R.GLB_FENCECMD 24 = true ∧ t.onlyRegs u [R.GLB_FENCECMD])

/-- What a sparing command does (R329), `c` and `row` with SET = `set`: applied to this home's alias CAM, and broadcast to the
other homes of the set, at most 64 targets here; with none it is complete at once. A command during a broadcast is refused. -/
def sparing (c : MasterId → Instr) (row : SpRow) (set : Bool) : Prop :=
  spDoes c row (fun t _ => t.flag R.GLB_BCAST 0 = true)
    (fun t _ u v => v = 0 ∧ u.fld R.GLB_BCAST 59 3 = 5 ∧ u.flag R.GLB_BCAST 0 = true ∧ t.onlyRegs u [R.GLB_SPARECMD, R.GLB_BCAST]) ∧
  spDoes c row
    (fun t x => t.flag R.GLB_BCAST 0 = false ∧ t.chk = false ∧ t.faults = [] ∧ t.otherHomes = [] ∧
      (t.aliasResult (getBits x.data 0 18) (getBits x.data 18 18) set).1 = 0)
    (fun t x u v => v = 0 ∧ u.flag R.GLB_BCAST 0 = false ∧ u.fld R.GLB_BCAST 59 3 = 1 ∧ u.flag R.GLB_BCAST 62 = true ∧
      u.flag (camReg (t.aliasResult (getBits x.data 0 18) (getBits x.data 18 18) set).2) 36 = set ∧ u.mgt.bMsg = none ∧ u.dirs = t.dirs) ∧
  spDoes c row
    (fun t x => t.flag R.GLB_BCAST 0 = false ∧ t.chk = false ∧ t.faults = [] ∧ 1 ≤ t.otherHomes.length ∧ t.otherHomes.length ≤ 64 ∧
      (t.aliasResult (getBits x.data 0 18) (getBits x.data 18 18) set).1 = 0)
    (fun t x u v => v = 0 ∧ u.flag R.GLB_BCAST 0 = true ∧ u.fld R.GLB_BCAST 2 19 = t.otherHomes.length ∧
      u.flag (camReg (t.aliasResult (getBits x.data 0 18) (getBits x.data 18 18) set).2) 36 = set ∧
      u.mgt.bTargets = [] ∧ u.mgt.bOut = t.otherHomes.map (fun e => (e, t.tod)) ∧ u.dirs = t.dirs) ∧
  spDoes c row
    (fun t x => t.flag R.GLB_BCAST 0 = false ∧ t.chk = false ∧ t.faults = [] ∧
      (t.aliasResult (getBits x.data 0 18) (getBits x.data 18 18) set).1 ≠ 0)
    (fun t _ u v => v = 0 ∧ u.fld R.GLB_BCAST 59 3 = 3 ∧ u.flag R.GLB_BCAST 62 = true ∧ u.flag R.GLB_BCAST 0 = false ∧
      t.onlyRegs u [R.GLB_SPARECMD, R.RTE_ALIASSTAT, R.GLB_BCAST])

/-- The link of island `j`, where it has one: NP0 to NP3, or index 4 for the CP island. -/
def linkOf (j : Nat) : Nat := if j = 6 then 4 else j

/-- What a domain reset leaves at its end (R362, R363): start-up in phase `p`, every array empty, the registers at their
reset values but those that R363, R382, R452 and R374 keep, the abort lines of held locks raised. -/
def afterReset (t u : State) (p : Nat) : Prop :=
  u.phase = p ∧ u.dirs = [] ∧ u.stalls = [] ∧ u.pen = [] ∧ u.ink = [] ∧ u.alc = [] ∧ u.ligs = [] ∧ u.rlys = [] ∧ u.tickets = [] ∧
  u.boot.domWait = false ∧ u.svc.abort = t.svc.abort ||| t.heldLocks ∧ u.svc.stage = t.svc.stage ∧ u.tod = t.tod ∧
  (∀ k, k < 8 → u.reg (R.GLB_SCRATCH + 8 * k) = t.reg (R.GLB_SCRATCH + 8 * k)) ∧
  ∀ b, keptReg (8 * b) = false → [R.ISL_PWRSTAT, R.ISL_PWRREQ, R.ISL_RSTSTAT, R.ISL_PWRWARN, R.BOOT_STATUS].all (fun a => a / 8 != b) = true →
    u.reg (8 * b) = regReset (8 * b)

/-- What a domain reset leaves that waits for the inkwell (R281, R363): every doorman at work again, the inkwell kept, no
command of the network open. -/
def waitsForReset (t u : State) : Prop :=
  u.boot.domWait = true ∧ u.phase = 0 ∧ u.flag R.ISL_RSTSTAT 0 = true ∧ u.ink = t.ink ∧ u.dirs = t.dirs ∧ u.ligs = [] ∧
  (∀ n, n < 4 → u.isOpen n = false ∧ (u.np n).inq = [] ∧ (u.np n).buf = []) ∧ ∀ e ∈ u.stalls, e.2.req.src = 4

end Sys2Proof.Machine

/-! ### The block as a whole -/

/-- A step takes the command at the front of the queue and carries it out on the state with the queue's rest; on an empty
queue the block idles (DESIGN CHOICE, log 1). -/
def Obligations.StepRunsFrontCommand : Prop :=
  (∀ (s : State) (c : Instr) (r : List Instr), s.pending = c :: r → step s = exec c { s with pending := r }) ∧
  (∀ s : State, s.pending = [] → step s = .next s)

/-- Every command answers a next state in every state (DESIGN CHOICE, log 10): none faults, none is refused. -/
def Obligations.EveryCommandAnswersNext : Prop := ∀ (c : Instr) (s : State), ∃ t, exec c s = .next t

/-- A command leaves the queue of commands, the time of day and all that has left the block as they were, and the register
window canonical; POWER_ON_RESET and TOD_PUBLISH apart, which set the time. -/
def Obligations.CommandsKeep : Prop :=
  ∀ (c : Instr) (s t : State), c ≠ .powerOnReset → (∀ d, c ≠ .todPublish d) → exec c s = .next t → Keeps s t

/-- Every step from a state whose register window is canonical leads to one whose window is canonical. -/
def Obligations.StepKeepsCanonical : Prop :=
  ∀ s t : State, s.canonical = true → step s = .next t → t.canonical = true

/-- The state right after reset: its window is canonical, every register reads the value of its row (R23, R362), every array
and queue is empty, and no command waits. -/
def Obligations.ResetState : Prop :=
  State.reset.canonical = true ∧ (∀ a, State.reset.reg (8 * a) = regReset (8 * a)) ∧ State.reset.pending = [] ∧
  State.reset.dirs = [] ∧ State.reset.exts = [] ∧ State.reset.stalls = [] ∧ State.reset.pen = [] ∧ State.reset.tickets = [] ∧
  State.reset.ink = [] ∧ State.reset.alc = [] ∧ State.reset.ligs = [] ∧ State.reset.rlys = [] ∧
  State.reset.svc.stage = [] ∧ State.reset.svc.nq = [] ∧ State.reset.svc.blot = [] ∧ State.reset.chk = false ∧ State.reset.phase = 0

/-- In a settled state nothing follows a command's own effect. What a declaration of checkstop leaves (R337): no stall, no
penned request, no ligature, no channel-port command, no move and no preload is open any more. -/
def Obligations.WhatFollowsCommands : Prop :=
  (∀ s u : State, u.settled s = true → finish s u = u) ∧
  ∀ s : State, s.sweep.stalls = [] ∧ s.sweep.pen = [] ∧ s.sweep.ligs = [] ∧ s.sweep.readyStrk = [] ∧ s.sweep.readyLig = [] ∧
    s.sweep.moves = [] ∧ s.sweep.preload = none ∧ s.sweep.cp.opens = [] ∧ s.sweep.cp.retry = [] ∧ s.sweep.pmc.dump = none

/-! ### Registers -/

/-- A write of a register acts on each field by its access code (R18): RW and unlocked RWL fields take the value, W1C and W1S
fields lose or gain the bits written 1, every other field stays, and no other register changes. -/
def Obligations.WriteActsByAccessCode : Prop :=
  (∀ r ∈ regRows, fieldsApart r.fields = true) ∧
  ∀ (s : State) (a : Nat) (v : Word) (r : RegRow) (f : Fld), s.canonical = true → regRow a = some r → f ∈ r.fields →
    fieldsApart r.fields = true →
    (s.storeReg a v).fld a f.lo f.width =
      (match f.acc with
       | .rw => getBits v f.lo f.width
       | .rwl => if s.lockedReg r then s.fld a f.lo f.width else getBits v f.lo f.width
       | .w1c => s.fld a f.lo f.width - (s.fld a f.lo f.width &&& getBits v f.lo f.width)
       | .w1s => s.fld a f.lo f.width ||| getBits v f.lo f.width
       | .ro | .rc | .wo => s.fld a f.lo f.width) ∧
    s.onlyRegs (s.storeReg a v) [a]

/-- REGISTER_WRITE of a scratch register stores the value and answers OK (R18, R340). REGISTER_READ_CLEAR returns the
register's value and then clears its RC fields, and nothing else (R18, R20). -/
def Obligations.RegistersWrittenAndCleared : Prop :=
  (∀ k, k < 8 → spDoes .registerWrite .write (fun _ x => x.addr = R.GLB_SCRATCH + 8 * k)
    (fun t x u v => v = 0 ∧ u.reg x.addr = x.data ∧ t.onlyRegs u [x.addr])) ∧
  spDoes .registerReadClear .readClear (fun _ x => x.world = true ∧ mbxChan x.addr = none)
    (fun t x u v => v = t.value x.addr ∧ t.onlyRegs u [x.addr] ∧
      (∀ r, regRow x.addr = some r → fieldsApart r.fields = true → ∀ f ∈ r.fields,
        u.fld x.addr f.lo f.width = if f.acc = .rc then 0 else t.fld x.addr f.lo f.width))

/-! ### The service port -/

/-- SP_REQUEST_ACCEPT (R406, R409): with fewer than 8 accesses of SP masters held, the access joins the input stage, and the
plain reads that the arbiter chooses are answered; with 8 it is not accepted. In an empty stage an access that is no plain read
waits for its own command, and a plain read is answered at once. An access that one of the checks of R408 refuses is answered
with its status and the value zero, and its register is not written (R15, R407, R408, R465). What is answered is a word with its
check byte (R14). -/
def Obligations.AccessesAcceptedAndRefused : Prop :=
  (∀ (a : SpAcc) (s : State), a.master ≠ 0x3FF →
    (s.svc.stage.countP (fun y => y.master != 0x3FF) < 8 →
      exec (.spRequestAccept a) s = .next (finish s ({ s with svc := { s.svc with stage := s.svc.stage ++ [a] } }.spIdle))) ∧
    (8 ≤ s.svc.stage.countP (fun y => y.master != 0x3FF) → exec (.spRequestAccept a) s = .next (finish s s)) ∧
    (s.svc.stage = [] → s.boot.queued = [] → s.spRow a ≠ .read →
      exec (.spRequestAccept a) s = .next (finish s { s with svc := { s.svc with stage := [a] } })) ∧
    (s.svc.stage = [] → s.boot.queued = [] → s.spRow a = .read → s.spStatus a = 0 →
      ∀ u, u = { s with svc := { s.svc with ptr := a.master + 1 } } →
      exec (.spRequestAccept a) s = .next (finish s ((u.plainRead a).1.spAnswer a 0 (u.plainRead a).2)))) ∧
  (∀ (s : State) (x : SpAcc), s.spStatus x =
    (if x.write = true ∧ x.word.chk ≠ .ok then 1 else if s.spAway x = true then 3 else if s.spSecret x = true then 2 else 0)) ∧
  (∀ (s t : State) (m : MasterId) (x : SpAcc), m ≠ 0x3FF → s.spNext m = some (x, t) → s.spRow x = .write → t.spStatus x ≠ 0 →
    ∀ u, u = { t with svc := { t.svc with ptr := x.master + 1 } } →
    exec (.registerWrite m) s = .next (finish s (((u.spRefused x (t.spStatus x)).spAnswer x (t.spStatus x) 0).spIdle))) ∧
  (∀ (s : State) (x : SpAcc) (st : Nat) (v : Word), x.master ≠ 0x3FF →
    (s.spAnswer x st v).svc.rsp = s.svc.rsp ++ [⟨x.master, x.tag, st, DWord.gen v⟩] ∧ (DWord.gen v).check = checkByte v)

/-! ### Ways, captures, rings -/

/-- INSP_SEL (R161) and ALC_INSP_SEL (R228): a write of the selector captures the stall or the entry that it names. -/
def Obligations.Captures : Prop :=
  (∀ c : Stall, spDoes .inspSel .insp
    (fun t x => x.addr = R.YARD_INSP_SEL ∧ SMap.find t.stalls (getBits x.data 0 11) = some c ∧ t.faults = [])
    (fun t x u v => v = 0 ∧ u.fld R.YARD_INSP_SEL 0 11 = getBits x.data 0 11 ∧ u.fld R.YARD_INSP0 0 3 = c.code % 8 ∧
      u.fld R.YARD_INSP0 15 18 = c.req.q.toNat ∧ u.fld R.YARD_INSP0 33 12 = c.req.tag.toNat ∧
      u.reg (R.YARD_INSP0 + 8) = BitVec.ofNat 64 c.h.toNat ∧ u.reg (R.YARD_INSP0 + 24) = c.acc ∧
      t.onlyRegs u [R.YARD_INSP_SEL, R.YARD_INSP0, R.YARD_INSP0 + 8, R.YARD_INSP0 + 16, R.YARD_INSP0 + 24])) ∧
  (∀ e : AlcEntry, spDoes .alcInspSel .alcInsp
    (fun t x => x.addr = R.ALC_INSP_SEL ∧ t.alcUndef.getLsbD (getBits x.data 0 6 / 8) = false ∧ t.bank (getBits x.data 0 6 / 8) ≠ 2 ∧ t.faults = [] ∧
      SMap.find t.alc (getBits x.data 0 6) = some e)
    (fun t _ u v => v = 0 ∧ u.fld R.ALC_INSP 0 34 = e.h.toNat ∧ u.flag R.ALC_INSP 34 = e.world ∧ u.flag R.ALC_INSP 35 = e.v ∧
      u.flag R.ALC_INSP 36 = e.d ∧ u.flag R.ALC_INSP 37 = e.lk ∧ u.flag R.ALC_INSP 38 = e.ref ∧
      t.onlyRegs u [R.ALC_INSP_SEL, R.ALC_INSP]))

/-- JHEAD_WRITE (R199): a value within HEAD to SEQ becomes the head; another changes nothing and sets the ring's bit of
LED.EVENTS.HEADERR. RING_ENABLE (R200): a ring that meets R200 is enabled with SEQ and HEAD zero; another stays disabled and
its refusal is shown. -/
def Obligations.JournalRings : Prop :=
  ∀ n, n < 8 →
    spDoes .jheadWrite .jhead (fun _ x => x.addr = R.LED_JHEAD + 0x20 * n)
      (fun t x u v => v = 0 ∧
        if (getBits x.data 0 48 + 2 ^ 48 - t.ringHead n) % 2 ^ 48 ≤ (t.ringSeq n + 2 ^ 48 - t.ringHead n) % 2 ^ 48 then
          u.ringHead n = getBits x.data 0 48 ∧ t.onlyRegs u [x.addr]
        else u.flag R.LED_EVENTS (16 + n) = true ∧ t.onlyRegs u [R.LED_EVENTS]) ∧
    spDoes .ringEnable .ringEnable
      (fun t x => x.addr = R.LED_JBASE + 0x20 * n ∧ bit x.data.toNat 63 = true ∧ t.ringEn n = false ∧ t.flag R.LED_CTL 63 = false)
      (fun t x u v => v = 0 ∧
        if t.ringOk n (getBits x.data 0 52) = true then
          u.ringEn n = true ∧ u.ringBase n = getBits x.data 0 52 ∧ u.ringSeq n = 0 ∧ u.ringHead n = 0 ∧
          t.onlyRegs u [x.addr, R.LED_JSEQ + 0x20 * n, R.LED_JHEAD + 0x20 * n]
        else u.ringEn n = false ∧ u.flag R.LED_EVENTS (8 + n) = true)

/-! ### Atomic line cache, and the power of ways and banks -/

/-- ALC_INV, ALC_ENABLE and ALC_DISABLE (R223-R225). INV with the ALC OFF begins the invalidate, and is refused otherwise
(cause 2). EN = 1 with the ALC OFF, its contents armed and bank 0 powered, turns it ON; it is refused with ARMED = 0 (cause 1),
with bank 0 down (cause 4) and while the ALC drains or invalidates (cause 3), and has no effect while the ALC is ON. INV = 1 and
EN = 1 while it is OFF start the invalidate and refuse EN. EN = 0 with the ALC ON begins the drain, also after a refused INV.
PRELOAD, PRELOAD_ZERO, PRELOAD_AND_LOCK and FLUSH (R219), `o` 0 to 3: with the ALC ON, no operation in progress, and a line that
its world reaches, the operation is taken and waits for what it needs. `refused`: what a refusal leaves. -/
def Obligations.AlcControl : Prop :=
  (∀ refused, refused = (fun (c : Nat) (t u : State) => u.fld R.ALC_STATUS 1 3 = c ∧ u.flag R.ALC_STATUS 4 = true ∧
      u.flag R.ALC_STATUS 0 = t.flag R.ALC_STATUS 0 ∧ t.onlyRegs u [R.ALC_STATUS]) →
    spDoes .alcInv .alcInv (fun t x => bit x.data.toNat 3 = true ∧ bit x.data.toNat 0 = false ∧ t.alcState = 0)
      (fun t _ u v => v = 0 ∧ u.alcState = 3 ∧ t.onlyRegs u [R.ALC_CTL]) ∧
    spDoes .alcInv .alcInv (fun t x => bit x.data.toNat 3 = true ∧ bit x.data.toNat 0 = true ∧ t.alcState = 0)
      (fun t _ u v => v = 0 ∧ u.alcState = 3 ∧ u.fld R.ALC_STATUS 1 3 = 3 ∧ u.flag R.ALC_STATUS 4 = true ∧ u.flag R.ALC_STATUS 0 = t.flag R.ALC_STATUS 0 ∧
        t.onlyRegs u [R.ALC_CTL, R.ALC_STATUS]) ∧
    spDoes .alcInv .alcInv (fun t x => bit x.data.toNat 3 = true ∧ bit x.data.toNat 0 = false ∧ t.alcState ≠ 0 ∧ t.alcState ≠ 1)
      (fun t _ u v => v = 0 ∧ refused 2 t u) ∧
    spDoes .alcInv .alcInv (fun t x => bit x.data.toNat 3 = true ∧ bit x.data.toNat 0 = false ∧ t.alcState = 1)
      (fun t _ u v => v = 0 ∧ u.fld R.ALC_STATUS 1 3 = 2 ∧ u.flag R.ALC_STATUS 4 = true ∧ u.alcState = 2 ∧ u.flag R.ALC_STATUS 0 = false ∧
        t.onlyRegs u [R.ALC_CTL, R.ALC_STATUS]) ∧
    spDoes .alcEnable .alcEnable (fun t x => bit x.data.toNat 3 = false ∧ bit x.data.toNat 0 = true ∧ t.alcState = 0 ∧
        t.flag R.ALC_STATUS 0 = true ∧ t.bank 0 ≠ 2 ∧ t.warn = false)
      (fun t _ u v => v = 0 ∧ u.alcState = 1 ∧ u.bypass = false ∧ t.onlyRegs u [R.ALC_CTL]) ∧
    spDoes .alcEnable .alcEnable (fun t x => bit x.data.toNat 3 = false ∧ bit x.data.toNat 0 = true ∧ t.alcState = 0 ∧
        t.flag R.ALC_STATUS 0 = false) (fun t _ u v => v = 0 ∧ refused 1 t u) ∧
    spDoes .alcEnable .alcEnable (fun t x => bit x.data.toNat 3 = false ∧ bit x.data.toNat 0 = true ∧ t.alcState = 0 ∧
        t.flag R.ALC_STATUS 0 = true ∧ t.bank 0 = 2) (fun t _ u v => v = 0 ∧ refused 4 t u) ∧
    spDoes .alcEnable .alcEnable (fun t x => bit x.data.toNat 3 = false ∧ bit x.data.toNat 0 = true ∧ (t.alcState = 2 ∨ t.alcState = 3))
      (fun t _ u v => v = 0 ∧ refused 3 t u) ∧
    spDoes .alcEnable .alcEnable (fun t x => bit x.data.toNat 3 = false ∧ bit x.data.toNat 0 = true ∧ t.alcState = 1)
      (fun t _ u v => v = 0 ∧ u = t) ∧
    spDoes .alcDisable .alcDisable (fun t x => bit x.data.toNat 3 = false ∧ bit x.data.toNat 0 = false ∧ t.alcState = 1)
      (fun t _ u v => v = 0 ∧ u.alcState = 2 ∧ u.flag R.ALC_STATUS 0 = false ∧ t.onlyRegs u [R.ALC_CTL, R.ALC_STATUS]) ∧
    spDoes .alcDisable .alcDisable (fun t x => bit x.data.toNat 3 = false ∧ bit x.data.toNat 0 = false ∧ t.alcState ≠ 1)
      (fun t _ u v => v = 0 ∧ u = t)) ∧
  ∀ (c : MasterId → Instr) (row : SpRow) (o : Nat) (h : HIdx),
    (c, row, o) = (Instr.preload, SpRow.preload, 0) ∨ (c, row, o) = (Instr.preloadZero, SpRow.preloadZero, 1) ∨
      (c, row, o) = (Instr.preloadAndLock, SpRow.preloadAndLock, 2) ∨ (c, row, o) = (Instr.flush, SpRow.flush, 3) →
    spDoes c row
      (fun t x => x.addr = R.ALC_PRELOAD ∧ t.preBusy = false ∧ t.alcState = 1 ∧ t.hIdx (BitVec.ofNat 52 (getBits x.data 0 52)) = some h ∧
        t.denies x.world (BitVec.ofNat 52 (getBits x.data 0 52)) = false ∧ getBits x.data 52 2 = o ∧ (o = 2 → t.lockLimit h = false))
      (fun t x u v => v = 0 ∧ u.preload.map (fun r => (r.1.line.toNat, r.2)) = some (getBits x.data 0 52, o) ∧
        t.onlyRegs { u with preload := t.preload } [R.ALC_PRELOAD])

/-- WAYPWR_REQ (R121, R124): with the directory clear, REQ = 0 starts the cleaning of ways 8-15 and REQ = 1 their clearing.
BANKPWR_REQ (R226, R227): a bit of REQ that falls starts the cleaning of its bank, a bit that rises on a bank that is OFF starts
its clearing; bank 0 is refused while the ALC is not OFF (cause 4). `b`: the one bit that changes. -/
def Obligations.WayAndBankPower : Prop :=
  spDoes .waypwrReq .waypwr
    (fun t x => x.addr = R.DIR_WAYPWR ∧ t.flag R.DIR_STATUS 0 = true ∧ t.flag R.DIR_WAYPWR 0 = true ∧ bit x.data.toNat 0 = false ∧
      t.wayState = 0)
    (fun t _ u v => v = 0 ∧ u.wayState = 1 ∧ u.flag R.DIR_WAYPWR 0 = false ∧ u.rcv.cleanPos = 0 ∧ u.dirs = t.dirs ∧
      t.regsKept u [R.DIR_WAYPWR]) ∧
  spDoes .waypwrReq .waypwr
    (fun t x => x.addr = R.DIR_WAYPWR ∧ t.flag R.DIR_STATUS 0 = true ∧ t.flag R.DIR_WAYPWR 0 = false ∧ bit x.data.toNat 0 = true ∧
      t.wayState = 2)
    (fun t _ u v => v = 0 ∧ u.wayState = 3 ∧ u.flag R.DIR_WAYPWR 0 = true ∧ t.onlyRegs u [R.DIR_WAYPWR]) ∧
  ∀ b, b < 8 →
    spDoes .bankpwrReq .bankpwr
      (fun t x => x.addr = R.ALC_BANKPWR ∧ getBits x.data 24 8 = 0 ∧ (∀ c, c < 8 → c ≠ b → bit x.data.toNat c = t.flag R.ALC_BANKPWR c) ∧
        t.flag R.ALC_BANKPWR b = true ∧ bit x.data.toNat b = false ∧ t.bank b = 0 ∧ (b ≠ 0 ∨ t.alcState = 0))
      (fun t _ u v => v = 0 ∧ u.bank b = 1 ∧ u.flag R.ALC_BANKPWR b = false ∧ t.onlyRegs u [R.ALC_BANKPWR]) ∧
    spDoes .bankpwrReq .bankpwr
      (fun t x => x.addr = R.ALC_BANKPWR ∧ getBits x.data 24 8 = 0 ∧ (∀ c, c < 8 → c ≠ b → bit x.data.toNat c = t.flag R.ALC_BANKPWR c) ∧
        t.flag R.ALC_BANKPWR b = false ∧ bit x.data.toNat b = true ∧ t.bank b = 2)
      (fun t _ u v => v = 0 ∧ u.bank b = 3 ∧ u.flag R.ALC_BANKPWR b = true ∧ t.onlyRegs u [R.ALC_BANKPWR]) ∧
    spDoes .bankpwrReq .bankpwr
      (fun t x => x.addr = R.ALC_BANKPWR ∧ getBits x.data 24 8 = 0 ∧ (∀ c, c < 8 → c ≠ b → bit x.data.toNat c = t.flag R.ALC_BANKPWR c) ∧
        b = 0 ∧ t.flag R.ALC_BANKPWR 0 = true ∧ bit x.data.toNat 0 = false ∧ t.alcState ≠ 0)
      (fun t _ u v => v = 0 ∧ u.flag R.ALC_BANKPWR 0 = true ∧ u.bank 0 = t.bank 0 ∧ u.fld R.ALC_STATUS 1 3 = 4 ∧
        u.flag R.ALC_STATUS 4 = true)
/-! ### Routes and the alias CAM -/

/-- EPOCH_SWAP_GO (R244, R245): a swap in progress makes RESULT BUSY and nothing else; with no valid target CUR flips at
once and STATE is RETIRING; with one valid target its answer is awaited from then on and STATE is SWAPPING.
EPOCH_ACK_TIMEOUT and EPOCH_RETIRE (R244, R245): the last target outstanding that does not answer ends the swap with TIMEOUT
and CUR unchanged; RETIRE µs after the flip STATE is IDLE and RESULT is DONE. -/
def Obligations.EpochSwaps : Prop :=
  (spDoes .epochSwapGo .epochSwapGo (fun t _ => t.swapState ≠ 0)
    (fun t _ u v => v = 0 ∧ u.fld R.RTE_EPOCHCTL 4 3 = 3 ∧ u.curEpoch = t.curEpoch ∧ u.swapState = t.swapState ∧
      t.onlyRegs u [R.RTE_EPOCHCTL]) ∧
  spDoes .epochSwapGo .epochSwapGo (fun t _ => t.swapState = 0 ∧ t.chk = false ∧ ∀ k, k < 64 → t.flag (swapReg k) 18 = false)
    (fun t _ u v => v = 0 ∧ u.curEpoch = 1 - t.curEpoch ∧ u.swapState = 2 ∧ u.mgt.flipAt = t.tod ∧
      t.onlyRegs { u with mgt := t.mgt } (R.RTE_EPOCHCTL :: (List.range 64).map swapReg)) ∧
  ∀ k, k < 64 → spDoes .epochSwapGo .epochSwapGo
    (fun t _ => t.swapState = 0 ∧ t.chk = false ∧ t.faults = [] ∧ t.flag (swapReg k) 18 = true ∧ ∀ j, j < 64 → j ≠ k → t.flag (swapReg j) 18 = false)
    (fun t _ u v => v = 0 ∧ u.curEpoch = t.curEpoch ∧ u.swapState = 1 ∧ u.mgt.swapOut = [(k, t.tod)] ∧
      t.regsKept u (R.RTE_EPOCHCTL :: (List.range 64).map swapReg ++ perfRegs ++ [R.YARD_RESP]))) ∧
  ((∀ (s : State) (k : Fin 64) (tt : Tod), s.mgt.swapOut = [(k.val, tt)] → s.mgt.swapNext = 64 → s.swapState = 1 → s.chk = false →
    s.canonical = true → s.ackTmo ≤ elapsed tt s.tod →
    ∃ u : State, exec (.epochAckTimeout k) s = .next (finish s u) ∧ u.swapState = 0 ∧ u.fld R.RTE_EPOCHCTL 4 3 = 2 ∧
      u.curEpoch = s.curEpoch ∧ u.mgt.swapOut = [] ∧ s.regsKept u (R.RTE_EPOCHCTL :: noteRegs)) ∧
  (∀ s : State, s.swapState = 2 → s.chk = false → usec (max 1 (s.fld R.RTE_EPOCHTIME 8 8)) ≤ elapsed s.mgt.flipAt s.tod → s.canonical = true →
    ∃ u : State, exec .epochRetire s = .next (finish s u) ∧ u.swapState = 0 ∧ u.fld R.RTE_EPOCHCTL 4 3 = 1 ∧
      u.curEpoch = s.curEpoch ∧ s.onlyRegs u [R.RTE_EPOCHCTL, R.PMC_CNT + 8 * 0xEE]))

/-- ROUTE_ENTRY_WRITE (R247): stored before READY, and from READY on for an entry of the other epoch while STATE is IDLE;
otherwise ignored, with WRIGN set. Bits [53:52] of an intra-cluster entry are Reserved and are not written (R21, R240). -/
def Obligations.RouteEntryWrites : Prop :=
  ∀ (n e i : Nat), n < 4 → e < 2 → i < 1024 →
    spDoes .routeEntryWrite .route
      (fun t x => x.addr = routeAddr n e i ∧ (t.fromReady = false ∨ t.swapState = 0 ∧ e ≠ t.curEpoch))
      (fun t x u v => v = 0 ∧ u.fld x.addr 0 48 = getBits x.data 0 48 ∧ u.fld x.addr 48 4 = getBits x.data 48 4 ∧
        u.fld x.addr 52 2 = (if i < 512 then getBits x.data 52 2 else t.fld x.addr 52 2) ∧ u.flag x.addr 63 = bit x.data.toNat 63 ∧
        t.onlyRegs { u with faults := t.faults } [x.addr]) ∧
    spDoes .routeEntryWrite .route
      (fun t x => x.addr = routeAddr n e i ∧ t.fromReady = true ∧ (t.swapState ≠ 0 ∨ e = t.curEpoch))
      (fun t _ u v => v = 0 ∧ u.flag R.RTE_EPOCHCTL 10 = true ∧ t.onlyRegs u [R.RTE_EPOCHCTL])

/-- The outcomes of a request to the alias CAM (R260), read top down: 3 CHAIN, 2 DUP, 0 DONE, 1 FULL, 4 NOTFOUND; and the
entry of a DONE. ALIAS_SET and ALIAS_REMOVE (R260): a DONE request writes its pair in its entry, or makes the entry invalid;
any other leaves the CAM as it was. RTE.ALIASSTAT shows the result. An ID whose fence entry is RETIRED loses that entry when it
gains a CAM entry (R327). -/
def Obligations.AliasRequests : Prop :=
  (∀ (s : State) (lo ph : Nat),
    ((lo = ph ∨ (∃ e ∈ s.camList, e.2.1 = ph) ∨ (∃ e ∈ s.camList, e.2.2 = lo)) → (s.aliasResult lo ph true).1 = 3) ∧
    (lo ≠ ph → (∀ e ∈ s.camList, e.2.1 ≠ ph ∧ e.2.2 ≠ lo) →
      ((∃ e ∈ s.camList, e.2.2 = ph ∧ e.2.1 ≠ lo) → (s.aliasResult lo ph true).1 = 2) ∧
      ((∀ e ∈ s.camList, e.2.2 = ph → e.2.1 = lo) →
        (∀ k p, (k, lo, p) ∈ s.camList → (∀ e ∈ s.camList, e.2.1 = lo → e.1 = k) → s.aliasResult lo ph true = (0, k)) ∧
        ((∀ e ∈ s.camList, e.2.1 ≠ lo) →
          (∀ k, k < 1024 → (∀ e ∈ s.camList, e.1 ≠ k) → (∀ j, j < k → ∃ e ∈ s.camList, e.1 = j) → s.aliasResult lo ph true = (0, k)) ∧
          ((∀ k, k < 1024 → ∃ e ∈ s.camList, e.1 = k) → (s.aliasResult lo ph true).1 = 1)))) ∧
    (∀ k p, (k, lo, p) ∈ s.camList → (∀ e ∈ s.camList, e.2.1 = lo → e.1 = k) → s.aliasResult lo ph false = (0, k)) ∧
    ((∀ e ∈ s.camList, e.2.1 ≠ lo) → (s.aliasResult lo ph false).1 = 4)) ∧
  (spDoes .aliasSet .aliasSet
    (fun t x => t.faults = [] ∧ (t.aliasResult (getBits x.data 0 18) (getBits x.data 18 18) true).1 = 0 ∧
      t.fenceIdx (BitVec.ofNat 18 (getBits x.data 0 18)) = none)
    (fun t x u v => v = 0 ∧ ∀ k, k = (t.aliasResult (getBits x.data 0 18) (getBits x.data 18 18) true).2 →
      u.fld (camReg k) 0 18 = getBits x.data 0 18 ∧ u.fld (camReg k) 18 18 = getBits x.data 18 18 ∧ u.flag (camReg k) 36 = true ∧
      u.fld R.RTE_ALIASSTAT 1 3 = 0 ∧ u.flag R.RTE_ALIASSTAT 4 = true ∧ u.fld R.RTE_ALIASSTAT 5 10 = k ∧
      t.onlyRegs u [R.RTE_ALIASCMD, R.RTE_ALIASSTAT, camReg k, R.PMC_CNT + 8 * 0xEF]) ∧
  (∀ j, spDoes .aliasSet .aliasSet
    (fun t x => t.faults = [] ∧ (t.aliasResult (getBits x.data 0 18) (getBits x.data 18 18) true).1 = 0 ∧
      t.fenceIdx (BitVec.ofNat 18 (getBits x.data 0 18)) = some j ∧ t.fld (fenceReg j) 18 2 = 3)
    (fun t x u v => v = 0 ∧ u.fld (fenceReg j) 18 2 = 0 ∧ u.fld R.RTE_ALIASSTAT 1 3 = 0 ∧
      u.fld (camReg (t.aliasResult (getBits x.data 0 18) (getBits x.data 18 18) true).2) 18 18 = getBits x.data 18 18)) ∧
  spDoes .aliasSet .aliasSet
    (fun t x => t.faults = [] ∧ (t.aliasResult (getBits x.data 0 18) (getBits x.data 18 18) true).1 ≠ 0)
    (fun t x u v => v = 0 ∧ u.fld R.RTE_ALIASSTAT 1 3 = (t.aliasResult (getBits x.data 0 18) (getBits x.data 18 18) true).1 ∧
      u.flag R.RTE_ALIASSTAT 4 = true ∧ t.onlyRegs u [R.RTE_ALIASCMD, R.RTE_ALIASSTAT]) ∧
  spDoes .aliasRemove .aliasRemove
    (fun t x => t.faults = [] ∧ (t.aliasResult (getBits x.data 0 18) (getBits x.data 18 18) false).1 = 0)
    (fun t x u v => v = 0 ∧ ∀ k, k = (t.aliasResult (getBits x.data 0 18) (getBits x.data 18 18) false).2 →
      u.flag (camReg k) 36 = false ∧ u.fld R.RTE_ALIASSTAT 1 3 = 0 ∧ u.flag R.RTE_ALIASSTAT 4 = true ∧
      t.onlyRegs u [R.RTE_ALIASCMD, R.RTE_ALIASSTAT, camReg k, R.PMC_CNT + 8 * 0xEF]) ∧
  spDoes .aliasRemove .aliasRemove
    (fun t x => t.faults = [] ∧ (t.aliasResult (getBits x.data 0 18) (getBits x.data 18 18) false).1 ≠ 0)
    (fun t _ u v => v = 0 ∧ u.fld R.RTE_ALIASSTAT 1 3 = 4 ∧ u.flag R.RTE_ALIASSTAT 4 = true ∧
      t.onlyRegs u [R.RTE_ALIASCMD, R.RTE_ALIASSTAT]))

/-! ### Ports, streams and regions, by the service port -/

/-- MP_CTL_FAIL (R270, R271): a port in use that no unmirrored region needs, the other port in RUN, becomes FAILED and the
domain is degraded; its reads and writes are given up here empty. RESYNC (R273): a FAILED port enters RESYNC, every
mirrored write in the inkwell goes to it as well, and the copy begins at the lowest line. STREAM_RST (R293): an idle stream starts again at BASE; with commands in
flight the reset is ignored and RSTIGN set. REGION_ENABLE (R263, R344, R345): a region that passes the checks becomes valid
with the values written; one that fails stays invalid, and one that is fixed keeps its values: SEC.REGSTAT shows the region
and the cause. -/
def Obligations.PortsStreamsRegions : Prop :=
  (∀ n, n < 2 →
    spDoes .mpCtlFail .mpCtlFail
      (fun t x => x.addr = mpBase R.MP_CTL n ∧ bit x.data.toNat 1 = false ∧ t.mpPresent n = true ∧ t.mpState n ≠ 2 ∧
        t.strands n = false ∧ t.mpState (1 - n) = 1 ∧ (t.mp n).reads = [] ∧ (t.mp n).copy = none ∧ t.ink = [])
      (fun t _ u v => v = 0 ∧ u.mpState n = 2 ∧ u.flag R.INK_STATUS 30 = true ∧ u.flag (mpBase R.MP_CTL n) 0 = true ∧
        (u.mp n).writes = [] ∧ u.chk = t.chk ∧ u.dirs = t.dirs ∧ u.stalls = t.stalls ∧
        t.regsKept u ([mpBase R.MP_CTL n, mpBase R.MP_STATUS n, R.ISL_RSTSTAT, R.INK_STATUS] ++ noteRegs)) ∧
    spDoes .resync .resync
      (fun t x => x.addr = mpBase R.MP_CTL n ∧ bit x.data.toNat 0 = false ∧ t.mpState n = 2 ∧ t.chk = false)
      (fun t _ u v => v = 0 ∧ u.mpState n = 4 ∧ u.fld (mpBase R.MP_STATUS n) 16 26 = 0 ∧ u.flag (mpBase R.MP_CTL n) 0 = false ∧
        (∃ c, (u.mp n).copy = some c ∧ c.pos = 0 ∧ c.busy = [] ∧ c.data = []) ∧
        (∀ k y, SMap.find t.ink k = some y → y.phase ≠ .reserved → y.repair = false → (t.portsOf y.h).length = 2 → n ∉ y.ports →
          SMap.find u.ink k = some { y with ports := y.ports ++ [n], need := y.need ++ [n] }) ∧
        u.dirs = t.dirs ∧ u.stalls = t.stalls ∧ t.regsKept u [mpBase R.MP_CTL n, mpBase R.MP_STATUS n])) ∧
  (∀ k, k < 64 →
    spDoes .streamRst .streamRst (fun t x => x.addr = cpReg k ∧ t.streamInfl k = 0)
      (fun t x u v => v = 0 ∧ u.fld (cpReg k) 0 16 = getBits x.data 41 16 ∧
        u.fld (cpReg k) 16 16 = (getBits x.data 41 16 + 2 ^ 16 - 1) % 2 ^ 16 ∧ u.fld (cpReg k) 41 16 = getBits x.data 41 16 ∧
        t.onlyRegs u [cpReg k]) ∧
    spDoes .streamRst .streamRst (fun t x => x.addr = cpReg k ∧ t.streamInfl k ≠ 0)
      (fun t _ u v => v = 0 ∧ u.fld (cpReg k) 0 16 = t.fld (cpReg k) 0 16 ∧ u.fld (cpReg k) 16 16 = t.fld (cpReg k) 16 16 ∧
        u.flag R.CP_STATUS 9 = true ∧ t.onlyRegs u [cpReg k, R.CP_STATUS])) ∧
  (∀ n, n < 64 →
    spDoes .regionEnable .regionEnable
      (fun t x => x.addr = R.SEC_REGIONA + 16 * n ∧ t.regionFixed n = false ∧
        t.regionCause n (getBits x.data 0 44) (bit x.data.toNat 44) = 0)
      (fun t x u v => v = 0 ∧ u.regionV n = true ∧ u.regionBase n = getBits x.data 0 44 ∧ u.regionMirror n = bit x.data.toNat 44 ∧
        u.regionWorld n = bit x.data.toNat 45 ∧ t.onlyRegs u [x.addr]) ∧
    spDoes .regionEnable .regionEnable
      (fun t x => x.addr = R.SEC_REGIONA + 16 * n ∧ t.regionFixed n = false ∧
        t.regionCause n (getBits x.data 0 44) (bit x.data.toNat 44) ≠ 0)
      (fun t x u v => v = 0 ∧ u.regionV n = false ∧ u.fld R.SEC_REGSTAT 0 6 = n ∧
        u.fld R.SEC_REGSTAT 6 3 = t.regionCause n (getBits x.data 0 44) (bit x.data.toNat 44) ∧ u.flag R.SEC_REGSTAT 9 = true ∧
        u.dirs = t.dirs ∧ t.regsKept u ([x.addr, R.SEC_REGSTAT] ++ noteRegs)) ∧
    spDoes .regionEnable .regionEnable (fun t x => x.addr = R.SEC_REGIONA + 16 * n ∧ t.regionFixed n = true)
      (fun t _ u v => v = 0 ∧ u.fld R.SEC_REGSTAT 0 6 = n ∧ u.fld R.SEC_REGSTAT 6 3 = 5 ∧ u.flag R.SEC_REGSTAT 9 = true ∧
        u.dirs = t.dirs ∧ t.regsKept u (R.SEC_REGSTAT :: noteRegs)))

/-! ### Recovery, checkstop and sparing, by the service port -/

/-- FENCE_SUSPECT (R320, R322, R327): an ID without an entry becomes SUSPECT in the lowest free one, trigger 4, and its
flush is asked for; an ID with an entry keeps it (EXISTS); without a free entry the domain stops with cause Integrity
(FULL). FENCE_FLUSHED and FENCE_NOFLUSH (R327, R328). FENCE_RELEASE (R327): a RETIRED entry becomes FREE, its other fields
kept (DESIGN CHOICE, log 24); an entry in another state is kept (STATE), and an ID without one is not found. -/
def Obligations.FenceCommands : Prop :=
  (∀ who : EpId,
    (∀ k, spDoes .fenceSuspect .fenceSuspect
      (fun t x => who = BitVec.ofNat 18 (getBits x.data 0 18) ∧ t.fenceIdx who = none ∧ t.fenceFree = some k ∧ t.rcv.req = none ∧
        t.rcv.asks = [] ∧ t.faults = [])
      (fun t _ u v => v = 0 ∧ u.fld (fenceReg k) 0 18 = who.toNat ∧ u.fld (fenceReg k) 18 2 = 1 ∧ u.fld (fenceReg k) 22 3 = 4 ∧
        u.fld R.GLB_FENCECMD 21 3 = 0 ∧ u.flag R.GLB_FENCECMD 24 = true ∧ u.flag R.GLB_RCVSTAT 17 = true ∧ u.rcv.req = some who ∧
        u.rcvTx = t.rcvTx ++ [t.toPhys who] ∧ u.stalls = t.stalls ∧ u.dirs = t.dirs ∧
        t.regsKept u ([fenceReg k, R.GLB_FENCECMD, R.GLB_RCVSTAT] ++ noteRegs))) ∧
    (∀ k, spDoes .fenceSuspect .fenceSuspect
      (fun t x => who = BitVec.ofNat 18 (getBits x.data 0 18) ∧ t.fenceIdx who = some k)
      (fun t _ u v => v = 0 ∧ u.fld R.GLB_FENCECMD 21 3 = 2 ∧ u.flag R.GLB_FENCECMD 24 = true ∧ t.onlyRegs u [R.GLB_FENCECMD])) ∧
    spDoes .fenceSuspect .fenceSuspect
      (fun t x => who = BitVec.ofNat 18 (getBits x.data 0 18) ∧ t.fenceIdx who = none ∧ t.fenceFree = none ∧ t.chk = false)
      (fun _ _ u v => v = 0 ∧ u.fld R.GLB_FENCECMD 21 3 = 1 ∧ u.flag R.GLB_FENCECMD 24 = true ∧ u.chk = true ∧ u.chkCause = 8)) ∧
  (fenceOutcomes .fenceFlushed .fenceFlushed 1 ∧ fenceOutcomes .fenceNoflush .fenceNoflush 2) ∧
  (∀ (who : EpId) (k : Nat),
    spDoes .fenceRelease .fenceRelease
      (fun t x => who = BitVec.ofNat 18 (getBits x.data 0 18) ∧ t.fenceIdx who = some k ∧ t.fld (fenceReg k) 18 2 = 3)
      (fun t _ u v => v = 0 ∧ u.fld (fenceReg k) 18 2 = 0 ∧ u.fld (fenceReg k) 0 18 = who.toNat ∧ u.fld R.GLB_FENCECMD 21 3 = 0 ∧
        u.flag R.GLB_FENCECMD 24 = true ∧ u.stalls = t.stalls ∧ u.dirs = t.dirs ∧ u.rcv = t.rcv ∧
        t.regsKept u ([fenceReg k, R.GLB_FENCECMD] ++ noteRegs)) ∧
    spDoes .fenceRelease .fenceRelease
      (fun t x => who = BitVec.ofNat 18 (getBits x.data 0 18) ∧ t.fenceIdx who = some k ∧ t.fld (fenceReg k) 18 2 ≠ 3)
      (fun t _ u v => v = 0 ∧ u.fld R.GLB_FENCECMD 21 3 = 3 ∧ t.onlyRegs u [R.GLB_FENCECMD]) ∧
    spDoes .fenceRelease .fenceRelease
      (fun t x => who = BitVec.ofNat 18 (getBits x.data 0 18) ∧ t.fenceIdx who = none)
      (fun t _ u v => v = 0 ∧ u.fld R.GLB_FENCECMD 21 3 = 4 ∧ t.onlyRegs u [R.GLB_FENCECMD]))

/-- CHKCMD_GO and CHKSTOP_IN (R336): checkstop is declared with the cause written (an unassigned one acts as Integrity), or
with Integrity; the source and the time are recorded. A later declaration only counts. -/
def Obligations.CheckstopDeclared : Prop :=
  spDoes .chkcmdGo .chkcmd (fun t _ => t.chk = false)
    (fun t x u v => v = 0 ∧ u.chk = true ∧ u.chkCause = (if 1 ≤ getBits x.data 0 8 ∧ getBits x.data 0 8 ≤ 9 then getBits x.data 0 8 else 8) ∧
      u.fld R.GLB_CHKSTOP 8 3 = 4 ∧ u.reg R.GLB_CHKTOD = t.tod ∧ u.dirs = t.dirs ∧ u.stalls = t.stalls ∧
      t.regsKept u ([R.GLB_CHKCMD, R.GLB_CHKSTOP, R.GLB_CHKTOD] ++ noteRegs)) ∧
  spDoes .chkcmdGo .chkcmd (fun t _ => t.chk = true)
    (fun t _ u v => v = 0 ∧ u.chkCause = t.chkCause ∧ u.fld R.GLB_CHKSTOP 8 3 = t.fld R.GLB_CHKSTOP 8 3 ∧
      u.fld R.GLB_CHKSTOP 29 8 = min (t.fld R.GLB_CHKSTOP 29 8 + 1) 255 ∧ t.onlyRegs u [R.GLB_CHKCMD, R.GLB_CHKSTOP]) ∧
  (∀ s : State, s.chk = false → s.canonical = true →
    ∃ u : State, exec .chkstopIn s = .next (finish s u) ∧ u.chk = true ∧ u.chkCause = 8 ∧ u.fld R.GLB_CHKSTOP 8 3 = 3 ∧
      u.reg R.GLB_CHKTOD = s.tod ∧ u.dirs = s.dirs ∧ u.stalls = s.stalls ∧
      s.regsKept u ([R.GLB_CHKSTOP, R.GLB_CHKTOD] ++ noteRegs)) ∧
  (∀ s : State, s.chk = true → s.canonical = true →
    ∃ u : State, exec .chkstopIn s = .next (finish s u) ∧ u.fld R.GLB_CHKSTOP 29 8 = min (s.fld R.GLB_CHKSTOP 29 8 + 1) 255 ∧
      s.onlyRegs u [R.GLB_CHKSTOP])

/-- SPARE_SET, SPARE_REMOVE and BCAST_ACK_TIMEOUT (R329): a sparing command, whose acknowledgement is awaited from every target,
and the last target of a broadcast that does not answer, which is counted in NOACK and ends it with result NOACK. -/
def Obligations.Sparing : Prop :=
  sparing .spareSet .spareSet true ∧ sparing .spareRemove .spareRemove false ∧
  (∀ (s : State) (target : EpId) (tt : Tod), s.mgt.bOut = [(target, tt)] → s.mgt.bTargets = [] → s.mgt.bMsg.isSome = true →
    s.ackTmo ≤ elapsed tt s.tod → s.canonical = true →
    ∃ u : State, exec (.bcastAckTimeout target) s = .next (finish s u) ∧ u.mgt.bOut = [] ∧ u.mgt.bMsg = none ∧
      u.fld R.GLB_BCAST 40 19 = min (s.fld R.GLB_BCAST 40 19 + 1) (2 ^ 19 - 1) ∧ u.fld R.GLB_BCAST 59 3 = 2 ∧
      u.flag R.GLB_BCAST 0 = false ∧ u.flag R.GLB_BCAST 62 = true ∧ s.onlyRegs { u with mgt := s.mgt } [R.GLB_BCAST])

/-! ### The home ID, islands, resets and start-up, by the service port -/

/-- HOMEID_WRITE (R463): stored before READY unless GLB.CTL.LOCK is set; from READY onwards without effect. OSTREADY (R394,
R396): the ostler's write marks its configuration done, and READY follows once the directory is clear; a write by any other
master has no effect. -/
def Obligations.HomeIdAndOstler : Prop :=
  (spDoes .homeidWrite .homeid (fun t _ => t.fromReady = false ∧ t.flag R.GLB_CTL 63 = false)
    (fun t x u v => v = 0 ∧ u.homeId.toNat = getBits x.data 0 18 ∧ u.domain.toNat = getBits x.data 18 12 ∧ t.onlyRegs u [R.GLB_HOMEID]) ∧
  spDoes .homeidWrite .homeid (fun t _ => t.fromReady = true) (fun t _ u v => v = 0 ∧ u = t)) ∧
  (spDoes .ostready .ostready
    (fun t x => x.master = 0x3FF ∧ t.boot.ostRun = true ∧ t.phase = 5 ∧ t.flag R.DIR_STATUS 0 = true ∧ t.flag R.BOOT_MUSTER 16 = true ∧
      bit x.data.toNat 1 = false ∧ bit x.data.toNat 63 = false)
    (fun t _ u v => v = 0 ∧ u.flag R.BOOT_CTL 0 = true ∧ u.phase = 6 ∧ u.reg R.BOOT_TREADY = t.tod ∧
      t.onlyRegs u [R.BOOT_CTL, R.BOOT_STATUS, R.BOOT_TREADY]) ∧
  spDoes .ostready .ostready
    (fun t x => x.master = 0x3FF ∧ t.boot.ostRun = true ∧ t.flag R.DIR_STATUS 0 = false ∧
      bit x.data.toNat 1 = false ∧ bit x.data.toNat 63 = false)
    (fun t _ u v => v = 0 ∧ u.flag R.BOOT_CTL 0 = true ∧ u.phase = t.phase ∧ t.onlyRegs u [R.BOOT_CTL]) ∧
  spDoes .ostready .ostready (fun _ x => x.master ≠ 0x3FF ∧ bit x.data.toNat 1 = false ∧ bit x.data.toNat 63 = false)
    (fun t _ u v => v = 0 ∧ u = t))

/-- RSTCMD_FUNC (R365): an island that is powered and not resetting begins its function reset; any other request is refused
with cause BUSY. POWER_DOWN_REQ and POWER_UP_REQ (R367-R369), for one island `j`, the others ON or GATED and asked to stay
so. -/
def Obligations.IslandRequests : Prop :=
  (∀ i,
    (i < 4 → spDoes .rstcmdFunc .rstFunc
      (fun t x => i = getBits x.data 1 4 ∧ t.powered i = true ∧ t.flag R.ISL_RSTSTAT (1 + i) = false)
      (fun t _ u v => v = 0 ∧ u.flag R.ISL_RSTSTAT (1 + i) = true ∧ u.link i = (if t.link i = 1 ∨ t.link i = 2 then 2 else 3) ∧
        (t.link i ≠ 1 → t.link i ≠ 2 → (u.np i).cred = [0, 0, 0, 0, 0, 0] ∧ (u.np i).grant = [0, 0, 0, 0, 0, 0]) ∧
        t.onlyRegs { u with nps := t.nps } [R.ISL_RSTCMD, R.ISL_RSTSTAT, npBase R.NP_STATUS i])) ∧
    (4 ≤ i → i < 6 → spDoes .rstcmdFunc .rstFunc
      (fun t x => i = getBits x.data 1 4 ∧ t.powered i = true ∧ t.flag R.ISL_RSTSTAT (1 + i) = false ∧
        (t.mpState (i - 4) = 1 ∨ t.mpState (i - 4) = 3) ∧ (t.mp (i - 4)).reads = [] ∧ (t.mp (i - 4)).writes = [])
      (fun t _ u v => v = 0 ∧ u.flag R.ISL_RSTSTAT (1 + i) = true ∧ u.mpState (i - 4) = 3 ∧ (u.mp (i - 4)).driven = true ∧
        (u.mp (i - 4)).rdCred = 0 ∧ (u.mp (i - 4)).wrCred = 0 ∧ u.ink = t.ink ∧ u.dirs = t.dirs ∧ u.stalls = t.stalls ∧
        t.regsKept u [R.ISL_RSTCMD, R.ISL_RSTSTAT, mpBase R.MP_STATUS (i - 4)])) ∧
    (i = 6 → spDoes .rstcmdFunc .rstFunc
      (fun t x => i = getBits x.data 1 4 ∧ t.powered i = true ∧ t.flag R.ISL_RSTSTAT (1 + i) = false)
      (fun t _ u v => v = 0 ∧ u.flag R.ISL_RSTSTAT 7 = true ∧ u.link 4 = 3 ∧ u.cp.driven = true ∧ u.cp.lost = true ∧ u.cp.eg = [] ∧
        u.cp.opens = t.cp.opens ∧ u.cp.retry = t.cp.retry ∧ t.onlyRegs { u with cp := t.cp } [R.ISL_RSTCMD, R.ISL_RSTSTAT, R.CP_STATUS])) ∧
    spDoes .rstcmdFunc .rstFunc
      (fun t x => i = getBits x.data 1 4 ∧ (6 < i ∨ t.powered i = false ∨ t.flag R.ISL_RSTSTAT (1 + i) = true))
      (fun t _ u v => v = 0 ∧ u.flag R.ISL_PWREVT 8 = true ∧ u.fld R.ISL_PWREVT 9 4 = i ∧ u.fld R.ISL_PWREVT 13 3 = 5 ∧
        t.onlyRegs u [R.ISL_RSTCMD, R.ISL_PWREVT])) ∧
  (∀ j, j < 8 →
    (∀ c, c ≠ 0 → spDoes .powerDownReq .powerDown
      (fun t x => (∀ i, i < 8 → i ≠ j → bit x.data.toNat i = true ∧ t.isl i ≤ 1) ∧ bit x.data.toNat j = false ∧ t.isl j ≤ 1 ∧ t.downCause j = c)
      (fun t _ u v => v = 0 ∧ u.isl j = t.isl j ∧ u.flag R.ISL_PWRREQ j = t.flag R.ISL_PWRREQ j ∧ u.flag R.ISL_PWREVT 8 = true ∧
        u.fld R.ISL_PWREVT 9 4 = j ∧ u.fld R.ISL_PWREVT 13 3 = c ∧ t.onlyRegs u [R.ISL_PWRREQ, R.ISL_PWREVT])) ∧
    spDoes .powerDownReq .powerDown
      (fun t x => (∀ i, i < 8 → i ≠ j → bit x.data.toNat i = true ∧ t.isl i ≤ 1) ∧ bit x.data.toNat j = false ∧ t.isl j ≤ 1 ∧ t.downCause j = 0)
      (fun t _ u v => v = 0 ∧ u.isl j = 2 ∧ u.flag R.ISL_PWRREQ j = false ∧ (∀ i, i < 8 → i ≠ j → u.isl i = t.isl i) ∧
        (j < 4 ∨ j = 6 → t.link (linkOf j) = 1 → u.link (linkOf j) = 2) ∧
        t.onlyRegs u [R.ISL_PWRREQ, R.ISL_PWRSTAT, npBase R.NP_STATUS j, R.CP_STATUS]) ∧
    spDoes .powerUpReq .powerUp
      (fun t x => (∀ i, i < 8 → i ≠ j → bit x.data.toNat i = true ∧ t.isl i ≤ 1) ∧ bit x.data.toNat j = true ∧ t.isl j = 3)
      (fun t _ u v => v = 0 ∧ u.isl j = 4 ∧ u.flag R.ISL_PWRREQ j = true ∧ (∀ i, i < 8 → i ≠ j → u.isl i = t.isl i) ∧
        t.onlyRegs u [R.ISL_PWRREQ, R.ISL_PWRSTAT]) ∧
    spDoes .powerUpReq .powerUp
      (fun t x => (∀ i, i < 8 → i ≠ j → bit x.data.toNat i = true ∧ t.isl i ≤ 1) ∧ bit x.data.toNat j = true ∧ t.isl j = 2)
      (fun t _ u v => v = 0 ∧ u.isl j = 0 ∧ u.flag R.ISL_PWRREQ j = true ∧ u.flag R.ISL_PWREVT j = true ∧
        (∀ i, i < 8 → i ≠ j → u.isl i = t.isl i) ∧ (j < 4 ∨ j = 6 → t.link (linkOf j) = 2 → u.link (linkOf j) = 1) ∧
        t.onlyRegs u [R.ISL_PWRREQ, R.ISL_PWRSTAT, R.ISL_PWREVT, npBase R.NP_STATUS j, R.CP_STATUS]))

/-- RSTCMD_DOMAIN, DOMRST_REQ and BOOT_RETRY (R363, R377, R392): a domain reset is carried out, at once when no write is left
in the inkwell or the domain is in checkstop, otherwise after the wait; start-up resumes at the image load, or for RETRY at
DISCOVER. A request during a domain reset, and a RETRY outside FAILED, has no effect. -/
def Obligations.DomainResets : Prop :=
  spDoes .rstcmdDomain .rstDomain (fun t _ => t.inDomainReset = false ∧ (t.chk = true ∨ t.inkClear = true) ∧ t.isl 7 ≤ 2)
    (fun t _ u v => v = 0 ∧ afterReset t u 2 ∧ u.fld R.ISL_RSTSTAT 8 2 = 2) ∧
  spDoes .rstcmdDomain .rstDomain (fun t _ => t.inDomainReset = false ∧ t.chk = false ∧ t.inkClear = false)
    (fun t _ u v => v = 0 ∧ waitsForReset t u ∧ u.fld R.ISL_RSTSTAT 8 2 = 2) ∧
  spDoes .rstcmdDomain .rstDomain (fun t _ => t.inDomainReset = true) (fun t _ u v => v = 0 ∧ t.onlyRegs u [R.ISL_RSTCMD]) ∧
  (∀ s : State, s.canonical = true → s.inDomainReset = false → s.chk = true ∨ s.inkClear = true → s.isl 7 ≤ 2 →
    ∃ u : State, exec .domrstReq s = .next (finish s u) ∧ afterReset s u 2 ∧ u.fld R.ISL_RSTSTAT 8 2 = 1) ∧
  (∀ s : State, s.canonical = true → s.inDomainReset = false → s.chk = false → s.inkClear = false →
    ∃ u : State, exec .domrstReq s = .next (finish s u) ∧ waitsForReset s u ∧ u.fld R.ISL_RSTSTAT 8 2 = 1) ∧
  (∀ s : State, s.inDomainReset = true → exec .domrstReq s = .next (finish s s)) ∧
  spDoes .bootRetry .bootRetry (fun t x => t.phase = 9 ∧ t.isl 7 ≤ 2 ∧ bit x.data.toNat 0 = false)
    (fun t _ u v => v = 0 ∧ afterReset t u 1) ∧
  spDoes .bootRetry .bootRetry (fun t x => t.phase ≠ 9 ∧ bit x.data.toNat 0 = false ∧ bit x.data.toNat 63 = false)
    (fun t _ u v => v = 0 ∧ u = t)


/-! ### Mailboxes -/

/-- MBX_BIND (R413): V = 1 fixes a channel; SENDER = RECEIVER is refused and recorded; a bound channel keeps its binding.
MBX_POST and MBX_TAKE (R414-R416, R421): the bound sender's write of word 3 posts the four staged words and rings the
channel's doorbell, or with FULL = 1 sets OVERRUN and keeps the message; the receiver's read of word 3 returns it and frees
the channel, ringing ACKDB where the binding asks for it; an access of another master only counts. -/
def Obligations.Mailboxes : Prop :=
  (∀ c, c < 32 →
    spDoes .mbxBind .mbxBind
      (fun t x => x.addr = mbxReg R.MBX_BIND c ∧ t.mbxV c = false ∧ getBits x.data 0 10 ≠ getBits x.data 10 10)
      (fun t x u v => v = 0 ∧ u.mbxV c = true ∧ u.mbxSender c = getBits x.data 0 10 ∧ u.mbxReceiver c = getBits x.data 10 10 ∧
        u.fld x.addr 20 8 = getBits x.data 20 8 ∧ t.onlyRegs u [x.addr]) ∧
    spDoes .mbxBind .mbxBind
      (fun t x => x.addr = mbxReg R.MBX_BIND c ∧ t.mbxV c = false ∧ getBits x.data 0 10 = getBits x.data 10 10)
      (fun t x u v => v = 0 ∧ u.mbxV c = false ∧ u.flag R.MBX_ERR 32 = true ∧ u.fld R.MBX_ERR 33 5 = c ∧
        t.regsKept u ([x.addr, R.MBX_ERR] ++ noteRegs)) ∧
    spDoes .mbxBind .mbxBind (fun t x => x.addr = mbxReg R.MBX_BIND c ∧ t.mbxV c = true) (fun t _ u v => v = 0 ∧ u = t)) ∧
  (∀ c, c < 32 →
    spDoes .mbxPost .mbxPost
      (fun t x => x.addr = mbxReg R.MBX_DATA3 c ∧ t.mbxV c = true ∧ t.mbxSender c = x.master.toNat ∧ t.mbxFull c = false)
      (fun t x u v => v = 0 ∧ u.mbxFull c = true ∧ u.flag R.MBX_DB c = true ∧
        SMap.find u.svc.msg c = some [t.reg (mbxReg R.MBX_DATA0 c), t.reg (mbxReg R.MBX_DATA1 c), t.reg (mbxReg R.MBX_DATA2 c), x.data] ∧
        t.onlyRegs { u with svc := t.svc } [x.addr, mbxReg R.MBX_STAT c, R.MBX_DB, R.MBX_CROSS]) ∧
    spDoes .mbxPost .mbxPost
      (fun t x => x.addr = mbxReg R.MBX_DATA3 c ∧ t.mbxV c = true ∧ t.mbxSender c = x.master.toNat ∧ t.mbxFull c = true)
      (fun t x u v => v = 0 ∧ u.flag (mbxReg R.MBX_STAT c) 3 = true ∧ u.mbxFull c = true ∧ u.reg x.addr = x.data ∧
        u.fld R.MBX_ERR 16 16 = min (t.fld R.MBX_ERR 16 16 + 1) 0xFFFF ∧ t.onlyRegs u [x.addr, mbxReg R.MBX_STAT c, R.MBX_ERR]) ∧
    spDoes .mbxTake .mbxTake
      (fun t x => x.addr = mbxReg R.MBX_DATA3 c ∧ t.mbxV c = true ∧ t.mbxReceiver c = x.master.toNat ∧ t.mbxFull c = true)
      (fun t _ u v => v = ((SMap.find t.svc.msg c).getD []).getD 3 0 ∧ u.mbxFull c = false ∧ u.flag (mbxReg R.MBX_STAT c) 1 = true ∧
        (t.flag (mbxReg R.MBX_BIND c) 26 = true → u.flag R.MBX_DB (t.fld (mbxReg R.MBX_BIND c) 21 5) = true) ∧
        t.onlyRegs { u with svc := t.svc } [mbxReg R.MBX_STAT c, R.MBX_DB]) ∧
    spDoes .mbxTake .mbxTake
      (fun t x => x.addr = mbxReg R.MBX_DATA3 c ∧ (t.mbxV c = false ∨ t.mbxReceiver c ≠ x.master.toNat ∧ t.mbxSender c ≠ x.master.toNat))
      (fun t _ u v => v = 0 ∧ u.fld R.MBX_ERR 0 16 = min (t.fld R.MBX_ERR 0 16 + 1) 0xFFFF ∧ t.onlyRegs u [R.MBX_ERR]))

/-! ### Hitching rail -/

/-- RAIL_ACQUIRE (R422), the four rows of its table: what the read does to the lock and the fields that it returns, HOLDER
[9:0], GRANTED [10], NEW [11], WORLD [12], HELD [13]; a non-secure read of a secure lock is refused with status WORLD and
returns zero. -/
def Obligations.RailAcquires : Prop :=
  ∀ k, k < 64 →
    spDoes .railAcquire .railAcquire (fun t x => x.addr = railReg k ∧ t.railHeld k = false)
      (fun t x u v => u.railHeld k = true ∧ u.railHolder k = x.master.toNat ∧ getBits v 0 10 = x.master.toNat ∧ getBits v 10 1 = 1 ∧
        getBits v 11 1 = 1 ∧ getBits v 12 1 = b2n (t.railSecure k) ∧ getBits v 13 1 = 1 ∧ t.onlyRegs u [railReg k]) ∧
    spDoes .railAcquire .railAcquire (fun t x => x.addr = railReg k ∧ t.railHeld k = true ∧ t.railHolder k = x.master.toNat)
      (fun t x u v => u = t ∧ getBits v 0 10 = x.master.toNat ∧ getBits v 10 1 = 1 ∧ getBits v 11 1 = 0 ∧
        getBits v 12 1 = b2n (t.railSecure k) ∧ getBits v 13 1 = 1) ∧
    spDoes .railAcquire .railAcquire (fun t x => x.addr = railReg k ∧ t.railHeld k = true ∧ t.railHolder k ≠ x.master.toNat)
      (fun t _ u v => u.fld R.RAIL_STAT 0 16 = min (t.fld R.RAIL_STAT 0 16 + 1) 0xFFFF ∧ getBits v 0 10 = t.railHolder k ∧
        getBits v 10 1 = 0 ∧ getBits v 11 1 = 0 ∧ getBits v 12 1 = b2n (t.railSecure k) ∧ getBits v 13 1 = 1 ∧
        t.onlyRegs u [R.RAIL_STAT]) ∧
    ∀ (s t : State) (m : MasterId) (x : SpAcc), m ≠ 0x3FF → s.spNext m = some (x, t) → x.write = false → x.addr = railReg k →
      t.railSecure k = true → x.world = false → t.spAway x = false →
      ∃ u : State, exec (.railAcquire m) s = .next (finish s (u.spAnswer x 2 0).spIdle) ∧
        u.railHeld k = t.railHeld k ∧ u.railHolder k = t.railHolder k ∧ u.fld R.RAIL_STAT 0 16 = t.fld R.RAIL_STAT 0 16 ∧
        (u.spAnswer x 2 0).svc.rsp = t.svc.rsp ++ [⟨x.master, x.tag, 2, DWord.gen 0⟩]

/-- RAIL_RELEASE (R423): the holder's write of REL = 1 frees the lock; another master's has no effect but counts in
RAIL.STAT.BADREL; a write of REL = 0 has none; the abort lines stay as they are. -/
def Obligations.RailReleases : Prop :=
  ∀ k, k < 64 →
    spDoes .railRelease .railRelease (fun t x => x.addr = railReg k ∧ t.railHeld k = true ∧ t.railHolder k = x.master.toNat)
      (fun t _ u v => v = 0 ∧ u.railHeld k = false ∧ u.svc.abort = t.svc.abort ∧ t.onlyRegs u [railReg k]) ∧
    spDoes .railRelease .railRelease
      (fun t x => x.addr = railReg k ∧ (t.railHeld k = false ∨ t.railHolder k ≠ x.master.toNat))
      (fun t _ u v => v = 0 ∧ u.fld R.RAIL_STAT 16 16 = min (t.fld R.RAIL_STAT 16 16 + 1) 0xFFFF ∧ u.svc.abort = t.svc.abort ∧
        t.onlyRegs u [R.RAIL_STAT]) ∧
    spDoes .registerWrite .write (fun _ x => x.addr = railReg k ∧ x.write = true ∧ x.wrong = false ∧ bit x.data.toNat 63 = false)
      (fun t _ u v => v = 0 ∧ t.onlyRegs u [])

/-- RAIL_FORCE, SP_MASTER_RESET and RAIL_ABORT_PULSE_END (R420, R425): a forced release frees the lock, counts it, drives its
abort line and, with RELNQ, notices it; of a free lock it does nothing. A master reset discards the master's held accesses and
releases its locks so, no other lock; an ID of 0x3FF has no effect. The pulse's end lowers that line alone. -/
def Obligations.ForcedReleases : Prop :=
  (∀ k, spDoes .railForce .railForce (fun t x => k = getBits x.data 0 6 ∧ t.railHeld k = true)
    (fun t _ u v => v = 0 ∧ u.railHeld k = false ∧ u.fld R.RAIL_STAT 32 16 = min (t.fld R.RAIL_STAT 32 16 + 1) 0xFFFF ∧
      u.svc.abort.getLsbD k = true ∧ u.svc.nqIn.length = t.svc.nqIn.length + b2n (t.flag R.RAIL_CTL 0) ∧
      t.onlyRegs { u with svc := t.svc } [railReg k, R.RAIL_STAT, R.RAIL_FORCE])) ∧
  (∀ k, spDoes .railForce .railForce (fun t x => k = getBits x.data 0 6 ∧ t.railHeld k = false)
    (fun t _ u v => v = 0 ∧ t.onlyRegs u [R.RAIL_FORCE])) ∧
  (∀ (s : State) (m : MasterId), m ≠ 0x3FF → s.canonical = true →
    ∃ u : State, exec (.spMasterReset m) s = .next u.spIdle ∧ u.svc.stage = s.svc.stage.filter (fun x => x.master != m) ∧
      ∀ k, k < 64 →
        (s.railHeld k = true → s.railHolder k = m.toNat → u.railHeld k = false ∧ u.svc.abort.getLsbD k = true) ∧
        (s.railHeld k = true → s.railHolder k ≠ m.toNat → u.reg (railReg k) = s.reg (railReg k) ∧ u.svc.abort.getLsbD k = s.svc.abort.getLsbD k)) ∧
  (∀ s : State, exec (.spMasterReset 0x3FF) s = .next s) ∧
  (∀ (s : State) (k : Fin 64), ∃ u : State, exec (.railAbortPulseEnd k) s = .next u ∧ s = { u with svc := s.svc } ∧
    ∀ j, u.svc.abort.getLsbD j = (s.svc.abort.getLsbD j && decide (j ≠ k.val)))

/-! ### Notice queue -/

/-- NQ_POST (R426, R429): the ostler's write of the last word posts a record of LEN + 1 words, when its KIND is one of its
own; NQ_RECORD_WRITE (R427): the first competing record is written whole at WP when it fits in FREE, and dropped whole
otherwise, unless a GAP record is due. GAP_RECORD_WRITE (R428): while GAPPEND = 1 and FREE ≥ 1, a one-word GAP record of the
number of records dropped is written, GAPPEND cleared; NQ_RECORD_WRITE takes no record then. -/
def Obligations.NoticeRecords : Prop :=
  ((∀ j, j < 4 → spDoes .nqPost .nqPost
    (fun t x => x.addr = R.NQ_POST + 8 * j ∧ x.master = 0x3FF ∧ j = (t.setReg x.addr x.data).fld R.NQ_POST 0 2 ∧
      0x40 ≤ (t.setReg x.addr x.data).fld R.NQ_POST 2 8 ∧ (t.setReg x.addr x.data).fld R.NQ_POST 2 8 ≤ 0x7F)
    (fun t x u v => v = 0 ∧ u.reg x.addr = x.data ∧ t.onlyRegs { u with svc := t.svc } [x.addr] ∧
      ∃ h : Word, u.svc.nqIn = t.svc.nqIn ++ [h :: (List.range j).map (fun k => u.reg (R.NQ_POST + 8 * (k + 1)))] ∧
        getBits h 0 2 = j ∧ getBits h 2 8 = u.fld R.NQ_POST 2 8 ∧ getBits h 10 21 = u.fld R.NQ_POST 10 21)) ∧
  (∀ (s : State) (ws : List Word) (r : List (List Word)), s.canonical = true → s.svc.nqIn = ws :: r → 1 ≤ ws.length → ws.length ≤ 4 →
    (s.flag R.NQ_STATUS 23 = false ∨ s.nqFree = 0) →
    ∃ u : State, exec .nqRecordWrite s = .next u ∧ u.svc.nqIn = r ∧
      (if ws.length ≤ s.nqFree then
         u.fld R.NQ_PTR 0 16 = (s.fld R.NQ_PTR 0 16 + ws.length) % 2 ^ 16 ∧ s.onlyRegs { u with svc := s.svc } [R.NQ_PTR] ∧
         (∀ i, 1 ≤ i → i < ws.length → SMap.find u.svc.nq ((s.fld R.NQ_PTR 0 16 + i) % 1024) = ws[i]?) ∧
         ∃ h, SMap.find u.svc.nq (s.fld R.NQ_PTR 0 16 % 1024) = some h ∧ getBits h 0 32 = getBits (ws.headD 0) 0 32 ∧
           getBits h 32 32 = s.tod.toNat / 4096 % 2 ^ 32
       else
         u.svc.nq = s.svc.nq ∧ u.fld R.NQ_DROP 0 16 = min (s.fld R.NQ_DROP 0 16 + 1) 0xFFFF ∧ u.flag R.NQ_STATUS 26 = true ∧
         u.flag R.NQ_STATUS 23 = true ∧ u.svc.gap = s.svc.gap + 1 ∧ s.regsKept u [R.NQ_DROP, R.NQ_STATUS, R.PMC_CNT + 8 * 0xFD]))) ∧
  (∀ s : State, s.canonical = true → s.flag R.NQ_STATUS 23 = true → 1 ≤ s.nqFree →
    (∃ u : State, exec .gapRecordWrite s = .next u ∧ u.flag R.NQ_STATUS 23 = false ∧ u.svc.gap = 0 ∧ u.svc.nqIn = s.svc.nqIn ∧
      u.fld R.NQ_PTR 0 16 = (s.fld R.NQ_PTR 0 16 + 1) % 2 ^ 16 ∧ s.onlyRegs { u with svc := s.svc } [R.NQ_PTR, R.NQ_STATUS] ∧
      ∃ h, SMap.find u.svc.nq (s.fld R.NQ_PTR 0 16 % 1024) = some h ∧ getBits h 0 10 = 0 ∧
        (s.svc.gap < 2 ^ 21 → getBits h 10 21 = s.svc.gap)) ∧
    exec .nqRecordWrite s = .next s)

/-- NQ_READ, NQ_MARK, NQ_REWIND and NQ_RELEASE (R430, R431), by the master that NQ.CTL.READER names; of any other a read
returns zero, and an access only counts in NOTREADER. -/
def Obligations.NoticeReader : Prop :=
  spDoes .nqRead .nqRead (fun t x => t.nqReader x.master = true ∧ t.nqAvail ≠ 0)
    (fun t _ u v => v = (SMap.find t.svc.nq (t.fld R.NQ_PTR 16 16 % 1024)).getD 0 ∧
      u.fld R.NQ_PTR 16 16 = (t.fld R.NQ_PTR 16 16 + 1) % 2 ^ 16 ∧ t.onlyRegs u [R.NQ_PTR] ∧ [0, 32, 48].all (ptrKept t u) = true) ∧
  spDoes .nqRead .nqRead (fun t x => t.nqReader x.master = true ∧ t.nqAvail = 0)
    (fun t _ u v => v = 0 ∧ u.flag R.NQ_STATUS 24 = true ∧ u.fld R.NQ_DROP 16 16 = min (t.fld R.NQ_DROP 16 16 + 1) 0xFFFF ∧
      t.onlyRegs u [R.NQ_DROP, R.NQ_STATUS]) ∧
  spDoes .nqRead .nqRead (fun t x => t.nqReader x.master = false)
    (fun t _ u v => v = 0 ∧ u.fld R.NQ_DROP 32 16 = min (t.fld R.NQ_DROP 32 16 + 1) 0xFFFF ∧ t.onlyRegs u [R.NQ_DROP]) ∧
  spDoes .nqMark .nqMark (fun t x => t.nqReader x.master = true)
    (fun t _ u v => v = 0 ∧ u.fld R.NQ_PTR 48 16 = t.fld R.NQ_PTR 16 16 ∧ u.flag R.NQ_STATUS 22 = true ∧
      t.onlyRegs u [R.NQ_CMD, R.NQ_PTR, R.NQ_STATUS] ∧ [0, 16, 32].all (ptrKept t u) = true) ∧
  spDoes .nqRewind .nqRewind (fun t x => t.nqReader x.master = true ∧ t.flag R.NQ_STATUS 22 = true)
    (fun t _ u v => v = 0 ∧ u.fld R.NQ_PTR 16 16 = t.fld R.NQ_PTR 48 16 ∧ t.onlyRegs u [R.NQ_CMD, R.NQ_PTR] ∧
      [0, 32, 48].all (ptrKept t u) = true) ∧
  spDoes .nqRewind .nqRewind (fun t x => t.nqReader x.master = true ∧ t.flag R.NQ_STATUS 22 = false)
    (fun t _ u v => v = 0 ∧ u.flag R.NQ_STATUS 25 = true ∧ t.onlyRegs u [R.NQ_CMD, R.NQ_STATUS]) ∧
  spDoes .nqRelease .nqRelease (fun t x => t.nqReader x.master = true)
    (fun t _ u v => v = 0 ∧ u.fld R.NQ_PTR 32 16 = t.fld R.NQ_PTR 16 16 ∧ t.onlyRegs u [R.NQ_CMD, R.NQ_PTR, R.NQ_STATUS] ∧
      [0, 16, 48].all (ptrKept t u) = true ∧
      (u.flag R.NQ_STATUS 22 = true ↔ t.flag R.NQ_STATUS 22 = true ∧
        ¬ (1 ≤ (t.fld R.NQ_PTR 16 16 + 2 ^ 16 - t.fld R.NQ_PTR 48 16) % 2 ^ 16 ∧ (t.fld R.NQ_PTR 16 16 + 2 ^ 16 - t.fld R.NQ_PTR 48 16) % 2 ^ 16 ≤ 1024))) ∧
  (∀ (c : MasterId → Instr) (row : SpRow),
    (c, row) = (Instr.nqMark, SpRow.nqMark) ∨ (c, row) = (Instr.nqRewind, SpRow.nqRewind) ∨ (c, row) = (Instr.nqRelease, SpRow.nqRelease) ∨
      (c, row) = (Instr.registerWrite, SpRow.write) →
    spDoes c row (fun t x => x.addr = R.NQ_CMD ∧ x.write = true ∧ x.wrong = false ∧ bit x.data.toNat 63 = true ∧ t.nqReader x.master = false)
      (fun t _ u v => v = 0 ∧ u.fld R.NQ_DROP 32 16 = min (t.fld R.NQ_DROP 32 16 + 1) 0xFFFF ∧ t.onlyRegs u [R.NQ_DROP])) ∧
  spDoes .registerWrite .write
    (fun t x => x.addr = R.NQ_CMD ∧ x.write = true ∧ x.wrong = false ∧ bit x.data.toNat 63 = true ∧ getBits x.data 0 2 = 0 ∧ t.nqReader x.master = true)
    (fun t _ u v => v = 0 ∧ t.onlyRegs u [R.NQ_CMD])

/-! ### Counters -/

/-- DUMP_NOW, DUMP_ENABLE and DUMPHEAD_WRITE (R443, R444): a write of NOW with the ring enabled makes a dump due; a write
that sets DUMPEN enables the ring at sequence number 0 when its checks hold, and otherwise sets CFGERR; a head within HEAD
to SEQ is taken, another counted in MISSED. DUMP_DUE (R443): a due dump takes its snapshot and clears the REDO bits, its
nine lines to be written, line 0 last (R445, R446); one that falls due with a dump in progress, a full ring or the domain in
checkstop is missed and counted. DUMP_LINE_WRITE (R443, R445): the next line of the record in progress, here of a line in
state I, is written with the words of its snapshot; line 0, once the stalls of the others have closed, ends the record and
moves DUMPSEQ on. -/
def Obligations.Dumps : Prop :=
  (spDoes .dumpNow .dumpNow (fun t x => t.flag R.PMC_CTL 0 = true ∧ bit x.data.toNat 0 = true)
    (fun t _ u v => v = 0 ∧ u.pmc.due = true ∧ u.pmc.manual = true ∧ u.flag R.PMC_CTL 0 = true ∧
      t.onlyRegs { u with pmc := t.pmc } [R.PMC_CTL]) ∧
  spDoes .dumpEnable .dumpEnable (fun t x => t.dumpOk = true ∧ bit x.data.toNat 21 = false)
    (fun t x u v => v = 0 ∧ u.flag R.PMC_CTL 0 = true ∧ u.fld R.PMC_CTL 1 20 = getBits x.data 1 20 ∧ u.fld R.PMC_DUMPSEQ 0 48 = 0 ∧
      u.fld R.PMC_DUMPHEAD 0 48 = 0 ∧ t.onlyRegs { u with pmc := t.pmc } [R.PMC_CTL, R.PMC_DUMPSEQ, R.PMC_DUMPHEAD]) ∧
  spDoes .dumpEnable .dumpEnable (fun t _ => t.dumpOk = false)
    (fun t _ u v => v = 0 ∧ u.flag R.PMC_CTL 0 = false ∧ u.flag R.PMC_STATUS 2 = true ∧ t.onlyRegs u [R.PMC_CTL, R.PMC_STATUS]) ∧
  spDoes .dumpheadWrite .dumphead (fun _ _ => True)
    (fun t x u v => v = 0 ∧
      if (getBits x.data 0 48 + 2 ^ 48 - t.fld R.PMC_DUMPHEAD 0 48) % 2 ^ 48 ≤
         (t.fld R.PMC_DUMPSEQ 0 48 + 2 ^ 48 - t.fld R.PMC_DUMPHEAD 0 48) % 2 ^ 48 then
        u.fld R.PMC_DUMPHEAD 0 48 = getBits x.data 0 48 ∧ t.onlyRegs u [R.PMC_DUMPHEAD]
      else u.fld R.PMC_STATUS 3 16 = min (t.fld R.PMC_STATUS 3 16 + 1) 0xFFFF ∧ t.onlyRegs u [R.PMC_STATUS])) ∧
  (∀ s : State, s.canonical = true → s.pmc.due = true → s.flag R.PMC_CTL 0 = true →
    (s.pmc.dump = none → s.dumpFull = false → s.chk = false →
      ∃ u : State, exec .dumpDue s = .next u ∧ u.pmc.due = false ∧
        (∀ d, u.pmc.dump = some d → d.left = [1, 2, 3, 4, 5, 6, 7, 8, 0] ∧ d.open_ = [] ∧ d.seq = s.fld R.PMC_DUMPSEQ 0 48 ∧
          ∀ k, k < 256 → s.filterSecure (s.filterOf k) = false → (SMap.find d.words (32 + k)).getD 0 = s.reg (R.PMC_CNT + 8 * k)) ∧
        u.pmc.dump.isSome = true ∧ u.reg R.PMC_LASTDUMP = s.tod ∧ (∀ k, k < 4 → u.reg (R.PMC_REDO + 8 * k) = 0) ∧
        s.onlyRegs { u with pmc := s.pmc } (R.PMC_LASTDUMP :: (List.range 4).map (fun k => R.PMC_REDO + 8 * k))) ∧
    (s.pmc.dump.isSome = true ∨ s.dumpFull = true ∨ s.chk = true →
      ∃ u : State, exec .dumpDue s = .next u ∧ u.pmc.due = false ∧ u.pmc.missed = s.pmc.missed + 1 ∧ u.pmc.dump = s.pmc.dump ∧
        u.fld R.PMC_STATUS 3 16 = min (s.fld R.PMC_STATUS 3 16 + 1) 0xFFFF ∧ s.onlyRegs { u with pmc := s.pmc } [R.PMC_STATUS])) ∧
  (∀ (s : State) (d : Dump) (l i sl : Nat) (rest : List Nat) (h : HIdx) (la : LineAddr),
    s.calm → s.pmc.dump = some d → d.left = l :: rest → l ∉ rest → (l = 0 → d.open_ = []) → la = s.dumpLine d.seq l → s.hIdx la = some h →
    s.denies (s.flag R.SEC_WORLDCFG 5) la = false → s.quietLine h → s.claimed la none = false → s.mayTake 5 1 none = true →
    s.aStall 0 = some i → i ∉ d.open_ → s.awaitsCommit i = false → 1 ≤ s.inkRoom → s.inkFree = some sl →
    does .dumpLineWrite s (fun u =>
      (∃ y, SMap.find u.ink sl = some y ∧ y.h = h ∧ y.phase = .filled ∧
        ∀ w, w < 32 → y.data.word w = DWord.gen ((SMap.find d.words (32 * l + w)).getD 0)) ∧
      SMap.find u.stalls i = none ∧ u.dirs = s.dirs ∧
      (l ≠ 0 → u.pmc.dump = some { d with left := rest } ∧ s.regsKept u ([R.YARD_PEAK, R.INK_PEAK] ++ perfRegs)) ∧
      (l = 0 → u.pmc.dump = none ∧ u.fld R.PMC_DUMPSEQ 0 48 = (s.fld R.PMC_DUMPSEQ 0 48 + 1) % 2 ^ 48 ∧
        s.regsKept u ([R.YARD_PEAK, R.INK_PEAK, R.PMC_DUMPSEQ] ++ perfRegs))))

/-- FSEL_WRITE (R441): a secure write selects the filter set of each of the 16 counters; a non-secure one only moves a
counter from one non-secure set to another, and any other change it asks for is counted in SEC.VIOL.REGACC. -/
def Obligations.FilterSelects : Prop :=
  ∀ j, j < 16 →
    spDoes .fselWrite .fsel (fun _ x => x.addr = R.PMC_FSEL + 8 * j ∧ x.world = true)
      (fun t x u v => v = 0 ∧ (∀ i, i < 16 → u.fld x.addr (4 * i) 3 = getBits x.data (4 * i) 3) ∧
        t.onlyRegs { u with pmc := t.pmc } [x.addr]) ∧
    spDoes .fselWrite .fsel (fun _ x => x.addr = R.PMC_FSEL + 8 * j ∧ x.world = false)
      (fun t x u v => v = 0 ∧ (∀ i, i < 16 → u.fld x.addr (4 * i) 3 =
          if t.filterSecure (t.fld x.addr (4 * i) 3) = false ∧ t.filterSecure (getBits x.data (4 * i) 3) = false
          then getBits x.data (4 * i) 3 else t.fld x.addr (4 * i) 3) ∧
        ((∃ i, i < 16 ∧ getBits x.data (4 * i) 3 ≠ t.fld x.addr (4 * i) 3 ∧
            (t.filterSecure (t.fld x.addr (4 * i) 3) = true ∨ t.filterSecure (getBits x.data (4 * i) 3) = true)) →
          u.fld R.SEC_VIOL 32 16 = min (t.fld R.SEC_VIOL 32 16 + 1) 0xFFFF) ∧
        t.onlyRegs { u with pmc := t.pmc } [x.addr, R.SEC_VIOL, R.SEC_LASTVIOL])

/-! ### Blotter -/

/-- BLOT_SEL, BLOT_CLEAR, BLOT_FF_REARM and TAP_BLOTFF_CAPTURE (R453, R454, R491): the record named is captured, zero where
none is held; CLEAR empties the blotter and leaves WSEQ running; a 1 to V lets the next first failure be captured; the TAP
captures the first-failure record. BLOTTER_WRITE (R449, R452, R453): the one waiting record of an island `k` is written at
NEXT, which advances; a FATAL record, or with FFSEV an ERROR one, is the first failure while V = 0; with STOPPED the record
is lost and counted. -/
def Obligations.Blotter : Prop :=
  (spDoes .blotSel .blotSel (fun _ _ => True)
    (fun t x u v => v = 0 ∧ (∀ k, k < 4 → u.reg (R.BLOT_REC + 8 * k) = ((SMap.find t.svc.blot (getBits x.data 0 12)).getD [0, 0, 0, 0]).getD k 0) ∧
      u.fld R.BLOT_SEL 0 12 = getBits x.data 0 12 ∧
      t.onlyRegs { u with svc := t.svc } [R.BLOT_SEL, R.BLOT_REC, R.BLOT_REC + 8, R.BLOT_REC + 16, R.BLOT_REC + 24]) ∧
  spDoes .blotClear .blotClear (fun _ _ => True)
    (fun t _ u v => v = 0 ∧ u.fld R.BLOT_PTR 0 12 = 0 ∧ u.fld R.BLOT_PTR 12 13 = 0 ∧ u.fld R.BLOT_PTR 25 32 = t.fld R.BLOT_PTR 25 32 ∧
      u.flag R.BLOT_FF 12 = false ∧ u.flag R.BLOT_STATUS 0 = false ∧ u.svc.blot = [] ∧
      t.onlyRegs { u with svc := t.svc } [R.BLOT_CTL, R.BLOT_PTR, R.BLOT_FF, R.BLOT_STATUS]) ∧
  spDoes .blotFfRearm .blotRearm (fun _ _ => True)
    (fun t _ u v => v = 0 ∧ u.flag R.BLOT_FF 12 = false ∧ u.flag R.BLOT_STATUS 0 = false ∧ u.svc.blot = t.svc.blot ∧
      t.onlyRegs { u with svc := t.svc } [R.BLOT_FF, R.BLOT_STATUS]) ∧
  (∀ s : State, ∃ u : State, exec .tapBlotffCapture s = .next u ∧ s = { u with svc := s.svc } ∧
    u.svc.tapFf = if s.flag R.BLOT_FF 12 = true then (SMap.find s.svc.blot (s.fld R.BLOT_FF 0 12)).getD [0, 0, 0, 0] else [0, 0, 0, 0])) ∧
  (∀ (s : State) (k : Nat) (r : BlotRec), s.canonical = true → s.svc.blotQ = [(k, [r])] →
    (s.flag R.BLOT_STATUS 0 = false →
      ∃ u : State, exec .blotterWrite s = .next u ∧ u.svc.blotQ = [] ∧
        u.fld R.BLOT_PTR 0 12 = (s.fld R.BLOT_PTR 0 12 + 1) % 4096 ∧ u.fld R.BLOT_PTR 12 13 = min 4096 (s.fld R.BLOT_PTR 12 13 + 1) ∧
        u.fld R.BLOT_PTR 25 32 = (s.fld R.BLOT_PTR 25 32 + 1) % 2 ^ 32 ∧
        (∀ ff, ff = (!s.flag R.BLOT_FF 12 && (r.sev == 3 || r.sev == 2 && s.flag R.BLOT_CTL 12)) →
          SMap.find u.svc.blot (s.fld R.BLOT_PTR 0 12) = some (r.words (s.fld R.BLOT_PTR 25 32) ff) ∧
          (ff = true → u.flag R.BLOT_FF 12 = true ∧ u.fld R.BLOT_FF 0 12 = s.fld R.BLOT_PTR 0 12 ∧
            u.fld R.BLOT_FF 13 32 = s.fld R.BLOT_PTR 25 32 ∧ u.reg R.BLOT_FFTOD = r.tod) ∧
          (ff = false → u.reg R.BLOT_FF = s.reg R.BLOT_FF)) ∧
        s.onlyRegs { u with svc := s.svc } [R.BLOT_STATUS, R.BLOT_PTR, R.BLOT_FF, R.BLOT_FFTOD, R.PMC_CNT + 8 * 0xFB]) ∧
    (s.flag R.BLOT_STATUS 0 = true →
      ∃ u : State, exec .blotterWrite s = .next u ∧ u.svc.blotQ = [] ∧ u.svc.blot = s.svc.blot ∧
        u.fld R.BLOT_STATUS 17 16 = min (s.fld R.BLOT_STATUS 17 16 + 1) 0xFFFF ∧
        s.onlyRegs { u with svc := s.svc } noteRegs))

/-! ### Test access -/

/-- BIST_START, BIST_DONE and TAP_REPAIR_LOAD (R490, R491): in test mode a start runs the self-test with its done and fail
fields cleared; its end shows the outcome; repair data are loaded while the release of the reset has not been taken up. -/
def Obligations.TestAccess : Prop :=
  (∀ (s : State) (ctl : BitVec 16), s.boot.testMode = true → bit ctl.toNat 0 = true →
    ∃ u : State, exec (.bistStart ctl) s = .next u ∧ s = { u with svc := s.svc } ∧ u.svc.bistRun = true ∧ u.svc.bistStat = 0 ∧
      u.svc.bistCtl.toNat = ctl.toNat % 16) ∧
  (∀ (s : State) (ctl : BitVec 16), s.boot.testMode = false → exec (.bistStart ctl) s = .next s) ∧
  (∀ (s : State) (f : Bool) (i : BitVec 12) (a : BitVec 50), s.svc.bistRun = true →
    ∃ u : State, exec (.bistDone f i a) s = .next u ∧ s = { u with svc := s.svc } ∧ u.svc.bistRun = false ∧
      getBits u.svc.bistStat 0 1 = 1 ∧ getBits u.svc.bistStat 1 1 = b2n f ∧ getBits u.svc.bistStat 2 12 = i.toNat ∧
      getBits u.svc.bistStat 14 50 = a.toNat) ∧
  (∀ (s : State) (l : List (BitVec 24)), s.phase = 0 → s.boot.domWait = false →
    ∃ u : State, exec (.tapRepairLoad l) s = .next u ∧ s = { u with svc := s.svc } ∧ u.svc.repair = l)

/-! ### Arrival of packets -/

/-- NI_INGRESS (R41, R57, R234, R250, R254, R257, R341, R342, R493): a packet that passes every check joins the queue of its class,
which has room, with the logical ID of its source, its world demoted where the port's is not secure, its data corrected, and no
line where receivers ignore it; one at a closed port is answered NotReady; one whose header is uncorrectable, or that is
misrouted, is counted and discarded; a bridge in RESET takes none. -/
def Obligations.PacketsArrive : Prop :=
  ∀ (s : State) (n : Fin 4) (p : Packet), s.canonical = true → s.faults = [] →
    (s.link n = 1 → p.syn = 0 → p.hopcnt = p.nhop → p.nhop.toNat ≤ 12 → s.isOpen n = true → p.dst = s.homeId → s.ruId ≠ some s.homeId →
      legalHome p.opcode (s.senderOf (s.toLog p.src)) = true → toHome p.opcode = true → classOf p.opcode = p.cls.toNat →
      flitsOk p.opcode p.nflit.toNat = true → s.impostor p.src = false → p.domain = s.domain →
      (s.np n).bufOf (poolOf p.cls.toNat) = [] → ((s.np n).inqOf p.cls.toNat).length < ingressDepth p.cls.toNat →
      does (.niIngress n p) s (fun u => ∃ x : InItem, (u.np n).inqOf p.cls.toNat = (s.np n).inqOf p.cls.toNat ++ [x] ∧
        x.p = { p with src := s.toLog p.src, data := p.data.fix,
                       line := if p.opcode = Op.sync ∨ p.cls = 6 then 0 else p.line,
                       world := p.world && (s.flag R.SEC_WORLDCFG n || !(decide (p.cls.toNat ≤ 1) || p.cls == 6)) } ∧
        x.phys = p.src ∧ x.raw = p.world ∧ u.stalls = s.stalls ∧ u.dirs = s.dirs ∧
        s.regsKept u ([R.SEC_VIOL, R.SEC_LASTVIOL, R.BLOT_STATUS] ++ perfRegs))) ∧
    (s.link n = 1 → p.syn = 0 → p.hopcnt = p.nhop → p.nhop.toNat ≤ 12 → s.isOpen n = false → p.cls.toNat ≤ 1 → p.opcode ≠ Op.evictNote →
      (s.np n).buf = [] →
      does (.niIngress n p) s (fun u => (u.np n).inq = (s.np n).inq ∧
        (∃ x : EgItem, x.p.opcode = Op.notReady ∧ x.p.dst = p.src ∧ x.p.tag = p.tag ∧ (x ∈ (u.np n).ans ∨ (n.val, x.p) ∈ u.tx.drop s.tx.length)) ∧
        u.fld (npBase R.NP_DOORCNT n) 0 32 = min (s.fld (npBase R.NP_DOORCNT n) 0 32 + 1) (2 ^ 32 - 1) ∧ u.dirs = s.dirs ∧
        s.regsKept u (npBase R.NP_DOORCNT n :: sendRegs))) ∧
    (s.link n = 1 → p.hdrBad = true → (s.np n).buf = [] →
      does (.niIngress n p) s (fun u => (u.np n).inq = (s.np n).inq ∧
        u.fld (npBase R.NP_ERRCNT n) 16 16 = min (s.fld (npBase R.NP_ERRCNT n) 16 16 + 1) 0xFFFF ∧ u.stalls = s.stalls ∧ u.dirs = s.dirs ∧
        s.regsKept u ([npBase R.NP_ERRCNT n, R.BLOT_STATUS] ++ perfRegs))) ∧
    (s.link n = 1 → p.syn = 0 → p.hopcnt ≠ p.nhop → (s.np n).buf = [] →
      does (.niIngress n p) s (fun u => (u.np n).inq = (s.np n).inq ∧
        u.fld (npBase R.NP_ERRCNT n) 32 16 = min (s.fld (npBase R.NP_ERRCNT n) 32 16 + 1) 0xFFFF ∧ u.stalls = s.stalls ∧ u.dirs = s.dirs ∧
        s.regsKept u ([npBase R.NP_ERRCNT n, R.BLOT_STATUS] ++ perfRegs))) ∧
    (s.link n = 3 → does (.niIngress n p) s (fun u => u = s))

/-! ### Requests -/

/-- RD_SHARED, RD_UNIQUE, UPGRADE and RD_ONCE (R34, R78, R115, R135) of a line in state I whose data is in memory alone: the
request takes its stall, which blocks the line, the first three a free way of the set and an inkwell slot too, and a memory read
is asked for. -/
def Obligations.ReadsAskMemory : Prop :=
  ∀ (s : State) (n : Fin 4) (op : BitVec 6) (x : InItem) (h : HIdx) (i k : Nat),
    s.calm → s.nextReq n op = some x → s.admits (x.req n) → s.hIdx x.p.line = some h → s.quietLine h → s.claimed x.p.line none = false →
    s.stallFor (x.req n) none = some i → s.awaitsCommit i = false →
    s.seated x.p.src →
    (∀ sl, s.chooseWay h = some (k, false, false) → 1 ≤ s.inkRoom → s.inkFree = some sl →
      (op = Op.rdShared → does (.rdShared n) s (asksMemory s (x.req n) h i (some k) (some sl))) ∧
      (op = Op.rdUnique → does (.rdUnique n) s (asksMemory s (x.req n) h i (some k) (some sl))) ∧
      (op = Op.upgrade → does (.upgrade n) s (asksMemory s (x.req n) h i (some k) (some sl)))) ∧
    (op = Op.rdOnce → does (.rdOnce n) s (asksMemory s (x.req n) h i none none))

/-- CLAIM_ZERO, WR_FULL, WR_PART and STROKE (R34, R78, R182, R206) of a line in state I: the claim records the requester as X
holder, keeps an inkwell slot and is answered at once; the full write places its line in the inkwell and closes; the partial write, and the stroke in
bypass, reserve an inkwell slot and ask for a memory read. -/
def Obligations.WritesTakeSlots : Prop :=
  ∀ (s : State) (n : Fin 4) (op : BitVec 6) (x : InItem) (h : HIdx) (i k sl : Nat),
    s.calm → s.nextReq n op = some x → s.admits (x.req n) → s.hIdx x.p.line = some h → s.quietLine h → s.claimed x.p.line none = false →
    s.stallFor (x.req n) none = some i → s.awaitsCommit i = false → 1 ≤ s.inkRoom → s.inkFree = some sl →
    (op = Op.claimZero → s.chooseWay h = some (k, false, false) → does (.claimZero n) s (fun u =>
      SMap.find u.dirs k = some ⟨tagOf h, true, s.worldOfH h, .x, .ptr (some x.p.src) none⟩ ∧
      (∃ y, SMap.find u.stalls i = some y ∧ y.req = x.req n ∧ y.h = h ∧ y.blocks = true ∧ y.final = true ∧ y.recorded = true ∧ y.code = 3 ∧
        y.ink = some sl) ∧ s.reserves u sl h ∧
      (s.reaches x.p.src → s.posts u x.p.src Op.cmpZ x.p.tag) ∧ u.pen = s.pen ∧ u.alc = s.alc ∧
      s.regsKept u ([R.YARD_PEAK, R.INK_PEAK] ++ sendRegs))) ∧
    (op = Op.wrFull → (x.req n).dur = false → does (.wrFull n) s (fun u =>
      (∃ y, SMap.find u.ink sl = some y ∧ y.h = h ∧ y.phase = .filled ∧ y.data = LineData.norm x.p.data ∧ y.ids = [x.p.src] ∧
        y.need = s.needPorts h) ∧
      (s.reaches x.p.src → s.posts u x.p.src Op.cmpW x.p.tag) ∧
      SMap.find u.stalls i = none ∧ u.dirs = s.dirs ∧ u.pen = s.pen ∧ u.alc = s.alc ∧ s.regsKept u ([R.YARD_PEAK, R.INK_PEAK] ++ sendRegs))) ∧
    (op = Op.wrPart → does (.wrPart n) s (fun u =>
      (∃ y, SMap.find u.stalls i = some y ∧ y.req = x.req n ∧ y.h = h ∧ y.blocks = true ∧ y.ink = some sl ∧ y.rd = .asked ∧ y.final = false) ∧
      s.reserves u sl h ∧ s.readAsked u h i ∧
      u.dirs = s.dirs ∧ u.pen = s.pen ∧ u.alc = s.alc ∧ s.regsKept u ([R.YARD_PEAK, R.INK_PEAK] ++ perfRegs))) ∧
    (op = Op.stroke → s.bypass = true → strokeFormat (x.req n) = none → s.seated x.p.src → does (.stroke n) s (fun u =>
      (∃ y, SMap.find u.stalls i = some y ∧ y.req = x.req n ∧ y.h = h ∧ y.blocks = true ∧ y.ink = some sl ∧ y.alc = none ∧
        y.rd = .asked ∧ y.final = false) ∧
      s.reserves u sl h ∧ s.readAsked u h i ∧
      u.dirs = s.dirs ∧ u.pen = s.pen ∧ u.alc = s.alc ∧ s.regsKept u ([R.YARD_PEAK, R.INK_PEAK] ++ perfRegs)))

/-- LIGATURE (R145, R188, R206), of one data line in bypass with its lines idle: it takes a ligature slot, blocks its data line,
and waits in the pen for its journal line, which a PEN_REDISPATCH blocks in a stall of its own; it then leaves the pen. SYNC
(R86): it is answered and closes when no write of its requester waits for its commit, and otherwise waits for those commits in
a stall that blocks no line. -/
def Obligations.LigaturesAndSyncs : Prop :=
  (∀ (s : State) (n : Fin 4) (x : InItem) (l jl : LineAddr) (h jh : HIdx) (sl k : Nat),
    s.calm → s.nextReq n Op.ligature = some x → s.admits (x.req n) → s.ligFormat (x.req n) = none → s.bypass = true →
    dataLines (opFlits x.p.data) = [l] → s.journalLine (ligRing x.p.detail) = jl → s.hIdx l = some h → s.hIdx jl = some jh → h ≠ jh →
    s.quietLine h → s.quietLine jh → s.claimed l none = false → s.claimed jl none = false → s.seated x.p.src → s.penFree = some k →
    SMap.firstFree s.ligs 0 Config.ligSlots = some sl → s.mayTake n 2 none = true → (s.pickStalls [] 2).length = 2 → 2 ≤ s.inkRoom →
    s.inkFree.isSome = true → (∀ j ∈ s.inkFree, (s.inkReserve j h).inkFree.isSome = true) →
    does (.ligature n) s (fun u => ∃ g i e, SMap.find u.ligs sl = some g ∧ g.req = x.req n ∧ g.lines = [l] ∧ g.held = [(l, i)] ∧
      g.jline = none ∧ g.penned = some k ∧ SMap.find u.pen k = some e ∧ e.h = jh ∧ e.reason = 0 ∧ e.stall ≠ i ∧ u.blocker h = some i ∧
      u.dirs = s.dirs ∧ s.readAsked u h i ∧ s.regsKept u ([R.YARD_PEAK, R.INK_PEAK, R.PEN_STATUS] ++ perfRegs))) ∧
  (∀ (s : State) (k : Fin 512) (e : PenEntry) (t : Stall) (g : Lig) (jl : LineAddr) (jh : HIdx) (sl : Nat),
    s.calm → SMap.find s.pen k = some e → s.penTurn k e = true → SMap.find s.stalls e.stall = some t → t.role = .lig sl false →
    SMap.find s.ligs sl = some g → g.penned = some k.val → g.bypass = true → g.nextStall = e.stall → s.ligNext g = some (jl, true) →
    s.hIdx jl = some jh → s.dirHits jh = [] → s.alcHit jh = none → s.ligReason g jl jh e.seq = none →
    does (.penRedispatch k) s (fun u => SMap.find u.pen k = none ∧ u.blocker jh = some e.stall ∧ u.dirs = s.dirs ∧
      ∃ y, SMap.find u.ligs sl = some y ∧ y.jline = some (jl, e.stall) ∧ y.held = g.held ∧ y.penned = none)) ∧
  (∀ (s : State) (n : Fin 4) (x : InItem) (i : Nat),
    s.calm → s.nextReq n Op.sync = some x → s.admits (x.req n) → s.stallFor (x.req n) none = some i → s.awaitsCommit i = false →
    ((∀ e ∈ s.ink, x.p.src ∉ e.2.ids) → does (.sync n) s (fun u => SMap.find u.stalls i = none ∧
      (s.reaches x.p.src → s.posts u x.p.src Op.syncDone x.p.tag) ∧ u.ink = s.ink ∧ u.dirs = s.dirs ∧
      u.pen = s.pen ∧ s.regsKept u (R.YARD_PEAK :: sendRegs))) ∧
    ((∃ e ∈ s.ink, x.p.src ∈ e.2.ids) → does (.sync n) s (fun u =>
      (∃ y, SMap.find u.stalls i = some y ∧ y.req = x.req n ∧ y.blocks = false ∧ y.final = false ∧ y.code = 5) ∧
      (∀ e ∈ u.ink, x.p.src ∈ e.2.ids → i ∈ e.2.waiters) ∧ u.dirs = s.dirs ∧ u.pen = s.pen ∧
      s.regsKept u (R.YARD_PEAK :: perfRegs))))

/-- WB_DIRTY and WB_RETRY_OFFER (R78, R81, R136) of a line that no stall blocks: the owner's line goes to the inkwell and its
entry is freed; with no write-back stall the packet stays at the head of its queue. EVICT_NOTE (R78, R101): the X holder
leaves the directory, a sharer leaves its entry, and a note about a line without an entry changes nothing there. -/
def Obligations.WriteBacksAndNotes : Prop :=
  (∀ (s : State) (n : Fin 4) (x : InItem) (r : List InItem) (h : HIdx) (k i sl : Nat) (e : DirEntry),
    s.calm → (s.np n).inqOf 1 = x :: r → x.p.opcode = Op.wbDirty → s.fence x.p.src = 0 → s.hIdx x.p.line = some h →
    s.dirHits h = [k] → SMap.find s.dirs k = some e → e.world = s.worldOfH h → e.st = .x → e.sh = .ptr (some x.p.src) none →
    s.blocker h = none → s.inkNewest h = none → s.inkFree = some sl →
    (s.aStall 1 = some i → ∀ c, c = Instr.wbDirty n ∨ c = Instr.wbRetryOffer n → does c s (fun u =>
      SMap.find u.dirs k = none ∧ SMap.find u.stalls i = none ∧
      (∃ y, SMap.find u.ink sl = some y ∧ y.h = h ∧ y.phase = .filled ∧ y.data = LineData.norm x.p.data ∧ y.ids = [x.p.src]) ∧
      (s.reaches x.p.src → s.posts u x.p.src Op.cmpW x.p.tag) ∧
      r <+: (u.np n).inqOf 1 ∧ (∀ j, j ≠ k → SMap.find u.dirs j = SMap.find s.dirs j) ∧ u.pen = s.pen ∧
      s.regsKept u ([R.YARD_PEAK, R.INK_PEAK] ++ sendRegs))) ∧
    (s.aStall 1 = none → ∀ c, c = Instr.wbDirty n ∨ c = Instr.wbRetryOffer n → does c s (fun u => u = s))) ∧
  (∀ (s : State) (n : Fin 4) (x : InItem) (r : List InItem) (h : HIdx),
    s.calm → (s.np n).inqOf 1 = x :: r → x.p.opcode = Op.evictNote → s.fence x.p.src = 0 → s.hIdx x.p.line = some h → s.blocked h = false →
    (∀ k e, s.dirHits h = [k] → SMap.find s.dirs k = some e → e.world = s.worldOfH h →
      (e.st = .x → e.sh = .ptr (some x.p.src) none → does (.evictNote n) s (fun u =>
        SMap.find u.dirs k = none ∧ (∀ j, j ≠ k → SMap.find u.dirs j = SMap.find s.dirs j) ∧ u.stalls = s.stalls ∧ s.regsKept u perfRegs)) ∧
      (∀ b, b ≠ x.p.src → e.st = .s → e.sh = .ptr (some x.p.src) (some b) → does (.evictNote n) s (fun u =>
        SMap.find u.dirs k = some { e with ref := true, sh := .ptr (some b) none } ∧ (∀ j, j ≠ k → SMap.find u.dirs j = SMap.find s.dirs j) ∧
        u.stalls = s.stalls ∧ s.regsKept u perfRegs))) ∧
    (s.dirHits h = [] → does (.evictNote n) s (fun u => u.dirs = s.dirs ∧ u.stalls = s.stalls ∧ r <+: (u.np n).inqOf 1 ∧ s.regsKept u perfRegs)))

/-- PEN_REDISPATCH, PEN_DEADLINE and TICKET_EXPIRY (R142, R146, R151, R153): an entry whose turn has come leaves the pen, and (here a
`RdOnce` of a line in state I) is carried out; one past the deadline is answered Retry with a ticket that keeps its stall; a
ticket past YARD.TKTCTL.HOLD is no longer valid and is counted. -/
def Obligations.PenAndTickets : Prop :=
  (∀ (s : State) (k : Fin 512) (e : PenEntry) (t : Stall),
    s.calm → SMap.find s.pen k = some e → s.penTurn k e = true → e.reason ≠ 1 → SMap.find s.stalls e.stall = some t → t.role = .req →
    t.req.op = Op.rdOnce → t.req.src < 4 → t.h = e.h → s.dirHits e.h = [] → s.alcHit e.h = none → s.inkNewest e.h = none →
    s.claimed t.req.line e.tkt = false → t.waits = [] → t.relay = none → t.wbWait = none → t.evict = none → t.final = false →
    t.ready = false → t.got = none → t.rd = .no → s.awaitsCommit e.stall = false →
    s.seated t.req.q →
    does (.penRedispatch k) s (fun u => SMap.find u.pen k = none ∧
      (∃ y, SMap.find u.stalls e.stall = some y ∧ y.req = t.req ∧ y.code = 2 ∧ y.blocks = true ∧ y.rd = .asked) ∧
      s.readAsked u e.h e.stall ∧
      u.dirs = s.dirs ∧ u.ink = s.ink ∧ s.regsKept u perfRegs)) ∧
  (∀ (s : State) (k : Fin 512) (e : PenEntry) (t : Stall) (n : Nat),
    s.calm → SMap.find s.pen k = some e → SMap.find s.stalls e.stall = some t → t.role = .req → t.req.src < 4 → t.req.cp = none →
    e.reason < 3 → s.deadline ≤ elapsed t.acc s.tod → SMap.firstFree s.tickets 0 Config.tickets = some n →
    does (.penDeadline k) s (fun u => SMap.find u.pen k = none ∧ SMap.find u.stalls e.stall = none ∧
      (∃ y, SMap.find u.tickets n = some y ∧ y.who = t.req.q ∧ y.line = t.req.line ∧ y.held = [e.stall] ∧ y.issued = s.tod) ∧
      (s.reaches t.req.q → s.posts u t.req.q Op.retry t.req.tag) ∧
      u.fld R.YARD_RETRY 32 16 = min (s.fld R.YARD_RETRY 32 16 + 1) 0xFFFF ∧ u.dirs = s.dirs ∧ u.ink = s.ink ∧
      s.regsKept u (R.YARD_RETRY :: sendRegs))) ∧
  (∀ (s : State) (k : Fin 256) (t : Ticket),
    s.calm → SMap.find s.tickets k = some t → usec (max 1 (s.fld R.YARD_TKTCTL 24 6)) ≤ elapsed t.issued s.tod →
    does (.ticketExpiry k) s (fun u => SMap.find u.tickets k = none ∧
      u.fld R.YARD_TKTERR 0 16 = min (s.fld R.YARD_TKTERR 0 16 + 1) 0xFFFF ∧ u.stalls = s.stalls ∧ u.dirs = s.dirs ∧
      s.regsKept u (R.YARD_TKTERR :: perfRegs)))

/-! ### Answers -/

/-- The seven snoop answers (R66, R79), of the holder and permitted, while another answer is still awaited: the wait ends,
the outcome of the snoop is decided, the data is kept, and after SnpWbPend the holder's WbDirty is awaited. The last answer:
SNP_FWD_I makes the requester of RdUnique the X holder; SNP_FWD_O of a line in X makes its holder the owner in O with the
requester of RdShared as sharer (R79). The stall then waits for the CmpAck. -/
def Obligations.SnoopAnswers : Prop :=
  (∀ (s : State) (n : Fin 4) (op : BitVec 6) (x : InItem) (i : Nat) (t : Stall) (w : Wait),
    s.calm → s.arrival n (fun o => o == op) = some x → s.awaited x.p = some (i, w) → SMap.find s.stalls i = some t → t.role = .req →
    w.holder = true → t.absorbed = none → t.waits.erase w ≠ [] →
    (op = Op.snpAckI → permitted w (s.ownsIn t.h w.who) .ackI = true → does (.snpAckI n) s (decided i t w .ackI t.got t.wbWait)) ∧
    (op = Op.snpAckS → permitted w (s.ownsIn t.h w.who) .ackS = true → does (.snpAckS n) s (decided i t w .ackS t.got t.wbWait)) ∧
    (op = Op.snpFwdI → permitted w (s.ownsIn t.h w.who) .fwdI = true → does (.snpFwdI n) s (decided i t w .fwdI t.got t.wbWait)) ∧
    (op = Op.snpFwdO → permitted w (s.ownsIn t.h w.who) .fwdO = true → does (.snpFwdO n) s (decided i t w .fwdO t.got t.wbWait)) ∧
    (op = Op.snpWbPend → permitted w (s.ownsIn t.h w.who) .wbPend = true →
      does (.snpWbPend n) s (decided i t w .wbPend t.got (some w.who))) ∧
    (op = Op.snpDataI → permitted w (s.ownsIn t.h w.who) (.dataI x.p.data) = true →
      does (.snpDataI n) s (decided i t w .dataI (some (LineData.norm x.p.data)) t.wbWait)) ∧
    (op = Op.snpDataO → permitted w (s.ownsIn t.h w.who) (.dataO x.p.data) = true →
      does (.snpDataO n) s (decided i t w .dataO (some (LineData.norm x.p.data)) t.wbWait))) ∧
  (∀ (s : State) (n : Fin 4) (op : BitVec 6) (x : InItem) (i k : Nat) (t : Stall) (w : Wait) (e : DirEntry),
    s.calm → s.arrival n (fun o => o == op) = some x → s.awaited x.p = some (i, w) → SMap.find s.stalls i = some t → t.role = .req →
    w.holder = true → w.fmode = true → t.absorbed = none → t.waits = [w] → t.relay = none → t.wbWait = none → t.evict = none →
    t.hold = none → t.final = false → t.ready = false → t.ackGot = false → t.displ = false → t.code ≠ 1 → t.req.src < 4 →
    s.awaitsCommit i = false → s.dirHits t.h = [k] → SMap.find s.dirs k = some e → e.st = .x → e.sh = .ptr (some w.who) none →
    t.req.q ≠ w.who →
    (op = Op.snpFwdI → t.req.op = Op.rdUnique → w.op = Op.snpUnique → does (.snpFwdI n) s (fun u =>
      SMap.find u.dirs k = some ⟨tagOf t.h, true, s.worldOfH t.h, .x, .ptr (some t.req.q) none⟩ ∧
      (∃ y, SMap.find u.stalls i = some y ∧ y.final = true ∧ y.recorded = true ∧ y.code = 3 ∧ y.waits = []) ∧ s.regsKept u perfRegs)) ∧
    (op = Op.snpFwdO → t.req.op = Op.rdShared → w.op = Op.snpShare → does (.snpFwdO n) s (fun u =>
      SMap.find u.dirs k = some { e with st := .o, sh := .ptr (some w.who) (some t.req.q), ref := true } ∧
      (∃ y, SMap.find u.stalls i = some y ∧ y.final = true ∧ y.recorded = true ∧ y.code = 3 ∧ y.waits = []) ∧ s.regsKept u perfRegs)))

/-- CMP_ACK (R84, R324, R495): it closes a stall that waits for it alone; a stall that still waits for an answer keeps it; in the
forward window it completes the forward of `RdUnique` on the owner's behalf; one that names no stall changes none. RLY_ACK
(R107, R108, R495), index 4 of the port being this instance's own relay unit: the last relay's answer closes the relay stall,
and its parent, still waiting for another answer, goes on without it; an earlier one ends its own wait; one with ERR has the
`RlyInv` sent again while resends are left; one that no relay stall awaits changes none. -/
def Obligations.AcksClose : Prop :=
  (∀ (s : State) (n : Fin 4) (x : InItem) (i : Nat) (t : Stall),
    s.calm → s.arrival n (fun o => o == Op.cmpAck) = some x → s.ackStall x.p.src x.p.tag = some i → SMap.find s.stalls i = some t →
    (t.waits = [] → t.relay = none → t.evict = none → t.wbWait = none → t.recorded = true → t.final = true → t.ink = none →
      t.req.cp = none → s.awaitsCommit i = false → s.rcv.purge = [] →
      does (.cmpAck n) s (fun u => SMap.find u.stalls i = none ∧ (∀ j, j ≠ i → SMap.find u.stalls j = SMap.find s.stalls j) ∧
        u.dirs = s.dirs ∧ u.ink = s.ink ∧ s.regsKept u perfRegs)) ∧
    (t.waits ≠ [] → t.waits.all (fun w => !w.holder || w.asked) = true →
      does (.cmpAck n) s (fun u => (∃ y, SMap.find u.stalls i = some y ∧ y.ackGot = true ∧ y.waits = t.waits ∧ y.req = t.req ∧ y.final = t.final) ∧
        (∀ j, j ≠ i → SMap.find u.stalls j = SMap.find s.stalls j) ∧ u.dirs = s.dirs ∧ u.ink = s.ink ∧ s.regsKept u perfRegs)) ∧
    (∀ w tt k e, t.waits = [w] → w.holder = true → w.st = .window tt → w.op = Op.snpUnique → t.req.op = Op.rdUnique → t.relay = none →
      t.evict = none → t.wbWait = none → t.hold = none → t.absorbed = none → t.final = false → t.ready = false → t.displ = false →
      t.code ≠ 1 → t.req.cp = none → s.awaitsCommit i = false → s.rcv.purge = [] → s.dirHits t.h = [k] → SMap.find s.dirs k = some e →
      e.st = .x → e.sh = .ptr (some w.who) none → t.req.q ≠ w.who →
      does (.cmpAck n) s (fun u => SMap.find u.stalls i = none ∧
        SMap.find u.dirs k = some ⟨tagOf t.h, true, s.worldOfH t.h, .x, .ptr (some t.req.q) none⟩ ∧ s.regsKept u perfRegs))) ∧
  (∀ (s : State) (n : Fin 4) (x : InItem),
    s.calm → s.arrival n (fun o => o == Op.cmpAck) = some x → s.ackStall x.p.src x.p.tag = none →
    does (.cmpAck n) s (fun u => u.stalls = s.stalls ∧ u.dirs = s.dirs ∧ u.ink = s.ink ∧
      s.regsKept u ([R.RTE_ERRCNT, R.BLOT_STATUS] ++ perfRegs))) ∧
  (∀ (s : State) (n : Fin 5) (p : Packet) (ri i : Nat) (t : Stall) (w : Wait),
    s.calm → (n.val < 4 → (s.arrival n (fun o => o == Op.rlyAck)).map (fun x => x.p) = some p) →
    (n.val = 4 → s.ruBack.head?.map (fun x => x.p) = some p) → p.tag.toNat = ri → SMap.find s.stalls ri = some t → t.role = .relay i →
    t.req.line = p.line → t.waits.find? (fun v => v.who == p.src && v.asked) = some w →
    (bit p.detail.toNat 22 = false → t.waits.erase w = [] → ∀ y, i ≠ ri → SMap.find s.stalls i = some y → y.role = .req →
      y.relay = some ri → y.waits ≠ [] →
      does (.rlyAck n) s (fun u => SMap.find u.stalls ri = none ∧
        (∃ z, SMap.find u.stalls i = some z ∧ z.relay = none ∧ z.waits = y.waits ∧ z.req = y.req ∧ z.final = y.final) ∧
        u.dirs = s.dirs ∧ u.ink = s.ink ∧ s.regsKept u ([R.GLB_RCVSTAT, R.BLOT_STATUS] ++ perfRegs))) ∧
    (bit p.detail.toNat 22 = false → t.waits.erase w ≠ [] → ∀ y, i ≠ ri → SMap.find s.stalls i = some y → y.role = .req →
      does (.rlyAck n) s (fun u => SMap.find u.stalls ri = some { t with waits := t.waits.erase w } ∧ SMap.find u.stalls i = some y ∧
        u.dirs = s.dirs ∧ u.ink = s.ink ∧ s.regsKept u ([R.GLB_RCVSTAT, R.BLOT_STATUS] ++ perfRegs))) ∧
    (bit p.detail.toNat 22 = true → t.waits = [w] → w.resends < s.fld R.GLB_RCVCTL 8 2 →
      does (.rlyAck n) s (fun u => u.flag R.GLB_RCVSTAT 20 = true ∧ u.dirs = s.dirs ∧
        ∃ y w', SMap.find u.stalls ri = some y ∧ y.waits = [w'] ∧ w'.who = w.who ∧ w'.resends = w.resends + 1))) ∧
  (∀ (s : State) (n : Fin 5) (p : Packet),
    s.calm → (n.val < 4 → (s.arrival n (fun o => o == Op.rlyAck)).map (fun x => x.p) = some p) →
    (n.val = 4 → s.ruBack.head?.map (fun x => x.p) = some p) → SMap.find s.stalls p.tag.toNat = none →
    does (.rlyAck n) s (fun u => u.stalls = s.stalls ∧ u.dirs = s.dirs ∧ u.ink = s.ink ∧
      s.regsKept u ([R.RTE_ERRCNT, R.BLOT_STATUS] ++ perfRegs)))

/-! ### The relay unit -/

/-- RLY_INV (R110): the relay unit takes the lowest free slot and sends the member snoop of the message's KIND to each member of
its fan-out set, here one member that is not fenced. RELAY_MEMBER_ANSWER (R107, R110): the last member's answer frees the slot
and sends the combined RlyAck, here to this instance's own home, with the snoops sent and the shared answers counted. -/
def Obligations.RelayUnit : Prop :=
  (∀ (s : State) (n : Fin 5) (x : InItem) (k e : Nat) (m : EpId),
    s.calm → s.nextRly n = some x → SMap.firstFree s.rlys 0 Config.relaySlots = some k → s.ruDom x.p.domain = some e →
    rlyKind x.p.detail < 3 → s.fanOut e x.p.detail = [m] → s.fence m = 0 → x.p.domain = s.domain →
    (s.route (s.toPhys m)).isSome = true →
    does (.rlyInv n) s (fun u => (∃ o w, SMap.find u.rlys k = some o ∧ o.inv = x ∧ o.port = n.val ∧ o.sent = 1 ∧ o.shared = 0 ∧
        o.waits = [w] ∧ w.who = m ∧ w.op = memberOp (rlyKind x.p.detail)) ∧
      s.posts u m (memberOp (rlyKind x.p.detail)) (BitVec.ofNat 12 (2048 + k)) ∧
      u.dirs = s.dirs ∧ s.regsKept u sendRegs)) ∧
  (∀ (s : State) (n : Fin 4) (x : InItem) (k : Nat) (o : RlyOpen) (w : Wait),
    s.calm → s.nextMember n = some x → x.p.tag.toNat = 2048 + k → SMap.find s.rlys k = some o → o.port = 4 → o.waits = [w] →
    o.inv.p.domain = s.domain → w.who = x.p.src → o.inv.p.line = x.p.line → x.p.opcode = Op.snpAckI →
    does (.relayMemberAnswer n) s (fun u => SMap.find u.rlys k = none ∧
      (∃ y, u.ruBack = s.ruBack ++ [y] ∧ y.p.opcode = Op.rlyAck ∧ y.p.tag = o.inv.p.tag ∧ y.p.line = o.inv.p.line ∧
        y.p.detail.toNat % 2 ^ 10 = o.sent % 2 ^ 10 ∧ y.p.detail.toNat / 2 ^ 10 % 2 ^ 10 = o.shared % 2 ^ 10) ∧
      u.dirs = s.dirs ∧ u.stalls = s.stalls ∧ s.regsKept u (R.DIR_RUSTATUS :: perfRegs)))

/-! ### MGT messages -/

/-- DOMAIN_STOP_RECEIVED (R336, R343): a secure `DomainStop` for the domain declares checkstop with the cause that it carries
and its sender recorded; a non-secure one does not. ALIAS_SET_RECEIVED (R260): a secure request is applied as R260 decides.
EPOCH_SWAP_RECEIVED (R248): it flips CUR when EXTEN permits and STATE is IDLE; without EXTEN it is not applied. MGT_ACK (R244):
the last target's answer sets its ACKED bit and flips CUR; one that matches nothing is discarded. -/
def Obligations.ManagementMessages : Prop :=
  ∀ (s : State) (n : Fin 4) (x : InItem), s.calm →
    (s.nextMgt n Op.domainStop = some x → x.p.world = true → x.p.domain = s.domain → does (.domainStopReceived n) s (fun u =>
      u.chk = true ∧ u.chkCause = x.p.detail.toNat % 256 ∧ u.fld R.GLB_CHKSTOP 8 3 = 2 ∧ u.fld R.GLB_CHKSTOP 11 18 = x.p.src.toNat ∧
      u.reg R.GLB_CHKTOD = s.tod ∧ u.dirs = s.dirs)) ∧
    (s.nextMgt n Op.domainStop = some x → x.p.world = false → does (.domainStopReceived n) s (fun u =>
      u.chk = false ∧ u.fld R.SEC_VIOL 48 16 = s.fld R.SEC_VIOL 48 16 + (if s.fld R.SEC_VIOL 48 16 < 0xFFFF then 1 else 0) ∧ u.dirs = s.dirs)) ∧
    (s.nextMgt n Op.aliasSet = some x → x.p.world = true → x.p.domain = s.domain →
      ∀ lo ph set, lo = x.p.detail.toNat % 2 ^ 18 → ph = x.p.detail.toNat / 2 ^ 18 % 2 ^ 18 → set = bit x.p.detail.toNat 36 →
      s.fenceIdx (BitVec.ofNat 18 lo) = none → does (.aliasSetReceived n) s (fun u =>
        u.fld R.RTE_ALIASSTAT 1 3 = (s.aliasResult lo ph set).1 ∧ u.flag R.RTE_ALIASSTAT 4 = true ∧ u.dirs = s.dirs ∧
        ((s.aliasResult lo ph set).1 = 0 → u.flag (camReg (s.aliasResult lo ph set).2) 36 = set) ∧
        ((s.aliasResult lo ph set).1 = 0 → set = true → u.fld (camReg (s.aliasResult lo ph set).2) 0 18 = lo ∧
          u.fld (camReg (s.aliasResult lo ph set).2) 18 18 = ph) ∧
        ((s.aliasResult lo ph set).1 ≠ 0 → u.camList = s.camList))) ∧
    (s.nextMgt n Op.epochSwap = some x → x.p.world = true → x.p.dst = s.homeId → x.p.detail.toNat % 2 ≠ s.curEpoch →
      (s.flag R.RTE_EPOCHCTL 7 = true → s.swapState = 0 → does (.epochSwapReceived n) s (fun u =>
        u.curEpoch = 1 - s.curEpoch ∧ u.swapState = 2 ∧ u.flag R.RTE_EPOCHCTL 8 = true ∧ u.mgt.flipAt = s.tod ∧ u.dirs = s.dirs)) ∧
      (s.flag R.RTE_EPOCHCTL 7 = false → does (.epochSwapReceived n) s (fun u =>
        u.curEpoch = s.curEpoch ∧ u.swapState = s.swapState ∧ u.flag R.RTE_EPOCHCTL 9 = true ∧ u.dirs = s.dirs))) ∧
    (s.nextMgt n Op.mgtAck = some x → ∀ k tt, x.p.tag.toNat = k → k < 64 → s.mgt.swapOut = [(k, tt)] → s.mgt.swapNext = 64 →
      s.mgt.swapFail = none → s.swapState = 1 → does (.mgtAck n) s (fun u =>
        u.flag (swapReg k) 19 = true ∧ u.curEpoch = 1 - s.curEpoch ∧ u.swapState = 2 ∧ u.mgt.swapOut = [] ∧ u.dirs = s.dirs ∧
        s.regsKept u [swapReg k, R.RTE_EPOCHCTL])) ∧
    (s.nextMgt n Op.mgtAck = some x → SMap.find s.mgt.swapOut x.p.tag.toNat = none → x.p.tag ≠ bcastTag → does (.mgtAck n) s (fun u =>
      u = s.dropMgt n x))

/-! ### Timers and the recovery fabric -/

/-- SNOOP_TIMEOUT, CMPACK_TIMEOUT, RLYINV_TIMEOUT, RESEND_TIMER and FWD_WINDOW_EXPIRY (R85, R108, R252, R319, R324): a forwarding
snoop that times out makes its agent SUSPECT and opens the forward window; a missing CmpAck makes the requester SUSPECT and
closes the stall; a RlyInv is sent once more while resends are left, and otherwise the domain stops; a due snoop is sent
again; the window of an agent that is still SUSPECT ends with the wait for its flush. -/
def Obligations.Timers : Prop :=
  (∀ (s : State) (tag : Tag) (t : Stall) (w : Wait) (tt : Tod) (k : Nat),
    s.calm → tag.toNat < 2048 → SMap.find s.stalls tag.toNat = some t → t.waits = [w] → w.op ≠ Op.rlyInv → w.fmode = true → w.st = .sent tt →
    s.snpTmo ≤ elapsed tt s.tod → s.fenceIdx w.who = none → s.fenceFree = some k → t.ackGot = false →
    does (.snoopTimeout tag w.who) s (fun u => u.fld (fenceReg k) 0 18 = w.who.toNat ∧ u.fld (fenceReg k) 18 2 = 1 ∧
      (∃ y, SMap.find u.stalls tag.toNat = some y ∧ y.waits = [{ w with st := .window s.tod }] ∧ y.req = t.req) ∧ u.dirs = s.dirs ∧
      s.regsKept u ([fenceReg k, R.GLB_RCVSTAT, R.BLOT_STATUS] ++ perfRegs))) ∧
  (∀ (s : State) (i : Fin 2048) (t : Stall) (tt : Tod) (k : Nat),
    s.calm → SMap.find s.stalls i = some t → t.role = .req → t.respAt = some tt → t.final = true → t.req.acks = true → t.ackGot = false →
    s.snpTmo ≤ elapsed tt s.tod → s.fenceIdx t.req.q = none → s.fenceFree = some k → t.waits = [] → t.relay = none → t.evict = none →
    t.wbWait = none → t.recorded = true → t.ink = none → t.req.cp = none → s.awaitsCommit i = false → s.rcv.purge = [] →
    does (.cmpackTimeout i) s (fun u => SMap.find u.stalls i = none ∧ u.fld (fenceReg k) 0 18 = t.req.q.toNat ∧ u.fld (fenceReg k) 18 2 = 1 ∧
      u.dirs = s.dirs ∧ s.regsKept u ([fenceReg k, R.GLB_RCVSTAT, R.BLOT_STATUS] ++ perfRegs))) ∧
  (∀ (s : State) (i : Fin 2048) (t : Stall) (w : Wait) (tt : Tod),
    s.calm → SMap.find s.stalls i = some t → t.waits = [w] → w.op = Op.rlyInv → w.st = .sent tt → s.rlyTmo ≤ elapsed tt s.tod →
    (w.resends < s.fld R.GLB_RCVCTL 8 2 → does (.rlyinvTimeout i w.who) s (fun u => u.flag R.GLB_RCVSTAT 20 = true ∧
      (∃ y w', SMap.find u.stalls i = some y ∧ y.waits = [w'] ∧ w'.who = w.who ∧ w'.resends = w.resends + 1) ∧ u.dirs = s.dirs)) ∧
    (s.fld R.GLB_RCVCTL 8 2 ≤ w.resends → does (.rlyinvTimeout i w.who) s (fun u => u.chk = true ∧ u.chkCause = 8 ∧ u.dirs = s.dirs))) ∧
  (∀ (s : State) (i : Fin 2048) (t : Stall) (w : Wait) (tt : Tod),
    s.calm → SMap.find s.stalls i = some t → t.waits = [w] → w.op ≠ Op.rlyInv → w.st = .resend tt → s.due tt = true → s.fence w.who = 0 →
    w.resends < s.fld R.GLB_RCVCTL 8 2 → does (.resendTimer i w.who) s (fun u => u.flag R.GLB_RCVSTAT 20 = true ∧
      (s.reaches w.who → s.posts u w.who w.op (BitVec.ofNat 12 i)) ∧
      (∃ y w', SMap.find u.stalls i = some y ∧ y.waits = [w'] ∧ w'.who = w.who ∧ w'.resends = w.resends + 1) ∧ u.dirs = s.dirs)) ∧
  (∀ (s : State) (i : Fin 2048) (t : Stall) (w : Wait) (tt : Tod),
    s.calm → SMap.find s.stalls i = some t → t.waits = [w] → w.st = .window tt → s.snpTmo ≤ elapsed tt s.tod → w.holder = true →
    w.op ≠ Op.snpInv → t.absorbed = none → s.fence w.who = 1 → does (.fwdWindowExpiry i) s (fun u =>
      (∃ y, SMap.find u.stalls i = some y ∧ y.waits = [{ w with st := .flush }] ∧ y.req = t.req) ∧ u.dirs = s.dirs ∧ s.onlyRegs { u with stalls := s.stalls } []))

/-- FLUSH_REQUEST_ACK, FLUSH_OUTCOME and FLUSH_TIMEOUT (R322, R327): the fabric's acknowledgement lowers the request and starts
FLUSHTMO; its end frees the handshake; an outcome, taken and acknowledged, or none within FLUSHTMO, which counts as NOFLUSH,
fences the SUSPECT ID and lets it join the purge walk; an outcome for another ID is recorded only; the fall of the response ends
its acknowledgement. -/
def Obligations.Flushes : Prop :=
  (∀ (s : State) (who : EpId) (k : Nat), s.rcv.req = some who →
    (s.rcv.reqHigh = true → s.fenceIdx who = some k → s.fld (fenceReg k) 18 2 = 1 → does (.flushRequestAck true) s (fun u =>
      u.rcv.reqHigh = false ∧ u.rcv.req = some who ∧ SMap.find u.rcv.ackAt k = some s.tod ∧ s = { u with rcv := s.rcv })) ∧
    (s.rcv.reqHigh = false → s.rcv.asks = [] → does (.flushRequestAck false) s (fun u =>
      u.rcv.req = none ∧ s = { u with rcv := s.rcv })) ∧
    (∀ a r, s.rcv.reqHigh = false → s.rcv.asks = a :: r → s.faults = [] → does (.flushRequestAck false) s (fun u =>
      u.rcv.req = some a ∧ u.rcv.reqHigh = true ∧ u.rcv.asks = r ∧ u.rcvTx = s.rcvTx ++ [s.toPhys a]))) ∧
  (∀ (s : State) (id : EpId) (code : BitVec 2) (k : Nat), s.canonical = true → s.faults = [] →
    (s.rcv.rspAck = false → s.fenceIdx (s.toLog id) = some k → s.fld (fenceReg k) 18 2 = 1 → s.rcv.purge.length < 16 → s.stalls = [] →
      does (.flushOutcome id (some code)) s (fun u => u.fld (fenceReg k) 18 2 = 2 ∧ u.fld (fenceReg k) 20 2 = (if code = 1 then 1 else 2) ∧
        u.rcv.purge = s.rcv.purge ++ [(s.toLog id, s.fld R.DIR_PURGE_STATUS 6 17, false)] ∧ u.rcv.rspAck = true ∧ u.dirs = s.dirs ∧
        s.regsKept u ([fenceReg k, R.GLB_RCVSTAT] ++ noteRegs))) ∧
    (s.rcv.rspAck = false → s.fence (s.toLog id) ≠ 1 → does (.flushOutcome id (some code)) s (fun u =>
      u.rcv = { s.rcv with rspAck := true } ∧ u.stalls = s.stalls ∧ u.dirs = s.dirs ∧ s.regsKept u noteRegs)) ∧
    does (.flushOutcome id none) s (fun u => u = { s with rcv := { s.rcv with rspAck := false } })) ∧
  (∀ (s : State) (k : Fin 16) (tt : Tod), s.canonical = true → SMap.find s.rcv.ackAt k = some tt → s.fld (fenceReg k) 18 2 = 1 →
    s.fenceIdx (BitVec.ofNat 18 (s.fld (fenceReg k) 0 18)) = some k.val →
    usec (max 1 (s.fld R.GLB_RCVCTL 0 8)) ≤ elapsed tt s.tod → s.rcv.purge.length < 16 → s.stalls = [] →
    does (.flushTimeout k) s (fun u => u.fld (fenceReg k) 18 2 = 2 ∧ u.fld (fenceReg k) 20 2 = 2 ∧
      u.rcv.purge = s.rcv.purge ++ [(BitVec.ofNat 18 (s.fld (fenceReg k) 0 18), s.fld R.DIR_PURGE_STATUS 6 17, false)] ∧ u.dirs = s.dirs ∧
      s.regsKept u ([fenceReg k, R.GLB_RCVSTAT] ++ noteRegs)))

/-- PURGE_WALK_VISIT, CLEANER_VISIT, SCRUB_READ and WAY_CLEAR_DONE (R121, R124, R126, R127, R131): the purge walk takes a fenced
sharer out of an entry and moves to the next position, and an ID back at its starting position retires; the cleaner starts the
eviction of an entry of ways 8-15, and passes a set that has none; the scrubber corrects a correctable word; cleared ways
open, or are cleaned again when their power has been withdrawn meanwhile. -/
def Obligations.SlowWalks : Prop :=
  (∀ (s : State) (who : EpId) (start pos w : Nat) (b : Bool) (e : DirEntry),
    s.calm → pos = s.fld R.DIR_PURGE_STATUS 6 17 → w < s.lookupWays → s.rcv.purge = [(who, start, b)] → (b = true → start ≠ pos) →
    s.rcv.purgeWait = [] → s.dirs = [(dirKey pos w, e)] → e.st = .s → e.sh = .ptr (some who) none → s.pinned (dirKey pos w) = false →
    does .purgeWalkVisit s (fun u => u.dirs = [] ∧ u.rcv.purge = [(who, start, true)] ∧
      u.fld R.DIR_PURGE_STATUS 6 17 = (pos + 1) % Config.positions ∧ u.stalls = s.stalls ∧ s.regsKept u (R.DIR_PURGE_STATUS :: perfRegs))) ∧
  (∀ (s : State) (who : EpId) (k : Nat), s.calm → s.rcv.purge = [(who, s.fld R.DIR_PURGE_STATUS 6 17, true)] → s.rcv.purgeWait = [] →
    s.fenceIdx who = some k → s.fld (fenceReg k) 18 2 = 2 →
    does .purgeWalkVisit s (fun u => u.fld (fenceReg k) 18 2 = 3 ∧ u.rcv.purge = [] ∧ u.reg R.DIR_PURGE_DONE = s.tod ∧ u.dirs = s.dirs ∧
      u.stalls = s.stalls ∧ s.regsKept u ([fenceReg k, R.GLB_RCVSTAT, R.DIR_PURGE_DONE] ++ noteRegs))) ∧
  (∀ s : State, s.calm → s.wayState = 1 → (∀ w, w < 8 → SMap.find s.dirs (dirKey s.rcv.cleanPos (8 + w)) = none) →
    does .cleanerVisit s (fun u => u.rcv.cleanPos = (s.rcv.cleanPos + 1) % Config.positions ∧ s = { u with rcv := s.rcv })) ∧
  (∀ (s : State) (w : Nat) (e : DirEntry) (o : EpId),
    s.calm → s.wayState = 1 → w < 8 → s.dirs = [(dirKey s.rcv.cleanPos (8 + w), e)] → e.st = .x → e.sh = .ptr (some o) none →
    s.fence o = 0 → s.pinned (dirKey s.rcv.cleanPos (8 + w)) = false → s.cleanOpen = 0 → s.evicting (dirKey s.rcv.cleanPos (8 + w)) = false →
    (s.aStall 2).isSome = true → s.inkFree.isSome = true →
    does .cleanerVisit s (fun u => ∃ j y wt, s.aStall 2 = some j ∧ SMap.find u.stalls j = some y ∧
      y.role = .evict (dirKey s.rcv.cleanPos (8 + w)) true ∧ y.blocks = true ∧ y.waits = [wt] ∧ wt.who = o ∧ wt.op = Op.backInv ∧
      u.dirs = s.dirs ∧ u.rcv.cleanPos = (s.rcv.cleanPos + 1) % Config.positions)) ∧
  (∀ (s : State) (sl w : Nat), s.canonical = true → s.flag R.DIR_STATUS 0 = true → s.fld R.DIR_SCRUB 0 16 ≠ 0 → sl < 8 → w < s.lookupWays →
    nsec (32 * s.fld R.DIR_SCRUB 0 16) ≤ elapsed s.rcv.scrubAt s.tod → s.faults = [(0, dirKey (s.rcv.scrubSet * 8 + sl) w, .ce)] →
    does .scrubRead s (fun u => u.faults = [] ∧ u.fld R.DIR_ECC_STATUS 0 16 = min (s.fld R.DIR_ECC_STATUS 0 16 + 1) 0xFFFF ∧
      u.rcv.scrubSet = (s.rcv.scrubSet + 1) % 2 ^ 14 ∧ u.rcv.scrubAt = s.tod ∧ u.dirs = s.dirs ∧ u.exts = s.exts)) ∧
  (∀ s : State, s.canonical = true → s.wayState = 3 → does .wayClearDone s (fun u =>
    u.wayState = (if s.flag R.DIR_WAYPWR 0 then 0 else 1) ∧ u.flag R.DIR_WAYPWR 3 = true ∧ u.flag R.DIR_WAYPWR 0 = s.flag R.DIR_WAYPWR 0 ∧
    s.onlyRegs { u with faults := s.faults } [R.DIR_WAYPWR]))
/-! ### Memory ports and the inkwell -/

/-- MP_READ_ISSUE (R276): the oldest waiting read takes the lowest free tag and a credit, and the next read that waits for a
place of the queue enters it. INK_WRITE_ISSUE (R276): the next filled slot is issued as a write with its corrected line. With
nothing to issue, both serve the resync of a port (R273): a line that it lacks is read from the other port, and a line read is
written to it; without one they change nothing. MP_WR_DONE (R269, R273, R277): the last port's answer commits its slot, which
becomes free; an answer before it leaves the slot waiting for the other port; a copied line is no longer under way.
MP_CMD_CREDIT (R264, R492): a credit is counted; the second kind of credit takes a port in RESET or ABSENT to RUN. -/
def Obligations.MemoryCommandsAndCommits : Prop :=
  ((∀ (s : State) (n : Fin 2) (r : MpRead) (rest : List MpRead) (t : Nat),
    s.calm → s.canRead n = true → (s.writeFirst n && s.canWrite n) = false → (s.mp n).reads = r :: rest → r.tag = none →
    (List.range 64).find? (fun t => (s.mp n).reads.all (fun r => r.tag != some t)) = some t →
    does (.mpReadIssue n) s (fun u => u.mpTx = s.mpTx ++ [⟨n, false, portLine r.h, t, []⟩] ∧
      (u.mp n).reads = enterNext s.tod ({ r with tag := some t, since := s.tod } :: rest) ∧ (u.mp n).rdCred = (s.mp n).rdCred - 1 ∧
      (u.mp n).writes = (s.mp n).writes ∧ u.stalls = s.stalls ∧ u.ink = s.ink ∧ u.dirs = s.dirs ∧ s.regsKept u (R.GLB_RCVSTAT :: perfRegs))) ∧
  (∀ (s : State) (m n : Fin 2) (c : CopySt) (h t : Nat),
    s.calm → m.val + n.val = 1 → s.canRead m = false → (s.writeFirst m && s.canWrite m) = false → (s.mp n).copy = some c →
    s.mpState n = 4 → s.copyLine n c = some h → (List.range 64).find? (fun t => (s.mp m).reads.all (fun r => r.tag != some t)) = some t →
    s.mpPowered m = true → s.mpPresent m = true → s.mpState m = 1 → 1 ≤ (s.mp m).rdCred →
    (s.mp m).reads.countP (fun r => r.copy) < halfOf (s.mp m).rdCred ((s.mp m).reads.countP (fun r => r.tag.isSome)) →
    does (.mpReadIssue m) s (fun u => u.mpTx = s.mpTx ++ [⟨m, false, portLine (BitVec.ofNat 34 h), t, []⟩] ∧
      (u.mp m).reads = (s.mp m).reads ++ [⟨BitVec.ofNat 34 h, 0, some t, s.tod, some s.tod, none, .no, true⟩] ∧
      (u.mp m).rdCred = (s.mp m).rdCred - 1 ∧ (u.mp n).copy = some { c with pos := h + 1, busy := c.busy ++ [BitVec.ofNat 34 h] } ∧
      u.stalls = s.stalls ∧ u.ink = s.ink ∧ u.dirs = s.dirs ∧ s.regsKept u perfRegs)) ∧
  (∀ (s : State) (n : Fin 2), ((s.canRead n = false ∧ (s.mp (1 - n.val)).copy = none) ∨ (s.writeFirst n && s.canWrite n) = true) →
    does (.mpReadIssue n) s (fun u => u = s)) ∧
  (∀ (s : State) (n : Fin 2) (k t : Nat) (x : InkSlot),
    s.calm → s.canWrite n = true → (s.writeFirst n = true ∨ s.canRead n = false) → s.nextWrite n = some (k, x) →
    SMap.firstFree (s.mp n).writes 64 32 = some t →
    does (.inkWriteIssue n) s (fun u => u.mpTx = s.mpTx ++ [⟨n, true, portLine x.h, t, x.data.fix⟩] ∧
      SMap.find u.ink k = some { x with data := x.data.fix, known := x.data.badMask, phase := .issued, sent := x.sent ++ [n.val],
                                        again := false } ∧
      (∀ j, j ≠ k → SMap.find u.ink j = SMap.find s.ink j) ∧
      SMap.find (u.mp n).writes t = some (k, x.seq, s.tod) ∧ (u.mp n).wrCred = (s.mp n).wrCred - 1 ∧ (u.mp n).reads = (s.mp n).reads ∧
      u.stalls = s.stalls ∧ u.dirs = s.dirs ∧ s.regsKept u ([R.INK_ECC, R.BLOT_STATUS, R.GLB_RCVSTAT] ++ perfRegs))) ∧
  (∀ (s : State) (n : Fin 2) (c : CopySt) (h : HIdx) (d : LineData) (rest : List (HIdx × LineData)) (t : Nat),
    s.calm → s.canRead n = false → s.canWrite n = false → (s.mp n).copy = some c → c.data = (h, d) :: rest →
    SMap.firstFree (s.mp n).writes 64 32 = some t → s.mpState n = 4 → s.mpPowered n = true → s.mpPresent n = true → 1 ≤ (s.mp n).wrCred →
    (s.mp n).writes.countP (fun e => e.2.1 == Config.inkSlots) < halfOf (s.mp n).wrCred (s.mp n).writes.length →
    does (.inkWriteIssue n) s (fun u => u.mpTx = s.mpTx ++ [⟨n, true, portLine h, t, d⟩] ∧
      SMap.find (u.mp n).writes t = some (Config.inkSlots, h.toNat, s.tod) ∧ (u.mp n).wrCred = (s.mp n).wrCred - 1 ∧
      (u.mp n).copy = some { c with data := rest } ∧ s = { u with mps := s.mps, mpTx := s.mpTx })) ∧
  (∀ (s : State) (n : Fin 2), ((s.canWrite n = false ∧ (s.mp n).copy = none) ∨ (s.writeFirst n && s.canWrite n) = false ∧ s.canRead n = true) →
    does (.inkWriteIssue n) s (fun u => u = s))) ∧
  ((∀ (s : State) (n : Fin 2) (tag : BitVec 7) (k : Nat) (tt : Tod) (x : InkSlot),
    s.calm → SMap.wf (s.mp n).writes = true → SMap.find (s.mp n).writes tag.toNat = some (k, x.seq, tt) → k ≠ Config.inkSlots →
    SMap.find s.ink k = some x → (x.need.filter (fun m => m != n.val) = [] → x.waiters = [] → x.cps = [] → does (.mpWrDone n tag false) s (fun u =>
      SMap.find u.ink k = none ∧ (∀ j, j ≠ k → SMap.find u.ink j = SMap.find s.ink j) ∧ SMap.find (u.mp n).writes tag.toNat = none ∧
      u.stalls = s.stalls ∧ u.dirs = s.dirs ∧ s.regsKept u (R.INK_COMMIT :: perfRegs))) ∧
    (x.need.filter (fun m => m != n.val) ≠ [] → does (.mpWrDone n tag false) s (fun u =>
      SMap.find u.ink k = some { x with need := x.need.filter (fun m => m != n.val) } ∧ SMap.find (u.mp n).writes tag.toNat = none ∧
      u.stalls = s.stalls ∧ u.dirs = s.dirs ∧ s.regsKept u perfRegs))) ∧
  (∀ (s : State) (n : Fin 2) (tag : BitVec 7) (h : HIdx) (tt : Tod) (c : CopySt),
    s.calm → SMap.wf (s.mp n).writes = true → SMap.find (s.mp n).writes tag.toNat = some (Config.inkSlots, h.toNat, tt) →
    (s.mp n).copy = some c → does (.mpWrDone n tag false) s (fun u =>
      (u.mp n).copy = some { c with busy := c.busy.filter (fun x => x != h) } ∧ SMap.find (u.mp n).writes tag.toNat = none ∧
      u.ink = s.ink ∧ u.stalls = s.stalls ∧ u.dirs = s.dirs ∧ s.regsKept u perfRegs)) ∧
  (∀ (s : State) (n : Fin 2) (write : Bool), s.canonical = true → s.mpPresent n = true →
    (s.mpState n = 0 → s.mpPowered n = true → (if write then (s.mp n).seenRd else (s.mp n).seenWr) = true →
      does (.mpCmdCredit n write) s (fun u => u.mpState n = 1 ∧ s.regsKept u [mpBase R.MP_STATUS n] ∧ u.stalls = s.stalls ∧ u.ink = s.ink)) ∧
    (s.mpState n = 1 → does (.mpCmdCredit n write) s (fun u => (u.mp n).rdCred = (s.mp n).rdCred + b2n (!write) ∧
      (u.mp n).wrCred = (s.mp n).wrCred + b2n write ∧ u.mpState n = 1 ∧ s = { u with mps := s.mps })) ∧
    (s.mpState n = 3 → (if write then (s.mp n).seenRd else (s.mp n).seenWr) = true → (s.mp n).driven = false →
      does (.mpCmdCredit n write) s (fun u => u.mpState n = 1 ∧ u.flag R.ISL_RSTSTAT (5 + n.val) = false ∧
        s.regsKept u [mpBase R.MP_STATUS n, R.ISL_RSTSTAT] ∧ u.stalls = s.stalls ∧ u.ink = s.ink))))

/-- MP_READ_DATA (R266): a line without damage reaches the stall that asked for it, which keeps it while answers are awaited;
a `RdShared` of a line in state I that awaits nothing else is answered with `DataE`, and its requester recorded as X holder. -/
def Obligations.MemoryData : Prop :=
  ∀ (s : State) (n : Fin 2) (tag : BitVec 7) (data : LineData) (r : MpRead) (t : Stall),
    s.calm → (s.mp n).reads.find? (fun r => r.tag == some tag.toNat) = some r → r.again = none → r.copy = false → data.ceCount = 0 → data.ueCount = 0 →
    SMap.find s.stalls r.stall = some t → t.role = .req → t.rd = .asked → t.h = r.h → t.hold = none → t.got = none →
    (∀ w ws, t.waits = w :: ws → does (.mpReadData n tag data false) s (fun u =>
      (∃ y, SMap.find u.stalls r.stall = some y ∧ y.got = some (LineData.norm data) ∧ y.rd = .got ∧ y.waits = t.waits ∧ y.req = t.req) ∧
      (u.mp n).reads = (s.mp n).reads.erase r ∧ u.dirs = s.dirs ∧ u.ink = s.ink ∧ s.regsKept u (mpBase R.MP_LAT n :: perfRegs))) ∧
    (∀ k, t.waits = [] → t.relay = none → t.wbWait = none → t.evict = none → t.out = some .direct → t.final = false → t.ready = false →
      t.ackGot = false → t.code ≠ 1 → t.req.op = Op.rdShared → t.req.src < 4 → t.req.cp = none → t.way = some k → s.dirHits t.h = [] →
      s.awaitsCommit r.stall = false → s.reaches t.req.q →
      does (.mpReadData n tag data false) s (fun u =>
        SMap.find u.dirs k = some ⟨tagOf t.h, true, s.worldOfH t.h, .x, .ptr (some t.req.q) none⟩ ∧
        (∃ y, SMap.find u.stalls r.stall = some y ∧ y.req = t.req ∧ y.final = true ∧ y.recorded = true ∧ y.code = 3) ∧
        s.posts u t.req.q Op.dataE t.req.tag ∧
        (u.mp n).reads = (s.mp n).reads.erase r ∧ u.ink = s.ink ∧ s.regsKept u (mpBase R.MP_LAT n :: sendRegs)))

/-- MP_FAIL, MP_RD_TIMEOUT, MP_WR_TIMEOUT, and MP_WR_DONE with an error (R270, R271): the port in RUN fails. With the other
port in RUN and no line stranded, it is FAILED, the domain degraded, and its reads wait on the other port; otherwise the domain
stops with the cause MemoryLost. MP_CTRL_RST (R264, R272, R273): a port in RUN or RESET is in RESET without credits, its reads that the
other port cannot take wait for it again, and its interrupted writes return to FILLED; a port in RESYNC becomes FAILED, and
the slots that it should have held wait for the other port alone; a port in another state only loses its credits.
RESYNC_COPY_DONE (R273, R292): once every line is copied, the port enters RUN and the domain is no longer degraded. -/
def Obligations.MemoryPortStates : Prop :=
  (∀ (s : State) (n : Fin 2), s.calm → s.mpPresent n = true → s.mpState n = 1 → portFails (.mpFail n) s n) ∧
  (∀ (s : State) (n : Fin 2), s.calm → s.mpPresent n = true → s.mpState n = 1 →
    (∃ r ∈ (s.mp n).reads, r.tag.isSome = true ∧ s.mpTmo n 27 ≤ elapsed r.since s.tod) → portFails (.mpRdTimeout n) s n) ∧
  (∀ (s : State) (n : Fin 2), s.calm → s.mpPresent n = true → s.mpState n = 1 →
    (∃ e ∈ (s.mp n).writes, s.mpTmo n 35 ≤ elapsed e.2.2.2 s.tod) → portFails (.mpWrTimeout n) s n) ∧
  (∀ (s : State) (n : Fin 2) (tag : BitVec 7), s.calm → s.mpPresent n = true → s.mpState n = 1 →
    (SMap.find (s.mp n).writes tag.toNat).isSome = true → portFails (.mpWrDone n tag true) s n) ∧
  (∀ (s : State) (n : Fin 2), s.calm → s.mpState n = 1 ∨ s.mpState n = 3 → s.mpState (1 - n.val) ≠ 1 → (s.mp n).writes = [] →
    does (.mpCtrlRst n) s (fun u => u.mpState n = 3 ∧ u.flag R.ISL_RSTSTAT (5 + n.val) = true ∧
      u.fld R.ISL_RSTSTAT 10 16 = min (s.fld R.ISL_RSTSTAT 10 16 + 1) 0xFFFF ∧ (u.mp n).rdCred = 0 ∧ (u.mp n).wrCred = 0 ∧
      (u.mp n).seenRd = false ∧ (u.mp n).seenWr = false ∧ (u.mp n).reads = (s.mp n).reads.map (fun r => r.back s.tod) ∧
      u.stalls = s.stalls ∧ u.ink = s.ink ∧ u.dirs = s.dirs ∧ s.regsKept u [mpBase R.MP_STATUS n, R.ISL_RSTSTAT])) ∧
  (∀ (s : State) (n : Fin 2), s.calm → s.mpState n = 1 → s.mpState (1 - n.val) = 1 → (s.mp n).writes = [] →
    (∀ r ∈ (s.mp n).reads, (s.portsOf r.h).length = 2) →
    does (.mpCtrlRst n) s (fun u => u.mpState n = 3 ∧ (u.mp n).reads = [] ∧ (u.mp n).rdCred = 0 ∧ (u.mp n).wrCred = 0 ∧
      (u.mp (1 - n.val)).reads.map MpRead.what = (s.mp (1 - n.val)).reads.map MpRead.what ++ (s.mp n).reads.map (fun r => r.movedBy .reset) ∧
      u.stalls = s.stalls ∧ u.ink = s.ink ∧ u.dirs = s.dirs)) ∧
  (∀ (s : State) (n : Fin 2) (tag k : Nat) (tt : Tod) (x : InkSlot), s.calm → s.mpState n = 1 → (s.mp n).reads = [] →
    (s.mp n).writes = [(tag, k, x.seq, tt)] → SMap.find s.ink k = some x → (∀ e ∈ s.ink, e.1 ≠ k → e.2.h ≠ x.h) →
    does (.mpCtrlRst n) s (fun u => u.mpState n = 3 ∧ (u.mp n).writes = [] ∧
      SMap.find u.ink k = some { x with phase := .filled, sent := x.sent.filter (fun m => m != n.val), again := true } ∧
      (∀ j, j ≠ k → SMap.find u.ink j = SMap.find s.ink j) ∧ u.stalls = s.stalls ∧ u.dirs = s.dirs)) ∧
  (∀ (s : State) (n : Fin 2), s.calm → s.mpState n = 4 → (∀ e ∈ s.ink, e.2.ports.contains n.val = false) →
    does (.mpCtrlRst n) s (fun u => u.mpState n = 2 ∧ (u.mp n).copy = none ∧ (u.mp n).writes = [] ∧ (u.mp n).rdCred = 0 ∧
      (u.mp n).wrCred = 0 ∧ u.stalls = s.stalls ∧ u.ink = s.ink ∧ s.regsKept u [mpBase R.MP_STATUS n, R.ISL_RSTSTAT])) ∧
  (∀ (s : State) (n : Fin 2), s.calm → s.mpState n = 0 ∨ s.mpState n = 2 →
    does (.mpCtrlRst n) s (fun u => u.mpState n = s.mpState n ∧ (u.mp n).rdCred = 0 ∧ (u.mp n).wrCred = 0 ∧
      (u.mp n).reads = (s.mp n).reads ∧ u.stalls = s.stalls ∧ u.ink = s.ink ∧ s.onlyRegs { u with mps := s.mps } [R.ISL_RSTSTAT])) ∧
  (∀ (s : State) (n : Fin 2), s.canonical = true → s.chk = false → s.mpState n = 4 →
    (s.copyOver n = true → does (.resyncCopyDone n) s (fun u => u.mpState n = 1 ∧ (u.mp n).copy = none ∧
      u.fld (mpBase R.MP_STATUS n) 16 26 = s.mirrorUnits % 2 ^ 26 ∧ u.flag R.INK_STATUS 30 = false ∧ u.ink = s.ink ∧ u.stalls = s.stalls ∧
      s.regsKept u [mpBase R.MP_STATUS n, R.INK_STATUS])) ∧
    (s.copyOver n = false → does (.resyncCopyDone n) s (fun u => u = s)))

/-! ### Channel port -/

/-- CP_READ, CP_WRFULL, CP_WRPART and CP_SYNC (R138, R285, R286, R287): a NEW command of an idle stream, for a line in state I, moves
NEXT past it; the read and the partial write ask for the memory line, the full write places its line in the inkwell and is
answered OK, the sync is answered OK at once, or waits in COMMITWAIT for the writes of its stream. -/
def Obligations.ChannelCommands : Prop :=
  (∀ (s : State) (c : CpCmd) (h : HIdx) (i sl : Nat) (d : LineData),
    s.calm → s.cp.opened = true → s.link 4 = 1 → s.cpClass c = .fresh → SMap.find s.cp.opens c.stream.val = none → s.cpHeld c.stream = false →
    SMap.wf s.cp.opens = true → d = c.data.fix → cpBadWord c = none → s.aStall 0 = some i → 1 ≤ s.freeStalls 0 → s.awaitsCommit i = false →
    s.hIdx c.line = some h → s.denies (s.flag R.SEC_WORLDCFG 4) c.line = false → s.quietLine h → s.claimed c.line none = false →
    1 ≤ s.inkRoom → s.inkFree = some sl →
    (c.op = 1 → does (.cpRead c) s (fun u => u.cpNext c.stream.val = c.seq + 1 ∧
      SMap.find u.cp.opens c.stream.val = some [⟨c.seq, false, some i, none, some s.tod⟩] ∧
      (∃ y, SMap.find u.stalls i = some y ∧ y.req.op = Op.rdOnce ∧ y.req.line = c.line ∧ y.h = h ∧ y.blocks = true ∧ y.rd = .asked) ∧
      s.readAsked u h i ∧ u.dirs = s.dirs ∧ u.ink = s.ink ∧ s.regsKept u ([cpReg c.stream.val, R.YARD_PEAK, R.BLOT_STATUS] ++ perfRegs))) ∧
    (c.op = 2 → does (.cpWrfull c) s (fun u => u.cpNext c.stream.val = c.seq + 1 ∧ SMap.find u.stalls i = none ∧
      (∃ y, SMap.find u.ink sl = some y ∧ y.h = h ∧ y.phase = .filled ∧ y.data = LineData.norm d ∧ y.cps = [(c.stream.val, c.seq)] ∧
        y.ids = []) ∧ (∀ j, j ≠ sl → SMap.find u.ink j = SMap.find s.ink j) ∧
      s.cpAnswered u c 0 ∧ u.dirs = s.dirs ∧
      s.regsKept u ([cpReg c.stream.val, R.YARD_PEAK, R.YARD_RESP, R.INK_PEAK, R.BLOT_STATUS] ++ perfRegs))) ∧
    (c.op = 3 → does (.cpWrpart c) s (fun u => u.cpNext c.stream.val = c.seq + 1 ∧
      (∃ y, SMap.find u.stalls i = some y ∧ y.req.op = Op.wrPart ∧ y.req.mask = c.mask ∧ y.req.data = d ∧ y.h = h ∧ y.blocks = true ∧
        y.ink = some sl ∧ y.rd = .asked) ∧
      s.reserves u sl h ∧ s.readAsked u h i ∧
      u.dirs = s.dirs ∧ s.regsKept u ([cpReg c.stream.val, R.YARD_PEAK, R.INK_PEAK, R.BLOT_STATUS] ++ perfRegs)))) ∧
  ∀ (s : State) (c : CpCmd) (i : Nat),
    s.calm → s.cp.opened = true → s.link 4 = 1 → s.cpClass c = .fresh → SMap.find s.cp.opens c.stream.val = none → s.cpHeld c.stream = false →
    SMap.wf s.cp.opens = true → s.aStall 0 = some i → 1 ≤ s.freeStalls 0 → s.awaitsCommit i = false → c.op = 4 → c.data = [] →
    ((∀ e ∈ s.ink, ∀ p ∈ e.2.cps, p.1 ≠ c.stream.val) → does (.cpSync c) s (fun u => u.cpNext c.stream.val = c.seq + 1 ∧
      SMap.find u.stalls i = none ∧ s.cpAnswered u c 0 ∧ u.dirs = s.dirs ∧ u.ink = s.ink ∧
      s.regsKept u ([cpReg c.stream.val, R.YARD_PEAK, R.YARD_RESP] ++ perfRegs))) ∧
    ((∃ e ∈ s.ink, (c.stream.val, c.seq - 1) ∈ e.2.cps) → does (.cpSync c) s (fun u => u.cpNext c.stream.val = c.seq + 1 ∧
      (∃ y, SMap.find u.stalls i = some y ∧ y.req.op = Op.sync ∧ y.blocks = false ∧ y.code = 5) ∧ u.dirs = s.dirs ∧ u.ink = s.ink ∧ u.cp.eg = s.cp.eg))

/-- The other classes of R285, for each of the four commands: WINDOW, GAP and STALE are counted and answered with their
status; a duplicate write is answered DUP (R290); an unassigned OP is answered ILLEGAL (R284). CP_COMMAND_RETRY (R136): the
earliest command of the stream that waits in the island, here a READ of a line in state I, is presented again and takes its
stall. CP_LINK_RST (R291): the link is in RESET, completions that wait for it are dropped, and the stream table and the
accepted commands stay. -/
def Obligations.ChannelAnswersAndReset : Prop :=
  (∀ (s : State) (c : CpCmd) (e : Instr), s.calm → s.cp.opened = true → s.link 4 = 1 →
    (e = .cpRead c ∨ e = .cpWrfull c ∨ e = .cpWrpart c ∨ e = .cpSync c) →
    (∀ cl status lo, (cl, status, lo) ∈ [(CpClass.window, 3, 16), (CpClass.gap, 2, 0), (CpClass.stale, 4, 32)] →
      (cpOpcode c.op).isSome = true → s.cpClass c = cl → does e s (fun u => s.cpAnswered u c status ∧
        u.fld R.CP_ERRCNT lo 16 = min (s.fld R.CP_ERRCNT lo 16 + 1) 0xFFFF ∧ u.cpNext c.stream.val = s.cpNext c.stream.val ∧
        u.stalls = s.stalls ∧ u.dirs = s.dirs ∧ u.ink = s.ink ∧ s.regsKept u ([R.CP_ERRCNT, R.YARD_RESP, R.BLOT_STATUS] ++ perfRegs))) ∧
    (cpOpcode c.op = none → does e s (fun u => s.cpAnswered u c 9 ∧ u.fld R.CP_ERRCNT 32 16 = min (s.fld R.CP_ERRCNT 32 16 + 1) 0xFFFF ∧
      u.stalls = s.stalls ∧ u.dirs = s.dirs ∧ u.ink = s.ink ∧ s.regsKept u ([R.CP_ERRCNT, R.YARD_RESP, R.BLOT_STATUS] ++ perfRegs))) ∧
    (c.op = 2 ∨ c.op = 3 → s.cpClass c = .dup → SMap.find s.cp.opens c.stream.val = none → SMap.wf s.cp.opens = true →
      does e s (fun u => s.cpAnswered u c 1 ∧ u.fld R.CP_ERRCNT 48 16 = min (s.fld R.CP_ERRCNT 48 16 + 1) 0xFFFF ∧
        u.cpNext c.stream.val = s.cpNext c.stream.val ∧ u.stalls = s.stalls ∧ u.dirs = s.dirs ∧ u.ink = s.ink ∧
        s.regsKept u ([R.CP_ERRCNT, R.YARD_RESP] ++ perfRegs)))) ∧
  ((∀ (s : State) (c : CpCmd) (rest : List (CpCmd × BitVec 16 × Bool)) (h : HIdx) (i : Nat),
    s.calm → s.cp.retry = (c, 0, false) :: rest → SMap.find s.cp.opens c.stream.val = some [⟨c.seq, false, none, none, none⟩] → c.op = 1 →
    s.aStall 0 = some i → 1 ≤ s.freeStalls 0 → s.awaitsCommit i = false → s.hIdx c.line = some h →
    s.denies (s.flag R.SEC_WORLDCFG 4) c.line = false → s.quietLine h → s.claimed c.line none = false →
    does (.cpCommandRetry c.stream) s (fun u => u.cp.retry = rest ∧ SMap.find u.cp.opens c.stream.val = some [⟨c.seq, false, some i, none, some s.tod⟩] ∧
      (∃ y, SMap.find u.stalls i = some y ∧ y.req.op = Op.rdOnce ∧ y.req.line = c.line ∧ y.h = h ∧ y.blocks = true ∧ y.rd = .asked) ∧
      s.readAsked u h i ∧ u.dirs = s.dirs ∧ u.ink = s.ink ∧ s.regsKept u (R.YARD_PEAK :: perfRegs))) ∧
  (∀ s : State, s.canonical = true → s.isl 6 ≠ 3 → s.isl 6 ≠ 4 → does .cpLinkRst s (fun u => u.link 4 = 3 ∧ u.flag R.ISL_RSTSTAT 7 = true ∧
    u.fld R.ISL_RSTSTAT 10 16 = min (s.fld R.ISL_RSTSTAT 10 16 + 1) 0xFFFF ∧ u.cp.eg = [] ∧ u.cp.cred = 0 ∧ u.cp.opens = s.cp.opens ∧
    u.cp.retry = s.cp.retry ∧ u.stalls = s.stalls ∧ u.ink = s.ink ∧ s.regsKept u [R.CP_STATUS, R.ISL_RSTSTAT])))

/-! ### Ledger engine and atomic line cache -/

/-- STROKE_EXECUTE (R182, R183, R202, R206, R208): the stroke gathered longest ago. In the ALC, a success writes its word, which
makes the entry dirty; in bypass it fills its inkwell slot; a failed guard writes nothing, counts the abort and releases the
slot. Its stall closes with `StrokeDone`. -/
def Obligations.StrokesExecute : Prop :=
  ∀ (s : State) (i : Nat) (rest : List Nat) (t : Stall) (f : OpFlit) (a : Nat),
    s.calm → s.rcv.purge = [] → s.readyStrk = i :: rest → SMap.find s.stalls i = some t → t.role = .req → t.req.src < 4 →
    f = opFlit t.req.data 0 → s.reaches t.req.q →
    (∀ e new, t.alc = some a → t.ink = none → SMap.find s.alc a = some e → f.apply (e.data.word f.word).fix = (0, new) → f.op ≠ 0 →
      does .strokeExecute s (fun u =>
        (∃ y, SMap.find u.alc a = some y ∧ y.h = e.h ∧ y.v = e.v ∧ y.lk = e.lk ∧ y.d = true ∧ y.ref = true ∧
          ∀ w, w < 32 → y.data.word w = if w = f.word then new else e.data.word w) ∧
        (∀ k, k ≠ a → SMap.find u.alc k = SMap.find s.alc k) ∧
        SMap.find u.stalls i = none ∧ u.readyStrk = rest ∧ s.posts u t.req.q Op.strokeDone t.req.tag ∧ u.dirs = s.dirs ∧ u.ink = s.ink ∧
        s.regsKept u ([R.ALC_ECC, R.ALC_ECC_LOC] ++ sendRegs))) ∧
    (∀ sl x d, t.alc = none → t.ink = some sl → t.got = some d → SMap.find s.ink sl = some x → s.inkOlder sl x.h = [] →
      (∀ new, f.apply (d.word f.word).fix = (0, new) → f.op ≠ 0 → does .strokeExecute s (fun u =>
        (∃ y, SMap.find u.ink sl = some y ∧ y.h = x.h ∧ y.phase = .filled ∧ (∀ w, w < 32 → y.data.word w = if w = f.word then new else d.word w)) ∧
        SMap.find u.stalls i = none ∧ u.readyStrk = rest ∧ s.posts u t.req.q Op.strokeDone t.req.tag ∧ u.dirs = s.dirs ∧ u.alc = s.alc ∧
        s.regsKept u sendRegs)) ∧
      (∀ old, f.apply (d.word f.word).fix = (1, old) → t.out = some .direct → does .strokeExecute s (fun u =>
        SMap.find u.ink sl = none ∧ SMap.find u.stalls i = none ∧ u.readyStrk = rest ∧ s.posts u t.req.q Op.strokeDone t.req.tag ∧
        u.fld R.LED_ABORTS 0 16 = min (s.fld R.LED_ABORTS 0 16 + 1) 0xFFFF ∧ u.dirs = s.dirs ∧ u.alc = s.alc ∧
        s.regsKept u (R.LED_ABORTS :: sendRegs))))

/-- LIGATURE_EXECUTE (R190-R193, R195, R197, R202, R206), of one operation in bypass. A success fills the slot of its data line
with the new word and the slot of its journal line with the record, and the ring's SEQ advances; a failed guard writes
nothing and leaves SEQ. Its stalls close and `LigDone` goes to its requester. -/
def Obligations.LigaturesExecute : Prop :=
  ∀ (s : State) (k i j a b : Nat) (rest : List Nat) (g : Lig) (l jl : LineAddr) (t tj : Stall) (d dj : LineData) (x y : InkSlot) (f : OpFlit),
    s.calm → s.rcv.purge = [] → s.readyLig = k :: rest → SMap.find s.ligs k = some g → g.dead = false → g.bypass = true → g.lines = [l] →
    g.held = [(l, i)] → g.jline = some (jl, j) → g.inks = [] → g.stalls = [i, j] → i ≠ j → a ≠ b → opFlits g.req.data = [f] → f.isNote = false →
    f.line = l → s.ringEn (ligRing g.req.detail) = true → s.ringFull (ligRing g.req.detail) = false →
    SMap.find s.stalls i = some t → SMap.find s.stalls j = some tj → t.alc = none → tj.alc = none → t.ink = some a → tj.ink = some b →
    t.got = some d → tj.got = some dj → t.out = some .direct → tj.out = some .direct → t.role = .lig k false → tj.role = .lig k true →
    t.evict = none → SMap.find s.ink a = some x → SMap.find s.ink b = some y → x.h ≠ y.h → s.inkOlder a x.h = [] → s.inkOlder b y.h = [] →
    g.req.src < 4 → s.reaches g.req.q →
    (∀ new, f.apply (d.word f.word).fix = (0, new) → f.op ≠ 0 → does .ligatureExecute s (fun u =>
      (∃ z, SMap.find u.ink a = some z ∧ z.phase = .filled ∧ ∀ w, w < 32 → z.data.word w = if w = f.word then new else d.word w) ∧
      (∃ z, SMap.find u.ink b = some z ∧ z.phase = .filled ∧ ∀ w, w < 16 →
        z.data.word (s.ringSeq (ligRing g.req.detail) % 2 * 16 + w) =
          (ligRecord g (s.ringSeq (ligRing g.req.detail)) s.tod ⟨[(i, f.word, new)], [DWord.gen new.val], DWord.zero, 0, 0, DWord.zero⟩).getD w DWord.zero) ∧
      u.ringSeq (ligRing g.req.detail) = (s.ringSeq (ligRing g.req.detail) + 1) % 2 ^ 48 ∧
      SMap.find u.ligs k = none ∧ SMap.find u.stalls i = none ∧ SMap.find u.stalls j = none ∧ u.readyLig = rest ∧
      s.posts u g.req.q Op.ligDone g.req.tag ∧ u.dirs = s.dirs ∧ s.regsKept u ((R.LED_JSEQ + 0x20 * ligRing g.req.detail) :: sendRegs))) ∧
    (∀ old, f.apply (d.word f.word).fix = (1, old) → does .ligatureExecute s (fun u =>
      SMap.find u.ink a = none ∧ SMap.find u.ink b = none ∧ SMap.find u.ligs k = none ∧ SMap.find u.stalls i = none ∧
      SMap.find u.stalls j = none ∧ u.readyLig = rest ∧ s.posts u g.req.q Op.ligDone g.req.tag ∧
      u.fld R.LED_ABORTS 0 16 = min (s.fld R.LED_ABORTS 0 16 + 1) 0xFFFF ∧ u.dirs = s.dirs ∧ s.regsKept u (R.LED_ABORTS :: sendRegs)))

/-- ALC_MOVE_DONE (R214): the moved line is FILLED in its inkwell slot and its entry is free. ALC_DRAIN_FREE (R225): the drain's
next clean entry is freed. ALC_INVALIDATE_DONE (R223): no entry is valid, the ALC is OFF and ARMED. BANK_CLEAR_DONE (R226):
the bank holds nothing and is ON, or is cleaned when its power has been withdrawn meanwhile. -/
def Obligations.AlcWork : Prop :=
  (∀ (s : State) (m : Move) (e : AlcEntry) (x : InkSlot), s.calm → s.moves = [m] → SMap.find s.alc m.entry = some e →
    SMap.find s.ink m.slot = some x → s.inkOlder m.slot x.h = [] → (∀ y ∈ s.stalls, y.2.alc ≠ some m.entry) →
    does .alcMoveDone s (fun u => u.moves = [] ∧ SMap.find u.alc m.entry = none ∧ (∀ k, k ≠ m.entry → SMap.find u.alc k = SMap.find s.alc k) ∧
      (∃ y, SMap.find u.ink m.slot = some y ∧ y.h = x.h ∧ y.phase = .filled ∧ y.data = LineData.norm e.data.fix) ∧
      u.stalls = s.stalls ∧ u.dirs = s.dirs ∧ s.regsKept u ([R.ALC_ECC, R.ALC_ECC_LOC, R.BLOT_STATUS] ++ perfRegs))) ∧
  (∀ (s : State) (k : Nat) (e : AlcEntry), s.calm → s.alcState = 2 → s.drainFree = some (k, e) →
    does .alcDrainFree s (fun u => SMap.find u.alc k = none ∧ (∀ j, j ≠ k → SMap.find u.alc j = SMap.find s.alc j) ∧ s = { u with alc := s.alc })) ∧
  (∀ s : State, s.canonical = true → s.alcState = 3 → does .alcInvalidateDone s (fun u => u.alc = [] ∧ u.alcUndef = s.alcUndef &&& s.banksOff ∧ u.alcState = 0 ∧
    u.flag R.ALC_STATUS 0 = true ∧ u.stalls = s.stalls ∧ u.dirs = s.dirs ∧ s.regsKept u [R.ALC_CTL, R.ALC_STATUS])) ∧
  (∀ (s : State) (b : Fin 8), s.canonical = true → s.bank b = 3 → does (.bankClearDone b) s (fun u =>
    u.bank b = (if s.flag R.ALC_BANKPWR b then 0 else 1) ∧ u.flag R.ALC_BANKPWR (24 + b.val) = true ∧ (∀ e ∈ u.alc, e.1 / 8 ≠ b.val) ∧
    u.alcUndef = s.alcUndef &&& ~~~(BitVec.ofNat 8 (2 ^ b.val)) ∧
    u.stalls = s.stalls ∧ u.dirs = s.dirs ∧ s.regsKept u [R.ALC_BANKPWR]))

/-! ### Islands, resets and links -/

/-- ISLAND_POWER_OFF and ISLAND_WAKE_DONE (R368, R369, R382): a draining island with nothing left is OFF, with its DONE bit, its
link DOWN and a network port closed; a waking island is ON, with its DONE bit: a network port that muster has opened opens
again at the start of its ramp, a memory port is ABSENT without credits, or stays FAILED (one in RESYNC that no slot waits for becomes so), the channel port has no credit,
and start-up resumes that waited for the boot island. ISLAND_CLOCK_GATE, ISLAND_WAKE and WAKE_LATE (R358, R359): an idle
island in ON becomes GATED when its control bit permits, a gated one ON; a late wake is counted with its island. -/
def Obligations.IslandPower : Prop :=
  (∀ (s : State) (i : Fin 8), s.canonical = true → s.isl i = 2 → s.drained i = true → does (.islandPowerOff i) s (fun u => u.isl i = 3 ∧
    u.flag R.ISL_PWREVT i = true ∧ u.stalls = s.stalls ∧ u.ink = s.ink ∧ u.dirs = s.dirs ∧
    (∀ n : Fin 4, n.val = i.val → u.link n = 0 ∧ u.isOpen n = false ∧ (u.np n).cred = [0, 0, 0, 0, 0, 0] ∧ (u.np n).grant = [0, 0, 0, 0, 0, 0] ∧
      s.regsKept u [R.ISL_PWRSTAT, R.ISL_PWREVT, npBase R.NP_STATUS n, npBase R.NP_CREDNOW n, npBase R.NP_CTL n]) ∧
    (i = 6 → u.link 4 = 0 ∧ s.regsKept u [R.ISL_PWRSTAT, R.ISL_PWREVT, R.CP_STATUS]) ∧
    (i = 4 ∨ i = 5 ∨ i = 7 → s.onlyRegs u [R.ISL_PWRSTAT, R.ISL_PWREVT]))) ∧
  (∀ (s : State) (i : Fin 8), s.canonical = true → s.isl i = 4 →
    (∀ n : Fin 2, 4 + n.val = i.val → s.mpState n = 4 → ∀ e ∈ s.ink, e.2.ports.contains n.val = false) →
    does (.islandWakeDone i) s (fun u => u.isl i = 0 ∧
    u.flag R.ISL_PWREVT i = true ∧ u.stalls = s.stalls ∧ u.ink = s.ink ∧ u.dirs = s.dirs ∧
    (∀ n : Fin 4, n.val = i.val → (s.np n).mustered = true → u.isOpen n = true ∧ (u.np n).openAt = s.tod ∧
      ∀ k, k < 6 → u.credRamp n k = s.credStart n k) ∧
    (∀ n : Fin 4, n.val = i.val → (s.np n).mustered = false → s.onlyRegs u [R.ISL_PWRSTAT, R.ISL_PWREVT]) ∧
    (∀ n : Fin 2, 4 + n.val = i.val → u.mpState n = (if s.mpState n = 2 ∨ s.mpState n = 4 then 2 else 0) ∧ (u.mp n).rdCred = 0 ∧ (u.mp n).wrCred = 0) ∧
    (i = 6 → u.cp.cred = 0 ∧ u.cp.lost = true) ∧ (i = 7 → s.phase = 10 → u.phase = 1))) ∧
  (∀ (s : State) (i : Fin 11), s.canonical = true → s.flag R.ISL_CTL i = true → s.isl i = 0 → s.islIdle i = true →
    does (.islandClockGate i) s (fun u => u.isl i = 1 ∧ s.onlyRegs u [R.ISL_PWRSTAT])) ∧
  (∀ (s : State) (i : Fin 11), s.canonical = true → s.isl i = 1 → does (.islandWake i) s (fun u => u.isl i = 0 ∧ s.onlyRegs u [R.ISL_PWRSTAT]) ∧
    does (.wakeLate i) s (fun u => u.fld R.ISL_WAKE 10 16 = min (s.fld R.ISL_WAKE 10 16 + 1) 0xFFFF ∧ u.fld R.ISL_WAKE 26 4 = i.val ∧
      u.isl i = 1 ∧ u.stalls = s.stalls ∧ u.dirs = s.dirs ∧ s.regsKept u (R.ISL_WAKE :: noteRegs)))

/-- FUNC_RESET_END (R365, R492, R493), LINK_PARTNER_RESET (R258), LINK_RUN (R291, R493) and LINK_CREDIT_RETURN (R237, R283):
the reset of a network port's logic ends once its drain is over, and its link stays as it is; a memory port whose credits have
both come is in RUN; a partner's reset leaves a network port's link in RESET without credits in either direction; a link that
may run enters RUN without credits, and the channel port first queues its 64 acknowledgements; a credit is counted in its pool. POWER_ON_RESET (R362): the state right after reset; what has left the block stays sent, and the
commands that wait stay waiting. TOD_PUBLISH (R355): the published time is the time of day, and nothing else changes by it.
-/
def Obligations.ResetsLinksTime : Prop :=
  ((∀ (s : State) (n : Fin 4), s.canonical = true → s.flag R.ISL_RSTSTAT (1 + n.val) = true →
    (s.link n ≠ 2 → does (.funcResetEnd ⟨n.val, by omega⟩) s (fun u => u.flag R.ISL_RSTSTAT (1 + n.val) = false ∧ s.onlyRegs u [R.ISL_RSTSTAT])) ∧
    (s.link n = 2 → does (.funcResetEnd ⟨n.val, by omega⟩) s (fun u => u = s))) ∧
  (∀ (s : State) (n : Fin 2), s.canonical = true → s.flag R.ISL_RSTSTAT (5 + n.val) = true → s.mpState n = 3 →
    does (.funcResetEnd ⟨4 + n.val, by omega⟩) s (fun u => (u.mp n).driven = false ∧ u.stalls = s.stalls ∧ u.ink = s.ink ∧
      (if s.mpPresent n = false then u.mpState n = 0 ∧ u.flag R.ISL_RSTSTAT (5 + n.val) = false
       else if (s.mp n).seenRd = true ∧ (s.mp n).seenWr = true then u.mpState n = 1 ∧ u.flag R.ISL_RSTSTAT (5 + n.val) = false
       else u.mpState n = 3 ∧ u.flag R.ISL_RSTSTAT (5 + n.val) = true))) ∧
  (∀ s : State, s.flag R.ISL_RSTSTAT 7 = true → does (.funcResetEnd 6) s (fun u => u = { s with cp := { s.cp with driven := false } })) ∧
  (∀ (s : State) (n : Fin 4), s.canonical = true → s.isl n ≠ 3 → s.isl n ≠ 4 → does (.linkPartnerReset n) s (fun u => u.link n = 3 ∧
    (u.np n).cred = [0, 0, 0, 0, 0, 0] ∧ (u.np n).grant = [0, 0, 0, 0, 0, 0] ∧ (u.np n).inq = (s.np n).inq ∧ (u.np n).eg = (s.np n).eg ∧ u.stalls = s.stalls ∧ u.dirs = s.dirs ∧
    s.regsKept u (npBase R.NP_STATUS n :: noteRegs))) ∧
  (∀ (s : State) (n : Fin 4), s.canonical = true → s.mayRun n = true → does (.linkRun ⟨n.val, by omega⟩) s (fun u => u.link n = 1 ∧
    (u.np n).cred = [0, 0, 0, 0, 0, 0] ∧ (u.np n).eg = (s.np n).eg ∧ u.stalls = s.stalls ∧ s.regsKept u [npBase R.NP_STATUS n])) ∧
  (∀ s : State, s.canonical = true → s.mayRun 4 = true → does (.linkRun 4) s (fun u => u.link 4 = 1 ∧ u.flag R.ISL_RSTSTAT 7 = false ∧
    u.cp.cred = 0 ∧ u.cp.lost = false ∧ u.stalls = s.stalls ∧ s.regsKept u ([R.CP_STATUS, R.ISL_RSTSTAT] ++ perfRegs) ∧
    u.cp.eg = (if s.cp.lost then (List.range 64).map (fun st => ((⟨st, s.cpDack st, 0, true, s.cpDack st, []⟩ : CpRsp), none)) else []) ++ s.cp.eg)) ∧
  (∀ (s : State) (n : Fin 4) (k : Fin 6), s.link n = 1 → (s.np n).ans = [] → (s.np n).eg = [] → does (.linkCreditReturn ⟨n.val, by omega⟩ k) s (fun u =>
    (u.np n).cred = (s.np n).cred.set k ((s.np n).cred.getD k 0 + 1) ∧ (∀ m, m ≠ n.val → u.np m = s.np m) ∧ s = { u with nps := s.nps })) ∧
  (∀ (s : State) (k : Fin 6), s.link 4 = 1 → s.cp.eg = [] → does (.linkCreditReturn 4 k) s (fun u =>
    u = { s with cp := { s.cp with cred := s.cp.cred + 1 } }))) ∧
  ((∀ s : State, ∃ t, exec .powerOnReset s = .next t ∧ t.pending = s.pending ∧ t.tx = s.tx ∧ t.mpTx = s.mpTx ∧ t.cpTx = s.cpTx ∧
    State.reset = { t with freeCtr := 0, pending := [], tx := [], mpTx := [], cpTx := [], rcvTx := [] }) ∧
  (∀ (d : Tod) (s : State), does (.todPublish d) s (fun u => u = { s with tod := d })))

/-! ### Start-up, muster and the power warning -/

/-- POWER_ON_RELEASE, FLASH_DISCOVERY_DONE, IMAGE_LOAD_DONE, DIGEST_COMPARE, OSTREADY_TIMEOUT and DIRECTORY_CLEAR_DONE (R375, R380,
R387-R396): each phase leads to the next or to FAILED with its cause, as R375 and R391 say. -/
def Obligations.StartUp : Prop :=
  (∀ (s : State) (cfg : BitVec 3), s.canonical = true → s.phase = 0 → s.boot.domWait = false → s.boot.testMode = false →
    does (.powerOnRelease cfg false) s (fun u => u.phase = 1 ∧ u.boot.fpCfg = cfg ∧ s.regsKept u [R.BOOT_STATUS]) ∧
    does (.powerOnRelease cfg true) s (fun u => u.boot.testMode = true ∧ s = { u with boot := s.boot })) ∧
  (∀ (s : State) (j : BitVec 24) (p : Option Sfdp), s.canonical = true → s.phase = 1 →
    (j = 0 ∨ j = 0xFFFFFF → does (.flashDiscoveryDone j p) s (fun u => u.phase = 9 ∧ u.fld R.BOOT_STATUS 4 4 = 1)) ∧
    (j ≠ 0 → j ≠ 0xFFFFFF → does (.flashDiscoveryDone j p) s (fun u => u.phase = 2 ∧ u.fld R.BOOT_FPINFO 0 24 = j.toNat ∧
      u.fld R.BOOT_FPINFO 31 3 = flashMode s.boot.fpCfg p ∧ u.boot.readable = flashReadable p ∧
      u.boot.altOff = (if p.isSome then some (flashReadable p / 2) else none) ∧ s.regsKept u [R.BOOT_FPINFO, R.BOOT_STATUS]))) ∧
  (∀ (s : State) (img again good : List Byte), s.canonical = true → s.phase = 2 → s.flag R.BOOT_STATUS 12 = false →
    (headerOk img s.boot.readable = false → s.boot.altOff = none → ∀ b, does (.imageLoadDone img again b) s (fun u => u.phase = 9 ∧
      u.fld R.BOOT_STATUS 4 4 = 2 ∧ u.fld R.BOOT_STATUS 8 4 = 2)) ∧
    (headerOk img s.boot.readable = false → s.boot.altOff.isSome = true → ∀ b, does (.imageLoadDone img again b) s (fun u => u.phase = 2 ∧
      u.flag R.BOOT_STATUS 12 = true ∧ u.fld R.BOOT_STATUS 8 4 = 2)) ∧
    (headerOk img s.boot.readable = true → tableOk img = true → checkSections again ((imgSections img).foldr insertSection []) img = .ok good →
      does (.imageLoadDone img again true) s (fun u => u.phase = 3 ∧ u.reg R.BOOT_TLOAD = s.tod ∧
        u.boot.digest = Digest.sha256 (good.take (leNum good 8 4)) ∧ u.boot.img = good.take (leNum good 8 4) ∧
        u.fld R.BOOT_IMGINFO 0 19 = leNum good 8 4 % 2 ^ 19 ∧ s.regsKept u [R.BOOT_IMGINFO, R.BOOT_TLOAD, R.BOOT_STATUS]))) ∧
  (∀ (s : State) (d : BitVec 256), s.canonical = true → s.phase = 3 →
    (d ≠ s.boot.digest → s.boot.altOff = none → does (.digestCompare d) s (fun u => u.phase = 9 ∧ u.fld R.BOOT_STATUS 4 4 = 5)) ∧
    (d = s.boot.digest → imgWrites s.boot.img = [] → s.applyRefused = false → does (.digestCompare d) s (fun u => u.phase = 5 ∧
      u.flag R.BOOT_STATUS 14 = true ∧ u.boot.ostRun = true ∧ u.boot.ostAt = s.tod ∧ s.regsKept u [R.BOOT_STATUS]))) ∧
  (∀ s : State, s.canonical = true → s.phase = 5 → s.flag R.BOOT_CTL 0 = false →
    usec (100 * max 1 (s.fld R.BOOT_MUSTER 30 8)) ≤ elapsed s.boot.ostAt s.tod →
    does .ostreadyTimeout s (fun u => u.phase = 9 ∧ u.fld R.BOOT_STATUS 4 4 = 7)) ∧
  (∀ s : State, s.canonical = true → s.boot.ostRun = true → s.flag R.DIR_STATUS 0 = false → s.wayState = 0 → s.flag R.BOOT_MUSTER 16 = true →
    does .directoryClearDone s (fun u => u.dirs = [] ∧ u.exts = [] ∧ u.flag R.DIR_STATUS 0 = true ∧
      (s.phase = 5 → s.flag R.BOOT_CTL 0 = true → u.phase = 6 ∧ u.reg R.BOOT_TREADY = s.tod) ∧ u.stalls = s.stalls))

/-- MUSTER_GO, PORT_OPEN, CREDIT_RAMP_STEP and RLYHOLD_END (R396, R398-R402): muster begins with the channel port; a port
whose time has come opens with its pools at the start of their ramps, and the schedule's end is RUN; a pool whose step is
due rises by one; after RLYHOLD the cluster and broadcast forms are available. PWR_WARN_ASSERT (R371, R374): the warning
stands, the ALC begins its drain, and DRAIN is measured anew, and the credits of a channel-port command, here one without a
legal OP, are kept back (R371). PWR_WARN_DEASSERT (R372, R374): the warning is over and counted, and they go back. -/
def Obligations.MusterAndWarning : Prop :=
  ((∀ s : State, s.canonical = true → s.phase = 6 → s.flag R.BOOT_MUSTER 16 = true → s.warn = false → s.musterSkip 0 = false → s.powered 6 = true →
    does .musterGo s (fun u => u.phase = 7 ∧ u.boot.musterAt = s.tod ∧ u.boot.nextPort = 1 ∧ u.cp.opened = true ∧ u.cp.limit = 9 ∧
      s.regsKept u [R.BOOT_STATUS])) ∧
  (∀ s : State, s.canonical = true → s.phase = 7 → s.warn = false → s.musterDue s.boot.nextPort ≤ elapsed s.boot.musterAt s.tod →
    (∀ n : Fin 4, s.boot.nextPort = n.val + 1 → s.musterSkip (n.val + 1) = false → s.powered n = true → does .portOpen s (fun u =>
      u.isOpen n = true ∧ (u.np n).mustered = true ∧ (u.np n).openAt = s.tod ∧ (∀ k, k < 6 → u.credRamp n k = s.credStart n k) ∧
      u.boot.nextPort = n.val + 2 ∧ s.regsKept u [npBase R.NP_CTL n, npBase R.NP_CREDNOW n])) ∧
    (s.boot.nextPort = 6 → does .portOpen s (fun u => u.phase = 8 ∧ u.reg R.BOOT_TMUSTER = s.tod ∧ u.boot.runAt = s.tod ∧
      s.regsKept u [R.BOOT_STATUS, R.BOOT_TMUSTER]))) ∧
  (∀ (s : State) (n : Fin 4) (k : Fin 6), s.canonical = true → s.isOpen n = true →
    s.rampDue (s.np n).openAt (s.credStart n k) (s.credMax n k) (s.credNow n k) = true →
    does (.creditRampStep ⟨n.val, by omega⟩ k) s (fun u => u.credNow n k = s.credNow n k + 1 ∧
      (∀ j, j < 6 → j ≠ k.val → u.credRamp n j = s.credRamp n j) ∧ (u.np n).eg = (s.np n).eg ∧ (u.np n).cred = (s.np n).cred ∧
      (∀ m, m ≠ n.val → u.np m = s.np m) ∧ s.onlyRegs { u with nps := s.nps } [npBase R.NP_CREDNOW n])) ∧
  (∀ (s : State) (k : Fin 6), s.cp.opened = true → s.rampDue s.cp.openAt 9 144 s.cp.limit = true →
    does (.creditRampStep 4 k) s (fun u => u = { s with cp := { s.cp with limit := s.cp.limit + 1 } })) ∧
  (∀ s : State, s.phase = 8 → usec (s.fld R.BOOT_MUSTER 22 8) ≤ elapsed s.boot.runAt s.tod →
    does .rlyholdEnd s (fun u => u = { s with boot := { s.boot with rlyReady := true } }))) ∧
  ((∀ s : State, s.canonical = true → s.warn = false → does .pwrWarnAssert s (fun u => u.warn = true ∧ u.fld R.ISL_PWRWARN 18 24 = 0 ∧
    u.boot.warnAt = s.tod ∧ u.boot.safeSeen = false ∧ u.stalls = s.stalls ∧ u.ink = s.ink ∧ u.dirs = s.dirs ∧
    (s.alcState = 1 → u.alcState = 2))) ∧
  (∀ s : State, s.canonical = true → s.warn = true → s.phase ≠ 7 → does .pwrWarnDeassert s (fun u => u.warn = false ∧
    u.fld R.ISL_PWRWARN 2 16 = min (s.fld R.ISL_PWRWARN 2 16 + 1) 0xFFFF ∧ u.cp = { s.cp with spent := 0 } ∧
    s.onlyRegs { u with cp := s.cp } [R.ISL_PWRWARN])) ∧
  (∀ (s : State) (c : CpCmd), s.warn = true → s.chk = false → s.cp.opened = true → s.link 4 = 1 → cpOpcode c.op = none →
    does (.cpRead c) s (fun u => u.cp.spent = s.cp.spent + (if c.data = [] then 1 else 9) ∧ u.cp.limit = s.cp.limit)))

/-! ### Functions of the spec -/

/-- The directory index keeps every bit of a line's index (R90), and the reverse route the selects in opposite order (R236);
a word of a formed line is bad only where both copies are (R266). The four header words of a packet hold every field of it
(R230), and the command flit every field of a channel-port command (R284). -/
def Obligations.IndexAndRoute : Prop :=
  (∀ h : HIdx, hOf (posOf h) (tagOf h) = h) ∧
  (∀ h g : HIdx, posOf h = posOf g → tagOf h = tagOf g → h = g) ∧
  (∀ (r : BitVec 48) (n k : Nat), n ≤ 12 → k < n → revRoute r n / 2 ^ (4 * k) % 16 = r.toNat / 2 ^ (4 * (n - 1 - k)) % 16) ∧
  (∀ (a b : LineData) (w : Nat), w < 32 → ((formLine a b).word w).bad = ((a.word w).bad && (b.word w).bad)) ∧
  (∀ p : Packet, Packet.ofHeader p.header p.data = p) ∧ (∀ c : CpCmd, CpCmd.ofFlit c.flit c.data = c)

/-! ### Damaged words -/

/-- R315, by reads that commands make. The stall that a SnpAckI names is uncorrectable: the domain stops with cause Integrity
and UESRC 1, and the answer is not used. An uncorrectable word of the alias CAM stops it when an open port translates an
arriving packet (UESRC 3), one of the ostler's store before the ostler's next access (UESRC 4), which it does not make. A
correctable ticket is corrected and counted. -/
def Obligations.DamagedWords : Prop :=
  (∀ (s : State) (n : Fin 4) (x : InItem), s.canonical = true → s.chk = false → s.arrival n (fun o => o == Op.snpAckI) = some x →
    s.damage 4 x.p.tag.toNat = some .ue → does (.snpAckI n) s (fun u => u.chk = true ∧ u.chkCause = 8 ∧ u.fld R.GLB_CHKSTOP 37 3 = 1 ∧
      u.reg R.GLB_CHKTOD = s.tod ∧ u.stalls = s.stalls ∧ u.dirs = s.dirs ∧ u.ink = s.ink)) ∧
  (∀ (s : State) (n : Fin 4) (p : Packet) (i : Nat), s.canonical = true → s.chk = false → s.faults = [(6, i, .ue)] →
    s.link n = 1 → p.syn = 0 → p.hopcnt = p.nhop → p.nhop.toNat ≤ 12 → s.isOpen n = true → p.dst = s.homeId →
    does (.niIngress n p) s (fun u => u.chk = true ∧ u.chkCause = 8 ∧ u.fld R.GLB_CHKSTOP 37 3 = 3 ∧ u.dirs = s.dirs)) ∧
  (∀ (s : State) (i : Nat), s.canonical = true → s.chk = false → s.faults = [(7, i, .ue)] → (∀ x ∈ s.svc.stage, x.master = 0x3FF) →
    does (.registerWrite 0x3FF) s (fun u => u.chk = true ∧ u.chkCause = 8 ∧ u.fld R.GLB_CHKSTOP 37 3 = 4 ∧
      u.svc.stage = s.svc.stage ∧ u.boot = s.boot ∧ s.regsKept u ([R.GLB_CHKSTOP, R.GLB_CHKTOD] ++ noteRegs))) ∧
  (∀ (s : State) (i : Fin 256), s.canonical = true → s.damage 4 (tktSram i) = some .ce → SMap.find s.tickets i = none →
    does (.ticketExpiry i) s (fun u => u.damage 4 (tktSram i) = none ∧ u.tickets = s.tickets ∧
      u.fld R.GLB_SRAMERR 0 16 = min (s.fld R.GLB_SRAMERR 0 16 + 1) 0xFFFF ∧ s.regsKept u (R.GLB_SRAMERR :: perfRegs ++ noteRegs)))
end

