-- ==== Sys2Proof/Laws/Keeps.lean ====
section
/-! SUPPORT. The relation `Keeps`: the small lemmas by which every named operation is shown to keep what it names. -/

namespace Sys2Proof.Machine

theorem Keeps.refl (s : State) : Keeps s s := ⟨rfl, rfl, id, List.prefix_rfl, List.prefix_rfl, List.prefix_rfl, List.prefix_rfl⟩

theorem Keeps.trans {s t u : State} (h : Keeps s t) (g : Keeps t u) : Keeps s u :=
  ⟨g.pending.trans h.pending, g.tod.trans h.tod, fun c => g.canonical (h.canonical c), h.tx.trans g.tx, h.mpTx.trans g.mpTx,
    h.cpTx.trans g.cpTx, h.rcvTx.trans g.rcvTx⟩

theorem keeps_ite {s0 a b : State} {c : Prop} [Decidable c] (ha : Keeps s0 a) (hb : Keeps s0 b) :
    Keeps s0 (if c then a else b) := by split <;> assumption

theorem keeps_foldl {β : Type} {s0 s : State} {f : State → β → State} {l : List β} (h : Keeps s0 s)
    (hf : ∀ t a, Keeps s0 t → Keeps s0 (f t a)) : Keeps s0 (l.foldl f s) := by
  induction l generalizing s with
  | nil => exact h
  | cons a l ih => exact ih (hf s a h)

theorem keeps_cut {P Q : Prop} (g : P → Q) (h : P) : Q := g h

theorem SMap.risesFrom_mono {α : Type} {m : SMap α} {a b : Nat} (hab : a ≤ b) (h : SMap.risesFrom b m = true) :
    SMap.risesFrom a m = true := by
  cases m with
  | nil => rfl
  | cons e r =>
    obtain ⟨j, v⟩ := e
    simp only [SMap.risesFrom, Bool.and_eq_true, decide_eq_true_eq] at h ⊢
    exact ⟨by omega, h.2⟩

theorem SMap.risesFrom_put {α : Type} {m : SMap α} {lo k : Nat} {a : α} (hk : lo ≤ k) (h : SMap.risesFrom lo m = true) :
    SMap.risesFrom lo (SMap.put m k a) = true := by
  induction m generalizing lo with
  | nil => simp [SMap.put, SMap.risesFrom, hk]
  | cons e r ih =>
    obtain ⟨j, v⟩ := e
    simp only [SMap.risesFrom, Bool.and_eq_true, decide_eq_true_eq] at h
    unfold SMap.put
    split
    · rename_i hj
      simp only [SMap.risesFrom, Bool.and_eq_true, decide_eq_true_eq]
      exact ⟨hk, hj ▸ h.2⟩
    · split
      · simp only [SMap.risesFrom, Bool.and_eq_true, decide_eq_true_eq]
        exact ⟨hk, by omega, h.2⟩
      · simp only [SMap.risesFrom, Bool.and_eq_true, decide_eq_true_eq]
        exact ⟨h.1, ih (by omega) h.2⟩

theorem SMap.risesFrom_del {α : Type} {m : SMap α} {lo k : Nat} (h : SMap.risesFrom lo m = true) :
    SMap.risesFrom lo (SMap.del m k) = true := by
  induction m generalizing lo with
  | nil => exact h
  | cons e r ih =>
    obtain ⟨j, v⟩ := e
    have h' := h
    simp only [SMap.risesFrom, Bool.and_eq_true, decide_eq_true_eq] at h
    unfold SMap.del
    split
    · exact SMap.risesFrom_mono (by omega) h.2
    · split
      · exact h'
      · simp only [SMap.risesFrom, Bool.and_eq_true, decide_eq_true_eq]
        exact ⟨h.1, ih h.2⟩

theorem SMap.risesFrom_filter {α : Type} {m : SMap α} {lo : Nat} {p : Nat × α → Bool} (h : SMap.risesFrom lo m = true) :
    SMap.risesFrom lo (m.filter p) = true := by
  induction m generalizing lo with
  | nil => exact h
  | cons e r ih =>
    obtain ⟨j, v⟩ := e
    simp only [SMap.risesFrom, Bool.and_eq_true, decide_eq_true_eq] at h
    rw [List.filter_cons]
    split
    · simp only [SMap.risesFrom, Bool.and_eq_true, decide_eq_true_eq]
      exact ⟨h.1, ih h.2⟩
    · exact SMap.risesFrom_mono (by omega) (ih h.2)

theorem SMap.mem_put {α : Type} {m : SMap α} {k : Nat} {a : α} {e : Nat × α} (h : e ∈ SMap.put m k a) : e ∈ m ∨ e = (k, a) := by
  induction m with
  | nil => simp [SMap.put] at h; exact .inr h
  | cons d r ih =>
    obtain ⟨j, v⟩ := d
    unfold SMap.put at h
    split at h
    · rcases List.mem_cons.1 h with h | h
      · exact .inr h
      · exact .inl (List.mem_cons_of_mem _ h)
    · split at h
      · rcases List.mem_cons.1 h with h | h
        · exact .inr h
        · exact .inl h
      · rcases List.mem_cons.1 h with h | h
        · exact .inl (h ▸ List.mem_cons_self)
        · exact (ih h).imp_left (List.mem_cons_of_mem _)

theorem SMap.mem_del {α : Type} {m : SMap α} {k : Nat} {e : Nat × α} (h : e ∈ SMap.del m k) : e ∈ m := by
  induction m with
  | nil => exact h
  | cons d r ih =>
    obtain ⟨j, v⟩ := d
    unfold SMap.del at h
    split at h
    · exact List.mem_cons_of_mem _ h
    · split at h
      · exact h
      · rcases List.mem_cons.1 h with h | h
        · exact h ▸ List.mem_cons_self
        · exact List.mem_cons_of_mem _ (ih h)

theorem State.canonical_iff (s : State) :
    s.canonical = true ↔ SMap.wf s.win = true ∧ ∀ e ∈ s.win, e.2 ≠ slotReset e.1 := by
  simp [State.canonical]

theorem State.canonical_setReg {s : State} (a : Nat) (v : Word) (h : s.canonical = true) : (s.setReg a v).canonical = true := by
  rw [State.canonical_iff] at h ⊢
  unfold State.setReg SMap.wf
  split
  · exact ⟨SMap.risesFrom_del h.1, fun e he => h.2 e (SMap.mem_del he)⟩
  · rename_i hv
    refine ⟨SMap.risesFrom_put (Nat.zero_le _) h.1, fun e he => ?_⟩
    rcases SMap.mem_put he with he | he
    · exact h.2 e he
    · subst he; exact hv

theorem State.setReg_keeps {s0 s : State} (h : Keeps s0 s) (a : Nat) (v : Word) : Keeps s0 (s.setReg a v) :=
  h.trans ⟨rfl, rfl, State.canonical_setReg a v, List.prefix_rfl, List.prefix_rfl, List.prefix_rfl, List.prefix_rfl⟩

theorem keeps_tx {s0 s : State} (h : Keeps s0 s) (x : List (Nat × Packet)) : Keeps s0 { s with tx := s.tx ++ x } :=
  h.trans ⟨rfl, rfl, id, List.prefix_append _ _, List.prefix_rfl, List.prefix_rfl, List.prefix_rfl⟩

theorem keeps_mpTx {s0 s : State} (h : Keeps s0 s) (x : List MpCmd) : Keeps s0 { s with mpTx := s.mpTx ++ x } :=
  h.trans ⟨rfl, rfl, id, List.prefix_rfl, List.prefix_append _ _, List.prefix_rfl, List.prefix_rfl⟩

theorem keeps_cpTx {s0 s : State} (h : Keeps s0 s) (c : CpSt) (x : List CpRsp) :
    Keeps s0 { s with cp := c, cpTx := s.cpTx ++ x } :=
  h.trans ⟨rfl, rfl, id, List.prefix_rfl, List.prefix_rfl, List.prefix_append _ _, List.prefix_rfl⟩

theorem keeps_rcvTx {s0 s : State} (h : Keeps s0 s) (c : RcvSt) (x : List EpId) :
    Keeps s0 { s with rcv := c, rcvTx := s.rcvTx ++ x } :=
  h.trans ⟨rfl, rfl, id, List.prefix_rfl, List.prefix_rfl, List.prefix_rfl, List.prefix_append _ _⟩

/-- A change of none of the fields that `Keeps` names. -/
theorem keeps_upd (s0 s : State) (x_dirs : SMap DirEntry) (x_exts : SMap Ext) (x_stalls : SMap Stall) (x_pen : SMap PenEntry) (x_penSeq : Nat) (x_penSince : SMap Tod) (x_tickets : SMap Ticket) (x_tktGen : SMap Nat) (x_tktSeq : Nat) (x_ink : SMap InkSlot) (x_inkSeq : Nat) (x_alc : SMap AlcEntry) (x_alcUndef : BitVec 8) (x_moves : List Move) (x_preload : Option (Req × Nat)) (x_ligs : SMap Lig) (x_readyStrk : List Nat) (x_readyLig : List Nat) (x_nps : SMap NpSt) (x_ruIn : List InItem) (x_ruBack : List InItem) (x_rlys : SMap RlyOpen) (x_mps : SMap MpSt) (x_cp : CpSt) (x_rcv : RcvSt) (x_mgt : MgtSt) (x_boot : BootSt) (x_svc : SvcSt) (x_pmc : PmcSt) (x_lanePtr : SMap Nat) (x_lates : SMap (List Late)) (x_faults : List (Nat × Nat × Chk)) (x_freeCtr : Nat) :
    Keeps s0 { win := s.win, tod := s.tod, dirs := x_dirs, exts := x_exts, stalls := x_stalls, pen := x_pen, penSeq := x_penSeq, penSince := x_penSince, tickets := x_tickets, tktGen := x_tktGen, tktSeq := x_tktSeq, ink := x_ink, inkSeq := x_inkSeq, alc := x_alc, alcUndef := x_alcUndef, moves := x_moves, preload := x_preload, ligs := x_ligs, readyStrk := x_readyStrk, readyLig := x_readyLig, nps := x_nps, ruIn := x_ruIn, ruBack := x_ruBack, rlys := x_rlys, mps := x_mps, cp := x_cp, rcv := x_rcv, mgt := x_mgt, boot := x_boot, svc := x_svc, pmc := x_pmc, lanePtr := x_lanePtr, lates := x_lates, faults := x_faults, freeCtr := x_freeCtr, tx := s.tx, mpTx := s.mpTx, cpTx := s.cpTx, rcvTx := s.rcvTx, pending := s.pending } ↔ Keeps s0 s :=
  ⟨fun h => ⟨h.pending, h.tod, h.canonical, h.tx, h.mpTx, h.cpTx, h.rcvTx⟩,
    fun h => ⟨h.pending, h.tod, h.canonical, h.tx, h.mpTx, h.cpTx, h.rcvTx⟩⟩

end Sys2Proof.Machine
end

