-- ==== Sys2Proof/Laws/State.lean ====
section
/-! SUPPORT. What the plainest updates of the state leave alone, field by field, and what a register, a port or a table
entry reads as after it has been written. -/

namespace Sys2Proof.Machine


/-! ### setReg -/

@[simp] theorem State.setReg_tod (s : State) (a : Nat) (v : Word) : (s.setReg a v).tod = s.tod := rfl
@[simp] theorem State.setReg_dirs (s : State) (a : Nat) (v : Word) : (s.setReg a v).dirs = s.dirs := rfl
@[simp] theorem State.setReg_exts (s : State) (a : Nat) (v : Word) : (s.setReg a v).exts = s.exts := rfl
@[simp] theorem State.setReg_stalls (s : State) (a : Nat) (v : Word) : (s.setReg a v).stalls = s.stalls := rfl
@[simp] theorem State.setReg_pen (s : State) (a : Nat) (v : Word) : (s.setReg a v).pen = s.pen := rfl
@[simp] theorem State.setReg_penSeq (s : State) (a : Nat) (v : Word) : (s.setReg a v).penSeq = s.penSeq := rfl
@[simp] theorem State.setReg_penSince (s : State) (a : Nat) (v : Word) : (s.setReg a v).penSince = s.penSince := rfl
@[simp] theorem State.setReg_tickets (s : State) (a : Nat) (v : Word) : (s.setReg a v).tickets = s.tickets := rfl
@[simp] theorem State.setReg_tktGen (s : State) (a : Nat) (v : Word) : (s.setReg a v).tktGen = s.tktGen := rfl
@[simp] theorem State.setReg_tktSeq (s : State) (a : Nat) (v : Word) : (s.setReg a v).tktSeq = s.tktSeq := rfl
@[simp] theorem State.setReg_ink (s : State) (a : Nat) (v : Word) : (s.setReg a v).ink = s.ink := rfl
@[simp] theorem State.setReg_inkSeq (s : State) (a : Nat) (v : Word) : (s.setReg a v).inkSeq = s.inkSeq := rfl
@[simp] theorem State.setReg_alc (s : State) (a : Nat) (v : Word) : (s.setReg a v).alc = s.alc := rfl
@[simp] theorem State.setReg_alcUndef (s : State) (a : Nat) (v : Word) : (s.setReg a v).alcUndef = s.alcUndef := rfl
@[simp] theorem State.setReg_moves (s : State) (a : Nat) (v : Word) : (s.setReg a v).moves = s.moves := rfl
@[simp] theorem State.setReg_preload (s : State) (a : Nat) (v : Word) : (s.setReg a v).preload = s.preload := rfl
@[simp] theorem State.setReg_ligs (s : State) (a : Nat) (v : Word) : (s.setReg a v).ligs = s.ligs := rfl
@[simp] theorem State.setReg_readyStrk (s : State) (a : Nat) (v : Word) : (s.setReg a v).readyStrk = s.readyStrk := rfl
@[simp] theorem State.setReg_readyLig (s : State) (a : Nat) (v : Word) : (s.setReg a v).readyLig = s.readyLig := rfl
@[simp] theorem State.setReg_nps (s : State) (a : Nat) (v : Word) : (s.setReg a v).nps = s.nps := rfl
@[simp] theorem State.setReg_ruIn (s : State) (a : Nat) (v : Word) : (s.setReg a v).ruIn = s.ruIn := rfl
@[simp] theorem State.setReg_ruBack (s : State) (a : Nat) (v : Word) : (s.setReg a v).ruBack = s.ruBack := rfl
@[simp] theorem State.setReg_rlys (s : State) (a : Nat) (v : Word) : (s.setReg a v).rlys = s.rlys := rfl
@[simp] theorem State.setReg_mps (s : State) (a : Nat) (v : Word) : (s.setReg a v).mps = s.mps := rfl
@[simp] theorem State.setReg_cp (s : State) (a : Nat) (v : Word) : (s.setReg a v).cp = s.cp := rfl
@[simp] theorem State.setReg_rcv (s : State) (a : Nat) (v : Word) : (s.setReg a v).rcv = s.rcv := rfl
@[simp] theorem State.setReg_mgt (s : State) (a : Nat) (v : Word) : (s.setReg a v).mgt = s.mgt := rfl
@[simp] theorem State.setReg_boot (s : State) (a : Nat) (v : Word) : (s.setReg a v).boot = s.boot := rfl
@[simp] theorem State.setReg_svc (s : State) (a : Nat) (v : Word) : (s.setReg a v).svc = s.svc := rfl
@[simp] theorem State.setReg_pmc (s : State) (a : Nat) (v : Word) : (s.setReg a v).pmc = s.pmc := rfl
@[simp] theorem State.setReg_lanePtr (s : State) (a : Nat) (v : Word) : (s.setReg a v).lanePtr = s.lanePtr := rfl
@[simp] theorem State.setReg_lates (s : State) (a : Nat) (v : Word) : (s.setReg a v).lates = s.lates := rfl
@[simp] theorem State.setReg_faults (s : State) (a : Nat) (v : Word) : (s.setReg a v).faults = s.faults := rfl
@[simp] theorem State.setReg_freeCtr (s : State) (a : Nat) (v : Word) : (s.setReg a v).freeCtr = s.freeCtr := rfl
@[simp] theorem State.setReg_tx (s : State) (a : Nat) (v : Word) : (s.setReg a v).tx = s.tx := rfl
@[simp] theorem State.setReg_mpTx (s : State) (a : Nat) (v : Word) : (s.setReg a v).mpTx = s.mpTx := rfl
@[simp] theorem State.setReg_cpTx (s : State) (a : Nat) (v : Word) : (s.setReg a v).cpTx = s.cpTx := rfl
@[simp] theorem State.setReg_rcvTx (s : State) (a : Nat) (v : Word) : (s.setReg a v).rcvTx = s.rcvTx := rfl
@[simp] theorem State.setReg_pending (s : State) (a : Nat) (v : Word) : (s.setReg a v).pending = s.pending := rfl

/-! ### setFld -/

@[simp] theorem State.setFld_tod (s : State) (a lo w v : Nat) : (s.setFld a lo w v).tod = s.tod := rfl
@[simp] theorem State.setFld_dirs (s : State) (a lo w v : Nat) : (s.setFld a lo w v).dirs = s.dirs := rfl
@[simp] theorem State.setFld_exts (s : State) (a lo w v : Nat) : (s.setFld a lo w v).exts = s.exts := rfl
@[simp] theorem State.setFld_stalls (s : State) (a lo w v : Nat) : (s.setFld a lo w v).stalls = s.stalls := rfl
@[simp] theorem State.setFld_pen (s : State) (a lo w v : Nat) : (s.setFld a lo w v).pen = s.pen := rfl
@[simp] theorem State.setFld_penSeq (s : State) (a lo w v : Nat) : (s.setFld a lo w v).penSeq = s.penSeq := rfl
@[simp] theorem State.setFld_penSince (s : State) (a lo w v : Nat) : (s.setFld a lo w v).penSince = s.penSince := rfl
@[simp] theorem State.setFld_tickets (s : State) (a lo w v : Nat) : (s.setFld a lo w v).tickets = s.tickets := rfl
@[simp] theorem State.setFld_tktGen (s : State) (a lo w v : Nat) : (s.setFld a lo w v).tktGen = s.tktGen := rfl
@[simp] theorem State.setFld_tktSeq (s : State) (a lo w v : Nat) : (s.setFld a lo w v).tktSeq = s.tktSeq := rfl
@[simp] theorem State.setFld_ink (s : State) (a lo w v : Nat) : (s.setFld a lo w v).ink = s.ink := rfl
@[simp] theorem State.setFld_inkSeq (s : State) (a lo w v : Nat) : (s.setFld a lo w v).inkSeq = s.inkSeq := rfl
@[simp] theorem State.setFld_alc (s : State) (a lo w v : Nat) : (s.setFld a lo w v).alc = s.alc := rfl
@[simp] theorem State.setFld_alcUndef (s : State) (a lo w v : Nat) : (s.setFld a lo w v).alcUndef = s.alcUndef := rfl
@[simp] theorem State.setFld_moves (s : State) (a lo w v : Nat) : (s.setFld a lo w v).moves = s.moves := rfl
@[simp] theorem State.setFld_preload (s : State) (a lo w v : Nat) : (s.setFld a lo w v).preload = s.preload := rfl
@[simp] theorem State.setFld_ligs (s : State) (a lo w v : Nat) : (s.setFld a lo w v).ligs = s.ligs := rfl
@[simp] theorem State.setFld_readyStrk (s : State) (a lo w v : Nat) : (s.setFld a lo w v).readyStrk = s.readyStrk := rfl
@[simp] theorem State.setFld_readyLig (s : State) (a lo w v : Nat) : (s.setFld a lo w v).readyLig = s.readyLig := rfl
@[simp] theorem State.setFld_nps (s : State) (a lo w v : Nat) : (s.setFld a lo w v).nps = s.nps := rfl
@[simp] theorem State.setFld_ruIn (s : State) (a lo w v : Nat) : (s.setFld a lo w v).ruIn = s.ruIn := rfl
@[simp] theorem State.setFld_ruBack (s : State) (a lo w v : Nat) : (s.setFld a lo w v).ruBack = s.ruBack := rfl
@[simp] theorem State.setFld_rlys (s : State) (a lo w v : Nat) : (s.setFld a lo w v).rlys = s.rlys := rfl
@[simp] theorem State.setFld_mps (s : State) (a lo w v : Nat) : (s.setFld a lo w v).mps = s.mps := rfl
@[simp] theorem State.setFld_cp (s : State) (a lo w v : Nat) : (s.setFld a lo w v).cp = s.cp := rfl
@[simp] theorem State.setFld_rcv (s : State) (a lo w v : Nat) : (s.setFld a lo w v).rcv = s.rcv := rfl
@[simp] theorem State.setFld_mgt (s : State) (a lo w v : Nat) : (s.setFld a lo w v).mgt = s.mgt := rfl
@[simp] theorem State.setFld_boot (s : State) (a lo w v : Nat) : (s.setFld a lo w v).boot = s.boot := rfl
@[simp] theorem State.setFld_svc (s : State) (a lo w v : Nat) : (s.setFld a lo w v).svc = s.svc := rfl
@[simp] theorem State.setFld_pmc (s : State) (a lo w v : Nat) : (s.setFld a lo w v).pmc = s.pmc := rfl
@[simp] theorem State.setFld_lanePtr (s : State) (a lo w v : Nat) : (s.setFld a lo w v).lanePtr = s.lanePtr := rfl
@[simp] theorem State.setFld_lates (s : State) (a lo w v : Nat) : (s.setFld a lo w v).lates = s.lates := rfl
@[simp] theorem State.setFld_faults (s : State) (a lo w v : Nat) : (s.setFld a lo w v).faults = s.faults := rfl
@[simp] theorem State.setFld_freeCtr (s : State) (a lo w v : Nat) : (s.setFld a lo w v).freeCtr = s.freeCtr := rfl
@[simp] theorem State.setFld_tx (s : State) (a lo w v : Nat) : (s.setFld a lo w v).tx = s.tx := rfl
@[simp] theorem State.setFld_mpTx (s : State) (a lo w v : Nat) : (s.setFld a lo w v).mpTx = s.mpTx := rfl
@[simp] theorem State.setFld_cpTx (s : State) (a lo w v : Nat) : (s.setFld a lo w v).cpTx = s.cpTx := rfl
@[simp] theorem State.setFld_rcvTx (s : State) (a lo w v : Nat) : (s.setFld a lo w v).rcvTx = s.rcvTx := rfl
@[simp] theorem State.setFld_pending (s : State) (a lo w v : Nat) : (s.setFld a lo w v).pending = s.pending := rfl

/-! ### addFld -/

@[simp] theorem State.addFld_tod (s : State) (a lo w n : Nat) : (s.addFld a lo w n).tod = s.tod := rfl
@[simp] theorem State.addFld_dirs (s : State) (a lo w n : Nat) : (s.addFld a lo w n).dirs = s.dirs := rfl
@[simp] theorem State.addFld_exts (s : State) (a lo w n : Nat) : (s.addFld a lo w n).exts = s.exts := rfl
@[simp] theorem State.addFld_stalls (s : State) (a lo w n : Nat) : (s.addFld a lo w n).stalls = s.stalls := rfl
@[simp] theorem State.addFld_pen (s : State) (a lo w n : Nat) : (s.addFld a lo w n).pen = s.pen := rfl
@[simp] theorem State.addFld_penSeq (s : State) (a lo w n : Nat) : (s.addFld a lo w n).penSeq = s.penSeq := rfl
@[simp] theorem State.addFld_penSince (s : State) (a lo w n : Nat) : (s.addFld a lo w n).penSince = s.penSince := rfl
@[simp] theorem State.addFld_tickets (s : State) (a lo w n : Nat) : (s.addFld a lo w n).tickets = s.tickets := rfl
@[simp] theorem State.addFld_tktGen (s : State) (a lo w n : Nat) : (s.addFld a lo w n).tktGen = s.tktGen := rfl
@[simp] theorem State.addFld_tktSeq (s : State) (a lo w n : Nat) : (s.addFld a lo w n).tktSeq = s.tktSeq := rfl
@[simp] theorem State.addFld_ink (s : State) (a lo w n : Nat) : (s.addFld a lo w n).ink = s.ink := rfl
@[simp] theorem State.addFld_inkSeq (s : State) (a lo w n : Nat) : (s.addFld a lo w n).inkSeq = s.inkSeq := rfl
@[simp] theorem State.addFld_alc (s : State) (a lo w n : Nat) : (s.addFld a lo w n).alc = s.alc := rfl
@[simp] theorem State.addFld_alcUndef (s : State) (a lo w n : Nat) : (s.addFld a lo w n).alcUndef = s.alcUndef := rfl
@[simp] theorem State.addFld_moves (s : State) (a lo w n : Nat) : (s.addFld a lo w n).moves = s.moves := rfl
@[simp] theorem State.addFld_preload (s : State) (a lo w n : Nat) : (s.addFld a lo w n).preload = s.preload := rfl
@[simp] theorem State.addFld_ligs (s : State) (a lo w n : Nat) : (s.addFld a lo w n).ligs = s.ligs := rfl
@[simp] theorem State.addFld_readyStrk (s : State) (a lo w n : Nat) : (s.addFld a lo w n).readyStrk = s.readyStrk := rfl
@[simp] theorem State.addFld_readyLig (s : State) (a lo w n : Nat) : (s.addFld a lo w n).readyLig = s.readyLig := rfl
@[simp] theorem State.addFld_nps (s : State) (a lo w n : Nat) : (s.addFld a lo w n).nps = s.nps := rfl
@[simp] theorem State.addFld_ruIn (s : State) (a lo w n : Nat) : (s.addFld a lo w n).ruIn = s.ruIn := rfl
@[simp] theorem State.addFld_ruBack (s : State) (a lo w n : Nat) : (s.addFld a lo w n).ruBack = s.ruBack := rfl
@[simp] theorem State.addFld_rlys (s : State) (a lo w n : Nat) : (s.addFld a lo w n).rlys = s.rlys := rfl
@[simp] theorem State.addFld_mps (s : State) (a lo w n : Nat) : (s.addFld a lo w n).mps = s.mps := rfl
@[simp] theorem State.addFld_cp (s : State) (a lo w n : Nat) : (s.addFld a lo w n).cp = s.cp := rfl
@[simp] theorem State.addFld_rcv (s : State) (a lo w n : Nat) : (s.addFld a lo w n).rcv = s.rcv := rfl
@[simp] theorem State.addFld_mgt (s : State) (a lo w n : Nat) : (s.addFld a lo w n).mgt = s.mgt := rfl
@[simp] theorem State.addFld_boot (s : State) (a lo w n : Nat) : (s.addFld a lo w n).boot = s.boot := rfl
@[simp] theorem State.addFld_svc (s : State) (a lo w n : Nat) : (s.addFld a lo w n).svc = s.svc := rfl
@[simp] theorem State.addFld_pmc (s : State) (a lo w n : Nat) : (s.addFld a lo w n).pmc = s.pmc := rfl
@[simp] theorem State.addFld_lanePtr (s : State) (a lo w n : Nat) : (s.addFld a lo w n).lanePtr = s.lanePtr := rfl
@[simp] theorem State.addFld_lates (s : State) (a lo w n : Nat) : (s.addFld a lo w n).lates = s.lates := rfl
@[simp] theorem State.addFld_faults (s : State) (a lo w n : Nat) : (s.addFld a lo w n).faults = s.faults := rfl
@[simp] theorem State.addFld_freeCtr (s : State) (a lo w n : Nat) : (s.addFld a lo w n).freeCtr = s.freeCtr := rfl
@[simp] theorem State.addFld_tx (s : State) (a lo w n : Nat) : (s.addFld a lo w n).tx = s.tx := rfl
@[simp] theorem State.addFld_mpTx (s : State) (a lo w n : Nat) : (s.addFld a lo w n).mpTx = s.mpTx := rfl
@[simp] theorem State.addFld_cpTx (s : State) (a lo w n : Nat) : (s.addFld a lo w n).cpTx = s.cpTx := rfl
@[simp] theorem State.addFld_rcvTx (s : State) (a lo w n : Nat) : (s.addFld a lo w n).rcvTx = s.rcvTx := rfl
@[simp] theorem State.addFld_pending (s : State) (a lo w n : Nat) : (s.addFld a lo w n).pending = s.pending := rfl

/-! ### maxFld -/

@[simp] theorem State.maxFld_tod (s : State) (a lo w n : Nat) : (s.maxFld a lo w n).tod = s.tod := rfl
@[simp] theorem State.maxFld_dirs (s : State) (a lo w n : Nat) : (s.maxFld a lo w n).dirs = s.dirs := rfl
@[simp] theorem State.maxFld_exts (s : State) (a lo w n : Nat) : (s.maxFld a lo w n).exts = s.exts := rfl
@[simp] theorem State.maxFld_stalls (s : State) (a lo w n : Nat) : (s.maxFld a lo w n).stalls = s.stalls := rfl
@[simp] theorem State.maxFld_pen (s : State) (a lo w n : Nat) : (s.maxFld a lo w n).pen = s.pen := rfl
@[simp] theorem State.maxFld_penSeq (s : State) (a lo w n : Nat) : (s.maxFld a lo w n).penSeq = s.penSeq := rfl
@[simp] theorem State.maxFld_penSince (s : State) (a lo w n : Nat) : (s.maxFld a lo w n).penSince = s.penSince := rfl
@[simp] theorem State.maxFld_tickets (s : State) (a lo w n : Nat) : (s.maxFld a lo w n).tickets = s.tickets := rfl
@[simp] theorem State.maxFld_tktGen (s : State) (a lo w n : Nat) : (s.maxFld a lo w n).tktGen = s.tktGen := rfl
@[simp] theorem State.maxFld_tktSeq (s : State) (a lo w n : Nat) : (s.maxFld a lo w n).tktSeq = s.tktSeq := rfl
@[simp] theorem State.maxFld_ink (s : State) (a lo w n : Nat) : (s.maxFld a lo w n).ink = s.ink := rfl
@[simp] theorem State.maxFld_inkSeq (s : State) (a lo w n : Nat) : (s.maxFld a lo w n).inkSeq = s.inkSeq := rfl
@[simp] theorem State.maxFld_alc (s : State) (a lo w n : Nat) : (s.maxFld a lo w n).alc = s.alc := rfl
@[simp] theorem State.maxFld_alcUndef (s : State) (a lo w n : Nat) : (s.maxFld a lo w n).alcUndef = s.alcUndef := rfl
@[simp] theorem State.maxFld_moves (s : State) (a lo w n : Nat) : (s.maxFld a lo w n).moves = s.moves := rfl
@[simp] theorem State.maxFld_preload (s : State) (a lo w n : Nat) : (s.maxFld a lo w n).preload = s.preload := rfl
@[simp] theorem State.maxFld_ligs (s : State) (a lo w n : Nat) : (s.maxFld a lo w n).ligs = s.ligs := rfl
@[simp] theorem State.maxFld_readyStrk (s : State) (a lo w n : Nat) : (s.maxFld a lo w n).readyStrk = s.readyStrk := rfl
@[simp] theorem State.maxFld_readyLig (s : State) (a lo w n : Nat) : (s.maxFld a lo w n).readyLig = s.readyLig := rfl
@[simp] theorem State.maxFld_nps (s : State) (a lo w n : Nat) : (s.maxFld a lo w n).nps = s.nps := rfl
@[simp] theorem State.maxFld_ruIn (s : State) (a lo w n : Nat) : (s.maxFld a lo w n).ruIn = s.ruIn := rfl
@[simp] theorem State.maxFld_ruBack (s : State) (a lo w n : Nat) : (s.maxFld a lo w n).ruBack = s.ruBack := rfl
@[simp] theorem State.maxFld_rlys (s : State) (a lo w n : Nat) : (s.maxFld a lo w n).rlys = s.rlys := rfl
@[simp] theorem State.maxFld_mps (s : State) (a lo w n : Nat) : (s.maxFld a lo w n).mps = s.mps := rfl
@[simp] theorem State.maxFld_cp (s : State) (a lo w n : Nat) : (s.maxFld a lo w n).cp = s.cp := rfl
@[simp] theorem State.maxFld_rcv (s : State) (a lo w n : Nat) : (s.maxFld a lo w n).rcv = s.rcv := rfl
@[simp] theorem State.maxFld_mgt (s : State) (a lo w n : Nat) : (s.maxFld a lo w n).mgt = s.mgt := rfl
@[simp] theorem State.maxFld_boot (s : State) (a lo w n : Nat) : (s.maxFld a lo w n).boot = s.boot := rfl
@[simp] theorem State.maxFld_svc (s : State) (a lo w n : Nat) : (s.maxFld a lo w n).svc = s.svc := rfl
@[simp] theorem State.maxFld_pmc (s : State) (a lo w n : Nat) : (s.maxFld a lo w n).pmc = s.pmc := rfl
@[simp] theorem State.maxFld_lanePtr (s : State) (a lo w n : Nat) : (s.maxFld a lo w n).lanePtr = s.lanePtr := rfl
@[simp] theorem State.maxFld_lates (s : State) (a lo w n : Nat) : (s.maxFld a lo w n).lates = s.lates := rfl
@[simp] theorem State.maxFld_faults (s : State) (a lo w n : Nat) : (s.maxFld a lo w n).faults = s.faults := rfl
@[simp] theorem State.maxFld_freeCtr (s : State) (a lo w n : Nat) : (s.maxFld a lo w n).freeCtr = s.freeCtr := rfl
@[simp] theorem State.maxFld_tx (s : State) (a lo w n : Nat) : (s.maxFld a lo w n).tx = s.tx := rfl
@[simp] theorem State.maxFld_mpTx (s : State) (a lo w n : Nat) : (s.maxFld a lo w n).mpTx = s.mpTx := rfl
@[simp] theorem State.maxFld_cpTx (s : State) (a lo w n : Nat) : (s.maxFld a lo w n).cpTx = s.cpTx := rfl
@[simp] theorem State.maxFld_rcvTx (s : State) (a lo w n : Nat) : (s.maxFld a lo w n).rcvTx = s.rcvTx := rfl
@[simp] theorem State.maxFld_pending (s : State) (a lo w n : Nat) : (s.maxFld a lo w n).pending = s.pending := rfl

/-! ### setFlag -/

@[simp] theorem State.setFlag_tod (s : State) (a b : Nat) (v : Bool) : (s.setFlag a b v).tod = s.tod := rfl
@[simp] theorem State.setFlag_dirs (s : State) (a b : Nat) (v : Bool) : (s.setFlag a b v).dirs = s.dirs := rfl
@[simp] theorem State.setFlag_exts (s : State) (a b : Nat) (v : Bool) : (s.setFlag a b v).exts = s.exts := rfl
@[simp] theorem State.setFlag_stalls (s : State) (a b : Nat) (v : Bool) : (s.setFlag a b v).stalls = s.stalls := rfl
@[simp] theorem State.setFlag_pen (s : State) (a b : Nat) (v : Bool) : (s.setFlag a b v).pen = s.pen := rfl
@[simp] theorem State.setFlag_penSeq (s : State) (a b : Nat) (v : Bool) : (s.setFlag a b v).penSeq = s.penSeq := rfl
@[simp] theorem State.setFlag_penSince (s : State) (a b : Nat) (v : Bool) : (s.setFlag a b v).penSince = s.penSince := rfl
@[simp] theorem State.setFlag_tickets (s : State) (a b : Nat) (v : Bool) : (s.setFlag a b v).tickets = s.tickets := rfl
@[simp] theorem State.setFlag_tktGen (s : State) (a b : Nat) (v : Bool) : (s.setFlag a b v).tktGen = s.tktGen := rfl
@[simp] theorem State.setFlag_tktSeq (s : State) (a b : Nat) (v : Bool) : (s.setFlag a b v).tktSeq = s.tktSeq := rfl
@[simp] theorem State.setFlag_ink (s : State) (a b : Nat) (v : Bool) : (s.setFlag a b v).ink = s.ink := rfl
@[simp] theorem State.setFlag_inkSeq (s : State) (a b : Nat) (v : Bool) : (s.setFlag a b v).inkSeq = s.inkSeq := rfl
@[simp] theorem State.setFlag_alc (s : State) (a b : Nat) (v : Bool) : (s.setFlag a b v).alc = s.alc := rfl
@[simp] theorem State.setFlag_alcUndef (s : State) (a b : Nat) (v : Bool) : (s.setFlag a b v).alcUndef = s.alcUndef := rfl
@[simp] theorem State.setFlag_moves (s : State) (a b : Nat) (v : Bool) : (s.setFlag a b v).moves = s.moves := rfl
@[simp] theorem State.setFlag_preload (s : State) (a b : Nat) (v : Bool) : (s.setFlag a b v).preload = s.preload := rfl
@[simp] theorem State.setFlag_ligs (s : State) (a b : Nat) (v : Bool) : (s.setFlag a b v).ligs = s.ligs := rfl
@[simp] theorem State.setFlag_readyStrk (s : State) (a b : Nat) (v : Bool) : (s.setFlag a b v).readyStrk = s.readyStrk := rfl
@[simp] theorem State.setFlag_readyLig (s : State) (a b : Nat) (v : Bool) : (s.setFlag a b v).readyLig = s.readyLig := rfl
@[simp] theorem State.setFlag_nps (s : State) (a b : Nat) (v : Bool) : (s.setFlag a b v).nps = s.nps := rfl
@[simp] theorem State.setFlag_ruIn (s : State) (a b : Nat) (v : Bool) : (s.setFlag a b v).ruIn = s.ruIn := rfl
@[simp] theorem State.setFlag_ruBack (s : State) (a b : Nat) (v : Bool) : (s.setFlag a b v).ruBack = s.ruBack := rfl
@[simp] theorem State.setFlag_rlys (s : State) (a b : Nat) (v : Bool) : (s.setFlag a b v).rlys = s.rlys := rfl
@[simp] theorem State.setFlag_mps (s : State) (a b : Nat) (v : Bool) : (s.setFlag a b v).mps = s.mps := rfl
@[simp] theorem State.setFlag_cp (s : State) (a b : Nat) (v : Bool) : (s.setFlag a b v).cp = s.cp := rfl
@[simp] theorem State.setFlag_rcv (s : State) (a b : Nat) (v : Bool) : (s.setFlag a b v).rcv = s.rcv := rfl
@[simp] theorem State.setFlag_mgt (s : State) (a b : Nat) (v : Bool) : (s.setFlag a b v).mgt = s.mgt := rfl
@[simp] theorem State.setFlag_boot (s : State) (a b : Nat) (v : Bool) : (s.setFlag a b v).boot = s.boot := rfl
@[simp] theorem State.setFlag_svc (s : State) (a b : Nat) (v : Bool) : (s.setFlag a b v).svc = s.svc := rfl
@[simp] theorem State.setFlag_pmc (s : State) (a b : Nat) (v : Bool) : (s.setFlag a b v).pmc = s.pmc := rfl
@[simp] theorem State.setFlag_lanePtr (s : State) (a b : Nat) (v : Bool) : (s.setFlag a b v).lanePtr = s.lanePtr := rfl
@[simp] theorem State.setFlag_lates (s : State) (a b : Nat) (v : Bool) : (s.setFlag a b v).lates = s.lates := rfl
@[simp] theorem State.setFlag_faults (s : State) (a b : Nat) (v : Bool) : (s.setFlag a b v).faults = s.faults := rfl
@[simp] theorem State.setFlag_freeCtr (s : State) (a b : Nat) (v : Bool) : (s.setFlag a b v).freeCtr = s.freeCtr := rfl
@[simp] theorem State.setFlag_tx (s : State) (a b : Nat) (v : Bool) : (s.setFlag a b v).tx = s.tx := rfl
@[simp] theorem State.setFlag_mpTx (s : State) (a b : Nat) (v : Bool) : (s.setFlag a b v).mpTx = s.mpTx := rfl
@[simp] theorem State.setFlag_cpTx (s : State) (a b : Nat) (v : Bool) : (s.setFlag a b v).cpTx = s.cpTx := rfl
@[simp] theorem State.setFlag_rcvTx (s : State) (a b : Nat) (v : Bool) : (s.setFlag a b v).rcvTx = s.rcvTx := rfl
@[simp] theorem State.setFlag_pending (s : State) (a b : Nat) (v : Bool) : (s.setFlag a b v).pending = s.pending := rfl

/-! ### setNp -/

@[simp] theorem State.setNp_win (s : State) (n : Nat) (p : NpSt) : (s.setNp n p).win = s.win := rfl
@[simp] theorem State.setNp_tod (s : State) (n : Nat) (p : NpSt) : (s.setNp n p).tod = s.tod := rfl
@[simp] theorem State.setNp_dirs (s : State) (n : Nat) (p : NpSt) : (s.setNp n p).dirs = s.dirs := rfl
@[simp] theorem State.setNp_exts (s : State) (n : Nat) (p : NpSt) : (s.setNp n p).exts = s.exts := rfl
@[simp] theorem State.setNp_stalls (s : State) (n : Nat) (p : NpSt) : (s.setNp n p).stalls = s.stalls := rfl
@[simp] theorem State.setNp_pen (s : State) (n : Nat) (p : NpSt) : (s.setNp n p).pen = s.pen := rfl
@[simp] theorem State.setNp_penSeq (s : State) (n : Nat) (p : NpSt) : (s.setNp n p).penSeq = s.penSeq := rfl
@[simp] theorem State.setNp_penSince (s : State) (n : Nat) (p : NpSt) : (s.setNp n p).penSince = s.penSince := rfl
@[simp] theorem State.setNp_tickets (s : State) (n : Nat) (p : NpSt) : (s.setNp n p).tickets = s.tickets := rfl
@[simp] theorem State.setNp_tktGen (s : State) (n : Nat) (p : NpSt) : (s.setNp n p).tktGen = s.tktGen := rfl
@[simp] theorem State.setNp_tktSeq (s : State) (n : Nat) (p : NpSt) : (s.setNp n p).tktSeq = s.tktSeq := rfl
@[simp] theorem State.setNp_ink (s : State) (n : Nat) (p : NpSt) : (s.setNp n p).ink = s.ink := rfl
@[simp] theorem State.setNp_inkSeq (s : State) (n : Nat) (p : NpSt) : (s.setNp n p).inkSeq = s.inkSeq := rfl
@[simp] theorem State.setNp_alc (s : State) (n : Nat) (p : NpSt) : (s.setNp n p).alc = s.alc := rfl
@[simp] theorem State.setNp_alcUndef (s : State) (n : Nat) (p : NpSt) : (s.setNp n p).alcUndef = s.alcUndef := rfl
@[simp] theorem State.setNp_moves (s : State) (n : Nat) (p : NpSt) : (s.setNp n p).moves = s.moves := rfl
@[simp] theorem State.setNp_preload (s : State) (n : Nat) (p : NpSt) : (s.setNp n p).preload = s.preload := rfl
@[simp] theorem State.setNp_ligs (s : State) (n : Nat) (p : NpSt) : (s.setNp n p).ligs = s.ligs := rfl
@[simp] theorem State.setNp_readyStrk (s : State) (n : Nat) (p : NpSt) : (s.setNp n p).readyStrk = s.readyStrk := rfl
@[simp] theorem State.setNp_readyLig (s : State) (n : Nat) (p : NpSt) : (s.setNp n p).readyLig = s.readyLig := rfl
@[simp] theorem State.setNp_ruIn (s : State) (n : Nat) (p : NpSt) : (s.setNp n p).ruIn = s.ruIn := rfl
@[simp] theorem State.setNp_ruBack (s : State) (n : Nat) (p : NpSt) : (s.setNp n p).ruBack = s.ruBack := rfl
@[simp] theorem State.setNp_rlys (s : State) (n : Nat) (p : NpSt) : (s.setNp n p).rlys = s.rlys := rfl
@[simp] theorem State.setNp_mps (s : State) (n : Nat) (p : NpSt) : (s.setNp n p).mps = s.mps := rfl
@[simp] theorem State.setNp_cp (s : State) (n : Nat) (p : NpSt) : (s.setNp n p).cp = s.cp := rfl
@[simp] theorem State.setNp_rcv (s : State) (n : Nat) (p : NpSt) : (s.setNp n p).rcv = s.rcv := rfl
@[simp] theorem State.setNp_mgt (s : State) (n : Nat) (p : NpSt) : (s.setNp n p).mgt = s.mgt := rfl
@[simp] theorem State.setNp_boot (s : State) (n : Nat) (p : NpSt) : (s.setNp n p).boot = s.boot := rfl
@[simp] theorem State.setNp_svc (s : State) (n : Nat) (p : NpSt) : (s.setNp n p).svc = s.svc := rfl
@[simp] theorem State.setNp_pmc (s : State) (n : Nat) (p : NpSt) : (s.setNp n p).pmc = s.pmc := rfl
@[simp] theorem State.setNp_lanePtr (s : State) (n : Nat) (p : NpSt) : (s.setNp n p).lanePtr = s.lanePtr := rfl
@[simp] theorem State.setNp_lates (s : State) (n : Nat) (p : NpSt) : (s.setNp n p).lates = s.lates := rfl
@[simp] theorem State.setNp_faults (s : State) (n : Nat) (p : NpSt) : (s.setNp n p).faults = s.faults := rfl
@[simp] theorem State.setNp_freeCtr (s : State) (n : Nat) (p : NpSt) : (s.setNp n p).freeCtr = s.freeCtr := rfl
@[simp] theorem State.setNp_tx (s : State) (n : Nat) (p : NpSt) : (s.setNp n p).tx = s.tx := rfl
@[simp] theorem State.setNp_mpTx (s : State) (n : Nat) (p : NpSt) : (s.setNp n p).mpTx = s.mpTx := rfl
@[simp] theorem State.setNp_cpTx (s : State) (n : Nat) (p : NpSt) : (s.setNp n p).cpTx = s.cpTx := rfl
@[simp] theorem State.setNp_rcvTx (s : State) (n : Nat) (p : NpSt) : (s.setNp n p).rcvTx = s.rcvTx := rfl
@[simp] theorem State.setNp_pending (s : State) (n : Nat) (p : NpSt) : (s.setNp n p).pending = s.pending := rfl

/-! ### setMp -/

@[simp] theorem State.setMp_win (s : State) (n : Nat) (p : MpSt) : (s.setMp n p).win = s.win := rfl
@[simp] theorem State.setMp_tod (s : State) (n : Nat) (p : MpSt) : (s.setMp n p).tod = s.tod := rfl
@[simp] theorem State.setMp_dirs (s : State) (n : Nat) (p : MpSt) : (s.setMp n p).dirs = s.dirs := rfl
@[simp] theorem State.setMp_exts (s : State) (n : Nat) (p : MpSt) : (s.setMp n p).exts = s.exts := rfl
@[simp] theorem State.setMp_stalls (s : State) (n : Nat) (p : MpSt) : (s.setMp n p).stalls = s.stalls := rfl
@[simp] theorem State.setMp_pen (s : State) (n : Nat) (p : MpSt) : (s.setMp n p).pen = s.pen := rfl
@[simp] theorem State.setMp_penSeq (s : State) (n : Nat) (p : MpSt) : (s.setMp n p).penSeq = s.penSeq := rfl
@[simp] theorem State.setMp_penSince (s : State) (n : Nat) (p : MpSt) : (s.setMp n p).penSince = s.penSince := rfl
@[simp] theorem State.setMp_tickets (s : State) (n : Nat) (p : MpSt) : (s.setMp n p).tickets = s.tickets := rfl
@[simp] theorem State.setMp_tktGen (s : State) (n : Nat) (p : MpSt) : (s.setMp n p).tktGen = s.tktGen := rfl
@[simp] theorem State.setMp_tktSeq (s : State) (n : Nat) (p : MpSt) : (s.setMp n p).tktSeq = s.tktSeq := rfl
@[simp] theorem State.setMp_ink (s : State) (n : Nat) (p : MpSt) : (s.setMp n p).ink = s.ink := rfl
@[simp] theorem State.setMp_inkSeq (s : State) (n : Nat) (p : MpSt) : (s.setMp n p).inkSeq = s.inkSeq := rfl
@[simp] theorem State.setMp_alc (s : State) (n : Nat) (p : MpSt) : (s.setMp n p).alc = s.alc := rfl
@[simp] theorem State.setMp_alcUndef (s : State) (n : Nat) (p : MpSt) : (s.setMp n p).alcUndef = s.alcUndef := rfl
@[simp] theorem State.setMp_moves (s : State) (n : Nat) (p : MpSt) : (s.setMp n p).moves = s.moves := rfl
@[simp] theorem State.setMp_preload (s : State) (n : Nat) (p : MpSt) : (s.setMp n p).preload = s.preload := rfl
@[simp] theorem State.setMp_ligs (s : State) (n : Nat) (p : MpSt) : (s.setMp n p).ligs = s.ligs := rfl
@[simp] theorem State.setMp_readyStrk (s : State) (n : Nat) (p : MpSt) : (s.setMp n p).readyStrk = s.readyStrk := rfl
@[simp] theorem State.setMp_readyLig (s : State) (n : Nat) (p : MpSt) : (s.setMp n p).readyLig = s.readyLig := rfl
@[simp] theorem State.setMp_nps (s : State) (n : Nat) (p : MpSt) : (s.setMp n p).nps = s.nps := rfl
@[simp] theorem State.setMp_ruIn (s : State) (n : Nat) (p : MpSt) : (s.setMp n p).ruIn = s.ruIn := rfl
@[simp] theorem State.setMp_ruBack (s : State) (n : Nat) (p : MpSt) : (s.setMp n p).ruBack = s.ruBack := rfl
@[simp] theorem State.setMp_rlys (s : State) (n : Nat) (p : MpSt) : (s.setMp n p).rlys = s.rlys := rfl
@[simp] theorem State.setMp_cp (s : State) (n : Nat) (p : MpSt) : (s.setMp n p).cp = s.cp := rfl
@[simp] theorem State.setMp_rcv (s : State) (n : Nat) (p : MpSt) : (s.setMp n p).rcv = s.rcv := rfl
@[simp] theorem State.setMp_mgt (s : State) (n : Nat) (p : MpSt) : (s.setMp n p).mgt = s.mgt := rfl
@[simp] theorem State.setMp_boot (s : State) (n : Nat) (p : MpSt) : (s.setMp n p).boot = s.boot := rfl
@[simp] theorem State.setMp_svc (s : State) (n : Nat) (p : MpSt) : (s.setMp n p).svc = s.svc := rfl
@[simp] theorem State.setMp_pmc (s : State) (n : Nat) (p : MpSt) : (s.setMp n p).pmc = s.pmc := rfl
@[simp] theorem State.setMp_lanePtr (s : State) (n : Nat) (p : MpSt) : (s.setMp n p).lanePtr = s.lanePtr := rfl
@[simp] theorem State.setMp_lates (s : State) (n : Nat) (p : MpSt) : (s.setMp n p).lates = s.lates := rfl
@[simp] theorem State.setMp_faults (s : State) (n : Nat) (p : MpSt) : (s.setMp n p).faults = s.faults := rfl
@[simp] theorem State.setMp_freeCtr (s : State) (n : Nat) (p : MpSt) : (s.setMp n p).freeCtr = s.freeCtr := rfl
@[simp] theorem State.setMp_tx (s : State) (n : Nat) (p : MpSt) : (s.setMp n p).tx = s.tx := rfl
@[simp] theorem State.setMp_mpTx (s : State) (n : Nat) (p : MpSt) : (s.setMp n p).mpTx = s.mpTx := rfl
@[simp] theorem State.setMp_cpTx (s : State) (n : Nat) (p : MpSt) : (s.setMp n p).cpTx = s.cpTx := rfl
@[simp] theorem State.setMp_rcvTx (s : State) (n : Nat) (p : MpSt) : (s.setMp n p).rcvTx = s.rcvTx := rfl
@[simp] theorem State.setMp_pending (s : State) (n : Nat) (p : MpSt) : (s.setMp n p).pending = s.pending := rfl

/-! ### updStall -/

@[simp] theorem State.updStall_win (s : State) (i : Nat) (f : Stall → Stall) : (s.updStall i f).win = s.win := rfl
@[simp] theorem State.updStall_tod (s : State) (i : Nat) (f : Stall → Stall) : (s.updStall i f).tod = s.tod := rfl
@[simp] theorem State.updStall_dirs (s : State) (i : Nat) (f : Stall → Stall) : (s.updStall i f).dirs = s.dirs := rfl
@[simp] theorem State.updStall_exts (s : State) (i : Nat) (f : Stall → Stall) : (s.updStall i f).exts = s.exts := rfl
@[simp] theorem State.updStall_pen (s : State) (i : Nat) (f : Stall → Stall) : (s.updStall i f).pen = s.pen := rfl
@[simp] theorem State.updStall_penSeq (s : State) (i : Nat) (f : Stall → Stall) : (s.updStall i f).penSeq = s.penSeq := rfl
@[simp] theorem State.updStall_penSince (s : State) (i : Nat) (f : Stall → Stall) : (s.updStall i f).penSince = s.penSince := rfl
@[simp] theorem State.updStall_tickets (s : State) (i : Nat) (f : Stall → Stall) : (s.updStall i f).tickets = s.tickets := rfl
@[simp] theorem State.updStall_tktGen (s : State) (i : Nat) (f : Stall → Stall) : (s.updStall i f).tktGen = s.tktGen := rfl
@[simp] theorem State.updStall_tktSeq (s : State) (i : Nat) (f : Stall → Stall) : (s.updStall i f).tktSeq = s.tktSeq := rfl
@[simp] theorem State.updStall_ink (s : State) (i : Nat) (f : Stall → Stall) : (s.updStall i f).ink = s.ink := rfl
@[simp] theorem State.updStall_inkSeq (s : State) (i : Nat) (f : Stall → Stall) : (s.updStall i f).inkSeq = s.inkSeq := rfl
@[simp] theorem State.updStall_alc (s : State) (i : Nat) (f : Stall → Stall) : (s.updStall i f).alc = s.alc := rfl
@[simp] theorem State.updStall_alcUndef (s : State) (i : Nat) (f : Stall → Stall) : (s.updStall i f).alcUndef = s.alcUndef := rfl
@[simp] theorem State.updStall_moves (s : State) (i : Nat) (f : Stall → Stall) : (s.updStall i f).moves = s.moves := rfl
@[simp] theorem State.updStall_preload (s : State) (i : Nat) (f : Stall → Stall) : (s.updStall i f).preload = s.preload := rfl
@[simp] theorem State.updStall_ligs (s : State) (i : Nat) (f : Stall → Stall) : (s.updStall i f).ligs = s.ligs := rfl
@[simp] theorem State.updStall_readyStrk (s : State) (i : Nat) (f : Stall → Stall) : (s.updStall i f).readyStrk = s.readyStrk := rfl
@[simp] theorem State.updStall_readyLig (s : State) (i : Nat) (f : Stall → Stall) : (s.updStall i f).readyLig = s.readyLig := rfl
@[simp] theorem State.updStall_nps (s : State) (i : Nat) (f : Stall → Stall) : (s.updStall i f).nps = s.nps := rfl
@[simp] theorem State.updStall_ruIn (s : State) (i : Nat) (f : Stall → Stall) : (s.updStall i f).ruIn = s.ruIn := rfl
@[simp] theorem State.updStall_ruBack (s : State) (i : Nat) (f : Stall → Stall) : (s.updStall i f).ruBack = s.ruBack := rfl
@[simp] theorem State.updStall_rlys (s : State) (i : Nat) (f : Stall → Stall) : (s.updStall i f).rlys = s.rlys := rfl
@[simp] theorem State.updStall_mps (s : State) (i : Nat) (f : Stall → Stall) : (s.updStall i f).mps = s.mps := rfl
@[simp] theorem State.updStall_cp (s : State) (i : Nat) (f : Stall → Stall) : (s.updStall i f).cp = s.cp := rfl
@[simp] theorem State.updStall_rcv (s : State) (i : Nat) (f : Stall → Stall) : (s.updStall i f).rcv = s.rcv := rfl
@[simp] theorem State.updStall_mgt (s : State) (i : Nat) (f : Stall → Stall) : (s.updStall i f).mgt = s.mgt := rfl
@[simp] theorem State.updStall_boot (s : State) (i : Nat) (f : Stall → Stall) : (s.updStall i f).boot = s.boot := rfl
@[simp] theorem State.updStall_svc (s : State) (i : Nat) (f : Stall → Stall) : (s.updStall i f).svc = s.svc := rfl
@[simp] theorem State.updStall_pmc (s : State) (i : Nat) (f : Stall → Stall) : (s.updStall i f).pmc = s.pmc := rfl
@[simp] theorem State.updStall_lanePtr (s : State) (i : Nat) (f : Stall → Stall) : (s.updStall i f).lanePtr = s.lanePtr := rfl
@[simp] theorem State.updStall_lates (s : State) (i : Nat) (f : Stall → Stall) : (s.updStall i f).lates = s.lates := rfl
@[simp] theorem State.updStall_faults (s : State) (i : Nat) (f : Stall → Stall) : (s.updStall i f).faults = s.faults := rfl
@[simp] theorem State.updStall_freeCtr (s : State) (i : Nat) (f : Stall → Stall) : (s.updStall i f).freeCtr = s.freeCtr := rfl
@[simp] theorem State.updStall_tx (s : State) (i : Nat) (f : Stall → Stall) : (s.updStall i f).tx = s.tx := rfl
@[simp] theorem State.updStall_mpTx (s : State) (i : Nat) (f : Stall → Stall) : (s.updStall i f).mpTx = s.mpTx := rfl
@[simp] theorem State.updStall_cpTx (s : State) (i : Nat) (f : Stall → Stall) : (s.updStall i f).cpTx = s.cpTx := rfl
@[simp] theorem State.updStall_rcvTx (s : State) (i : Nat) (f : Stall → Stall) : (s.updStall i f).rcvTx = s.rcvTx := rfl
@[simp] theorem State.updStall_pending (s : State) (i : Nat) (f : Stall → Stall) : (s.updStall i f).pending = s.pending := rfl

/-! ### updRly -/

@[simp] theorem State.updRly_win (s : State) (k : Nat) (f : RlyOpen → RlyOpen) : (s.updRly k f).win = s.win := rfl
@[simp] theorem State.updRly_tod (s : State) (k : Nat) (f : RlyOpen → RlyOpen) : (s.updRly k f).tod = s.tod := rfl
@[simp] theorem State.updRly_dirs (s : State) (k : Nat) (f : RlyOpen → RlyOpen) : (s.updRly k f).dirs = s.dirs := rfl
@[simp] theorem State.updRly_exts (s : State) (k : Nat) (f : RlyOpen → RlyOpen) : (s.updRly k f).exts = s.exts := rfl
@[simp] theorem State.updRly_stalls (s : State) (k : Nat) (f : RlyOpen → RlyOpen) : (s.updRly k f).stalls = s.stalls := rfl
@[simp] theorem State.updRly_pen (s : State) (k : Nat) (f : RlyOpen → RlyOpen) : (s.updRly k f).pen = s.pen := rfl
@[simp] theorem State.updRly_penSeq (s : State) (k : Nat) (f : RlyOpen → RlyOpen) : (s.updRly k f).penSeq = s.penSeq := rfl
@[simp] theorem State.updRly_penSince (s : State) (k : Nat) (f : RlyOpen → RlyOpen) : (s.updRly k f).penSince = s.penSince := rfl
@[simp] theorem State.updRly_tickets (s : State) (k : Nat) (f : RlyOpen → RlyOpen) : (s.updRly k f).tickets = s.tickets := rfl
@[simp] theorem State.updRly_tktGen (s : State) (k : Nat) (f : RlyOpen → RlyOpen) : (s.updRly k f).tktGen = s.tktGen := rfl
@[simp] theorem State.updRly_tktSeq (s : State) (k : Nat) (f : RlyOpen → RlyOpen) : (s.updRly k f).tktSeq = s.tktSeq := rfl
@[simp] theorem State.updRly_ink (s : State) (k : Nat) (f : RlyOpen → RlyOpen) : (s.updRly k f).ink = s.ink := rfl
@[simp] theorem State.updRly_inkSeq (s : State) (k : Nat) (f : RlyOpen → RlyOpen) : (s.updRly k f).inkSeq = s.inkSeq := rfl
@[simp] theorem State.updRly_alc (s : State) (k : Nat) (f : RlyOpen → RlyOpen) : (s.updRly k f).alc = s.alc := rfl
@[simp] theorem State.updRly_alcUndef (s : State) (k : Nat) (f : RlyOpen → RlyOpen) : (s.updRly k f).alcUndef = s.alcUndef := rfl
@[simp] theorem State.updRly_moves (s : State) (k : Nat) (f : RlyOpen → RlyOpen) : (s.updRly k f).moves = s.moves := rfl
@[simp] theorem State.updRly_preload (s : State) (k : Nat) (f : RlyOpen → RlyOpen) : (s.updRly k f).preload = s.preload := rfl
@[simp] theorem State.updRly_ligs (s : State) (k : Nat) (f : RlyOpen → RlyOpen) : (s.updRly k f).ligs = s.ligs := rfl
@[simp] theorem State.updRly_readyStrk (s : State) (k : Nat) (f : RlyOpen → RlyOpen) : (s.updRly k f).readyStrk = s.readyStrk := rfl
@[simp] theorem State.updRly_readyLig (s : State) (k : Nat) (f : RlyOpen → RlyOpen) : (s.updRly k f).readyLig = s.readyLig := rfl
@[simp] theorem State.updRly_nps (s : State) (k : Nat) (f : RlyOpen → RlyOpen) : (s.updRly k f).nps = s.nps := rfl
@[simp] theorem State.updRly_ruIn (s : State) (k : Nat) (f : RlyOpen → RlyOpen) : (s.updRly k f).ruIn = s.ruIn := rfl
@[simp] theorem State.updRly_ruBack (s : State) (k : Nat) (f : RlyOpen → RlyOpen) : (s.updRly k f).ruBack = s.ruBack := rfl
@[simp] theorem State.updRly_mps (s : State) (k : Nat) (f : RlyOpen → RlyOpen) : (s.updRly k f).mps = s.mps := rfl
@[simp] theorem State.updRly_cp (s : State) (k : Nat) (f : RlyOpen → RlyOpen) : (s.updRly k f).cp = s.cp := rfl
@[simp] theorem State.updRly_rcv (s : State) (k : Nat) (f : RlyOpen → RlyOpen) : (s.updRly k f).rcv = s.rcv := rfl
@[simp] theorem State.updRly_mgt (s : State) (k : Nat) (f : RlyOpen → RlyOpen) : (s.updRly k f).mgt = s.mgt := rfl
@[simp] theorem State.updRly_boot (s : State) (k : Nat) (f : RlyOpen → RlyOpen) : (s.updRly k f).boot = s.boot := rfl
@[simp] theorem State.updRly_svc (s : State) (k : Nat) (f : RlyOpen → RlyOpen) : (s.updRly k f).svc = s.svc := rfl
@[simp] theorem State.updRly_pmc (s : State) (k : Nat) (f : RlyOpen → RlyOpen) : (s.updRly k f).pmc = s.pmc := rfl
@[simp] theorem State.updRly_lanePtr (s : State) (k : Nat) (f : RlyOpen → RlyOpen) : (s.updRly k f).lanePtr = s.lanePtr := rfl
@[simp] theorem State.updRly_lates (s : State) (k : Nat) (f : RlyOpen → RlyOpen) : (s.updRly k f).lates = s.lates := rfl
@[simp] theorem State.updRly_faults (s : State) (k : Nat) (f : RlyOpen → RlyOpen) : (s.updRly k f).faults = s.faults := rfl
@[simp] theorem State.updRly_freeCtr (s : State) (k : Nat) (f : RlyOpen → RlyOpen) : (s.updRly k f).freeCtr = s.freeCtr := rfl
@[simp] theorem State.updRly_tx (s : State) (k : Nat) (f : RlyOpen → RlyOpen) : (s.updRly k f).tx = s.tx := rfl
@[simp] theorem State.updRly_mpTx (s : State) (k : Nat) (f : RlyOpen → RlyOpen) : (s.updRly k f).mpTx = s.mpTx := rfl
@[simp] theorem State.updRly_cpTx (s : State) (k : Nat) (f : RlyOpen → RlyOpen) : (s.updRly k f).cpTx = s.cpTx := rfl
@[simp] theorem State.updRly_rcvTx (s : State) (k : Nat) (f : RlyOpen → RlyOpen) : (s.updRly k f).rcvTx = s.rcvTx := rfl
@[simp] theorem State.updRly_pending (s : State) (k : Nat) (f : RlyOpen → RlyOpen) : (s.updRly k f).pending = s.pending := rfl

/-! ### notice -/

@[simp] theorem State.notice_win (s : State) (kind arg : Nat) (ws : List Word) : (s.notice kind arg ws).win = s.win := rfl
@[simp] theorem State.notice_tod (s : State) (kind arg : Nat) (ws : List Word) : (s.notice kind arg ws).tod = s.tod := rfl
@[simp] theorem State.notice_dirs (s : State) (kind arg : Nat) (ws : List Word) : (s.notice kind arg ws).dirs = s.dirs := rfl
@[simp] theorem State.notice_exts (s : State) (kind arg : Nat) (ws : List Word) : (s.notice kind arg ws).exts = s.exts := rfl
@[simp] theorem State.notice_stalls (s : State) (kind arg : Nat) (ws : List Word) : (s.notice kind arg ws).stalls = s.stalls := rfl
@[simp] theorem State.notice_pen (s : State) (kind arg : Nat) (ws : List Word) : (s.notice kind arg ws).pen = s.pen := rfl
@[simp] theorem State.notice_penSeq (s : State) (kind arg : Nat) (ws : List Word) : (s.notice kind arg ws).penSeq = s.penSeq := rfl
@[simp] theorem State.notice_penSince (s : State) (kind arg : Nat) (ws : List Word) : (s.notice kind arg ws).penSince = s.penSince := rfl
@[simp] theorem State.notice_tickets (s : State) (kind arg : Nat) (ws : List Word) : (s.notice kind arg ws).tickets = s.tickets := rfl
@[simp] theorem State.notice_tktGen (s : State) (kind arg : Nat) (ws : List Word) : (s.notice kind arg ws).tktGen = s.tktGen := rfl
@[simp] theorem State.notice_tktSeq (s : State) (kind arg : Nat) (ws : List Word) : (s.notice kind arg ws).tktSeq = s.tktSeq := rfl
@[simp] theorem State.notice_ink (s : State) (kind arg : Nat) (ws : List Word) : (s.notice kind arg ws).ink = s.ink := rfl
@[simp] theorem State.notice_inkSeq (s : State) (kind arg : Nat) (ws : List Word) : (s.notice kind arg ws).inkSeq = s.inkSeq := rfl
@[simp] theorem State.notice_alc (s : State) (kind arg : Nat) (ws : List Word) : (s.notice kind arg ws).alc = s.alc := rfl
@[simp] theorem State.notice_alcUndef (s : State) (kind arg : Nat) (ws : List Word) : (s.notice kind arg ws).alcUndef = s.alcUndef := rfl
@[simp] theorem State.notice_moves (s : State) (kind arg : Nat) (ws : List Word) : (s.notice kind arg ws).moves = s.moves := rfl
@[simp] theorem State.notice_preload (s : State) (kind arg : Nat) (ws : List Word) : (s.notice kind arg ws).preload = s.preload := rfl
@[simp] theorem State.notice_ligs (s : State) (kind arg : Nat) (ws : List Word) : (s.notice kind arg ws).ligs = s.ligs := rfl
@[simp] theorem State.notice_readyStrk (s : State) (kind arg : Nat) (ws : List Word) : (s.notice kind arg ws).readyStrk = s.readyStrk := rfl
@[simp] theorem State.notice_readyLig (s : State) (kind arg : Nat) (ws : List Word) : (s.notice kind arg ws).readyLig = s.readyLig := rfl
@[simp] theorem State.notice_nps (s : State) (kind arg : Nat) (ws : List Word) : (s.notice kind arg ws).nps = s.nps := rfl
@[simp] theorem State.notice_ruIn (s : State) (kind arg : Nat) (ws : List Word) : (s.notice kind arg ws).ruIn = s.ruIn := rfl
@[simp] theorem State.notice_ruBack (s : State) (kind arg : Nat) (ws : List Word) : (s.notice kind arg ws).ruBack = s.ruBack := rfl
@[simp] theorem State.notice_rlys (s : State) (kind arg : Nat) (ws : List Word) : (s.notice kind arg ws).rlys = s.rlys := rfl
@[simp] theorem State.notice_mps (s : State) (kind arg : Nat) (ws : List Word) : (s.notice kind arg ws).mps = s.mps := rfl
@[simp] theorem State.notice_cp (s : State) (kind arg : Nat) (ws : List Word) : (s.notice kind arg ws).cp = s.cp := rfl
@[simp] theorem State.notice_rcv (s : State) (kind arg : Nat) (ws : List Word) : (s.notice kind arg ws).rcv = s.rcv := rfl
@[simp] theorem State.notice_mgt (s : State) (kind arg : Nat) (ws : List Word) : (s.notice kind arg ws).mgt = s.mgt := rfl
@[simp] theorem State.notice_boot (s : State) (kind arg : Nat) (ws : List Word) : (s.notice kind arg ws).boot = s.boot := rfl
@[simp] theorem State.notice_pmc (s : State) (kind arg : Nat) (ws : List Word) : (s.notice kind arg ws).pmc = s.pmc := rfl
@[simp] theorem State.notice_lanePtr (s : State) (kind arg : Nat) (ws : List Word) : (s.notice kind arg ws).lanePtr = s.lanePtr := rfl
@[simp] theorem State.notice_lates (s : State) (kind arg : Nat) (ws : List Word) : (s.notice kind arg ws).lates = s.lates := rfl
@[simp] theorem State.notice_faults (s : State) (kind arg : Nat) (ws : List Word) : (s.notice kind arg ws).faults = s.faults := rfl
@[simp] theorem State.notice_freeCtr (s : State) (kind arg : Nat) (ws : List Word) : (s.notice kind arg ws).freeCtr = s.freeCtr := rfl
@[simp] theorem State.notice_tx (s : State) (kind arg : Nat) (ws : List Word) : (s.notice kind arg ws).tx = s.tx := rfl
@[simp] theorem State.notice_mpTx (s : State) (kind arg : Nat) (ws : List Word) : (s.notice kind arg ws).mpTx = s.mpTx := rfl
@[simp] theorem State.notice_cpTx (s : State) (kind arg : Nat) (ws : List Word) : (s.notice kind arg ws).cpTx = s.cpTx := rfl
@[simp] theorem State.notice_rcvTx (s : State) (kind arg : Nat) (ws : List Word) : (s.notice kind arg ws).rcvTx = s.rcvTx := rfl
@[simp] theorem State.notice_pending (s : State) (kind arg : Nat) (ws : List Word) : (s.notice kind arg ws).pending = s.pending := rfl

/-! ### ev -/

@[simp] theorem State.evN_tod (s : State) (k n : Nat) (a : Attr) : (s.evN k n a).tod = s.tod := by unfold State.evN; split <;> rfl
@[simp] theorem State.ev_tod (s : State) (k : Nat) (a : Attr) : (s.ev k a).tod = s.tod := State.evN_tod s k 1 a
@[simp] theorem State.evN_dirs (s : State) (k n : Nat) (a : Attr) : (s.evN k n a).dirs = s.dirs := by unfold State.evN; split <;> rfl
@[simp] theorem State.ev_dirs (s : State) (k : Nat) (a : Attr) : (s.ev k a).dirs = s.dirs := State.evN_dirs s k 1 a
@[simp] theorem State.evN_exts (s : State) (k n : Nat) (a : Attr) : (s.evN k n a).exts = s.exts := by unfold State.evN; split <;> rfl
@[simp] theorem State.ev_exts (s : State) (k : Nat) (a : Attr) : (s.ev k a).exts = s.exts := State.evN_exts s k 1 a
@[simp] theorem State.evN_stalls (s : State) (k n : Nat) (a : Attr) : (s.evN k n a).stalls = s.stalls := by unfold State.evN; split <;> rfl
@[simp] theorem State.ev_stalls (s : State) (k : Nat) (a : Attr) : (s.ev k a).stalls = s.stalls := State.evN_stalls s k 1 a
@[simp] theorem State.evN_pen (s : State) (k n : Nat) (a : Attr) : (s.evN k n a).pen = s.pen := by unfold State.evN; split <;> rfl
@[simp] theorem State.ev_pen (s : State) (k : Nat) (a : Attr) : (s.ev k a).pen = s.pen := State.evN_pen s k 1 a
@[simp] theorem State.evN_penSeq (s : State) (k n : Nat) (a : Attr) : (s.evN k n a).penSeq = s.penSeq := by unfold State.evN; split <;> rfl
@[simp] theorem State.evN_penSince (s : State) (k n : Nat) (a : Attr) : (s.evN k n a).penSince = s.penSince := by unfold State.evN; split <;> rfl
@[simp] theorem State.ev_penSeq (s : State) (k : Nat) (a : Attr) : (s.ev k a).penSeq = s.penSeq := State.evN_penSeq s k 1 a
@[simp] theorem State.ev_penSince (s : State) (k : Nat) (a : Attr) : (s.ev k a).penSince = s.penSince := State.evN_penSince s k 1 a
@[simp] theorem State.evN_tickets (s : State) (k n : Nat) (a : Attr) : (s.evN k n a).tickets = s.tickets := by unfold State.evN; split <;> rfl
@[simp] theorem State.ev_tickets (s : State) (k : Nat) (a : Attr) : (s.ev k a).tickets = s.tickets := State.evN_tickets s k 1 a
@[simp] theorem State.evN_tktGen (s : State) (k n : Nat) (a : Attr) : (s.evN k n a).tktGen = s.tktGen := by unfold State.evN; split <;> rfl
@[simp] theorem State.ev_tktGen (s : State) (k : Nat) (a : Attr) : (s.ev k a).tktGen = s.tktGen := State.evN_tktGen s k 1 a
@[simp] theorem State.evN_tktSeq (s : State) (k n : Nat) (a : Attr) : (s.evN k n a).tktSeq = s.tktSeq := by unfold State.evN; split <;> rfl
@[simp] theorem State.ev_tktSeq (s : State) (k : Nat) (a : Attr) : (s.ev k a).tktSeq = s.tktSeq := State.evN_tktSeq s k 1 a
@[simp] theorem State.evN_ink (s : State) (k n : Nat) (a : Attr) : (s.evN k n a).ink = s.ink := by unfold State.evN; split <;> rfl
@[simp] theorem State.ev_ink (s : State) (k : Nat) (a : Attr) : (s.ev k a).ink = s.ink := State.evN_ink s k 1 a
@[simp] theorem State.evN_inkSeq (s : State) (k n : Nat) (a : Attr) : (s.evN k n a).inkSeq = s.inkSeq := by unfold State.evN; split <;> rfl
@[simp] theorem State.ev_inkSeq (s : State) (k : Nat) (a : Attr) : (s.ev k a).inkSeq = s.inkSeq := State.evN_inkSeq s k 1 a
@[simp] theorem State.evN_alc (s : State) (k n : Nat) (a : Attr) : (s.evN k n a).alc = s.alc := by unfold State.evN; split <;> rfl
@[simp] theorem State.ev_alc (s : State) (k : Nat) (a : Attr) : (s.ev k a).alc = s.alc := State.evN_alc s k 1 a
@[simp] theorem State.evN_alcUndef (s : State) (k n : Nat) (a : Attr) : (s.evN k n a).alcUndef = s.alcUndef := by unfold State.evN; split <;> rfl
@[simp] theorem State.ev_alcUndef (s : State) (k : Nat) (a : Attr) : (s.ev k a).alcUndef = s.alcUndef := State.evN_alcUndef s k 1 a
@[simp] theorem State.evN_moves (s : State) (k n : Nat) (a : Attr) : (s.evN k n a).moves = s.moves := by unfold State.evN; split <;> rfl
@[simp] theorem State.ev_moves (s : State) (k : Nat) (a : Attr) : (s.ev k a).moves = s.moves := State.evN_moves s k 1 a
@[simp] theorem State.evN_preload (s : State) (k n : Nat) (a : Attr) : (s.evN k n a).preload = s.preload := by unfold State.evN; split <;> rfl
@[simp] theorem State.ev_preload (s : State) (k : Nat) (a : Attr) : (s.ev k a).preload = s.preload := State.evN_preload s k 1 a
@[simp] theorem State.evN_ligs (s : State) (k n : Nat) (a : Attr) : (s.evN k n a).ligs = s.ligs := by unfold State.evN; split <;> rfl
@[simp] theorem State.ev_ligs (s : State) (k : Nat) (a : Attr) : (s.ev k a).ligs = s.ligs := State.evN_ligs s k 1 a
@[simp] theorem State.evN_readyStrk (s : State) (k n : Nat) (a : Attr) : (s.evN k n a).readyStrk = s.readyStrk := by unfold State.evN; split <;> rfl
@[simp] theorem State.ev_readyStrk (s : State) (k : Nat) (a : Attr) : (s.ev k a).readyStrk = s.readyStrk := State.evN_readyStrk s k 1 a
@[simp] theorem State.evN_readyLig (s : State) (k n : Nat) (a : Attr) : (s.evN k n a).readyLig = s.readyLig := by unfold State.evN; split <;> rfl
@[simp] theorem State.ev_readyLig (s : State) (k : Nat) (a : Attr) : (s.ev k a).readyLig = s.readyLig := State.evN_readyLig s k 1 a
@[simp] theorem State.evN_nps (s : State) (k n : Nat) (a : Attr) : (s.evN k n a).nps = s.nps := by unfold State.evN; split <;> rfl
@[simp] theorem State.ev_nps (s : State) (k : Nat) (a : Attr) : (s.ev k a).nps = s.nps := State.evN_nps s k 1 a
@[simp] theorem State.evN_ruIn (s : State) (k n : Nat) (a : Attr) : (s.evN k n a).ruIn = s.ruIn := by unfold State.evN; split <;> rfl
@[simp] theorem State.ev_ruIn (s : State) (k : Nat) (a : Attr) : (s.ev k a).ruIn = s.ruIn := State.evN_ruIn s k 1 a
@[simp] theorem State.evN_ruBack (s : State) (k n : Nat) (a : Attr) : (s.evN k n a).ruBack = s.ruBack := by unfold State.evN; split <;> rfl
@[simp] theorem State.ev_ruBack (s : State) (k : Nat) (a : Attr) : (s.ev k a).ruBack = s.ruBack := State.evN_ruBack s k 1 a
@[simp] theorem State.evN_rlys (s : State) (k n : Nat) (a : Attr) : (s.evN k n a).rlys = s.rlys := by unfold State.evN; split <;> rfl
@[simp] theorem State.ev_rlys (s : State) (k : Nat) (a : Attr) : (s.ev k a).rlys = s.rlys := State.evN_rlys s k 1 a
@[simp] theorem State.evN_mps (s : State) (k n : Nat) (a : Attr) : (s.evN k n a).mps = s.mps := by unfold State.evN; split <;> rfl
@[simp] theorem State.ev_mps (s : State) (k : Nat) (a : Attr) : (s.ev k a).mps = s.mps := State.evN_mps s k 1 a
@[simp] theorem State.evN_cp (s : State) (k n : Nat) (a : Attr) : (s.evN k n a).cp = s.cp := by unfold State.evN; split <;> rfl
@[simp] theorem State.ev_cp (s : State) (k : Nat) (a : Attr) : (s.ev k a).cp = s.cp := State.evN_cp s k 1 a
@[simp] theorem State.evN_rcv (s : State) (k n : Nat) (a : Attr) : (s.evN k n a).rcv = s.rcv := by unfold State.evN; split <;> rfl
@[simp] theorem State.ev_rcv (s : State) (k : Nat) (a : Attr) : (s.ev k a).rcv = s.rcv := State.evN_rcv s k 1 a
@[simp] theorem State.evN_mgt (s : State) (k n : Nat) (a : Attr) : (s.evN k n a).mgt = s.mgt := by unfold State.evN; split <;> rfl
@[simp] theorem State.ev_mgt (s : State) (k : Nat) (a : Attr) : (s.ev k a).mgt = s.mgt := State.evN_mgt s k 1 a
@[simp] theorem State.evN_boot (s : State) (k n : Nat) (a : Attr) : (s.evN k n a).boot = s.boot := by unfold State.evN; split <;> rfl
@[simp] theorem State.ev_boot (s : State) (k : Nat) (a : Attr) : (s.ev k a).boot = s.boot := State.evN_boot s k 1 a
@[simp] theorem State.evN_svc (s : State) (k n : Nat) (a : Attr) : (s.evN k n a).svc = s.svc := by unfold State.evN; split <;> rfl
@[simp] theorem State.ev_svc (s : State) (k : Nat) (a : Attr) : (s.ev k a).svc = s.svc := State.evN_svc s k 1 a
@[simp] theorem State.evN_pmc (s : State) (k n : Nat) (a : Attr) : (s.evN k n a).pmc = s.pmc := by unfold State.evN; split <;> rfl
@[simp] theorem State.ev_pmc (s : State) (k : Nat) (a : Attr) : (s.ev k a).pmc = s.pmc := State.evN_pmc s k 1 a
@[simp] theorem State.evN_lanePtr (s : State) (k n : Nat) (a : Attr) : (s.evN k n a).lanePtr = s.lanePtr := by unfold State.evN; split <;> rfl
@[simp] theorem State.ev_lanePtr (s : State) (k : Nat) (a : Attr) : (s.ev k a).lanePtr = s.lanePtr := State.evN_lanePtr s k 1 a
@[simp] theorem State.evN_lates (s : State) (k n : Nat) (a : Attr) : (s.evN k n a).lates = s.lates := by unfold State.evN; split <;> rfl
@[simp] theorem State.ev_lates (s : State) (k : Nat) (a : Attr) : (s.ev k a).lates = s.lates := State.evN_lates s k 1 a
@[simp] theorem State.evN_faults (s : State) (k n : Nat) (a : Attr) : (s.evN k n a).faults = s.faults := by unfold State.evN; split <;> rfl
@[simp] theorem State.ev_faults (s : State) (k : Nat) (a : Attr) : (s.ev k a).faults = s.faults := State.evN_faults s k 1 a
@[simp] theorem State.evN_freeCtr (s : State) (k n : Nat) (a : Attr) : (s.evN k n a).freeCtr = s.freeCtr := by unfold State.evN; split <;> rfl
@[simp] theorem State.ev_freeCtr (s : State) (k : Nat) (a : Attr) : (s.ev k a).freeCtr = s.freeCtr := State.evN_freeCtr s k 1 a
@[simp] theorem State.evN_tx (s : State) (k n : Nat) (a : Attr) : (s.evN k n a).tx = s.tx := by unfold State.evN; split <;> rfl
@[simp] theorem State.ev_tx (s : State) (k : Nat) (a : Attr) : (s.ev k a).tx = s.tx := State.evN_tx s k 1 a
@[simp] theorem State.evN_mpTx (s : State) (k n : Nat) (a : Attr) : (s.evN k n a).mpTx = s.mpTx := by unfold State.evN; split <;> rfl
@[simp] theorem State.ev_mpTx (s : State) (k : Nat) (a : Attr) : (s.ev k a).mpTx = s.mpTx := State.evN_mpTx s k 1 a
@[simp] theorem State.evN_cpTx (s : State) (k n : Nat) (a : Attr) : (s.evN k n a).cpTx = s.cpTx := by unfold State.evN; split <;> rfl
@[simp] theorem State.ev_cpTx (s : State) (k : Nat) (a : Attr) : (s.ev k a).cpTx = s.cpTx := State.evN_cpTx s k 1 a
@[simp] theorem State.evN_rcvTx (s : State) (k n : Nat) (a : Attr) : (s.evN k n a).rcvTx = s.rcvTx := by unfold State.evN; split <;> rfl
@[simp] theorem State.ev_rcvTx (s : State) (k : Nat) (a : Attr) : (s.ev k a).rcvTx = s.rcvTx := State.evN_rcvTx s k 1 a
@[simp] theorem State.evN_pending (s : State) (k n : Nat) (a : Attr) : (s.evN k n a).pending = s.pending := by unfold State.evN; split <;> rfl
@[simp] theorem State.ev_pending (s : State) (k : Nat) (a : Attr) : (s.ev k a).pending = s.pending := State.evN_pending s k 1 a

/-! ### Tables -/

theorem SMap.find_put_self {α : Type} (m : SMap α) (k : Nat) (a : α) : SMap.find (SMap.put m k a) k = some a := by
  induction m with
  | nil => simp [SMap.put, SMap.find]
  | cons e r ih =>
    obtain ⟨j, v⟩ := e
    unfold SMap.put
    split
    · simp [SMap.find]
    · split
      · simp [SMap.find]
      · simp only [SMap.find]
        rw [if_neg (by omega), if_neg (by omega)]
        exact ih

theorem SMap.find_put_ne {α : Type} (m : SMap α) {k j : Nat} (a : α) (h : j ≠ k) : SMap.find (SMap.put m k a) j = SMap.find m j := by
  induction m with
  | nil => simp [SMap.put, SMap.find, Ne.symm h]
  | cons e r ih =>
    obtain ⟨i, v⟩ := e
    unfold SMap.put
    split
    · rename_i hi
      subst hi
      simp [SMap.find, Ne.symm h]
    · split
      · simp only [SMap.find]
        rw [if_neg (by omega)]
        split
        · rw [if_neg (by omega), if_pos (by omega)]
        · rfl
      · simp only [SMap.find]
        rw [ih]

/-- An index below every index of the table is not in it. -/
theorem SMap.find_lt {α : Type} {m : SMap α} {lo k : Nat} (h : SMap.risesFrom lo m = true) (hk : k < lo) : SMap.find m k = none := by
  cases m with
  | nil => rfl
  | cons e r =>
    obtain ⟨j, v⟩ := e
    simp only [SMap.risesFrom, Bool.and_eq_true, decide_eq_true_eq] at h
    simp only [SMap.find]
    rw [if_neg (by omega), if_pos (by omega)]

theorem SMap.find_del_self {α : Type} {m : SMap α} {lo : Nat} (h : SMap.risesFrom lo m = true) (k : Nat) :
    SMap.find (SMap.del m k) k = none := by
  induction m generalizing lo with
  | nil => rfl
  | cons e r ih =>
    obtain ⟨j, v⟩ := e
    simp only [SMap.risesFrom, Bool.and_eq_true, decide_eq_true_eq] at h
    unfold SMap.del
    split
    · exact SMap.find_lt h.2 (by omega)
    · split
      · simp only [SMap.find]
        rw [if_neg (by omega), if_pos (by omega)]
      · simp only [SMap.find]
        rw [if_neg (by omega), if_neg (by omega)]
        exact ih h.2

theorem SMap.find_del_ne {α : Type} {m : SMap α} {lo : Nat} (h : SMap.risesFrom lo m = true) {k j : Nat} (hj : j ≠ k) :
    SMap.find (SMap.del m k) j = SMap.find m j := by
  induction m generalizing lo with
  | nil => rfl
  | cons e r ih =>
    obtain ⟨i, v⟩ := e
    simp only [SMap.risesFrom, Bool.and_eq_true, decide_eq_true_eq] at h
    unfold SMap.del
    split
    · rename_i hi
      subst hi
      simp only [SMap.find]
      rw [if_neg (by omega)]
      split
      · exact SMap.find_lt h.2 (by omega)
      · rfl
    · split
      · rfl
      · simp only [SMap.find]
        rw [ih h.2]

/-! ### Registers -/

/-- A register reads as written, in a state whose register window is canonical. -/
theorem State.reg_setReg_self {s : State} (h : s.canonical = true) (a : Nat) (v : Word) : (s.setReg a v).reg a = v := by
  have hw : SMap.risesFrom 0 s.win = true := ((State.canonical_iff s).1 h).1
  unfold State.reg State.setReg
  split
  · rename_i hv
    simp only
    rw [SMap.find_del_self hw, hv]
    rfl
  · simp only
    rw [SMap.find_put_self]
    rfl

/-- A write of one register leaves every other one alone. -/
theorem State.reg_setReg_ne {s : State} (hc : s.canonical = true) {a b : Nat} (h : b / 8 ≠ a / 8) (v : Word) :
    (s.setReg a v).reg b = s.reg b := by
  have hw : SMap.risesFrom 0 s.win = true := ((State.canonical_iff s).1 hc).1
  unfold State.reg State.setReg
  split
  · simp only
    rw [SMap.find_del_ne hw h]
  · simp only
    rw [SMap.find_put_ne _ _ h]

/-- A network port reads as written. -/
@[simp] theorem State.np_setNp_self (s : State) (n : Nat) (p : NpSt) : (s.setNp n p).np n = p := by
  simp [State.np, State.setNp, SMap.find_put_self]

/-- A write of one network port leaves every other one alone. -/
theorem State.np_setNp_ne (s : State) {n m : Nat} (h : m ≠ n) (p : NpSt) : (s.setNp n p).np m = s.np m := by
  simp [State.np, State.setNp, SMap.find_put_ne _ _ h]

/-- A memory port reads as written. -/
@[simp] theorem State.mp_setMp_self (s : State) (n : Nat) (p : MpSt) : (s.setMp n p).mp n = p := by
  simp [State.mp, State.setMp, SMap.find_put_self]

/-- A write of one memory port leaves the other one alone. -/
theorem State.mp_setMp_ne (s : State) {n m : Nat} (h : m ≠ n) (p : MpSt) : (s.setMp n p).mp m = s.mp m := by
  simp [State.mp, State.setMp, SMap.find_put_ne _ _ h]

end Sys2Proof.Machine
end

