-- ==== Sys2Proof/Laws/Fields.lean ====
section
/-! SUPPORT. What a field of a word or of a register reads as after a field has been written. -/

namespace Sys2Proof
/-- A word taken apart around a field. -/
theorem getBits_parts (n lo w : Nat) : n = n / 2 ^ (lo + w) * 2 ^ (lo + w) + n / 2 ^ lo % 2 ^ w * 2 ^ lo + n % 2 ^ lo := by
  have h1 := Nat.div_add_mod n (2 ^ lo)
  have h2 := Nat.div_add_mod (n / 2 ^ lo) (2 ^ w)
  rw [Nat.div_div_eq_div_mul, ← pow_add] at h2
  generalize n / 2 ^ (lo + w) = q at h2 ⊢
  generalize n / 2 ^ lo % 2 ^ w = f at h2 ⊢
  generalize n % 2 ^ lo = r at h1 ⊢
  generalize n / 2 ^ lo = a at h1 h2
  rw [← h1, ← h2, pow_add]
  ring

theorem setBits_toNat {v : Word} {lo w x : Nat} (h : lo + w ≤ 64) :
    (setBits v lo w x).toNat = v.toNat / 2 ^ (lo + w) * 2 ^ (lo + w) + x % 2 ^ w * 2 ^ lo + v.toNat % 2 ^ lo := by
  unfold setBits getBits
  have hp := getBits_parts v.toNat lo w
  generalize v.toNat / 2 ^ lo % 2 ^ w = f at hp ⊢
  have hv : v.toNat < 2 ^ 64 := v.isLt
  have hs : v.toNat - f * 2 ^ lo + x % 2 ^ w * 2 ^ lo =
      v.toNat / 2 ^ (lo + w) * 2 ^ (lo + w) + x % 2 ^ w * 2 ^ lo + v.toNat % 2 ^ lo := by omega
  rw [hs, BitVec.toNat_ofNat, Nat.mod_eq_of_lt]
  have hx : x % 2 ^ w * 2 ^ lo + 2 ^ lo ≤ 2 ^ (lo + w) := by
    rw [pow_add, mul_comm (2 ^ lo)]
    have : x % 2 ^ w + 1 ≤ 2 ^ w := Nat.mod_lt _ (by positivity)
    nlinarith [Nat.pos_of_ne_zero (pow_ne_zero lo (two_ne_zero))]
  have hr : v.toNat % 2 ^ lo < 2 ^ lo := Nat.mod_lt _ (by positivity)
  have hq : v.toNat / 2 ^ (lo + w) + 1 ≤ 2 ^ (64 - (lo + w)) := by
    apply Nat.div_lt_of_lt_mul
    rw [← pow_add]
    have : lo + w + (64 - (lo + w)) = 64 := by omega
    rwa [this]
  have h64 : 2 ^ (64 - (lo + w)) * 2 ^ (lo + w) = 2 ^ 64 := by
    rw [← pow_add]; congr 1; omega
  have := Nat.mul_le_mul_right (2 ^ (lo + w)) hq
  rw [h64, Nat.add_mul] at this
  omega

/-- A field reads as written. -/
theorem getBits_setBits_self (v : Word) {lo w : Nat} (x : Nat) (h : lo + w ≤ 64) : getBits (setBits v lo w x) lo w = x % 2 ^ w := by
  unfold getBits
  rw [setBits_toNat h]
  have hr : v.toNat % 2 ^ lo < 2 ^ lo := Nat.mod_lt _ (by positivity)
  rw [pow_add, show v.toNat / (2 ^ lo * 2 ^ w) * (2 ^ lo * 2 ^ w) + x % 2 ^ w * 2 ^ lo + v.toNat % 2 ^ lo =
    v.toNat % 2 ^ lo + 2 ^ lo * (v.toNat / (2 ^ lo * 2 ^ w) * 2 ^ w + x % 2 ^ w) by ring, Nat.add_mul_div_left _ _ (by positivity),
    Nat.div_eq_of_lt hr, zero_add, Nat.mul_add_mod_self_right, Nat.mod_mod]

/-- A field below the one written is left alone. -/
theorem getBits_setBits_below (v : Word) {lo w lo' w' : Nat} (x : Nat) (h : lo + w ≤ 64) (hb : lo' + w' ≤ lo) :
    getBits (setBits v lo w x) lo' w' = getBits v lo' w' := by
  unfold getBits
  rw [setBits_toNat h]
  obtain ⟨k, rfl⟩ := Nat.exists_eq_add_of_le hb
  have hp := getBits_parts v.toNat (lo' + w' + k) w
  conv_rhs => rw [hp]
  have e : ∀ y, v.toNat / 2 ^ (lo' + w' + k + w) * 2 ^ (lo' + w' + k + w) + y * 2 ^ (lo' + w' + k) + v.toNat % 2 ^ (lo' + w' + k) =
      v.toNat % 2 ^ (lo' + w' + k) + 2 ^ lo' * (2 ^ w' * (v.toNat / 2 ^ (lo' + w' + k + w) * 2 ^ (k + w) + y * 2 ^ k)) := by
    intro y; simp only [pow_add]; ring
  rw [e, e, Nat.add_mul_div_left _ _ (by positivity), Nat.add_mul_div_left _ _ (by positivity), Nat.add_mul_mod_self_left,
    Nat.add_mul_mod_self_left]

/-- A field above the one written is left alone. -/
theorem getBits_setBits_above (v : Word) {lo w lo' w' : Nat} (x : Nat) (h : lo + w ≤ 64) (hb : lo + w ≤ lo') :
    getBits (setBits v lo w x) lo' w' = getBits v lo' w' := by
  unfold getBits
  rw [setBits_toNat h]
  obtain ⟨k, rfl⟩ := Nat.exists_eq_add_of_le hb
  have hr : v.toNat % 2 ^ lo < 2 ^ lo := Nat.mod_lt _ (by positivity)
  have hx : x % 2 ^ w * 2 ^ lo + 2 ^ lo ≤ 2 ^ (lo + w) := by
    rw [pow_add, mul_comm (2 ^ lo)]
    have : x % 2 ^ w + 1 ≤ 2 ^ w := Nat.mod_lt _ (by positivity)
    nlinarith [Nat.pos_of_ne_zero (pow_ne_zero lo (two_ne_zero))]
  congr 1
  rw [pow_add 2 (lo + w) k, ← Nat.div_div_eq_div_mul, ← Nat.div_div_eq_div_mul]
  congr 1
  rw [show v.toNat / 2 ^ (lo + w) * 2 ^ (lo + w) + x % 2 ^ w * 2 ^ lo + v.toNat % 2 ^ lo =
    x % 2 ^ w * 2 ^ lo + v.toNat % 2 ^ lo + 2 ^ (lo + w) * (v.toNat / 2 ^ (lo + w)) by ring, Nat.add_mul_div_left _ _ (by positivity),
    Nat.div_eq_of_lt (by omega), zero_add]

end Sys2Proof

namespace Sys2Proof.Machine

/-- A field reads as written. -/
theorem State.fld_setFld_self {s : State} (hc : s.canonical = true) (a : Nat) {lo w : Nat} (v : Nat) (h : lo + w ≤ 64) :
    (s.setFld a lo w v).fld a lo w = v % 2 ^ w := by
  unfold State.fld State.setFld
  rw [State.reg_setReg_self hc, getBits_setBits_self _ _ h]

/-- A write of one register's field leaves the fields of every other register alone. -/
theorem State.fld_setFld_ne {s : State} (hc : s.canonical = true) {a b : Nat} (hab : b / 8 ≠ a / 8) (lo w v lo' w' : Nat) :
    (s.setFld a lo w v).fld b lo' w' = s.fld b lo' w' := by
  unfold State.fld State.setFld
  rw [State.reg_setReg_ne hc hab]

/-- A write of one field leaves the fields above it alone. -/
theorem State.fld_setFld_above {s : State} (hc : s.canonical = true) (a : Nat) {lo w lo' : Nat} (v w' : Nat) (h : lo + w ≤ 64)
    (hb : lo + w ≤ lo') : (s.setFld a lo w v).fld a lo' w' = s.fld a lo' w' := by
  unfold State.fld State.setFld
  rw [State.reg_setReg_self hc, getBits_setBits_above _ _ h hb]

/-- A write of one field leaves the fields below it alone. -/
theorem State.fld_setFld_below {s : State} (hc : s.canonical = true) (a : Nat) {lo w lo' w' : Nat} (v : Nat) (h : lo + w ≤ 64)
    (hb : lo' + w' ≤ lo) : (s.setFld a lo w v).fld a lo' w' = s.fld a lo' w' := by
  unfold State.fld State.setFld
  rw [State.reg_setReg_self hc, getBits_setBits_below _ _ h hb]

end Sys2Proof.Machine
end

