-- ==== Sys2Proof/Laws/KeepsOps.lean ====
section
/-! SUPPORT. Every named operation of Machine/Ops.lean keeps what `Keeps` names. -/

set_option linter.unusedTactic false
set_option linter.unreachableTactic false
set_option linter.unusedVariables false
set_option linter.tactic.unusedName false

namespace Sys2Proof.Machine

theorem State.setFld_keeps {s0 s : State} (h : Keeps s0 s) (a lo w v : Nat) : Keeps s0 (s.setFld a lo w v) := by
  unfold State.setFld
  iterate 150 all_goals try first
    | with_reducible assumption | with_reducible exact Keeps.refl _
    | with_reducible apply State.setReg_keeps
    | with_reducible apply keeps_ite | split

theorem State.addFld_keeps {s0 s : State} (h : Keeps s0 s) (a lo w n : Nat) : Keeps s0 (s.addFld a lo w n) := by
  unfold State.addFld
  iterate 150 all_goals try first
    | with_reducible assumption | with_reducible exact Keeps.refl _
    | with_reducible apply State.setFld_keeps
    | with_reducible apply keeps_ite | split

theorem State.maxFld_keeps {s0 s : State} (h : Keeps s0 s) (a lo w n : Nat) : Keeps s0 (s.maxFld a lo w n) := by
  unfold State.maxFld
  iterate 150 all_goals try first
    | with_reducible assumption | with_reducible exact Keeps.refl _
    | with_reducible apply State.setFld_keeps
    | with_reducible apply keeps_ite | split

theorem State.setFlag_keeps {s0 s : State} (h : Keeps s0 s) (a b : Nat) (v : Bool) : Keeps s0 (s.setFlag a b v) := by
  unfold State.setFlag
  iterate 150 all_goals try first
    | with_reducible assumption | with_reducible exact Keeps.refl _
    | with_reducible apply State.setFld_keeps
    | with_reducible apply keeps_ite | split

theorem State.setLink_keeps {s0 s : State} (h : Keeps s0 s) (n v : Nat) : Keeps s0 (s.setLink n v) := by
  unfold State.setLink
  iterate 150 all_goals try first
    | with_reducible assumption | with_reducible exact Keeps.refl _
    | with_reducible apply State.setFld_keeps
    | with_reducible apply keeps_ite | split

theorem State.evN_keeps {s0 s : State} (h : Keeps s0 s) (k n : Nat) (a : Attr) : Keeps s0 (s.evN k n a) := by
  unfold State.evN
  iterate 150 all_goals try first
    | with_reducible assumption | with_reducible exact Keeps.refl _
    | with_reducible apply State.setReg_keeps
    | with_reducible apply keeps_ite | split

theorem State.ev_keeps {s0 s : State} (h : Keeps s0 s) (k : Nat) (a : Attr) : Keeps s0 (s.ev k a) := by
  unfold State.ev
  iterate 150 all_goals try first
    | with_reducible assumption | with_reducible exact Keeps.refl _
    | with_reducible apply State.evN_keeps
    | with_reducible apply keeps_ite | split

theorem State.redo_keeps {s0 s : State} (h : Keeps s0 s) (k : Nat) : Keeps s0 (s.redo k) := by
  unfold State.redo
  iterate 150 all_goals try first
    | with_reducible assumption | with_reducible exact Keeps.refl _
    | with_reducible apply State.setFlag_keeps
    | with_reducible apply keeps_ite | split

theorem State.blot_keeps {s0 s : State} (h : Keeps s0 s) (r : BlotRec) : Keeps s0 (s.blot r) := by
  unfold State.blot
  iterate 150 all_goals try first
    | (intro) | with_reducible assumption | with_reducible exact Keeps.refl _
    | (extract_lets +onlyGivenNames -lift t; first | (refine keeps_cut (P := Keeps s0 t) (fun ht => ?_) ?_; clear_value t; rotate_left; dsimp -zeta only [t]; try clear t; rotate_right) | (refine keeps_cut (P := Keeps s0 t.1) (fun ht => ?_) ?_; clear_value t; rotate_left; dsimp -zeta only [t]; try clear t; rotate_right) | clear_value t)
    | with_reducible apply State.addFld_keeps | with_reducible apply State.setFld_keeps | with_reducible apply State.ev_keeps
    | with_reducible apply keeps_ite | simp only [keeps_upd] | split

theorem State.note_keeps {s0 s : State} (h : Keeps s0 s) (src cls det sev : Nat) (world : Bool) (line : LineAddr) (tag : Tag) (id : BitVec 18) (op : BitVec 6) (arg : BitVec 40) : Keeps s0 (s.note src cls det sev world line tag id op arg) := by
  unfold State.note
  iterate 150 all_goals try first
    | with_reducible assumption | with_reducible exact Keeps.refl _
    | with_reducible apply State.blot_keeps
    | with_reducible apply keeps_ite | split

theorem State.notice_keeps {s0 s : State} (h : Keeps s0 s) (kind arg : Nat) (ws : List Word) : Keeps s0 (s.notice kind arg ws) := by
  unfold State.notice
  iterate 150 all_goals try first
    | with_reducible assumption | with_reducible exact Keeps.refl _
    | (extract_lets +onlyGivenNames -lift t; first | (refine keeps_cut (P := Keeps s0 t) (fun ht => ?_) ?_; clear_value t; rotate_left; dsimp -zeta only [t]; try clear t; rotate_right) | (refine keeps_cut (P := Keeps s0 t.1) (fun ht => ?_) ?_; clear_value t; rotate_left; dsimp -zeta only [t]; try clear t; rotate_right) | clear_value t)
    | with_reducible apply keeps_ite | simp only [keeps_upd] | split

theorem State.noticeFence_keeps {s0 s : State} (h : Keeps s0 s) (k : Nat) : Keeps s0 (s.noticeFence k) := by
  unfold State.noticeFence
  iterate 150 all_goals try first
    | (intro) | with_reducible assumption | with_reducible exact Keeps.refl _
    | (extract_lets +onlyGivenNames -lift t; first | (refine keeps_cut (P := Keeps s0 t) (fun ht => ?_) ?_; clear_value t; rotate_left; dsimp -zeta only [t]; try clear t; rotate_right) | (refine keeps_cut (P := Keeps s0 t.1) (fun ht => ?_) ?_; clear_value t; rotate_left; dsimp -zeta only [t]; try clear t; rotate_right) | clear_value t)
    | with_reducible apply State.notice_keeps
    | with_reducible apply keeps_ite | split

theorem State.viol_keeps {s0 s : State} (h : Keeps s0 s) (kind src id : Nat) (world : Bool) (line : LineAddr) (tag : Tag) (op : BitVec 6) (isl : Nat) : Keeps s0 (s.viol kind src id world line tag op isl) := by
  unfold State.viol
  iterate 150 all_goals try first
    | (intro) | with_reducible assumption | with_reducible exact Keeps.refl _
    | (extract_lets +onlyGivenNames -lift t; first | (refine keeps_cut (P := Keeps s0 t) (fun ht => ?_) ?_; clear_value t; rotate_left; dsimp -zeta only [t]; try clear t; rotate_right) | (refine keeps_cut (P := Keeps s0 t.1) (fun ht => ?_) ?_; clear_value t; rotate_left; dsimp -zeta only [t]; try clear t; rotate_right) | clear_value t)
    | with_reducible apply State.addFld_keeps | with_reducible apply State.setReg_keeps | with_reducible apply State.note_keeps
    | with_reducible apply keeps_ite | split

theorem State.declare_keeps {s0 s : State} (h : Keeps s0 s) (cause src : Nat) (who : EpId) (ue : Nat) : Keeps s0 (s.declare cause src who ue) := by
  unfold State.declare
  iterate 150 all_goals try first
    | (intro) | with_reducible assumption | with_reducible exact Keeps.refl _
    | (extract_lets +onlyGivenNames -lift t; first | (refine keeps_cut (P := Keeps s0 t) (fun ht => ?_) ?_; clear_value t; rotate_left; dsimp -zeta only [t]; try clear t; rotate_right) | (refine keeps_cut (P := Keeps s0 t.1) (fun ht => ?_) ?_; clear_value t; rotate_left; dsimp -zeta only [t]; try clear t; rotate_right) | clear_value t)
    | with_reducible apply State.addFld_keeps | with_reducible apply State.note_keeps | with_reducible apply State.setReg_keeps | with_reducible apply State.notice_keeps
    | with_reducible apply keeps_ite | split

theorem State.mend_keeps {s0 s : State} (h : Keeps s0 s) (k i : Nat) : Keeps s0 (s.mend k i) := by
  unfold State.mend
  iterate 150 all_goals try first
    | (intro) | with_reducible assumption | with_reducible exact Keeps.refl _
    | (extract_lets +onlyGivenNames -lift t; first | (refine keeps_cut (P := Keeps s0 t) (fun ht => ?_) ?_; clear_value t; rotate_left; dsimp -zeta only [t]; try clear t; rotate_right) | (refine keeps_cut (P := Keeps s0 t.1) (fun ht => ?_) ?_; clear_value t; rotate_left; dsimp -zeta only [t]; try clear t; rotate_right) | clear_value t)
    | with_reducible apply keeps_ite | (apply_assumption -exfalso -symm) | simp only [keeps_upd] | split

theorem State.probe_keeps {s0 s : State} (h : Keeps s0 s) (k i : Nat) : Keeps s0 (s.probe k i) := by
  unfold State.probe
  iterate 150 all_goals try first
    | (intro) | with_reducible assumption | with_reducible exact Keeps.refl _
    | with_reducible apply State.mend_keeps | with_reducible apply State.addFld_keeps | with_reducible apply State.ev_keeps | with_reducible apply State.note_keeps | with_reducible apply State.declare_keeps
    | with_reducible apply keeps_ite | split

/-- Reading an entry of a protected structure keeps what its use keeps. -/
theorem State.reading_keeps {s0 s : State} (h : Keeps s0 s) (k i : Nat) {f : State → State} (hf : ∀ t, Keeps s0 t → Keeps s0 (f t)) :
    Keeps s0 (s.reading k i f) := by
  unfold State.reading
  split
  · exact State.probe_keeps h _ _
  · exact hf _ (State.probe_keeps h _ _)

theorem State.readStalls_keeps {s0 s : State} (h : Keeps s0 s) (l : List Nat) : Keeps s0 (s.readStalls l) := by
  unfold State.readStalls
  iterate 150 all_goals try first
    | (intro) | with_reducible assumption | with_reducible exact Keeps.refl _
    | with_reducible apply State.probe_keeps
    | with_reducible apply keeps_ite | with_reducible apply keeps_foldl | (apply_assumption -exfalso -symm) | split

theorem State.readAll_keeps {s0 s : State} (h : Keeps s0 s) (k : Nat) : Keeps s0 (s.readAll k) :=
  keeps_foldl h (fun _ _ ht => keeps_ite (State.probe_keeps ht _ _) ht)

/-- Reading an undamaged structure is using it. -/
theorem State.reading_intact {s : State} (h : s.faults = []) (k i : Nat) (f : State → State) : s.reading k i f = f s := by
  simp [State.reading, State.probe, State.damage, h]

theorem State.readAll_intact {s : State} (h : s.faults = []) (k : Nat) : s.readAll k = s := by simp [State.readAll, h]


end Sys2Proof.Machine
end

