-- ==== Sys2Proof/Laws/KeepsCredits.lean ====
section
/-! SUPPORT. Every named operation of Machine/Credits.lean keeps what `Keeps` names. -/

set_option linter.unusedTactic false
set_option linter.unreachableTactic false
set_option linter.unusedVariables false
set_option linter.tactic.unusedName false

namespace Sys2Proof.Machine

theorem State.setNp_keeps {s0 s : State} (h : Keeps s0 s) (n : Nat) (p : NpSt) : Keeps s0 (s.setNp n p) := by
  unfold State.setNp
  iterate 150 all_goals try first
    | with_reducible assumption | with_reducible exact Keeps.refl _
    | (extract_lets +onlyGivenNames -lift t; first | (refine keeps_cut (P := Keeps s0 t) (fun ht => ?_) ?_; clear_value t; rotate_left; dsimp -zeta only [t]; try clear t; rotate_right) | (refine keeps_cut (P := Keeps s0 t.1) (fun ht => ?_) ?_; clear_value t; rotate_left; dsimp -zeta only [t]; try clear t; rotate_right) | clear_value t)
    | with_reducible apply keeps_ite | simp only [keeps_upd] | split

theorem State.setCredNow_keeps {s0 s : State} (h : Keeps s0 s) (n k v : Nat) : Keeps s0 (s.setCredNow n k v) := by
  unfold State.setCredNow
  iterate 150 all_goals try first
    | with_reducible assumption | with_reducible exact Keeps.refl _
    | with_reducible apply State.setFld_keeps
    | with_reducible apply keeps_ite | split

theorem State.settleIn_keeps {s0 s : State} (h : Keeps s0 s) (n : Nat) : Keeps s0 (s.settleIn n) := by
  unfold State.settleIn
  iterate 150 all_goals try first
    | (intro) | with_reducible assumption | with_reducible exact Keeps.refl _
    | (extract_lets +onlyGivenNames -lift t; first | (refine keeps_cut (P := Keeps s0 t) (fun ht => ?_) ?_; clear_value t; rotate_left; dsimp -zeta only [t]; try clear t; rotate_right) | (refine keeps_cut (P := Keeps s0 t.1) (fun ht => ?_) ?_; clear_value t; rotate_left; dsimp -zeta only [t]; try clear t; rotate_right) | clear_value t)
    | with_reducible apply State.setNp_keeps
    | with_reducible apply keeps_ite | split


end Sys2Proof.Machine
end

