-- ==== Sys2Proof/Laws/KeepsSend.lean ====
section
/-! SUPPORT. Every named operation of Machine/Send.lean keeps what `Keeps` names. -/

set_option linter.unusedTactic false
set_option linter.unreachableTactic false
set_option linter.unusedVariables false
set_option linter.tactic.unusedName false

namespace Sys2Proof.Machine

theorem State.routeRead_keeps {s0 s : State} (h : Keeps s0 s) (a : Nat) : Keeps s0 (s.routeRead a) := by
  unfold State.routeRead
  iterate 150 all_goals try first
    | (intro) | with_reducible assumption | with_reducible exact Keeps.refl _
    | with_reducible apply State.addFld_keeps | with_reducible apply State.probe_keeps
    | with_reducible apply keeps_ite | split

theorem State.routeErr_keeps {s0 s : State} (h : Keeps s0 s) (d : EpId) : Keeps s0 (s.routeErr d) := by
  unfold State.routeErr
  iterate 150 all_goals try first
    | (intro) | with_reducible assumption | with_reducible exact Keeps.refl _
    | (extract_lets +onlyGivenNames -lift t; first | (refine keeps_cut (P := Keeps s0 t) (fun ht => ?_) ?_; clear_value t; rotate_left; dsimp -zeta only [t]; try clear t; rotate_right) | (refine keeps_cut (P := Keeps s0 t.1) (fun ht => ?_) ?_; clear_value t; rotate_left; dsimp -zeta only [t]; try clear t; rotate_right) | clear_value t)
    | with_reducible apply State.routeRead_keeps
    | with_reducible apply keeps_ite | with_reducible apply keeps_foldl | (apply_assumption -exfalso -symm) | split

theorem State.updStall_keeps {s0 s : State} (h : Keeps s0 s) (i : Nat) (f : Stall → Stall) : Keeps s0 (s.updStall i f) := by
  unfold State.updStall
  iterate 150 all_goals try first
    | with_reducible assumption | with_reducible exact Keeps.refl _
    | (extract_lets +onlyGivenNames -lift t; first | (refine keeps_cut (P := Keeps s0 t) (fun ht => ?_) ?_; clear_value t; rotate_left; dsimp -zeta only [t]; try clear t; rotate_right) | (refine keeps_cut (P := Keeps s0 t.1) (fun ht => ?_) ?_; clear_value t; rotate_left; dsimp -zeta only [t]; try clear t; rotate_right) | clear_value t)
    | with_reducible apply keeps_ite | simp only [keeps_upd] | split

theorem State.updRly_keeps {s0 s : State} (h : Keeps s0 s) (k : Nat) (f : RlyOpen → RlyOpen) : Keeps s0 (s.updRly k f) := by
  unfold State.updRly
  iterate 150 all_goals try first
    | with_reducible assumption | with_reducible exact Keeps.refl _
    | (extract_lets +onlyGivenNames -lift t; first | (refine keeps_cut (P := Keeps s0 t) (fun ht => ?_) ?_; clear_value t; rotate_left; dsimp -zeta only [t]; try clear t; rotate_right) | (refine keeps_cut (P := Keeps s0 t.1) (fun ht => ?_) ?_; clear_value t; rotate_left; dsimp -zeta only [t]; try clear t; rotate_right) | clear_value t)
    | with_reducible apply keeps_ite | simp only [keeps_upd] | split

theorem State.respMeasured_keeps {s0 s : State} (h : Keeps s0 s) (src : Nat) (acc : Tod) : Keeps s0 (s.respMeasured src acc) := by
  unfold State.respMeasured
  iterate 150 all_goals try first
    | (intro) | with_reducible assumption | with_reducible exact Keeps.refl _
    | (extract_lets +onlyGivenNames -lift t; first | (refine keeps_cut (P := Keeps s0 t) (fun ht => ?_) ?_; clear_value t; rotate_left; dsimp -zeta only [t]; try clear t; rotate_right) | (refine keeps_cut (P := Keeps s0 t.1) (fun ht => ?_) ?_; clear_value t; rotate_left; dsimp -zeta only [t]; try clear t; rotate_right) | clear_value t)
    | with_reducible apply State.maxFld_keeps | with_reducible apply State.addFld_keeps | with_reducible apply State.ev_keeps
    | with_reducible apply keeps_ite | simp only [keeps_upd] | split

theorem State.left_keeps {s0 s : State} (h : Keeps s0 s) (n : Nat) (x : EgItem) : Keeps s0 (s.left n x) := by
  unfold State.left
  iterate 150 all_goals try first
    | (intro) | with_reducible assumption | with_reducible exact Keeps.refl _
    | (extract_lets +onlyGivenNames -lift t; first | (refine keeps_cut (P := Keeps s0 t) (fun ht => ?_) ?_; clear_value t; rotate_left; dsimp -zeta only [t]; try clear t; rotate_right) | (refine keeps_cut (P := Keeps s0 t.1) (fun ht => ?_) ?_; clear_value t; rotate_left; dsimp -zeta only [t]; try clear t; rotate_right) | (refine keeps_cut (P := ∀ u a, Keeps s0 u → Keeps s0 (t u a)) (fun ht => ?_) ?_; clear_value t; rotate_left; dsimp -zeta only [t]; try clear t; rotate_right) | (refine keeps_cut (P := ∀ u, Keeps s0 u → Keeps s0 (t u)) (fun ht => ?_) ?_; clear_value t; rotate_left; dsimp -zeta only [t]; try clear t; rotate_right) | (refine keeps_cut (P := ∀ u, Keeps s0 u → Keeps s0 (t u).1) (fun ht => ?_) ?_; clear_value t; rotate_left; dsimp -zeta only [t]; try clear t; rotate_right) | clear_value t)
    | with_reducible apply State.evN_keeps | with_reducible apply State.respMeasured_keeps | with_reducible apply State.updStall_keeps | with_reducible apply State.updRly_keeps
    | with_reducible apply keeps_ite | with_reducible apply keeps_tx | (apply_assumption -exfalso -symm) | simp only [keeps_upd] | split

theorem State.pump1_keeps {s0 s : State} {n : Nat} {t : State} (e : s.pump1 n = some t) (h : Keeps s0 s) : Keeps s0 t := by
  unfold State.pump1 at e
  dsimp only at e
  repeat' split at e
  all_goals first
    | (cases e; exact State.left_keeps (State.setNp_keeps h _ _) _ _)
    | cases e

theorem State.pumpN_keeps {s0 s : State} (h : Keeps s0 s) (n : Nat) (fuel : Nat) : Keeps s0 (s.pumpN n fuel) := by
  induction fuel generalizing s n with
  | zero =>
    unfold State.pumpN
    iterate 150 all_goals try first
      | (intro) | with_reducible assumption | with_reducible exact Keeps.refl _
      | (refine State.pump1_keeps (by assumption) ?_)
      | with_reducible apply keeps_ite | split
  | succ fuel ih =>
    unfold State.pumpN
    iterate 150 all_goals try first
      | (intro) | with_reducible assumption | with_reducible exact Keeps.refl _
      | (refine State.pump1_keeps (by assumption) ?_) | with_reducible apply ih
      | with_reducible apply keeps_ite | split

theorem State.pump_keeps {s0 s : State} (h : Keeps s0 s) (n : Nat) : Keeps s0 (s.pump n) := by
  unfold State.pump
  iterate 150 all_goals try first
    | (intro) | with_reducible assumption | with_reducible exact Keeps.refl _
    | with_reducible apply State.pumpN_keeps | with_reducible apply State.settleIn_keeps
    | with_reducible apply keeps_ite | (apply_assumption -exfalso -symm) | split

theorem State.enqueue_keeps {s0 s : State} (h : Keeps s0 s) (n : Nat) (x : EgItem) : Keeps s0 (s.enqueue n x) := by
  unfold State.enqueue
  iterate 150 all_goals try first
    | (intro) | with_reducible assumption | with_reducible exact Keeps.refl _
    | (extract_lets +onlyGivenNames -lift t; first | (refine keeps_cut (P := Keeps s0 t) (fun ht => ?_) ?_; clear_value t; rotate_left; dsimp -zeta only [t]; try clear t; rotate_right) | (refine keeps_cut (P := Keeps s0 t.1) (fun ht => ?_) ?_; clear_value t; rotate_left; dsimp -zeta only [t]; try clear t; rotate_right) | clear_value t)
    | with_reducible apply State.setNp_keeps | with_reducible apply State.pump_keeps
    | with_reducible apply keeps_ite | simp only [keeps_upd] | split

theorem State.sendFrom_keeps {s0 s : State} (h : Keeps s0 s) (src : EpId) (dom : BitVec 12) (xlat : Bool) (m : Msg) (k : Meta) : Keeps s0 (s.sendFrom src dom xlat m k).1 := by
  unfold State.sendFrom
  iterate 150 all_goals try first
    | (intro) | with_reducible assumption | with_reducible exact Keeps.refl _
    | (extract_lets +onlyGivenNames -lift t; first | (refine keeps_cut (P := Keeps s0 t) (fun ht => ?_) ?_; clear_value t; rotate_left; dsimp -zeta only [t]; try clear t; rotate_right) | (refine keeps_cut (P := Keeps s0 t.1) (fun ht => ?_) ?_; clear_value t; rotate_left; dsimp -zeta only [t]; try clear t; rotate_right) | clear_value t)
    | with_reducible apply State.readAll_keeps | with_reducible apply State.routeErr_keeps | with_reducible apply State.enqueue_keeps | with_reducible apply State.addFld_keeps | with_reducible apply State.ev_keeps
    | with_reducible apply keeps_ite | simp only [keeps_upd] | split
theorem State.sendFrom_keeps_eq {s0 s : State} {src : EpId} {dom : BitVec 12} {xlat : Bool} {m : Msg} {k : Meta} {p : State × Bool} (e : s.sendFrom src dom xlat m k = p) (h : Keeps s0 s) : Keeps s0 p.1 := e ▸ State.sendFrom_keeps h _ _ _ _ _

theorem State.send_keeps {s0 s : State} (h : Keeps s0 s) (m : Msg) (k : Meta) : Keeps s0 (s.send m k).1 := by
  unfold State.send
  iterate 150 all_goals try first
    | with_reducible assumption | with_reducible exact Keeps.refl _
    | with_reducible apply State.sendFrom_keeps
    | with_reducible apply keeps_ite | split
theorem State.send_keeps_eq {s0 s : State} {m : Msg} {k : Meta} {p : State × Bool} (e : s.send m k = p) (h : Keeps s0 s) : Keeps s0 p.1 := e ▸ State.send_keeps h _ _

theorem State.noRouteNote_keeps {s0 s : State} (h : Keeps s0 s) (m : Msg) : Keeps s0 (s.noRouteNote m) := by
  unfold State.noRouteNote
  iterate 150 all_goals try first
    | with_reducible assumption | with_reducible exact Keeps.refl _
    | with_reducible apply State.note_keeps
    | with_reducible apply keeps_ite | split

theorem State.tell_keeps {s0 s : State} (h : Keeps s0 s) (m : Msg) (k : Meta) : Keeps s0 (s.tell m k) := by
  unfold State.tell
  iterate 150 all_goals try first
    | (intro) | with_reducible assumption | with_reducible exact Keeps.refl _
    | with_reducible apply State.send_keeps | (refine State.send_keeps_eq (p := (_, _)) (by assumption) ?_) | with_reducible apply State.noRouteNote_keeps
    | with_reducible apply keeps_ite | split

theorem State.answerAt_keeps {s0 s : State} (h : Keeps s0 s) (n : Nat) (p : Packet) (op : BitVec 6) (detail : Nat) (hold : Bool) : Keeps s0 (s.answerAt n p op detail hold) := by
  unfold State.answerAt
  iterate 150 all_goals try first
    | (intro) | with_reducible assumption | with_reducible exact Keeps.refl _
    | (extract_lets +onlyGivenNames -lift t; first | (refine keeps_cut (P := Keeps s0 t) (fun ht => ?_) ?_; clear_value t; rotate_left; dsimp -zeta only [t]; try clear t; rotate_right) | (refine keeps_cut (P := Keeps s0 t.1) (fun ht => ?_) ?_; clear_value t; rotate_left; dsimp -zeta only [t]; try clear t; rotate_right) | clear_value t)
    | with_reducible apply State.enqueue_keeps | with_reducible apply State.setNp_keeps | with_reducible apply State.pump_keeps
    | with_reducible apply keeps_ite | simp only [keeps_upd] | split

theorem State.stray_keeps {s0 s : State} (h : Keeps s0 s) (p : Packet) : Keeps s0 (s.stray p) := by
  unfold State.stray
  iterate 150 all_goals try first
    | with_reducible assumption | with_reducible exact Keeps.refl _
    | (extract_lets +onlyGivenNames -lift t; first | (refine keeps_cut (P := Keeps s0 t) (fun ht => ?_) ?_; clear_value t; rotate_left; dsimp -zeta only [t]; try clear t; rotate_right) | (refine keeps_cut (P := Keeps s0 t.1) (fun ht => ?_) ?_; clear_value t; rotate_left; dsimp -zeta only [t]; try clear t; rotate_right) | clear_value t)
    | with_reducible apply State.ev_keeps | with_reducible apply State.note_keeps
    | with_reducible apply keeps_ite | simp only [keeps_upd] | split


end Sys2Proof.Machine
end

