-- ==== Sys2Proof/Laws/KeepsDirectory.lean ====
section
/-! SUPPORT. Every named operation of Machine/Directory.lean keeps what `Keeps` names. -/

set_option linter.unusedTactic false
set_option linter.unreachableTactic false
set_option linter.unusedVariables false
set_option linter.tactic.unusedName false

namespace Sys2Proof.Machine

theorem State.eccLoc_keeps {s0 s : State} (h : Keeps s0 s) (src loc : Nat) (freeze : Bool) : Keeps s0 (s.eccLoc src loc freeze) := by
  unfold State.eccLoc
  iterate 150 all_goals try first
    | with_reducible assumption | with_reducible exact Keeps.refl _
    | with_reducible apply State.setReg_keeps
    | with_reducible apply keeps_ite | split

theorem State.dirStop_keeps {s0 s : State} (h : Keeps s0 s) (src loc : Nat) (line : LineAddr) : Keeps s0 (s.dirStop src loc line) := by
  unfold State.dirStop
  iterate 150 all_goals try first
    | (intro) | with_reducible assumption | with_reducible exact Keeps.refl _
    | (extract_lets +onlyGivenNames -lift t; first | (refine keeps_cut (P := Keeps s0 t) (fun ht => ?_) ?_; clear_value t; rotate_left; dsimp -zeta only [t]; try clear t; rotate_right) | (refine keeps_cut (P := Keeps s0 t.1) (fun ht => ?_) ?_; clear_value t; rotate_left; dsimp -zeta only [t]; try clear t; rotate_right) | clear_value t)
    | with_reducible apply State.declare_keeps | with_reducible apply State.setFlag_keeps | with_reducible apply State.eccLoc_keeps | with_reducible apply State.note_keeps
    | with_reducible apply keeps_ite | split

theorem State.dirProbe_keeps {s0 s : State} (h : Keeps s0 s) (src i : Nat) (line : LineAddr) : Keeps s0 (s.dirProbe src i line) := by
  unfold State.dirProbe
  iterate 150 all_goals try first
    | (intro) | with_reducible assumption | with_reducible exact Keeps.refl _
    | (extract_lets +onlyGivenNames -lift t; first | (refine keeps_cut (P := Keeps s0 t) (fun ht => ?_) ?_; clear_value t; rotate_left; dsimp -zeta only [t]; try clear t; rotate_right) | (refine keeps_cut (P := Keeps s0 t.1) (fun ht => ?_) ?_; clear_value t; rotate_left; dsimp -zeta only [t]; try clear t; rotate_right) | clear_value t)
    | with_reducible apply State.mend_keeps | with_reducible apply State.addFld_keeps | with_reducible apply State.eccLoc_keeps | with_reducible apply State.ev_keeps | with_reducible apply State.note_keeps | with_reducible apply State.dirStop_keeps
    | with_reducible apply keeps_ite | split

theorem State.extProbe_keeps {s0 s : State} (h : Keeps s0 s) (x : Nat) (line : LineAddr) : Keeps s0 (s.extProbe x line) := by
  unfold State.extProbe
  iterate 150 all_goals try first
    | (intro) | with_reducible assumption | with_reducible exact Keeps.refl _
    | with_reducible apply State.dirProbe_keeps
    | with_reducible apply keeps_ite | with_reducible apply keeps_foldl | (apply_assumption -exfalso -symm) | split

theorem State.extRead_keeps {s0 s : State} (h : Keeps s0 s) (k : Nat) (e : DirEntry) : Keeps s0 (s.extRead k e) := by
  unfold State.extRead
  iterate 150 all_goals try first
    | (intro) | with_reducible assumption | with_reducible exact Keeps.refl _
    | (extract_lets +onlyGivenNames -lift t; first | (refine keeps_cut (P := Keeps s0 t) (fun ht => ?_) ?_; clear_value t; rotate_left; dsimp -zeta only [t]; try clear t; rotate_right) | (refine keeps_cut (P := Keeps s0 t.1) (fun ht => ?_) ?_; clear_value t; rotate_left; dsimp -zeta only [t]; try clear t; rotate_right) | clear_value t)
    | with_reducible apply State.extProbe_keeps | with_reducible apply State.dirStop_keeps
    | with_reducible apply keeps_ite | split

theorem State.entryRead_keeps {s0 s : State} (h : Keeps s0 s) (k : Nat) : Keeps s0 (s.entryRead k) := by
  unfold State.entryRead
  iterate 150 all_goals try first
    | (intro) | with_reducible assumption | with_reducible exact Keeps.refl _
    | (extract_lets +onlyGivenNames -lift t; first | (refine keeps_cut (P := Keeps s0 t) (fun ht => ?_) ?_; clear_value t; rotate_left; dsimp -zeta only [t]; try clear t; rotate_right) | (refine keeps_cut (P := Keeps s0 t.1) (fun ht => ?_) ?_; clear_value t; rotate_left; dsimp -zeta only [t]; try clear t; rotate_right) | clear_value t)
    | with_reducible apply State.dirProbe_keeps | with_reducible apply State.extRead_keeps
    | with_reducible apply keeps_ite | split

theorem State.holdsRead_keeps {s0 s : State} (h : Keeps s0 s) (h : HIdx) : Keeps s0 (s.holdsRead h) := by
  unfold State.holdsRead
  iterate 150 all_goals try first
    | (intro) | with_reducible assumption | with_reducible exact Keeps.refl _
    | with_reducible apply State.entryRead_keeps
    | with_reducible apply keeps_ite | split

theorem State.dirAccess_keeps {s0 s : State} (h : Keeps s0 s) (h : HIdx) : Keeps s0 (s.dirAccess h) := by
  unfold State.dirAccess
  iterate 150 all_goals try first
    | (intro) | with_reducible assumption | with_reducible exact Keeps.refl _
    | (extract_lets +onlyGivenNames -lift t; first | (refine keeps_cut (P := Keeps s0 t) (fun ht => ?_) ?_; clear_value t; rotate_left; dsimp -zeta only [t]; try clear t; rotate_right) | (refine keeps_cut (P := Keeps s0 t.1) (fun ht => ?_) ?_; clear_value t; rotate_left; dsimp -zeta only [t]; try clear t; rotate_right) | clear_value t)
    | with_reducible apply State.dirProbe_keeps | with_reducible apply State.ev_keeps | with_reducible apply State.dirStop_keeps | with_reducible apply State.extRead_keeps
    | with_reducible apply keeps_ite | with_reducible apply keeps_foldl | (apply_assumption -exfalso -symm) | simp only [keeps_upd] | split

theorem State.sweepRef_keeps {s0 s : State} (h : Keeps s0 s) (pos : Nat) : Keeps s0 (s.sweepRef pos) := by
  unfold State.sweepRef
  iterate 150 all_goals try first
    | (intro) | with_reducible assumption | with_reducible exact Keeps.refl _
    | (extract_lets +onlyGivenNames -lift t; first | (refine keeps_cut (P := Keeps s0 t) (fun ht => ?_) ?_; clear_value t; rotate_left; dsimp -zeta only [t]; try clear t; rotate_right) | (refine keeps_cut (P := Keeps s0 t.1) (fun ht => ?_) ?_; clear_value t; rotate_left; dsimp -zeta only [t]; try clear t; rotate_right) | clear_value t)
    | with_reducible apply keeps_ite | with_reducible apply keeps_foldl | (apply_assumption -exfalso -symm) | simp only [keeps_upd] | split

theorem State.freeExt_keeps {s0 s : State} (h : Keeps s0 s) (sh : Sharers) : Keeps s0 (s.freeExt sh) := by
  unfold State.freeExt
  iterate 150 all_goals try first
    | (intro) | with_reducible assumption | with_reducible exact Keeps.refl _
    | (extract_lets +onlyGivenNames -lift t; first | (refine keeps_cut (P := Keeps s0 t) (fun ht => ?_) ?_; clear_value t; rotate_left; dsimp -zeta only [t]; try clear t; rotate_right) | (refine keeps_cut (P := Keeps s0 t.1) (fun ht => ?_) ?_; clear_value t; rotate_left; dsimp -zeta only [t]; try clear t; rotate_right) | clear_value t)
    | with_reducible apply keeps_ite | simp only [keeps_upd] | split

theorem State.allocExt_keeps {s0 s : State} {e : Ext} {t : State} {x : Nat} (eq : s.allocExt e = some (t, x)) (h : Keeps s0 s) :
    Keeps s0 t := by
  unfold State.allocExt at eq
  repeat' split at eq
  all_goals first
    | (cases eq; done)
    | (cases eq; apply State.setFld_keeps; simp only [keeps_upd]; exact h)

theorem State.freeEntry_keeps {s0 s : State} (h : Keeps s0 s) (k : Nat) : Keeps s0 (s.freeEntry k) := by
  unfold State.freeEntry
  iterate 150 all_goals try first
    | (intro) | with_reducible assumption | with_reducible exact Keeps.refl _
    | (extract_lets +onlyGivenNames -lift t; first | (refine keeps_cut (P := Keeps s0 t) (fun ht => ?_) ?_; clear_value t; rotate_left; dsimp -zeta only [t]; try clear t; rotate_right) | (refine keeps_cut (P := Keeps s0 t.1) (fun ht => ?_) ?_; clear_value t; rotate_left; dsimp -zeta only [t]; try clear t; rotate_right) | clear_value t)
    | with_reducible apply State.freeExt_keeps
    | with_reducible apply keeps_ite | simp only [keeps_upd] | split

theorem State.putEntry_keeps {s0 s : State} (h : Keeps s0 s) (k : Nat) (e : DirEntry) : Keeps s0 (s.putEntry k e) := by
  unfold State.putEntry
  iterate 150 all_goals try first
    | with_reducible assumption | with_reducible exact Keeps.refl _
    | (extract_lets +onlyGivenNames -lift t; first | (refine keeps_cut (P := Keeps s0 t) (fun ht => ?_) ?_; clear_value t; rotate_left; dsimp -zeta only [t]; try clear t; rotate_right) | (refine keeps_cut (P := Keeps s0 t.1) (fun ht => ?_) ?_; clear_value t; rotate_left; dsimp -zeta only [t]; try clear t; rotate_right) | clear_value t)
    | with_reducible apply keeps_ite | simp only [keeps_upd] | split

theorem State.putX_keeps {s0 s : State} (h : Keeps s0 s) (k : Nat) (h : HIdx) (q : EpId) : Keeps s0 (s.putX k h q) := by
  unfold State.putX
  iterate 150 all_goals try first
    | (intro) | with_reducible assumption | with_reducible exact Keeps.refl _
    | (extract_lets +onlyGivenNames -lift t; first | (refine keeps_cut (P := Keeps s0 t) (fun ht => ?_) ?_; clear_value t; rotate_left; dsimp -zeta only [t]; try clear t; rotate_right) | (refine keeps_cut (P := Keeps s0 t.1) (fun ht => ?_) ?_; clear_value t; rotate_left; dsimp -zeta only [t]; try clear t; rotate_right) | clear_value t)
    | with_reducible apply State.freeEntry_keeps | with_reducible apply State.putEntry_keeps
    | with_reducible apply keeps_ite | split

theorem State.addSharer_keeps {s0 s : State} (h : Keeps s0 s) (k : Nat) (h : HIdx) (e : DirEntry) (st : DState) (own : Option EpId) (q : EpId) : Keeps s0 (s.addSharer k h e st own q).1 := by
  unfold State.addSharer
  iterate 150 all_goals try first
    | (intro) | with_reducible assumption | with_reducible exact Keeps.refl _
    | (extract_lets +onlyGivenNames -lift t; first | (refine keeps_cut (P := Keeps s0 t) (fun ht => ?_) ?_; clear_value t; rotate_left; dsimp -zeta only [t]; try clear t; rotate_right) | (refine keeps_cut (P := Keeps s0 t.1) (fun ht => ?_) ?_; clear_value t; rotate_left; dsimp -zeta only [t]; try clear t; rotate_right) | (refine keeps_cut (P := ∀ u a, Keeps s0 u → Keeps s0 (t u a)) (fun ht => ?_) ?_; clear_value t; rotate_left; dsimp -zeta only [t]; try clear t; rotate_right) | (refine keeps_cut (P := ∀ u, Keeps s0 u → Keeps s0 (t u)) (fun ht => ?_) ?_; clear_value t; rotate_left; dsimp -zeta only [t]; try clear t; rotate_right) | (refine keeps_cut (P := ∀ u, Keeps s0 u → Keeps s0 (t u).1) (fun ht => ?_) ?_; clear_value t; rotate_left; dsimp -zeta only [t]; try clear t; rotate_right) | clear_value t)
    | with_reducible apply State.putEntry_keeps | with_reducible apply State.freeExt_keeps | with_reducible apply State.ev_keeps | (refine State.allocExt_keeps (by assumption) ?_)
    | with_reducible apply keeps_ite | (apply_assumption -exfalso -symm) | simp only [keeps_upd] | split
theorem State.addSharer_keeps_eq {s0 s : State} {k : Nat} {h : HIdx} {e : DirEntry} {st : DState} {own : Option EpId} {q : EpId} {p : State × (Option EpId)} (e : s.addSharer k h e st own q = p) (h : Keeps s0 s) : Keeps s0 p.1 := e ▸ State.addSharer_keeps h _ _ _ _ _ _

theorem State.setExact_keeps {s0 s : State} (h : Keeps s0 s) (k : Nat) (h : HIdx) (e : DirEntry) (own : Option EpId) (keep : EpId → Bool) : Keeps s0 (s.setExact k h e own keep) := by
  unfold State.setExact
  iterate 150 all_goals try first
    | (intro) | with_reducible assumption | with_reducible exact Keeps.refl _
    | (extract_lets +onlyGivenNames -lift t; first | (refine keeps_cut (P := Keeps s0 t) (fun ht => ?_) ?_; clear_value t; rotate_left; dsimp -zeta only [t]; try clear t; rotate_right) | (refine keeps_cut (P := Keeps s0 t.1) (fun ht => ?_) ?_; clear_value t; rotate_left; dsimp -zeta only [t]; try clear t; rotate_right) | clear_value t)
    | with_reducible apply State.freeEntry_keeps | with_reducible apply State.freeExt_keeps | with_reducible apply State.putEntry_keeps | with_reducible apply State.ev_keeps
    | with_reducible apply keeps_ite | (apply_assumption -exfalso -symm) | simp only [keeps_upd] | split

theorem State.dropOwner_keeps {s0 s : State} (h : Keeps s0 s) (k : Nat) (h : HIdx) (e : DirEntry) : Keeps s0 (s.dropOwner k h e) := by
  unfold State.dropOwner
  iterate 150 all_goals try first
    | (intro) | with_reducible assumption | with_reducible exact Keeps.refl _
    | (extract_lets +onlyGivenNames -lift t; first | (refine keeps_cut (P := Keeps s0 t) (fun ht => ?_) ?_; clear_value t; rotate_left; dsimp -zeta only [t]; try clear t; rotate_right) | (refine keeps_cut (P := Keeps s0 t.1) (fun ht => ?_) ?_; clear_value t; rotate_left; dsimp -zeta only [t]; try clear t; rotate_right) | clear_value t)
    | with_reducible apply State.putEntry_keeps | with_reducible apply State.setExact_keeps
    | with_reducible apply keeps_ite | (apply_assumption -exfalso -symm) | simp only [keeps_upd] | split

theorem State.purgeId_keeps {s0 s : State} (h : Keeps s0 s) (k : Nat) (id : EpId) : Keeps s0 (s.purgeId k id) := by
  unfold State.purgeId
  iterate 150 all_goals try first
    | (intro) | with_reducible assumption | with_reducible exact Keeps.refl _
    | (extract_lets +onlyGivenNames -lift t; first | (refine keeps_cut (P := Keeps s0 t) (fun ht => ?_) ?_; clear_value t; rotate_left; dsimp -zeta only [t]; try clear t; rotate_right) | (refine keeps_cut (P := Keeps s0 t.1) (fun ht => ?_) ?_; clear_value t; rotate_left; dsimp -zeta only [t]; try clear t; rotate_right) | clear_value t)
    | with_reducible apply State.declare_keeps | with_reducible apply State.freeEntry_keeps | with_reducible apply State.ev_keeps | with_reducible apply State.setExact_keeps
    | with_reducible apply keeps_ite | (apply_assumption -exfalso -symm) | simp only [keeps_upd] | split

theorem State.purgeEntry_keeps {s0 s : State} (h : Keeps s0 s) (k : Nat) : Keeps s0 (s.purgeEntry k) := by
  unfold State.purgeEntry
  iterate 150 all_goals try first
    | (intro) | with_reducible assumption | with_reducible exact Keeps.refl _
    | with_reducible apply State.purgeId_keeps
    | with_reducible apply keeps_ite | with_reducible apply keeps_foldl | (apply_assumption -exfalso -symm) | split


end Sys2Proof.Machine
end

