-- ==== Sys2Proof/Laws/KeepsYard.lean ====
section
/-! SUPPORT. Every named operation of Machine/Yard.lean keeps what `Keeps` names. -/

set_option linter.unusedTactic false
set_option linter.unreachableTactic false
set_option linter.unusedVariables false
set_option linter.tactic.unusedName false

namespace Sys2Proof.Machine

theorem State.openStall_keeps {s0 s : State} (h : Keeps s0 s) (i : Nat) (t : Stall) : Keeps s0 (s.openStall i t) := by
  unfold State.openStall
  iterate 150 all_goals try first
    | (intro) | with_reducible assumption | with_reducible exact Keeps.refl _
    | (extract_lets +onlyGivenNames -lift t; first | (refine keeps_cut (P := Keeps s0 t) (fun ht => ?_) ?_; clear_value t; rotate_left; dsimp -zeta only [t]; try clear t; rotate_right) | (refine keeps_cut (P := Keeps s0 t.1) (fun ht => ?_) ?_; clear_value t; rotate_left; dsimp -zeta only [t]; try clear t; rotate_right) | clear_value t)
    | with_reducible apply State.maxFld_keeps
    | with_reducible apply keeps_ite | simp only [keeps_upd] | split

theorem State.giveBack_keeps {s0 s : State} (h : Keeps s0 s) (i : Nat) : Keeps s0 (s.giveBack i) := by
  unfold State.giveBack
  iterate 150 all_goals try first
    | (intro) | with_reducible assumption | with_reducible exact Keeps.refl _
    | (extract_lets +onlyGivenNames -lift t; first | (refine keeps_cut (P := Keeps s0 t) (fun ht => ?_) ?_; clear_value t; rotate_left; dsimp -zeta only [t]; try clear t; rotate_right) | (refine keeps_cut (P := Keeps s0 t.1) (fun ht => ?_) ?_; clear_value t; rotate_left; dsimp -zeta only [t]; try clear t; rotate_right) | clear_value t)
    | with_reducible apply keeps_ite | (apply_assumption -exfalso -symm) | simp only [keeps_upd] | split

theorem State.freeStall_keeps {s0 s : State} (h : Keeps s0 s) (i : Nat) : Keeps s0 (s.freeStall i) := by
  unfold State.freeStall
  iterate 150 all_goals try first
    | with_reducible assumption | with_reducible exact Keeps.refl _
    | (extract_lets +onlyGivenNames -lift t; first | (refine keeps_cut (P := Keeps s0 t) (fun ht => ?_) ?_; clear_value t; rotate_left; dsimp -zeta only [t]; try clear t; rotate_right) | (refine keeps_cut (P := Keeps s0 t.1) (fun ht => ?_) ?_; clear_value t; rotate_left; dsimp -zeta only [t]; try clear t; rotate_right) | clear_value t)
    | with_reducible apply State.giveBack_keeps
    | with_reducible apply keeps_ite | simp only [keeps_upd] | split

theorem State.inkReserve_keeps {s0 s : State} (h : Keeps s0 s) (slot : Nat) (h : HIdx) : Keeps s0 (s.inkReserve slot h) := by
  unfold State.inkReserve
  iterate 150 all_goals try first
    | (intro) | with_reducible assumption | with_reducible exact Keeps.refl _
    | (extract_lets +onlyGivenNames -lift t; first | (refine keeps_cut (P := Keeps s0 t) (fun ht => ?_) ?_; clear_value t; rotate_left; dsimp -zeta only [t]; try clear t; rotate_right) | (refine keeps_cut (P := Keeps s0 t.1) (fun ht => ?_) ?_; clear_value t; rotate_left; dsimp -zeta only [t]; try clear t; rotate_right) | clear_value t)
    | with_reducible apply State.maxFld_keeps
    | with_reducible apply keeps_ite | simp only [keeps_upd] | split

theorem State.inkDrop_keeps {s0 s : State} (h : Keeps s0 s) (slot : Nat) : Keeps s0 (s.inkDrop slot) := by
  unfold State.inkDrop
  iterate 150 all_goals try first
    | with_reducible assumption | with_reducible exact Keeps.refl _
    | (extract_lets +onlyGivenNames -lift t; first | (refine keeps_cut (P := Keeps s0 t) (fun ht => ?_) ?_; clear_value t; rotate_left; dsimp -zeta only [t]; try clear t; rotate_right) | (refine keeps_cut (P := Keeps s0 t.1) (fun ht => ?_) ?_; clear_value t; rotate_left; dsimp -zeta only [t]; try clear t; rotate_right) | clear_value t)
    | with_reducible apply keeps_ite | simp only [keeps_upd] | split

theorem State.copySkip_keeps {s0 s : State} (h : Keeps s0 s) (h : HIdx) : Keeps s0 (s.copySkip h) := by
  unfold State.copySkip
  iterate 150 all_goals try first
    | (intro) | with_reducible assumption | with_reducible exact Keeps.refl _
    | (extract_lets +onlyGivenNames -lift t; first | (refine keeps_cut (P := Keeps s0 t) (fun ht => ?_) ?_; clear_value t; rotate_left; dsimp -zeta only [t]; try clear t; rotate_right) | (refine keeps_cut (P := Keeps s0 t.1) (fun ht => ?_) ?_; clear_value t; rotate_left; dsimp -zeta only [t]; try clear t; rotate_right) | clear_value t)
    | with_reducible apply keeps_ite | (apply_assumption -exfalso -symm) | simp only [keeps_upd] | split

theorem State.inkFill_keeps {s0 s : State} (h : Keeps s0 s) (slot : Nat) (d : LineData) (ids : List EpId) (cps : List (Nat × BitVec 16)) : Keeps s0 (s.inkFill slot d ids cps) := by
  unfold State.inkFill
  iterate 150 all_goals try first
    | (intro) | with_reducible assumption | with_reducible exact Keeps.refl _
    | (extract_lets +onlyGivenNames -lift t; first | (refine keeps_cut (P := Keeps s0 t) (fun ht => ?_) ?_; clear_value t; rotate_left; dsimp -zeta only [t]; try clear t; rotate_right) | (refine keeps_cut (P := Keeps s0 t.1) (fun ht => ?_) ?_; clear_value t; rotate_left; dsimp -zeta only [t]; try clear t; rotate_right) | clear_value t)
    | with_reducible apply State.copySkip_keeps | with_reducible apply State.addFld_keeps | with_reducible apply State.evN_keeps
    | with_reducible apply keeps_ite | with_reducible apply keeps_foldl | (apply_assumption -exfalso -symm) | simp only [keeps_upd] | split

theorem State.inkWait_keeps {s0 s : State} (h : Keeps s0 s) (slot i : Nat) : Keeps s0 (s.inkWait slot i) := by
  unfold State.inkWait
  iterate 150 all_goals try first
    | (intro) | with_reducible assumption | with_reducible exact Keeps.refl _
    | (extract_lets +onlyGivenNames -lift t; first | (refine keeps_cut (P := Keeps s0 t) (fun ht => ?_) ?_; clear_value t; rotate_left; dsimp -zeta only [t]; try clear t; rotate_right) | (refine keeps_cut (P := Keeps s0 t.1) (fun ht => ?_) ?_; clear_value t; rotate_left; dsimp -zeta only [t]; try clear t; rotate_right) | clear_value t)
    | with_reducible apply keeps_ite | (apply_assumption -exfalso -symm) | simp only [keeps_upd] | split

theorem State.inkRead_keeps {s0 s : State} (h : Keeps s0 s) (slot : Nat) : Keeps s0 (s.inkRead slot).1 := by
  unfold State.inkRead
  iterate 150 all_goals try first
    | (intro) | with_reducible assumption | with_reducible exact Keeps.refl _
    | (extract_lets +onlyGivenNames -lift t; first | (refine keeps_cut (P := Keeps s0 t) (fun ht => ?_) ?_; clear_value t; rotate_left; dsimp -zeta only [t]; try clear t; rotate_right) | (refine keeps_cut (P := Keeps s0 t.1) (fun ht => ?_) ?_; clear_value t; rotate_left; dsimp -zeta only [t]; try clear t; rotate_right) | clear_value t)
    | with_reducible apply State.setFlag_keeps | with_reducible apply State.note_keeps | with_reducible apply State.declare_keeps | with_reducible apply State.addFld_keeps | with_reducible apply State.evN_keeps | with_reducible apply State.ev_keeps
    | with_reducible apply keeps_ite | simp only [keeps_upd] | split
theorem State.inkRead_keeps_eq {s0 s : State} {slot : Nat} {p : State × LineData} (e : s.inkRead slot = p) (h : Keeps s0 s) : Keeps s0 p.1 := e ▸ State.inkRead_keeps h _

theorem State.readTicket_keeps {s0 s : State} (h : Keeps s0 s) (n : BitVec 16) : Keeps s0 (s.readTicket n) := by
  unfold State.readTicket
  iterate 150 all_goals try first
    | with_reducible assumption | with_reducible exact Keeps.refl _
    | with_reducible apply State.probe_keeps
    | with_reducible apply keeps_ite | split

theorem State.issue_keeps {s0 s : State} (h : Keeps s0 s) (r : Req) (lines : List LineAddr) (held : List Nat) (owed : Nat) : Keeps s0 (s.issue r lines held owed).1 := by
  unfold State.issue
  iterate 150 all_goals try first
    | (intro) | with_reducible assumption | with_reducible exact Keeps.refl _
    | (extract_lets +onlyGivenNames -lift t; first | (refine keeps_cut (P := Keeps s0 t) (fun ht => ?_) ?_; clear_value t; rotate_left; dsimp -zeta only [t]; try clear t; rotate_right) | (refine keeps_cut (P := Keeps s0 t.1) (fun ht => ?_) ?_; clear_value t; rotate_left; dsimp -zeta only [t]; try clear t; rotate_right) | clear_value t)
    | with_reducible apply State.ev_keeps
    | with_reducible apply keeps_ite | simp only [keeps_upd] | split
theorem State.issue_keeps_eq {s0 s : State} {r : Req} {lines : List LineAddr} {held : List Nat} {owed : Nat} {p : State × (BitVec 16)} (e : s.issue r lines held owed = p) (h : Keeps s0 s) : Keeps s0 p.1 := e ▸ State.issue_keeps h _ _ _ _

theorem State.respEv_keeps {s0 s : State} (h : Keeps s0 s) (kind : Nat) (r : Req) : Keeps s0 (s.respEv kind r) := by
  unfold State.respEv
  iterate 150 all_goals try first
    | (intro) | with_reducible assumption | with_reducible exact Keeps.refl _
    | (extract_lets +onlyGivenNames -lift t; first | (refine keeps_cut (P := Keeps s0 t) (fun ht => ?_) ?_; clear_value t; rotate_left; dsimp -zeta only [t]; try clear t; rotate_right) | (refine keeps_cut (P := Keeps s0 t.1) (fun ht => ?_) ?_; clear_value t; rotate_left; dsimp -zeta only [t]; try clear t; rotate_right) | clear_value t)
    | with_reducible apply State.ev_keeps
    | with_reducible apply keeps_ite | split

theorem State.sendRetry_keeps {s0 s : State} (h : Keeps s0 s) (r : Req) (tkt : BitVec 16) (hint : Nat) (acc : Tod) : Keeps s0 (s.sendRetry r tkt hint acc) := by
  unfold State.sendRetry
  iterate 150 all_goals try first
    | (intro) | with_reducible assumption | with_reducible exact Keeps.refl _
    | (extract_lets +onlyGivenNames -lift t; first | (refine keeps_cut (P := Keeps s0 t) (fun ht => ?_) ?_; clear_value t; rotate_left; dsimp -zeta only [t]; try clear t; rotate_right) | (refine keeps_cut (P := Keeps s0 t.1) (fun ht => ?_) ?_; clear_value t; rotate_left; dsimp -zeta only [t]; try clear t; rotate_right) | (refine keeps_cut (P := ∀ u a, Keeps s0 u → Keeps s0 (t u a)) (fun ht => ?_) ?_; clear_value t; rotate_left; dsimp -zeta only [t]; try clear t; rotate_right) | (refine keeps_cut (P := ∀ u, Keeps s0 u → Keeps s0 (t u)) (fun ht => ?_) ?_; clear_value t; rotate_left; dsimp -zeta only [t]; try clear t; rotate_right) | (refine keeps_cut (P := ∀ u, Keeps s0 u → Keeps s0 (t u).1) (fun ht => ?_) ?_; clear_value t; rotate_left; dsimp -zeta only [t]; try clear t; rotate_right) | clear_value t)
    | with_reducible apply State.addFld_keeps | with_reducible apply State.respEv_keeps | with_reducible apply State.tell_keeps
    | with_reducible apply keeps_ite | (apply_assumption -exfalso -symm) | simp only [keeps_upd] | split

theorem State.retryFull_keeps {s0 s : State} (h : Keeps s0 s) (r : Req) (lines : List LineAddr) (held : List Nat) (owed : Nat) (tk : Option Nat) (acc : Tod) : Keeps s0 (s.retryFull r lines held owed tk acc) := by
  unfold State.retryFull
  iterate 150 all_goals try first
    | (intro) | with_reducible assumption | with_reducible exact Keeps.refl _
    | (extract_lets +onlyGivenNames -lift t; first | (refine keeps_cut (P := Keeps s0 t) (fun ht => ?_) ?_; clear_value t; rotate_left; dsimp -zeta only [t]; try clear t; rotate_right) | (refine keeps_cut (P := Keeps s0 t.1) (fun ht => ?_) ?_; clear_value t; rotate_left; dsimp -zeta only [t]; try clear t; rotate_right) | clear_value t)
    | with_reducible apply State.addFld_keeps | with_reducible apply State.respEv_keeps | with_reducible apply State.sendRetry_keeps | with_reducible apply State.issue_keeps | (refine State.issue_keeps_eq (p := (_, _)) (by assumption) ?_) | with_reducible apply State.giveBack_keeps
    | with_reducible apply keeps_ite | with_reducible apply keeps_foldl | (apply_assumption -exfalso -symm) | simp only [keeps_upd] | split

theorem State.penPut_keeps {s0 s : State} (h : Keeps s0 s) (k i reason : Nat) (h : HIdx) (tkt : Option Nat) (seq : Nat) : Keeps s0 (s.penPut k i reason h tkt seq) := by
  unfold State.penPut
  iterate 150 all_goals try first
    | (intro) | with_reducible assumption | with_reducible exact Keeps.refl _
    | (extract_lets +onlyGivenNames -lift t; first | (refine keeps_cut (P := Keeps s0 t) (fun ht => ?_) ?_; clear_value t; rotate_left; dsimp -zeta only [t]; try clear t; rotate_right) | (refine keeps_cut (P := Keeps s0 t.1) (fun ht => ?_) ?_; clear_value t; rotate_left; dsimp -zeta only [t]; try clear t; rotate_right) | clear_value t)
    | with_reducible apply State.updStall_keeps | with_reducible apply State.maxFld_keeps
    | with_reducible apply keeps_ite | (apply_assumption -exfalso -symm) | simp only [keeps_upd] | split

theorem State.retryPen_keeps {s0 s : State} (h : Keeps s0 s) (r : Req) (lines : List LineAddr) (held : List Nat) (acc : Tod) : Keeps s0 (s.retryPen r lines held acc) := by
  unfold State.retryPen
  iterate 150 all_goals try first
    | (intro) | with_reducible assumption | with_reducible exact Keeps.refl _
    | (extract_lets +onlyGivenNames -lift t; first | (refine keeps_cut (P := Keeps s0 t) (fun ht => ?_) ?_; clear_value t; rotate_left; dsimp -zeta only [t]; try clear t; rotate_right) | (refine keeps_cut (P := Keeps s0 t.1) (fun ht => ?_) ?_; clear_value t; rotate_left; dsimp -zeta only [t]; try clear t; rotate_right) | clear_value t)
    | with_reducible apply State.addFld_keeps | with_reducible apply State.respEv_keeps | with_reducible apply State.issue_keeps | with_reducible apply State.giveBack_keeps | with_reducible apply State.sendRetry_keeps
    | with_reducible apply keeps_ite | with_reducible apply keeps_foldl | (apply_assumption -exfalso -symm) | split


end Sys2Proof.Machine
end

