-- ==== Sys2Proof/Laws/KeepsAlc.lean ====
section
/-! SUPPORT. Every named operation of Machine/Alc.lean keeps what `Keeps` names. -/

set_option linter.unusedTactic false
set_option linter.unreachableTactic false
set_option linter.unusedVariables false
set_option linter.tactic.unusedName false

namespace Sys2Proof.Machine

theorem State.alcPut_keeps {s0 s : State} (h : Keeps s0 s) (k : Nat) (e : AlcEntry) : Keeps s0 (s.alcPut k e) := by
  unfold State.alcPut
  iterate 150 all_goals try first
    | with_reducible assumption | with_reducible exact Keeps.refl _
    | (extract_lets +onlyGivenNames -lift t; first | (refine keeps_cut (P := Keeps s0 t) (fun ht => ?_) ?_; clear_value t; rotate_left; dsimp -zeta only [t]; try clear t; rotate_right) | (refine keeps_cut (P := Keeps s0 t.1) (fun ht => ?_) ?_; clear_value t; rotate_left; dsimp -zeta only [t]; try clear t; rotate_right) | clear_value t)
    | with_reducible apply keeps_ite | simp only [keeps_upd] | split

theorem State.alcFree_keeps {s0 s : State} (h : Keeps s0 s) (k : Nat) : Keeps s0 (s.alcFree k) := by
  unfold State.alcFree
  iterate 150 all_goals try first
    | with_reducible assumption | with_reducible exact Keeps.refl _
    | (extract_lets +onlyGivenNames -lift t; first | (refine keeps_cut (P := Keeps s0 t) (fun ht => ?_) ?_; clear_value t; rotate_left; dsimp -zeta only [t]; try clear t; rotate_right) | (refine keeps_cut (P := Keeps s0 t.1) (fun ht => ?_) ?_; clear_value t; rotate_left; dsimp -zeta only [t]; try clear t; rotate_right) | clear_value t)
    | with_reducible apply keeps_ite | simp only [keeps_upd] | split

theorem State.alcGive_keeps {s0 s : State} (h : Keeps s0 s) (k : Nat) : Keeps s0 (s.alcGive k) := by
  unfold State.alcGive
  iterate 150 all_goals try first
    | (intro) | with_reducible assumption | with_reducible exact Keeps.refl _
    | (extract_lets +onlyGivenNames -lift t; first | (refine keeps_cut (P := Keeps s0 t) (fun ht => ?_) ?_; clear_value t; rotate_left; dsimp -zeta only [t]; try clear t; rotate_right) | (refine keeps_cut (P := Keeps s0 t.1) (fun ht => ?_) ?_; clear_value t; rotate_left; dsimp -zeta only [t]; try clear t; rotate_right) | clear_value t)
    | with_reducible apply State.alcPut_keeps | with_reducible apply State.alcFree_keeps
    | with_reducible apply keeps_ite | simp only [keeps_upd] | split

theorem State.alcSweep_keeps {s0 s : State} (h : Keeps s0 s) : Keeps s0 (s.alcSweep) := by
  unfold State.alcSweep
  iterate 150 all_goals try first
    | (intro) | with_reducible assumption | with_reducible exact Keeps.refl _
    | (extract_lets +onlyGivenNames -lift t; first | (refine keeps_cut (P := Keeps s0 t) (fun ht => ?_) ?_; clear_value t; rotate_left; dsimp -zeta only [t]; try clear t; rotate_right) | (refine keeps_cut (P := Keeps s0 t.1) (fun ht => ?_) ?_; clear_value t; rotate_left; dsimp -zeta only [t]; try clear t; rotate_right) | clear_value t)
    | with_reducible apply keeps_ite | with_reducible apply keeps_foldl | (apply_assumption -exfalso -symm) | simp only [keeps_upd] | split

theorem State.alcLoc_keeps {s0 s : State} (h : Keeps s0 s) (k w src : Nat) (freeze : Bool) : Keeps s0 (s.alcLoc k w src freeze) := by
  unfold State.alcLoc
  iterate 150 all_goals try first
    | with_reducible assumption | with_reducible exact Keeps.refl _
    | with_reducible apply State.setReg_keeps
    | with_reducible apply keeps_ite | split

theorem State.alcTag_keeps {s0 s : State} (h : Keeps s0 s) (k : Nat) : Keeps s0 (s.alcTag k) := by
  unfold State.alcTag
  iterate 150 all_goals try first
    | (intro) | with_reducible assumption | with_reducible exact Keeps.refl _
    | with_reducible apply State.mend_keeps | with_reducible apply State.addFld_keeps | with_reducible apply State.alcLoc_keeps | with_reducible apply State.ev_keeps | with_reducible apply State.note_keeps | with_reducible apply State.declare_keeps | with_reducible apply State.setFlag_keeps
    | with_reducible apply keeps_ite | split

theorem State.alcTags_keeps {s0 s : State} (h : Keeps s0 s) : Keeps s0 (s.alcTags) := by
  unfold State.alcTags
  iterate 150 all_goals try first
    | (intro) | with_reducible assumption | with_reducible exact Keeps.refl _
    | with_reducible apply State.alcTag_keeps
    | with_reducible apply keeps_ite | with_reducible apply keeps_foldl | (apply_assumption -exfalso -symm) | split

theorem State.alcLookup_keeps {s0 s : State} (h : Keeps s0 s) : Keeps s0 (s.alcLookup) := by
  unfold State.alcLookup
  iterate 150 all_goals try first
    | with_reducible assumption | with_reducible exact Keeps.refl _
    | with_reducible apply State.alcTags_keeps
    | with_reducible apply keeps_ite | split

theorem State.alcRead_keeps {s0 s : State} (h : Keeps s0 s) (k : Nat) : Keeps s0 (s.alcRead k).1 := by
  unfold State.alcRead
  iterate 150 all_goals try first
    | (intro) | with_reducible assumption | with_reducible exact Keeps.refl _
    | (extract_lets +onlyGivenNames -lift t; first | (refine keeps_cut (P := Keeps s0 t) (fun ht => ?_) ?_; clear_value t; rotate_left; dsimp -zeta only [t]; try clear t; rotate_right) | (refine keeps_cut (P := Keeps s0 t.1) (fun ht => ?_) ?_; clear_value t; rotate_left; dsimp -zeta only [t]; try clear t; rotate_right) | clear_value t)
    | with_reducible apply State.addFld_keeps | with_reducible apply State.alcLoc_keeps | with_reducible apply State.evN_keeps | with_reducible apply State.note_keeps | with_reducible apply State.ev_keeps | with_reducible apply State.alcPut_keeps
    | with_reducible apply keeps_ite | (apply_assumption -exfalso -symm) | simp only [keeps_upd] | split
theorem State.alcRead_keeps_eq {s0 s : State} {k : Nat} {p : State × LineData} (e : s.alcRead k = p) (h : Keeps s0 s) : Keeps s0 p.1 := e ▸ State.alcRead_keeps h _

theorem State.alcEvict_keeps {s0 s : State} (h : Keeps s0 s) (k : Nat) (dirty : Bool) (slot : Option Nat) (kind : Nat) : Keeps s0 (s.alcEvict k dirty slot kind) := by
  unfold State.alcEvict
  iterate 150 all_goals try first
    | (intro) | with_reducible assumption | with_reducible exact Keeps.refl _
    | (extract_lets +onlyGivenNames -lift t; first | (refine keeps_cut (P := Keeps s0 t) (fun ht => ?_) ?_; clear_value t; rotate_left; dsimp -zeta only [t]; try clear t; rotate_right) | (refine keeps_cut (P := Keeps s0 t.1) (fun ht => ?_) ?_; clear_value t; rotate_left; dsimp -zeta only [t]; try clear t; rotate_right) | clear_value t)
    | with_reducible apply State.inkReserve_keeps | with_reducible apply State.alcFree_keeps
    | with_reducible apply keeps_ite | simp only [keeps_upd] | split


end Sys2Proof.Machine
end

