-- ==== Sys2Proof/Laws/KeepsTxn.lean ====
section
/-! SUPPORT. Every named operation of Machine/Txn.lean keeps what `Keeps` names. -/

set_option linter.unusedTactic false
set_option linter.unreachableTactic false
set_option linter.unusedVariables false
set_option linter.tactic.unusedName false

namespace Sys2Proof.Machine

theorem State.setMp_keeps {s0 s : State} (h : Keeps s0 s) (n : Nat) (p : MpSt) : Keeps s0 (s.setMp n p) := by
  unfold State.setMp
  iterate 150 all_goals try first
    | with_reducible assumption | with_reducible exact Keeps.refl _
    | (extract_lets +onlyGivenNames -lift t; first | (refine keeps_cut (P := Keeps s0 t) (fun ht => ?_) ?_; clear_value t; rotate_left; dsimp -zeta only [t]; try clear t; rotate_right) | (refine keeps_cut (P := Keeps s0 t.1) (fun ht => ?_) ?_; clear_value t; rotate_left; dsimp -zeta only [t]; try clear t; rotate_right) | clear_value t)
    | with_reducible apply keeps_ite | simp only [keeps_upd] | split

theorem State.askRead_keeps {s0 s : State} (h : Keeps s0 s) (i : Nat) (h : HIdx) : Keeps s0 (s.askRead i h) := by
  unfold State.askRead
  iterate 150 all_goals try first
    | (intro) | with_reducible assumption | with_reducible exact Keeps.refl _
    | (extract_lets +onlyGivenNames -lift t; first | (refine keeps_cut (P := Keeps s0 t) (fun ht => ?_) ?_; clear_value t; rotate_left; dsimp -zeta only [t]; try clear t; rotate_right) | (refine keeps_cut (P := Keeps s0 t.1) (fun ht => ?_) ?_; clear_value t; rotate_left; dsimp -zeta only [t]; try clear t; rotate_right) | clear_value t)
    | with_reducible apply State.setMp_keeps | with_reducible apply State.updStall_keeps
    | with_reducible apply keeps_ite | (apply_assumption -exfalso -symm) | simp only [keeps_upd] | split

theorem State.fetch_keeps {s0 s : State} (h : Keeps s0 s) (st : Stall) : Keeps s0 (s.fetch st).1 := by
  unfold State.fetch
  iterate 150 all_goals try first
    | (intro) | with_reducible assumption | with_reducible exact Keeps.refl _
    | (extract_lets +onlyGivenNames -lift t; first | (refine keeps_cut (P := Keeps s0 t) (fun ht => ?_) ?_; clear_value t; rotate_left; dsimp -zeta only [t]; try clear t; rotate_right) | (refine keeps_cut (P := Keeps s0 t.1) (fun ht => ?_) ?_; clear_value t; rotate_left; dsimp -zeta only [t]; try clear t; rotate_right) | clear_value t)
    | with_reducible apply State.inkRead_keeps | (refine State.inkRead_keeps_eq (p := (_, _)) (by assumption) ?_) | with_reducible apply State.ev_keeps
    | with_reducible apply keeps_ite | simp only [keeps_upd] | split
theorem State.fetch_keeps_eq {s0 s : State} {st : Stall} {p : State × (Option LineData)} (e : s.fetch st = p) (h : Keeps s0 s) : Keeps s0 p.1 := e ▸ State.fetch_keeps h _

theorem State.need_keeps {s0 s : State} (h : Keeps s0 s) (i : Nat) (st : Stall) : Keeps s0 (s.need i st).1 := by
  unfold State.need
  iterate 150 all_goals try first
    | (intro) | with_reducible assumption | with_reducible exact Keeps.refl _
    | with_reducible apply State.fetch_keeps | (refine State.fetch_keeps_eq (p := (_, _)) (by assumption) ?_) | with_reducible apply State.askRead_keeps
    | with_reducible apply keeps_ite | split
theorem State.need_keeps_eq {s0 s : State} {i : Nat} {st : Stall} {p : State × (Option LineData)} (e : s.need i st = p) (h : Keeps s0 s) : Keeps s0 p.1 := e ▸ State.need_keeps h _ _

theorem State.addWait_keeps {s0 s : State} (h : Keeps s0 s) (i : Nat) (w : Wait) : Keeps s0 (s.addWait i w) := by
  unfold State.addWait
  iterate 150 all_goals try first
    | (intro) | with_reducible assumption | with_reducible exact Keeps.refl _
    | (extract_lets +onlyGivenNames -lift t; first | (refine keeps_cut (P := Keeps s0 t) (fun ht => ?_) ?_; clear_value t; rotate_left; dsimp -zeta only [t]; try clear t; rotate_right) | (refine keeps_cut (P := Keeps s0 t.1) (fun ht => ?_) ?_; clear_value t; rotate_left; dsimp -zeta only [t]; try clear t; rotate_right) | clear_value t)
    | with_reducible apply State.updStall_keeps
    | with_reducible apply keeps_ite | (apply_assumption -exfalso -symm) | simp only [keeps_upd] | split

theorem State.setWait_keeps {s0 s : State} (h : Keeps s0 s) (i : Nat) (who : EpId) (f : Wait → Wait) : Keeps s0 (s.setWait i who f) := by
  unfold State.setWait
  iterate 150 all_goals try first
    | (intro) | with_reducible assumption | with_reducible exact Keeps.refl _
    | (extract_lets +onlyGivenNames -lift t; first | (refine keeps_cut (P := Keeps s0 t) (fun ht => ?_) ?_; clear_value t; rotate_left; dsimp -zeta only [t]; try clear t; rotate_right) | (refine keeps_cut (P := Keeps s0 t.1) (fun ht => ?_) ?_; clear_value t; rotate_left; dsimp -zeta only [t]; try clear t; rotate_right) | clear_value t)
    | with_reducible apply State.updStall_keeps
    | with_reducible apply keeps_ite | (apply_assumption -exfalso -symm) | simp only [keeps_upd] | split

theorem State.snoopMsg_keeps {s0 s : State} (h : Keeps s0 s) (i : Nat) (st : Stall) (who : EpId) (op : BitVec 6) (fmode : Bool) : Keeps s0 (s.snoopMsg i st who op fmode).1 := by
  unfold State.snoopMsg
  iterate 150 all_goals try first
    | (intro) | with_reducible assumption | with_reducible exact Keeps.refl _
    | (extract_lets +onlyGivenNames -lift t; first | (refine keeps_cut (P := Keeps s0 t) (fun ht => ?_) ?_; clear_value t; rotate_left; dsimp -zeta only [t]; try clear t; rotate_right) | (refine keeps_cut (P := Keeps s0 t.1) (fun ht => ?_) ?_; clear_value t; rotate_left; dsimp -zeta only [t]; try clear t; rotate_right) | clear_value t)
    | with_reducible apply State.ev_keeps | with_reducible apply State.send_keeps | (refine State.send_keeps_eq (p := (_, _)) (by assumption) ?_) | with_reducible apply State.updStall_keeps | with_reducible apply State.noRouteNote_keeps
    | with_reducible apply keeps_ite | (apply_assumption -exfalso -symm) | simp only [keeps_upd] | split
theorem State.snoopMsg_keeps_eq {s0 s : State} {i : Nat} {st : Stall} {who : EpId} {op : BitVec 6} {fmode : Bool} {p : State × Bool} (e : s.snoopMsg i st who op fmode = p) (h : Keeps s0 s) : Keeps s0 p.1 := e ▸ State.snoopMsg_keeps h _ _ _ _ _

theorem State.snoop_keeps {s0 s : State} (h : Keeps s0 s) (i : Nat) (who : EpId) (op : BitVec 6) (fmode holder : Bool) : Keeps s0 (s.snoop i who op fmode holder) := by
  unfold State.snoop
  iterate 150 all_goals try first
    | (intro) | with_reducible assumption | with_reducible exact Keeps.refl _
    | (extract_lets +onlyGivenNames -lift t; first | (refine keeps_cut (P := Keeps s0 t) (fun ht => ?_) ?_; clear_value t; rotate_left; dsimp -zeta only [t]; try clear t; rotate_right) | (refine keeps_cut (P := Keeps s0 t.1) (fun ht => ?_) ?_; clear_value t; rotate_left; dsimp -zeta only [t]; try clear t; rotate_right) | clear_value t)
    | with_reducible apply State.addWait_keeps | with_reducible apply State.snoopMsg_keeps | (refine State.snoopMsg_keeps_eq (p := (_, _)) (by assumption) ?_) | with_reducible apply State.setWait_keeps | with_reducible apply State.ev_keeps | with_reducible apply State.declare_keeps | with_reducible apply State.updStall_keeps
    | with_reducible apply keeps_ite | (apply_assumption -exfalso -symm) | simp only [keeps_upd] | split

theorem State.relayFailNote_keeps {s0 s : State} (h : Keeps s0 s) (ri : Nat) (st : Stall) (who : EpId) (why : Nat) : Keeps s0 (s.relayFailNote ri st who why) := by
  unfold State.relayFailNote
  iterate 150 all_goals try first
    | with_reducible assumption | with_reducible exact Keeps.refl _
    | with_reducible apply State.note_keeps
    | with_reducible apply keeps_ite | split

theorem State.rlySend_keeps {s0 s : State} (h : Keeps s0 s) (ri : Nat) (st : Stall) (who : EpId) (n : Nat) : Keeps s0 (s.rlySend ri st who n) := by
  unfold State.rlySend
  iterate 150 all_goals try first
    | (intro) | with_reducible assumption | with_reducible exact Keeps.refl _
    | (extract_lets +onlyGivenNames -lift t; first | (refine keeps_cut (P := Keeps s0 t) (fun ht => ?_) ?_; clear_value t; rotate_left; dsimp -zeta only [t]; try clear t; rotate_right) | (refine keeps_cut (P := Keeps s0 t.1) (fun ht => ?_) ?_; clear_value t; rotate_left; dsimp -zeta only [t]; try clear t; rotate_right) | (refine keeps_cut (P := ∀ u a, Keeps s0 u → Keeps s0 (t u a)) (fun ht => ?_) ?_; clear_value t; rotate_left; dsimp -zeta only [t]; try clear t; rotate_right) | (refine keeps_cut (P := ∀ u, Keeps s0 u → Keeps s0 (t u)) (fun ht => ?_) ?_; clear_value t; rotate_left; dsimp -zeta only [t]; try clear t; rotate_right) | (refine keeps_cut (P := ∀ u, Keeps s0 u → Keeps s0 (t u).1) (fun ht => ?_) ?_; clear_value t; rotate_left; dsimp -zeta only [t]; try clear t; rotate_right) | clear_value t)
    | with_reducible apply State.setWait_keeps | with_reducible apply State.ev_keeps | with_reducible apply State.send_keeps | (refine State.send_keeps_eq (p := (_, _)) (by assumption) ?_) | with_reducible apply State.relayFailNote_keeps | with_reducible apply State.declare_keeps
    | with_reducible apply keeps_ite | (apply_assumption -exfalso -symm) | simp only [keeps_upd] | split

theorem State.multicast_keeps {s0 s : State} (h : Keeps s0 s) (i : Nat) (h : HIdx) (relays : List EpId) (detail : BitVec 40) : Keeps s0 (s.multicast i h relays detail) := by
  unfold State.multicast
  iterate 150 all_goals try first
    | (intro) | with_reducible assumption | with_reducible exact Keeps.refl _
    | (extract_lets +onlyGivenNames -lift t; first | (refine keeps_cut (P := Keeps s0 t) (fun ht => ?_) ?_; clear_value t; rotate_left; dsimp -zeta only [t]; try clear t; rotate_right) | (refine keeps_cut (P := Keeps s0 t.1) (fun ht => ?_) ?_; clear_value t; rotate_left; dsimp -zeta only [t]; try clear t; rotate_right) | clear_value t)
    | with_reducible apply State.openStall_keeps | with_reducible apply State.updStall_keeps | with_reducible apply State.rlySend_keeps
    | with_reducible apply keeps_ite | with_reducible apply keeps_foldl | (apply_assumption -exfalso -symm) | simp only [keeps_upd] | split

theorem State.record_keeps {s0 s : State} (h : Keeps s0 s) (st : Stall) (o : Out) (rep : Rep) (poison : Bool) : Keeps s0 (s.record st o rep poison) := by
  unfold State.record
  iterate 150 all_goals try first
    | (intro) | with_reducible assumption | with_reducible exact Keeps.refl _
    | (extract_lets +onlyGivenNames -lift t; first | (refine keeps_cut (P := Keeps s0 t) (fun ht => ?_) ?_; clear_value t; rotate_left; dsimp -zeta only [t]; try clear t; rotate_right) | (refine keeps_cut (P := Keeps s0 t.1) (fun ht => ?_) ?_; clear_value t; rotate_left; dsimp -zeta only [t]; try clear t; rotate_right) | (refine keeps_cut (P := ∀ u a, Keeps s0 u → Keeps s0 (t u a)) (fun ht => ?_) ?_; clear_value t; rotate_left; dsimp -zeta only [t]; try clear t; rotate_right) | (refine keeps_cut (P := ∀ u, Keeps s0 u → Keeps s0 (t u)) (fun ht => ?_) ?_; clear_value t; rotate_left; dsimp -zeta only [t]; try clear t; rotate_right) | (refine keeps_cut (P := ∀ u, Keeps s0 u → Keeps s0 (t u).1) (fun ht => ?_) ?_; clear_value t; rotate_left; dsimp -zeta only [t]; try clear t; rotate_right) | clear_value t)
    | with_reducible apply State.holdsRead_keeps | with_reducible apply State.putX_keeps | with_reducible apply State.ev_keeps | with_reducible apply State.putEntry_keeps | with_reducible apply State.dropOwner_keeps | with_reducible apply State.freeEntry_keeps | with_reducible apply State.addSharer_keeps | (refine State.addSharer_keeps_eq (p := (_, _)) (by assumption) ?_)
    | with_reducible apply keeps_ite | (apply_assumption -exfalso -symm) | simp only [keeps_upd] | split

theorem State.cpPumpN_keeps {s0 s : State} (h : Keeps s0 s) (fuel : Nat) : Keeps s0 (s.cpPumpN fuel) := by
  induction fuel generalizing s with
  | zero =>
    unfold State.cpPumpN
    iterate 150 all_goals try first
      | (intro) | with_reducible assumption | with_reducible exact Keeps.refl _
      | (extract_lets +onlyGivenNames -lift t; first | (refine keeps_cut (P := Keeps s0 t) (fun ht => ?_) ?_; clear_value t; rotate_left; dsimp -zeta only [t]; try clear t; rotate_right) | (refine keeps_cut (P := Keeps s0 t.1) (fun ht => ?_) ?_; clear_value t; rotate_left; dsimp -zeta only [t]; try clear t; rotate_right) | (refine keeps_cut (P := ∀ u a, Keeps s0 u → Keeps s0 (t u a)) (fun ht => ?_) ?_; clear_value t; rotate_left; dsimp -zeta only [t]; try clear t; rotate_right) | (refine keeps_cut (P := ∀ u, Keeps s0 u → Keeps s0 (t u)) (fun ht => ?_) ?_; clear_value t; rotate_left; dsimp -zeta only [t]; try clear t; rotate_right) | (refine keeps_cut (P := ∀ u, Keeps s0 u → Keeps s0 (t u).1) (fun ht => ?_) ?_; clear_value t; rotate_left; dsimp -zeta only [t]; try clear t; rotate_right) | clear_value t)
      | with_reducible apply State.respMeasured_keeps
      | with_reducible apply keeps_ite | with_reducible apply keeps_cpTx | (apply_assumption -exfalso -symm) | simp only [keeps_upd] | split
  | succ fuel ih =>
    unfold State.cpPumpN
    iterate 150 all_goals try first
      | (intro) | with_reducible assumption | with_reducible exact Keeps.refl _
      | (extract_lets +onlyGivenNames -lift t; first | (refine keeps_cut (P := Keeps s0 t) (fun ht => ?_) ?_; clear_value t; rotate_left; dsimp -zeta only [t]; try clear t; rotate_right) | (refine keeps_cut (P := Keeps s0 t.1) (fun ht => ?_) ?_; clear_value t; rotate_left; dsimp -zeta only [t]; try clear t; rotate_right) | (refine keeps_cut (P := ∀ u a, Keeps s0 u → Keeps s0 (t u a)) (fun ht => ?_) ?_; clear_value t; rotate_left; dsimp -zeta only [t]; try clear t; rotate_right) | (refine keeps_cut (P := ∀ u, Keeps s0 u → Keeps s0 (t u)) (fun ht => ?_) ?_; clear_value t; rotate_left; dsimp -zeta only [t]; try clear t; rotate_right) | (refine keeps_cut (P := ∀ u, Keeps s0 u → Keeps s0 (t u).1) (fun ht => ?_) ?_; clear_value t; rotate_left; dsimp -zeta only [t]; try clear t; rotate_right) | clear_value t)
      | with_reducible apply State.respMeasured_keeps | with_reducible apply ih
      | with_reducible apply keeps_ite | with_reducible apply keeps_cpTx | (apply_assumption -exfalso -symm) | simp only [keeps_upd] | split

theorem State.cpPump_keeps {s0 s : State} (h : Keeps s0 s) : Keeps s0 (s.cpPump) := by
  unfold State.cpPump
  iterate 150 all_goals try first
    | with_reducible assumption | with_reducible exact Keeps.refl _
    | (extract_lets +onlyGivenNames -lift t; first | (refine keeps_cut (P := Keeps s0 t) (fun ht => ?_) ?_; clear_value t; rotate_left; dsimp -zeta only [t]; try clear t; rotate_right) | (refine keeps_cut (P := Keeps s0 t.1) (fun ht => ?_) ?_; clear_value t; rotate_left; dsimp -zeta only [t]; try clear t; rotate_right) | clear_value t)
    | with_reducible apply State.cpPumpN_keeps
    | with_reducible apply keeps_ite | simp only [keeps_upd] | split

theorem State.cpAdvance_keeps {s0 s : State} (h : Keeps s0 s) (st : Nat) : Keeps s0 (s.cpAdvance st) := by
  unfold State.cpAdvance
  iterate 150 all_goals try first
    | (intro) | with_reducible assumption | with_reducible exact Keeps.refl _
    | (extract_lets +onlyGivenNames -lift t; first | (refine keeps_cut (P := Keeps s0 t) (fun ht => ?_) ?_; clear_value t; rotate_left; dsimp -zeta only [t]; try clear t; rotate_right) | (refine keeps_cut (P := Keeps s0 t.1) (fun ht => ?_) ?_; clear_value t; rotate_left; dsimp -zeta only [t]; try clear t; rotate_right) | clear_value t)
    | with_reducible apply State.setFld_keeps | with_reducible apply State.ev_keeps | with_reducible apply State.cpPump_keeps
    | with_reducible apply keeps_ite | with_reducible apply keeps_foldl | (apply_assumption -exfalso -symm) | simp only [keeps_upd] | split

theorem State.cpRespond_keeps {s0 s : State} (h : Keeps s0 s) (x : CpRsp) (acc : Option Tod) : Keeps s0 (s.cpRespond x acc) := by
  unfold State.cpRespond
  iterate 150 all_goals try first
    | with_reducible assumption | with_reducible exact Keeps.refl _
    | (extract_lets +onlyGivenNames -lift t; first | (refine keeps_cut (P := Keeps s0 t) (fun ht => ?_) ?_; clear_value t; rotate_left; dsimp -zeta only [t]; try clear t; rotate_right) | (refine keeps_cut (P := Keeps s0 t.1) (fun ht => ?_) ?_; clear_value t; rotate_left; dsimp -zeta only [t]; try clear t; rotate_right) | clear_value t)
    | with_reducible apply State.cpPump_keeps
    | with_reducible apply keeps_ite | simp only [keeps_upd] | split

theorem State.doClose_keeps {s0 s : State} (h : Keeps s0 s) (i : Nat) (t : Stall) : Keeps s0 (s.doClose i t) := by
  unfold State.doClose
  iterate 150 all_goals try first
    | (intro) | with_reducible assumption | with_reducible exact Keeps.refl _
    | (extract_lets +onlyGivenNames -lift t; first | (refine keeps_cut (P := Keeps s0 t) (fun ht => ?_) ?_; clear_value t; rotate_left; dsimp -zeta only [t]; try clear t; rotate_right) | (refine keeps_cut (P := Keeps s0 t.1) (fun ht => ?_) ?_; clear_value t; rotate_left; dsimp -zeta only [t]; try clear t; rotate_right) | clear_value t)
    | with_reducible apply State.holdsRead_keeps | with_reducible apply State.purgeEntry_keeps | with_reducible apply State.inkDrop_keeps | with_reducible apply State.freeStall_keeps | with_reducible apply State.setFld_keeps
    | with_reducible apply keeps_ite | (apply_assumption -exfalso -symm) | simp only [keeps_upd] | split

theorem State.cpDrain_keeps {s0 s : State} (h : Keeps s0 s) (st : Nat) (fuel : Nat) : Keeps s0 (s.cpDrain st fuel) := by
  induction fuel generalizing s st with
  | zero =>
    unfold State.cpDrain
    iterate 150 all_goals try first
      | (intro) | with_reducible assumption | with_reducible exact Keeps.refl _
      | (extract_lets +onlyGivenNames -lift t; first | (refine keeps_cut (P := Keeps s0 t) (fun ht => ?_) ?_; clear_value t; rotate_left; dsimp -zeta only [t]; try clear t; rotate_right) | (refine keeps_cut (P := Keeps s0 t.1) (fun ht => ?_) ?_; clear_value t; rotate_left; dsimp -zeta only [t]; try clear t; rotate_right) | (refine keeps_cut (P := ∀ u a, Keeps s0 u → Keeps s0 (t u a)) (fun ht => ?_) ?_; clear_value t; rotate_left; dsimp -zeta only [t]; try clear t; rotate_right) | (refine keeps_cut (P := ∀ u, Keeps s0 u → Keeps s0 (t u)) (fun ht => ?_) ?_; clear_value t; rotate_left; dsimp -zeta only [t]; try clear t; rotate_right) | (refine keeps_cut (P := ∀ u, Keeps s0 u → Keeps s0 (t u).1) (fun ht => ?_) ?_; clear_value t; rotate_left; dsimp -zeta only [t]; try clear t; rotate_right) | clear_value t)
      | with_reducible apply State.cpRespond_keeps | with_reducible apply State.doClose_keeps
      | with_reducible apply keeps_ite | (apply_assumption -exfalso -symm) | simp only [keeps_upd] | split
  | succ fuel ih =>
    unfold State.cpDrain
    iterate 150 all_goals try first
      | (intro) | with_reducible assumption | with_reducible exact Keeps.refl _
      | (extract_lets +onlyGivenNames -lift t; first | (refine keeps_cut (P := Keeps s0 t) (fun ht => ?_) ?_; clear_value t; rotate_left; dsimp -zeta only [t]; try clear t; rotate_right) | (refine keeps_cut (P := Keeps s0 t.1) (fun ht => ?_) ?_; clear_value t; rotate_left; dsimp -zeta only [t]; try clear t; rotate_right) | (refine keeps_cut (P := ∀ u a, Keeps s0 u → Keeps s0 (t u a)) (fun ht => ?_) ?_; clear_value t; rotate_left; dsimp -zeta only [t]; try clear t; rotate_right) | (refine keeps_cut (P := ∀ u, Keeps s0 u → Keeps s0 (t u)) (fun ht => ?_) ?_; clear_value t; rotate_left; dsimp -zeta only [t]; try clear t; rotate_right) | (refine keeps_cut (P := ∀ u, Keeps s0 u → Keeps s0 (t u).1) (fun ht => ?_) ?_; clear_value t; rotate_left; dsimp -zeta only [t]; try clear t; rotate_right) | clear_value t)
      | with_reducible apply State.cpRespond_keeps | with_reducible apply State.doClose_keeps | with_reducible apply ih
      | with_reducible apply keeps_ite | (apply_assumption -exfalso -symm) | simp only [keeps_upd] | split

theorem State.cpAnswer_keeps {s0 s : State} (h : Keeps s0 s) (st : Nat) (i : Nat) (a : CpRsp) : Keeps s0 (s.cpAnswer st i a) := by
  unfold State.cpAnswer
  iterate 150 all_goals try first
    | (intro) | with_reducible assumption | with_reducible exact Keeps.refl _
    | (extract_lets +onlyGivenNames -lift t; first | (refine keeps_cut (P := Keeps s0 t) (fun ht => ?_) ?_; clear_value t; rotate_left; dsimp -zeta only [t]; try clear t; rotate_right) | (refine keeps_cut (P := Keeps s0 t.1) (fun ht => ?_) ?_; clear_value t; rotate_left; dsimp -zeta only [t]; try clear t; rotate_right) | clear_value t)
    | with_reducible apply keeps_ite | (apply_assumption -exfalso -symm) | simp only [keeps_upd] | split

theorem State.closeReq_keeps {s0 s : State} (h : Keeps s0 s) (i : Nat) : Keeps s0 (s.closeReq i) := by
  unfold State.closeReq
  iterate 150 all_goals try first
    | (intro) | with_reducible assumption | with_reducible exact Keeps.refl _
    | (extract_lets +onlyGivenNames -lift t; first | (refine keeps_cut (P := Keeps s0 t) (fun ht => ?_) ?_; clear_value t; rotate_left; dsimp -zeta only [t]; try clear t; rotate_right) | (refine keeps_cut (P := Keeps s0 t.1) (fun ht => ?_) ?_; clear_value t; rotate_left; dsimp -zeta only [t]; try clear t; rotate_right) | clear_value t)
    | with_reducible apply State.updStall_keeps | with_reducible apply State.cpDrain_keeps | with_reducible apply State.cpAdvance_keeps | with_reducible apply State.doClose_keeps
    | with_reducible apply keeps_ite | (apply_assumption -exfalso -symm) | simp only [keeps_upd] | split

theorem State.holdStep_keeps {s0 s : State} (h : Keeps s0 s) (i : Nat) (t : Stall) : Keeps s0 (s.holdStep i t) := by
  unfold State.holdStep
  iterate 150 all_goals try first
    | (intro) | with_reducible assumption | with_reducible exact Keeps.refl _
    | (extract_lets +onlyGivenNames -lift t; first | (refine keeps_cut (P := Keeps s0 t) (fun ht => ?_) ?_; clear_value t; rotate_left; dsimp -zeta only [t]; try clear t; rotate_right) | (refine keeps_cut (P := Keeps s0 t.1) (fun ht => ?_) ?_; clear_value t; rotate_left; dsimp -zeta only [t]; try clear t; rotate_right) | clear_value t)
    | with_reducible apply State.updStall_keeps | with_reducible apply State.snoop_keeps
    | with_reducible apply keeps_ite | (apply_assumption -exfalso -symm) | simp only [keeps_upd] | split

theorem State.reply_keeps {s0 s : State} (h : Keeps s0 s) (i : Nat) (t : Stall) (op : BitVec 6) (detail n : Nat) (d : LineData) : Keeps s0 (s.reply i t op detail n d) := by
  unfold State.reply
  iterate 150 all_goals try first
    | (intro) | with_reducible assumption | with_reducible exact Keeps.refl _
    | (extract_lets +onlyGivenNames -lift t; first | (refine keeps_cut (P := Keeps s0 t) (fun ht => ?_) ?_; clear_value t; rotate_left; dsimp -zeta only [t]; try clear t; rotate_right) | (refine keeps_cut (P := Keeps s0 t.1) (fun ht => ?_) ?_; clear_value t; rotate_left; dsimp -zeta only [t]; try clear t; rotate_right) | clear_value t)
    | with_reducible apply State.updStall_keeps | with_reducible apply State.send_keeps | (refine State.send_keeps_eq (p := (_, _)) (by assumption) ?_) | with_reducible apply State.noRouteNote_keeps
    | with_reducible apply keeps_ite | (apply_assumption -exfalso -symm) | simp only [keeps_upd] | split

theorem State.gathered_keeps {s0 s : State} (h : Keeps s0 s) (i : Nat) (t : Stall) (d : LineData) (dirty : Bool) : Keeps s0 (s.gathered i t d dirty) := by
  unfold State.gathered
  iterate 150 all_goals try first
    | (intro) | with_reducible assumption | with_reducible exact Keeps.refl _
    | (extract_lets +onlyGivenNames -lift t; first | (refine keeps_cut (P := Keeps s0 t) (fun ht => ?_) ?_; clear_value t; rotate_left; dsimp -zeta only [t]; try clear t; rotate_right) | (refine keeps_cut (P := Keeps s0 t.1) (fun ht => ?_) ?_; clear_value t; rotate_left; dsimp -zeta only [t]; try clear t; rotate_right) | clear_value t)
    | with_reducible apply State.updStall_keeps | with_reducible apply State.alcPut_keeps
    | with_reducible apply keeps_ite | (apply_assumption -exfalso -symm) | simp only [keeps_upd] | split

theorem State.ligLeave_keeps {s0 s : State} (h : Keeps s0 s) (i : Nat) (t : Stall) (k : Nat) : Keeps s0 (s.ligLeave i t k) := by
  unfold State.ligLeave
  iterate 150 all_goals try first
    | (intro) | with_reducible assumption | with_reducible exact Keeps.refl _
    | (extract_lets +onlyGivenNames -lift t; first | (refine keeps_cut (P := Keeps s0 t) (fun ht => ?_) ?_; clear_value t; rotate_left; dsimp -zeta only [t]; try clear t; rotate_right) | (refine keeps_cut (P := Keeps s0 t.1) (fun ht => ?_) ?_; clear_value t; rotate_left; dsimp -zeta only [t]; try clear t; rotate_right) | clear_value t)
    | with_reducible apply State.inkFill_keeps | with_reducible apply State.inkDrop_keeps | with_reducible apply State.giveBack_keeps
    | with_reducible apply keeps_ite | simp only [keeps_upd] | split

theorem State.gatherEnd_keeps {s0 s : State} (h : Keeps s0 s) (i : Nat) (t : Stall) : Keeps s0 (s.gatherEnd i t) := by
  unfold State.gatherEnd
  iterate 150 all_goals try first
    | (intro) | with_reducible assumption | with_reducible exact Keeps.refl _
    | (extract_lets +onlyGivenNames -lift t; first | (refine keeps_cut (P := Keeps s0 t) (fun ht => ?_) ?_; clear_value t; rotate_left; dsimp -zeta only [t]; try clear t; rotate_right) | (refine keeps_cut (P := Keeps s0 t.1) (fun ht => ?_) ?_; clear_value t; rotate_left; dsimp -zeta only [t]; try clear t; rotate_right) | clear_value t)
    | with_reducible apply State.alcPut_keeps | with_reducible apply State.setReg_keeps | with_reducible apply State.updStall_keeps | with_reducible apply State.ev_keeps | with_reducible apply State.ligLeave_keeps
    | with_reducible apply keeps_ite | (apply_assumption -exfalso -symm) | simp only [keeps_upd] | split

theorem State.completeStep_keeps {s0 s : State} (h : Keeps s0 s) (i : Nat) (t : Stall) (o : Out) : Keeps s0 (s.completeStep i t o) := by
  unfold State.completeStep
  iterate 150 all_goals try first
    | (intro) | with_reducible assumption | with_reducible exact Keeps.refl _
    | (extract_lets +onlyGivenNames -lift t; first | (refine keeps_cut (P := Keeps s0 t) (fun ht => ?_) ?_; clear_value t; rotate_left; dsimp -zeta only [t]; try clear t; rotate_right) | (refine keeps_cut (P := Keeps s0 t.1) (fun ht => ?_) ?_; clear_value t; rotate_left; dsimp -zeta only [t]; try clear t; rotate_right) | (refine keeps_cut (P := ∀ u a, Keeps s0 u → Keeps s0 (t u a)) (fun ht => ?_) ?_; clear_value t; rotate_left; dsimp -zeta only [t]; try clear t; rotate_right) | (refine keeps_cut (P := ∀ u, Keeps s0 u → Keeps s0 (t u)) (fun ht => ?_) ?_; clear_value t; rotate_left; dsimp -zeta only [t]; try clear t; rotate_right) | (refine keeps_cut (P := ∀ u, Keeps s0 u → Keeps s0 (t u).1) (fun ht => ?_) ?_; clear_value t; rotate_left; dsimp -zeta only [t]; try clear t; rotate_right) | clear_value t)
    | with_reducible apply State.updStall_keeps | with_reducible apply State.snoop_keeps | with_reducible apply State.record_keeps | with_reducible apply State.reply_keeps | with_reducible apply State.need_keeps | (refine State.need_keeps_eq (p := (_, _)) (by assumption) ?_) | with_reducible apply State.cpAnswer_keeps | with_reducible apply State.ev_keeps | with_reducible apply State.respEv_keeps | with_reducible apply State.inkFill_keeps | with_reducible apply State.inkWait_keeps | with_reducible apply State.freeEntry_keeps | with_reducible apply State.gatherEnd_keeps | with_reducible apply State.gathered_keeps
    | with_reducible apply keeps_ite | (apply_assumption -exfalso -symm) | simp only [keeps_upd] | split

theorem State.advance_keeps {s0 s : State} (h : Keeps s0 s) (i : Nat) : Keeps s0 (s.advance i) := by
  unfold State.advance
  iterate 150 all_goals try first
    | (intro) | with_reducible assumption | with_reducible exact Keeps.refl _
    | (extract_lets +onlyGivenNames -lift t; first | (refine keeps_cut (P := Keeps s0 t) (fun ht => ?_) ?_; clear_value t; rotate_left; dsimp -zeta only [t]; try clear t; rotate_right) | (refine keeps_cut (P := Keeps s0 t.1) (fun ht => ?_) ?_; clear_value t; rotate_left; dsimp -zeta only [t]; try clear t; rotate_right) | clear_value t)
    | with_reducible apply State.holdStep_keeps | with_reducible apply State.completeStep_keeps | with_reducible apply State.closeReq_keeps
    | with_reducible apply keeps_ite | split

theorem State.recordLate_keeps {s0 s : State} (h : Keeps s0 s) (i : Nat) : Keeps s0 (s.recordLate i) := by
  unfold State.recordLate
  iterate 150 all_goals try first
    | (intro) | with_reducible assumption | with_reducible exact Keeps.refl _
    | (extract_lets +onlyGivenNames -lift t; first | (refine keeps_cut (P := Keeps s0 t) (fun ht => ?_) ?_; clear_value t; rotate_left; dsimp -zeta only [t]; try clear t; rotate_right) | (refine keeps_cut (P := Keeps s0 t.1) (fun ht => ?_) ?_; clear_value t; rotate_left; dsimp -zeta only [t]; try clear t; rotate_right) | clear_value t)
    | with_reducible apply State.record_keeps | with_reducible apply State.updStall_keeps
    | with_reducible apply keeps_ite | (apply_assumption -exfalso -symm) | simp only [keeps_upd] | split

theorem State.evictStep_keeps {s0 s : State} (h : Keeps s0 s) (i : Nat) : Keeps s0 (s.evictStep i) := by
  unfold State.evictStep
  iterate 150 all_goals try first
    | (intro) | with_reducible assumption | with_reducible exact Keeps.refl _
    | (extract_lets +onlyGivenNames -lift t; first | (refine keeps_cut (P := Keeps s0 t) (fun ht => ?_) ?_; clear_value t; rotate_left; dsimp -zeta only [t]; try clear t; rotate_right) | (refine keeps_cut (P := Keeps s0 t.1) (fun ht => ?_) ?_; clear_value t; rotate_left; dsimp -zeta only [t]; try clear t; rotate_right) | clear_value t)
    | with_reducible apply State.freeEntry_keeps | with_reducible apply State.doClose_keeps | with_reducible apply State.updStall_keeps | with_reducible apply State.recordLate_keeps | with_reducible apply State.closeReq_keeps
    | with_reducible apply keeps_ite | (apply_assumption -exfalso -symm) | simp only [keeps_upd] | split

theorem State.censusStep_keeps {s0 s : State} (h : Keeps s0 s) (i : Nat) : Keeps s0 (s.censusStep i) := by
  unfold State.censusStep
  iterate 150 all_goals try first
    | (intro) | with_reducible assumption | with_reducible exact Keeps.refl _
    | (extract_lets +onlyGivenNames -lift t; first | (refine keeps_cut (P := Keeps s0 t) (fun ht => ?_) ?_; clear_value t; rotate_left; dsimp -zeta only [t]; try clear t; rotate_right) | (refine keeps_cut (P := Keeps s0 t.1) (fun ht => ?_) ?_; clear_value t; rotate_left; dsimp -zeta only [t]; try clear t; rotate_right) | clear_value t)
    | with_reducible apply State.census_keeps | with_reducible apply State.ev_keeps | with_reducible apply State.freeExt_keeps | with_reducible apply State.putEntry_keeps | with_reducible apply State.freeEntry_keeps | with_reducible apply State.dropOwner_keeps | with_reducible apply State.doClose_keeps
    | with_reducible apply keeps_ite | simp only [keeps_upd] | split

theorem State.step1_keeps {s0 s : State} (h : Keeps s0 s) (i : Nat) : Keeps s0 (s.step1 i) := by
  unfold State.step1
  iterate 150 all_goals try first
    | (intro) | with_reducible assumption | with_reducible exact Keeps.refl _
    | with_reducible apply State.evictStep_keeps | with_reducible apply State.census_keeps | with_reducible apply State.censusStep_keeps | with_reducible apply State.advance_keeps
    | with_reducible apply keeps_ite | split

theorem State.relayStep_keeps {s0 s : State} (h : Keeps s0 s) (ri : Nat) : Keeps s0 (s.relayStep ri) := by
  unfold State.relayStep
  iterate 150 all_goals try first
    | (intro) | with_reducible assumption | with_reducible exact Keeps.refl _
    | (extract_lets +onlyGivenNames -lift t; first | (refine keeps_cut (P := Keeps s0 t) (fun ht => ?_) ?_; clear_value t; rotate_left; dsimp -zeta only [t]; try clear t; rotate_right) | (refine keeps_cut (P := Keeps s0 t.1) (fun ht => ?_) ?_; clear_value t; rotate_left; dsimp -zeta only [t]; try clear t; rotate_right) | clear_value t)
    | with_reducible apply State.freeStall_keeps | with_reducible apply State.updStall_keeps | with_reducible apply State.step1_keeps
    | with_reducible apply keeps_ite | (apply_assumption -exfalso -symm) | simp only [keeps_upd] | split

theorem State.begin_keeps {s0 s : State} (h : Keeps s0 s) (i : Nat) (h : HIdx) (p : Plan) (relays : List EpId) (ex1 : Option EpId) (data : Bool) : Keeps s0 (s.begin i h p relays ex1 data) := by
  unfold State.begin
  iterate 150 all_goals try first
    | (intro) | with_reducible assumption | with_reducible exact Keeps.refl _
    | (extract_lets +onlyGivenNames -lift t; first | (refine keeps_cut (P := Keeps s0 t) (fun ht => ?_) ?_; clear_value t; rotate_left; dsimp -zeta only [t]; try clear t; rotate_right) | (refine keeps_cut (P := Keeps s0 t.1) (fun ht => ?_) ?_; clear_value t; rotate_left; dsimp -zeta only [t]; try clear t; rotate_right) | clear_value t)
    | with_reducible apply State.updStall_keeps | with_reducible apply State.snoop_keeps | with_reducible apply State.multicast_keeps | with_reducible apply State.askRead_keeps | with_reducible apply State.advance_keeps
    | with_reducible apply keeps_ite | with_reducible apply keeps_foldl | (apply_assumption -exfalso -symm) | simp only [keeps_upd] | split


end Sys2Proof.Machine
end

