-- ==== Sys2Proof/Laws/KeepsAccept.lean ====
section
/-! SUPPORT. Every named operation of Machine/Accept.lean keeps what `Keeps` names. -/

set_option linter.unusedTactic false
set_option linter.unreachableTactic false
set_option linter.unusedVariables false
set_option linter.tactic.unusedName false

namespace Sys2Proof.Machine

theorem State.refuse_keeps {s0 s : State} (h : Keeps s0 s) (r : Req) (op : BitVec 6) (detail nflit : Nat) (d : LineData) : Keeps s0 (s.refuse r op detail nflit d) := by
  unfold State.refuse
  iterate 150 all_goals try first
    | with_reducible assumption | with_reducible exact Keeps.refl _
    | with_reducible apply State.tell_keeps
    | with_reducible apply keeps_ite | split

theorem State.errorTo_keeps {s0 s : State} (h : Keeps s0 s) (r : Req) (cause : Nat) : Keeps s0 (s.errorTo r cause) := by
  unfold State.errorTo
  iterate 150 all_goals try first
    | with_reducible assumption | with_reducible exact Keeps.refl _
    | with_reducible apply State.respEv_keeps | with_reducible apply State.refuse_keeps
    | with_reducible apply keeps_ite | split

theorem State.cpPrepare_keeps {s0 s : State} (h : Keeps s0 s) (st : Nat) (q : BitVec 16) (d : Bool) (a : CpRsp) : Keeps s0 (s.cpPrepare st q d a) := by
  unfold State.cpPrepare
  iterate 150 all_goals try first
    | (intro) | with_reducible assumption | with_reducible exact Keeps.refl _
    | (extract_lets +onlyGivenNames -lift t; first | (refine keeps_cut (P := Keeps s0 t) (fun ht => ?_) ?_; clear_value t; rotate_left; dsimp -zeta only [t]; try clear t; rotate_right) | (refine keeps_cut (P := Keeps s0 t.1) (fun ht => ?_) ?_; clear_value t; rotate_left; dsimp -zeta only [t]; try clear t; rotate_right) | (refine keeps_cut (P := ∀ u a, Keeps s0 u → Keeps s0 (t u a)) (fun ht => ?_) ?_; clear_value t; rotate_left; dsimp -zeta only [t]; try clear t; rotate_right) | (refine keeps_cut (P := ∀ u, Keeps s0 u → Keeps s0 (t u)) (fun ht => ?_) ?_; clear_value t; rotate_left; dsimp -zeta only [t]; try clear t; rotate_right) | (refine keeps_cut (P := ∀ u, Keeps s0 u → Keeps s0 (t u).1) (fun ht => ?_) ?_; clear_value t; rotate_left; dsimp -zeta only [t]; try clear t; rotate_right) | clear_value t)
    | with_reducible apply State.cpDrain_keeps | with_reducible apply State.cpAdvance_keeps
    | with_reducible apply keeps_ite | (apply_assumption -exfalso -symm) | simp only [keeps_upd] | split

theorem State.refuseRegion_keeps {s0 s : State} (h : Keeps s0 s) (r : Req) (kind : Nat) : Keeps s0 (s.refuseRegion r kind) := by
  unfold State.refuseRegion
  iterate 150 all_goals try first
    | (intro) | with_reducible assumption | with_reducible exact Keeps.refl _
    | (extract_lets +onlyGivenNames -lift t; first | (refine keeps_cut (P := Keeps s0 t) (fun ht => ?_) ?_; clear_value t; rotate_left; dsimp -zeta only [t]; try clear t; rotate_right) | (refine keeps_cut (P := Keeps s0 t.1) (fun ht => ?_) ?_; clear_value t; rotate_left; dsimp -zeta only [t]; try clear t; rotate_right) | clear_value t)
    | with_reducible apply State.viol_keeps | with_reducible apply State.respEv_keeps | with_reducible apply State.cpPrepare_keeps | with_reducible apply State.ev_keeps | with_reducible apply State.errorTo_keeps | with_reducible apply State.refuse_keeps
    | with_reducible apply keeps_ite | split

theorem State.abortNote_keeps {s0 s : State} (h : Keeps s0 s) (r : Req) (sts fop : Nat) (lig : Bool) : Keeps s0 (s.abortNote r sts fop lig) := by
  unfold State.abortNote
  iterate 150 all_goals try first
    | (intro) | with_reducible assumption | with_reducible exact Keeps.refl _
    | (extract_lets +onlyGivenNames -lift t; first | (refine keeps_cut (P := Keeps s0 t) (fun ht => ?_) ?_; clear_value t; rotate_left; dsimp -zeta only [t]; try clear t; rotate_right) | (refine keeps_cut (P := Keeps s0 t.1) (fun ht => ?_) ?_; clear_value t; rotate_left; dsimp -zeta only [t]; try clear t; rotate_right) | clear_value t)
    | with_reducible apply State.addFld_keeps | with_reducible apply State.setReg_keeps | with_reducible apply State.ev_keeps | with_reducible apply State.note_keeps
    | with_reducible apply keeps_ite | simp only [keeps_upd] | split

theorem State.accept_keeps {s0 s : State} (h : Keeps s0 s) (r : Req) (role : Role) (h : HIdx) (i : Nat) (tk : Option (Nat × Ticket)) : Keeps s0 (s.accept r role h i tk) := by
  unfold State.accept
  iterate 150 all_goals try first
    | (intro) | with_reducible assumption | with_reducible exact Keeps.refl _
    | (extract_lets +onlyGivenNames -lift t; first | (refine keeps_cut (P := Keeps s0 t) (fun ht => ?_) ?_; clear_value t; rotate_left; dsimp -zeta only [t]; try clear t; rotate_right) | (refine keeps_cut (P := Keeps s0 t.1) (fun ht => ?_) ?_; clear_value t; rotate_left; dsimp -zeta only [t]; try clear t; rotate_right) | (refine keeps_cut (P := ∀ u a, Keeps s0 u → Keeps s0 (t u a)) (fun ht => ?_) ?_; clear_value t; rotate_left; dsimp -zeta only [t]; try clear t; rotate_right) | (refine keeps_cut (P := ∀ u, Keeps s0 u → Keeps s0 (t u)) (fun ht => ?_) ?_; clear_value t; rotate_left; dsimp -zeta only [t]; try clear t; rotate_right) | (refine keeps_cut (P := ∀ u, Keeps s0 u → Keeps s0 (t u).1) (fun ht => ?_) ?_; clear_value t; rotate_left; dsimp -zeta only [t]; try clear t; rotate_right) | clear_value t)
    | with_reducible apply State.openStall_keeps | with_reducible apply State.left_keeps | with_reducible apply State.respEv_keeps
    | with_reducible apply keeps_ite | (apply_assumption -exfalso -symm) | simp only [keeps_upd] | split

theorem State.lack_keeps {s0 s : State} (h : Keeps s0 s) (r : Req) (lines : List LineAddr) (n : Nat) (tk : Option (Nat × Ticket)) (re : Re) : Keeps s0 (s.lack r lines n tk re) := by
  unfold State.lack
  iterate 150 all_goals try first
    | (intro) | with_reducible assumption | with_reducible exact Keeps.refl _
    | (extract_lets +onlyGivenNames -lift t; first | (refine keeps_cut (P := Keeps s0 t) (fun ht => ?_) ?_; clear_value t; rotate_left; dsimp -zeta only [t]; try clear t; rotate_right) | (refine keeps_cut (P := Keeps s0 t.1) (fun ht => ?_) ?_; clear_value t; rotate_left; dsimp -zeta only [t]; try clear t; rotate_right) | clear_value t)
    | with_reducible apply State.retryFull_keeps
    | with_reducible apply keeps_ite | (apply_assumption -exfalso -symm) | simp only [keeps_upd] | split

theorem State.park_keeps {s0 s : State} (h : Keeps s0 s) (r : Req) (role : Role) (h : HIdx) (reason : Nat) (tk : Option (Nat × Ticket)) (re : Re) : Keeps s0 (s.park r role h reason tk re) := by
  unfold State.park
  iterate 150 all_goals try first
    | (intro) | with_reducible assumption | with_reducible exact Keeps.refl _
    | (extract_lets +onlyGivenNames -lift t; first | (refine keeps_cut (P := Keeps s0 t) (fun ht => ?_) ?_; clear_value t; rotate_left; dsimp -zeta only [t]; try clear t; rotate_right) | (refine keeps_cut (P := Keeps s0 t.1) (fun ht => ?_) ?_; clear_value t; rotate_left; dsimp -zeta only [t]; try clear t; rotate_right) | clear_value t)
    | with_reducible apply State.updStall_keeps | with_reducible apply State.lack_keeps | with_reducible apply State.accept_keeps | with_reducible apply State.penPut_keeps | with_reducible apply State.addFld_keeps | with_reducible apply State.respEv_keeps | with_reducible apply State.sendRetry_keeps | with_reducible apply State.retryPen_keeps
    | with_reducible apply keeps_ite | (apply_assumption -exfalso -symm) | simp only [keeps_upd] | split

theorem State.evictGo_keeps {s0 s : State} (h : Keeps s0 s) (j k : Nat) : Keeps s0 (s.evictGo j k) := by
  unfold State.evictGo
  iterate 150 all_goals try first
    | (intro) | with_reducible assumption | with_reducible exact Keeps.refl _
    | (extract_lets +onlyGivenNames -lift t; first | (refine keeps_cut (P := Keeps s0 t) (fun ht => ?_) ?_; clear_value t; rotate_left; dsimp -zeta only [t]; try clear t; rotate_right) | (refine keeps_cut (P := Keeps s0 t.1) (fun ht => ?_) ?_; clear_value t; rotate_left; dsimp -zeta only [t]; try clear t; rotate_right) | clear_value t)
    | with_reducible apply State.entryRead_keeps | with_reducible apply State.evictStep_keeps | with_reducible apply State.updStall_keeps | with_reducible apply State.ev_keeps | with_reducible apply State.snoop_keeps | with_reducible apply State.multicast_keeps
    | with_reducible apply keeps_ite | with_reducible apply keeps_foldl | (apply_assumption -exfalso -symm) | simp only [keeps_upd] | split

theorem State.openEvict_keeps {s0 s : State} (h : Keeps s0 s) (k : Nat) (cleaner : Bool) : Keeps s0 (s.openEvict k cleaner).1 := by
  unfold State.openEvict
  iterate 150 all_goals try first
    | (intro) | with_reducible assumption | with_reducible exact Keeps.refl _
    | (extract_lets +onlyGivenNames -lift t; first | (refine keeps_cut (P := Keeps s0 t) (fun ht => ?_) ?_; clear_value t; rotate_left; dsimp -zeta only [t]; try clear t; rotate_right) | (refine keeps_cut (P := Keeps s0 t.1) (fun ht => ?_) ?_; clear_value t; rotate_left; dsimp -zeta only [t]; try clear t; rotate_right) | clear_value t)
    | with_reducible apply State.inkReserve_keeps | with_reducible apply State.openStall_keeps
    | with_reducible apply keeps_ite | simp only [keeps_upd] | split
theorem State.openEvict_keeps_eq {s0 s : State} {k : Nat} {cleaner : Bool} {p : State × (Option Nat)} (e : s.openEvict k cleaner = p) (h : Keeps s0 s) : Keeps s0 p.1 := e ▸ State.openEvict_keeps h _ _

theorem State.takeResident_keeps {s0 s : State} (h : Keeps s0 s) (i : Nat) (r : Req) (k : Nat) (a : AlcEntry) : Keeps s0 (s.takeResident i r k a) := by
  unfold State.takeResident
  iterate 150 all_goals try first
    | (intro) | with_reducible assumption | with_reducible exact Keeps.refl _
    | (extract_lets +onlyGivenNames -lift t; first | (refine keeps_cut (P := Keeps s0 t) (fun ht => ?_) ?_; clear_value t; rotate_left; dsimp -zeta only [t]; try clear t; rotate_right) | (refine keeps_cut (P := Keeps s0 t.1) (fun ht => ?_) ?_; clear_value t; rotate_left; dsimp -zeta only [t]; try clear t; rotate_right) | clear_value t)
    | with_reducible apply State.ev_keeps | with_reducible apply State.alcRead_keeps | (refine State.alcRead_keeps_eq (p := (_, _)) (by assumption) ?_) | with_reducible apply State.updStall_keeps | with_reducible apply State.alcGive_keeps | with_reducible apply State.inkFill_keeps
    | with_reducible apply keeps_ite | (apply_assumption -exfalso -symm) | simp only [keeps_upd] | split

theorem State.proceed_keeps {s0 s : State} (h : Keeps s0 s) (r : Req) (i : Nat) (h : HIdx) (way : Option (Nat × Bool × Bool)) (port : Option Nat) (slot : Bool) : Keeps s0 (s.proceed r i h way port slot) := by
  unfold State.proceed
  iterate 150 all_goals try first
    | (intro) | with_reducible assumption | with_reducible exact Keeps.refl _
    | (extract_lets +onlyGivenNames -lift t; first | (refine keeps_cut (P := Keeps s0 t) (fun ht => ?_) ?_; clear_value t; rotate_left; dsimp -zeta only [t]; try clear t; rotate_right) | (refine keeps_cut (P := Keeps s0 t.1) (fun ht => ?_) ?_; clear_value t; rotate_left; dsimp -zeta only [t]; try clear t; rotate_right) | clear_value t)
    | with_reducible apply State.ev_keeps | with_reducible apply State.updStall_keeps | with_reducible apply State.putEntry_keeps | with_reducible apply State.inkReserve_keeps | with_reducible apply State.takeResident_keeps | with_reducible apply State.sweepRef_keeps | with_reducible apply State.openEvict_keeps | (refine State.openEvict_keeps_eq (p := (_, _)) (by assumption) ?_) | with_reducible apply State.evictGo_keeps | with_reducible apply State.begin_keeps
    | with_reducible apply keeps_ite | (apply_assumption -exfalso -symm) | simp only [keeps_upd] | split

theorem State.dispatchLine_keeps {s0 s : State} (h : Keeps s0 s) (r : Req) (role : Role) (h : HIdx) (tk : Option (Nat × Ticket)) (re : Re) : Keeps s0 (s.dispatchLine r role h tk re) := by
  unfold State.dispatchLine
  iterate 150 all_goals try first
    | (intro) | with_reducible assumption | with_reducible exact Keeps.refl _
    | (extract_lets +onlyGivenNames -lift t; first | (refine keeps_cut (P := Keeps s0 t) (fun ht => ?_) ?_; clear_value t; rotate_left; dsimp -zeta only [t]; try clear t; rotate_right) | (refine keeps_cut (P := Keeps s0 t.1) (fun ht => ?_) ?_; clear_value t; rotate_left; dsimp -zeta only [t]; try clear t; rotate_right) | clear_value t)
    | with_reducible apply State.park_keeps | with_reducible apply State.proceed_keeps | with_reducible apply State.accept_keeps | with_reducible apply State.lack_keeps
    | with_reducible apply keeps_ite | (apply_assumption -exfalso -symm) | simp only [keeps_upd] | split

theorem State.alcTake_keeps {s0 s : State} (h : Keeps s0 s) (h : HIdx) (pick : Nat × Bool × Bool × Bool) : Keeps s0 (s.alcTake h pick) := by
  unfold State.alcTake
  iterate 150 all_goals try first
    | (intro) | with_reducible assumption | with_reducible exact Keeps.refl _
    | (extract_lets +onlyGivenNames -lift t; first | (refine keeps_cut (P := Keeps s0 t) (fun ht => ?_) ?_; clear_value t; rotate_left; dsimp -zeta only [t]; try clear t; rotate_right) | (refine keeps_cut (P := Keeps s0 t.1) (fun ht => ?_) ?_; clear_value t; rotate_left; dsimp -zeta only [t]; try clear t; rotate_right) | clear_value t)
    | with_reducible apply State.alcSweep_keeps | with_reducible apply State.ev_keeps | with_reducible apply State.alcEvict_keeps
    | with_reducible apply keeps_ite | split

theorem State.gatherGo_keeps {s0 s : State} (h : Keeps s0 s) (i : Nat) (h : HIdx) (r : Req) (op : BitVec 6) (alc ink : Option Nat) : Keeps s0 (s.gatherGo i h r op alc ink) := by
  unfold State.gatherGo
  iterate 150 all_goals try first
    | (intro) | with_reducible assumption | with_reducible exact Keeps.refl _
    | (extract_lets +onlyGivenNames -lift t; first | (refine keeps_cut (P := Keeps s0 t) (fun ht => ?_) ?_; clear_value t; rotate_left; dsimp -zeta only [t]; try clear t; rotate_right) | (refine keeps_cut (P := Keeps s0 t.1) (fun ht => ?_) ?_; clear_value t; rotate_left; dsimp -zeta only [t]; try clear t; rotate_right) | clear_value t)
    | with_reducible apply State.updStall_keeps | with_reducible apply State.putEntry_keeps | with_reducible apply State.ev_keeps | with_reducible apply State.begin_keeps
    | with_reducible apply keeps_ite | (apply_assumption -exfalso -symm) | simp only [keeps_upd] | split

theorem State.preloadOff_keeps {s0 s : State} (h : Keeps s0 s) (re : Re) : Keeps s0 (s.preloadOff re) := by
  unfold State.preloadOff
  iterate 150 all_goals try first
    | (intro) | with_reducible assumption | with_reducible exact Keeps.refl _
    | (extract_lets +onlyGivenNames -lift t; first | (refine keeps_cut (P := Keeps s0 t) (fun ht => ?_) ?_; clear_value t; rotate_left; dsimp -zeta only [t]; try clear t; rotate_right) | (refine keeps_cut (P := Keeps s0 t.1) (fun ht => ?_) ?_; clear_value t; rotate_left; dsimp -zeta only [t]; try clear t; rotate_right) | clear_value t)
    | with_reducible apply State.setReg_keeps | with_reducible apply State.freeStall_keeps
    | with_reducible apply keeps_ite | simp only [keeps_upd] | split

theorem State.dispatchGather_keeps {s0 s : State} (h : Keeps s0 s) (r : Req) (role : Role) (h : HIdx) (tk : Option (Nat × Ticket)) (re : Re) : Keeps s0 (s.dispatchGather r role h tk re) := by
  unfold State.dispatchGather
  iterate 150 all_goals try first
    | (intro) | with_reducible assumption | with_reducible exact Keeps.refl _
    | (extract_lets +onlyGivenNames -lift t; first | (refine keeps_cut (P := Keeps s0 t) (fun ht => ?_) ?_; clear_value t; rotate_left; dsimp -zeta only [t]; try clear t; rotate_right) | (refine keeps_cut (P := Keeps s0 t.1) (fun ht => ?_) ?_; clear_value t; rotate_left; dsimp -zeta only [t]; try clear t; rotate_right) | (refine keeps_cut (P := ∀ u a, Keeps s0 u → Keeps s0 (t u a)) (fun ht => ?_) ?_; clear_value t; rotate_left; dsimp -zeta only [t]; try clear t; rotate_right) | (refine keeps_cut (P := ∀ u, Keeps s0 u → Keeps s0 (t u)) (fun ht => ?_) ?_; clear_value t; rotate_left; dsimp -zeta only [t]; try clear t; rotate_right) | (refine keeps_cut (P := ∀ u, Keeps s0 u → Keeps s0 (t u).1) (fun ht => ?_) ?_; clear_value t; rotate_left; dsimp -zeta only [t]; try clear t; rotate_right) | clear_value t)
    | with_reducible apply State.ev_keeps | with_reducible apply State.updStall_keeps | with_reducible apply State.inkReserve_keeps | with_reducible apply State.gatherGo_keeps | with_reducible apply State.alcTake_keeps | with_reducible apply State.accept_keeps | with_reducible apply State.lack_keeps
    | with_reducible apply keeps_ite | (apply_assumption -exfalso -symm) | simp only [keeps_upd] | split

theorem State.syncStep_keeps {s0 s : State} (h : Keeps s0 s) (i : Nat) : Keeps s0 (s.syncStep i) := by
  unfold State.syncStep
  iterate 150 all_goals try first
    | (intro) | with_reducible assumption | with_reducible exact Keeps.refl _
    | (extract_lets +onlyGivenNames -lift t; first | (refine keeps_cut (P := Keeps s0 t) (fun ht => ?_) ?_; clear_value t; rotate_left; dsimp -zeta only [t]; try clear t; rotate_right) | (refine keeps_cut (P := Keeps s0 t.1) (fun ht => ?_) ?_; clear_value t; rotate_left; dsimp -zeta only [t]; try clear t; rotate_right) | clear_value t)
    | with_reducible apply State.updStall_keeps | with_reducible apply State.cpAnswer_keeps | with_reducible apply State.closeReq_keeps | with_reducible apply State.reply_keeps
    | with_reducible apply keeps_ite | (apply_assumption -exfalso -symm) | simp only [keeps_upd] | split

theorem State.dispatchSync_keeps {s0 s : State} (h : Keeps s0 s) (r : Req) (tk : Option (Nat × Ticket)) : Keeps s0 (s.dispatchSync r tk) := by
  unfold State.dispatchSync
  iterate 150 all_goals try first
    | (intro) | with_reducible assumption | with_reducible exact Keeps.refl _
    | (extract_lets +onlyGivenNames -lift t; first | (refine keeps_cut (P := Keeps s0 t) (fun ht => ?_) ?_; clear_value t; rotate_left; dsimp -zeta only [t]; try clear t; rotate_right) | (refine keeps_cut (P := Keeps s0 t.1) (fun ht => ?_) ?_; clear_value t; rotate_left; dsimp -zeta only [t]; try clear t; rotate_right) | clear_value t)
    | with_reducible apply State.lack_keeps | with_reducible apply State.accept_keeps | with_reducible apply State.updStall_keeps | with_reducible apply State.syncStep_keeps
    | with_reducible apply keeps_ite | (apply_assumption -exfalso -symm) | simp only [keeps_upd] | split

theorem State.dispatch_keeps {s0 s : State} (h : Keeps s0 s) (r : Req) (role : Role) (re : Re) : Keeps s0 (s.dispatch r role re) := by
  unfold State.dispatch
  iterate 150 all_goals try first
    | (intro) | with_reducible assumption | with_reducible exact Keeps.refl _
    | (extract_lets +onlyGivenNames -lift t; first | (refine keeps_cut (P := Keeps s0 t) (fun ht => ?_) ?_; clear_value t; rotate_left; dsimp -zeta only [t]; try clear t; rotate_right) | (refine keeps_cut (P := Keeps s0 t.1) (fun ht => ?_) ?_; clear_value t; rotate_left; dsimp -zeta only [t]; try clear t; rotate_right) | clear_value t)
    | with_reducible apply State.readTicket_keeps | with_reducible apply State.addFld_keeps | with_reducible apply State.dispatchSync_keeps | with_reducible apply State.dirAccess_keeps | with_reducible apply State.alcLookup_keeps | with_reducible apply State.refuse_keeps | with_reducible apply State.park_keeps | with_reducible apply State.preloadOff_keeps | with_reducible apply State.dispatchGather_keeps | with_reducible apply State.dispatchLine_keeps
    | with_reducible apply keeps_ite | (apply_assumption -exfalso -symm) | split


end Sys2Proof.Machine
end

