-- ==== Sys2Proof/Laws/KeepsLedger.lean ====
section
/-! SUPPORT. Every named operation of Machine/Ledger.lean keeps what `Keeps` names. -/

set_option linter.unusedTactic false
set_option linter.unreachableTactic false
set_option linter.unusedVariables false
set_option linter.tactic.unusedName false

namespace Sys2Proof.Machine

theorem State.reserveAll_keeps {s0 s : State} (h : Keeps s0 s) (ds : List HIdx) : Keeps s0 (s.reserveAll ds).1 := by
  induction ds generalizing s with
  | nil =>
    unfold State.reserveAll
    iterate 150 all_goals try first
      | (intro) | with_reducible assumption | with_reducible exact Keeps.refl _
      | (extract_lets +onlyGivenNames -lift t; first | (refine keeps_cut (P := Keeps s0 t) (fun ht => ?_) ?_; clear_value t; rotate_left; dsimp -zeta only [t]; try clear t; rotate_right) | (refine keeps_cut (P := Keeps s0 t.1) (fun ht => ?_) ?_; clear_value t; rotate_left; dsimp -zeta only [t]; try clear t; rotate_right) | (refine keeps_cut (P := ∀ u a, Keeps s0 u → Keeps s0 (t u a)) (fun ht => ?_) ?_; clear_value t; rotate_left; dsimp -zeta only [t]; try clear t; rotate_right) | (refine keeps_cut (P := ∀ u, Keeps s0 u → Keeps s0 (t u)) (fun ht => ?_) ?_; clear_value t; rotate_left; dsimp -zeta only [t]; try clear t; rotate_right) | (refine keeps_cut (P := ∀ u, Keeps s0 u → Keeps s0 (t u).1) (fun ht => ?_) ?_; clear_value t; rotate_left; dsimp -zeta only [t]; try clear t; rotate_right) | clear_value t)
      | with_reducible apply State.inkReserve_keeps
      | with_reducible apply keeps_ite | split
  | cons d ds ih =>
    unfold State.reserveAll
    iterate 150 all_goals try first
      | (intro) | with_reducible assumption | with_reducible exact Keeps.refl _
      | (extract_lets +onlyGivenNames -lift t; first | (refine keeps_cut (P := Keeps s0 t) (fun ht => ?_) ?_; clear_value t; rotate_left; dsimp -zeta only [t]; try clear t; rotate_right) | (refine keeps_cut (P := Keeps s0 t.1) (fun ht => ?_) ?_; clear_value t; rotate_left; dsimp -zeta only [t]; try clear t; rotate_right) | (refine keeps_cut (P := ∀ u a, Keeps s0 u → Keeps s0 (t u a)) (fun ht => ?_) ?_; clear_value t; rotate_left; dsimp -zeta only [t]; try clear t; rotate_right) | (refine keeps_cut (P := ∀ u, Keeps s0 u → Keeps s0 (t u)) (fun ht => ?_) ?_; clear_value t; rotate_left; dsimp -zeta only [t]; try clear t; rotate_right) | (refine keeps_cut (P := ∀ u, Keeps s0 u → Keeps s0 (t u).1) (fun ht => ?_) ?_; clear_value t; rotate_left; dsimp -zeta only [t]; try clear t; rotate_right) | clear_value t)
      | with_reducible apply State.inkReserve_keeps | with_reducible apply ih
      | with_reducible apply keeps_ite | split
theorem State.reserveAll_keeps_eq {s0 s : State} {ds : List HIdx} {p : State × (List Nat)} (e : s.reserveAll ds = p) (h : Keeps s0 s) : Keeps s0 p.1 := e ▸ State.reserveAll_keeps h _

theorem State.ligRelease_keeps {s0 s : State} (h : Keeps s0 s) (slot field kind hint : Nat) : Keeps s0 (s.ligRelease slot field kind hint) := by
  unfold State.ligRelease
  iterate 150 all_goals try first
    | (intro) | with_reducible assumption | with_reducible exact Keeps.refl _
    | (extract_lets +onlyGivenNames -lift t; first | (refine keeps_cut (P := Keeps s0 t) (fun ht => ?_) ?_; clear_value t; rotate_left; dsimp -zeta only [t]; try clear t; rotate_right) | (refine keeps_cut (P := Keeps s0 t.1) (fun ht => ?_) ?_; clear_value t; rotate_left; dsimp -zeta only [t]; try clear t; rotate_right) | clear_value t)
    | with_reducible apply State.inkDrop_keeps | with_reducible apply State.inkFill_keeps | with_reducible apply State.addFld_keeps | with_reducible apply State.respEv_keeps | with_reducible apply State.issue_keeps | (refine State.issue_keeps_eq (p := (_, _)) (by assumption) ?_) | with_reducible apply State.updStall_keeps | with_reducible apply State.giveBack_keeps | with_reducible apply State.sendRetry_keeps
    | with_reducible apply keeps_ite | with_reducible apply keeps_foldl | (apply_assumption -exfalso -symm) | simp only [keeps_upd] | split

theorem State.ligBlock_keeps {s0 s : State} (h : Keeps s0 s) (slot : Nat) (g : Lig) (i : Nat) (l : LineAddr) (h : HIdx) (journal : Bool) (entry : Option (Nat × Bool × Bool × Bool)) : Keeps s0 (s.ligBlock slot g i l h journal entry) := by
  unfold State.ligBlock
  iterate 150 all_goals try first
    | (intro) | with_reducible assumption | with_reducible exact Keeps.refl _
    | (extract_lets +onlyGivenNames -lift t; first | (refine keeps_cut (P := Keeps s0 t) (fun ht => ?_) ?_; clear_value t; rotate_left; dsimp -zeta only [t]; try clear t; rotate_right) | (refine keeps_cut (P := Keeps s0 t.1) (fun ht => ?_) ?_; clear_value t; rotate_left; dsimp -zeta only [t]; try clear t; rotate_right) | clear_value t)
    | with_reducible apply State.inkDrop_keeps | with_reducible apply State.alcTake_keeps | with_reducible apply State.ev_keeps | with_reducible apply State.updStall_keeps | with_reducible apply State.gatherGo_keeps
    | with_reducible apply keeps_ite | (apply_assumption -exfalso -symm) | simp only [keeps_upd] | split

theorem State.ligWait_keeps {s0 s : State} (h : Keeps s0 s) (slot : Nat) (g : Lig) (h : HIdx) (reason : Nat) : Keeps s0 (s.ligWait slot g h reason) := by
  unfold State.ligWait
  iterate 150 all_goals try first
    | (intro) | with_reducible assumption | with_reducible exact Keeps.refl _
    | (extract_lets +onlyGivenNames -lift t; first | (refine keeps_cut (P := Keeps s0 t) (fun ht => ?_) ?_; clear_value t; rotate_left; dsimp -zeta only [t]; try clear t; rotate_right) | (refine keeps_cut (P := Keeps s0 t.1) (fun ht => ?_) ?_; clear_value t; rotate_left; dsimp -zeta only [t]; try clear t; rotate_right) | clear_value t)
    | with_reducible apply State.penPut_keeps | with_reducible apply State.ligRelease_keeps
    | with_reducible apply keeps_ite | (apply_assumption -exfalso -symm) | simp only [keeps_upd] | split

theorem State.ligAfter_keeps {s0 s : State} (h : Keeps s0 s) (slot : Nat) : Keeps s0 (s.ligAfter slot) := by
  unfold State.ligAfter
  iterate 150 all_goals try first
    | (intro) | with_reducible assumption | with_reducible exact Keeps.refl _
    | (extract_lets +onlyGivenNames -lift t; first | (refine keeps_cut (P := Keeps s0 t) (fun ht => ?_) ?_; clear_value t; rotate_left; dsimp -zeta only [t]; try clear t; rotate_right) | (refine keeps_cut (P := Keeps s0 t.1) (fun ht => ?_) ?_; clear_value t; rotate_left; dsimp -zeta only [t]; try clear t; rotate_right) | clear_value t)
    | with_reducible apply State.ligWait_keeps
    | with_reducible apply keeps_ite | (apply_assumption -exfalso -symm) | simp only [keeps_upd] | split

theorem State.ligStep_keeps {s0 s : State} (h : Keeps s0 s) (slot : Nat) : Keeps s0 (s.ligStep slot) := by
  unfold State.ligStep
  iterate 150 all_goals try first
    | (intro) | with_reducible assumption | with_reducible exact Keeps.refl _
    | (extract_lets +onlyGivenNames -lift t; first | (refine keeps_cut (P := Keeps s0 t) (fun ht => ?_) ?_; clear_value t; rotate_left; dsimp -zeta only [t]; try clear t; rotate_right) | (refine keeps_cut (P := Keeps s0 t.1) (fun ht => ?_) ?_; clear_value t; rotate_left; dsimp -zeta only [t]; try clear t; rotate_right) | clear_value t)
    | with_reducible apply State.dirAccess_keeps | with_reducible apply State.alcLookup_keeps | with_reducible apply State.ligWait_keeps | with_reducible apply State.ligRelease_keeps | with_reducible apply State.ligBlock_keeps | with_reducible apply State.ligAfter_keeps
    | with_reducible apply keeps_ite | (apply_assumption -exfalso -symm) | simp only [keeps_upd] | split

theorem State.ligPenFull_keeps {s0 s : State} (h : Keeps s0 s) (r : Req) (lines : List LineAddr) (stalls : List Nat) (tk : Option (Nat × Ticket)) : Keeps s0 (s.ligPenFull r lines stalls tk) := by
  unfold State.ligPenFull
  iterate 150 all_goals try first
    | (intro) | with_reducible assumption | with_reducible exact Keeps.refl _
    | (extract_lets +onlyGivenNames -lift t; first | (refine keeps_cut (P := Keeps s0 t) (fun ht => ?_) ?_; clear_value t; rotate_left; dsimp -zeta only [t]; try clear t; rotate_right) | (refine keeps_cut (P := Keeps s0 t.1) (fun ht => ?_) ?_; clear_value t; rotate_left; dsimp -zeta only [t]; try clear t; rotate_right) | clear_value t)
    | with_reducible apply State.addFld_keeps | with_reducible apply State.respEv_keeps | with_reducible apply State.sendRetry_keeps | with_reducible apply State.retryPen_keeps
    | with_reducible apply keeps_ite | (apply_assumption -exfalso -symm) | simp only [keeps_upd] | split

theorem State.dispatchLig_keeps {s0 s : State} (h : Keeps s0 s) (r : Req) : Keeps s0 (s.dispatchLig r) := by
  unfold State.dispatchLig
  iterate 150 all_goals try first
    | (intro) | with_reducible assumption | with_reducible exact Keeps.refl _
    | (extract_lets +onlyGivenNames -lift t; first | (refine keeps_cut (P := Keeps s0 t) (fun ht => ?_) ?_; clear_value t; rotate_left; dsimp -zeta only [t]; try clear t; rotate_right) | (refine keeps_cut (P := Keeps s0 t.1) (fun ht => ?_) ?_; clear_value t; rotate_left; dsimp -zeta only [t]; try clear t; rotate_right) | clear_value t)
    | with_reducible apply State.readTicket_keeps | with_reducible apply State.addFld_keeps | with_reducible apply State.alcLookup_keeps | with_reducible apply State.refuse_keeps | with_reducible apply State.ev_keeps | with_reducible apply State.ligPenFull_keeps | with_reducible apply State.giveBack_keeps | with_reducible apply State.openStall_keeps | with_reducible apply State.updStall_keeps | with_reducible apply State.respEv_keeps | with_reducible apply State.alcTake_keeps | with_reducible apply State.reserveAll_keeps | (refine State.reserveAll_keeps_eq (p := (_, _)) (by assumption) ?_) | with_reducible apply State.ligStep_keeps | with_reducible apply State.lack_keeps
    | with_reducible apply keeps_ite | with_reducible apply keeps_foldl | (apply_assumption -exfalso -symm) | simp only [keeps_upd] | split

theorem State.readWord_keeps {s0 s : State} (h : Keeps s0 s) (i w : Nat) : Keeps s0 (s.readWord i w).1 := by
  unfold State.readWord
  iterate 150 all_goals try first
    | (intro) | with_reducible assumption | with_reducible exact Keeps.refl _
    | (extract_lets +onlyGivenNames -lift t; first | (refine keeps_cut (P := Keeps s0 t) (fun ht => ?_) ?_; clear_value t; rotate_left; dsimp -zeta only [t]; try clear t; rotate_right) | (refine keeps_cut (P := Keeps s0 t.1) (fun ht => ?_) ?_; clear_value t; rotate_left; dsimp -zeta only [t]; try clear t; rotate_right) | clear_value t)
    | with_reducible apply State.updStall_keeps | with_reducible apply State.addFld_keeps | with_reducible apply State.alcLoc_keeps | with_reducible apply State.ev_keeps | with_reducible apply State.note_keeps
    | with_reducible apply keeps_ite | (apply_assumption -exfalso -symm) | simp only [keeps_upd] | split
theorem State.readWord_keeps_eq {s0 s : State} {i w : Nat} {p : State × DWord} (e : s.readWord i w = p) (h : Keeps s0 s) : Keeps s0 p.1 := e ▸ State.readWord_keeps h _ _

theorem State.writeWord_keeps {s0 s : State} (h : Keeps s0 s) (i w : Nat) (x : DWord) : Keeps s0 (s.writeWord i w x) := by
  unfold State.writeWord
  iterate 150 all_goals try first
    | (intro) | with_reducible assumption | with_reducible exact Keeps.refl _
    | (extract_lets +onlyGivenNames -lift t; first | (refine keeps_cut (P := Keeps s0 t) (fun ht => ?_) ?_; clear_value t; rotate_left; dsimp -zeta only [t]; try clear t; rotate_right) | (refine keeps_cut (P := Keeps s0 t.1) (fun ht => ?_) ?_; clear_value t; rotate_left; dsimp -zeta only [t]; try clear t; rotate_right) | clear_value t)
    | with_reducible apply State.updStall_keeps
    | with_reducible apply keeps_ite | (apply_assumption -exfalso -symm) | simp only [keeps_upd] | split

theorem State.settleLine_keeps {s0 s : State} (h : Keeps s0 s) (i : Nat) (changed : Bool) : Keeps s0 (s.settleLine i changed) := by
  unfold State.settleLine
  iterate 150 all_goals try first
    | (intro) | with_reducible assumption | with_reducible exact Keeps.refl _
    | (extract_lets +onlyGivenNames -lift t; first | (refine keeps_cut (P := Keeps s0 t) (fun ht => ?_) ?_; clear_value t; rotate_left; dsimp -zeta only [t]; try clear t; rotate_right) | (refine keeps_cut (P := Keeps s0 t.1) (fun ht => ?_) ?_; clear_value t; rotate_left; dsimp -zeta only [t]; try clear t; rotate_right) | clear_value t)
    | with_reducible apply State.inkFill_keeps | with_reducible apply State.updStall_keeps | with_reducible apply State.inkDrop_keeps
    | with_reducible apply keeps_ite | (apply_assumption -exfalso -symm) | simp only [keeps_upd] | split

theorem State.strokeRun_keeps {s0 s : State} (h : Keeps s0 s) (i : Nat) : Keeps s0 (s.strokeRun i) := by
  unfold State.strokeRun
  iterate 150 all_goals try first
    | (intro) | with_reducible assumption | with_reducible exact Keeps.refl _
    | (extract_lets +onlyGivenNames -lift t; first | (refine keeps_cut (P := Keeps s0 t) (fun ht => ?_) ?_; clear_value t; rotate_left; dsimp -zeta only [t]; try clear t; rotate_right) | (refine keeps_cut (P := Keeps s0 t.1) (fun ht => ?_) ?_; clear_value t; rotate_left; dsimp -zeta only [t]; try clear t; rotate_right) | clear_value t)
    | with_reducible apply State.reading_keeps | with_reducible apply State.readWord_keeps | (refine State.readWord_keeps_eq (p := (_, _)) (by assumption) ?_) | with_reducible apply State.apply_keeps | with_reducible apply State.writeWord_keeps | with_reducible apply State.ev_keeps | with_reducible apply State.abortNote_keeps | with_reducible apply State.settleLine_keeps | with_reducible apply State.reply_keeps | with_reducible apply State.doClose_keeps
    | with_reducible apply keeps_ite | (apply_assumption -exfalso -symm) | simp only [keeps_upd] | split

theorem State.ligOps_keeps {s0 s : State} (h : Keeps s0 s) (held : List (LineAddr × Nat)) (k : Nat) (x : LigRun) (ds : List OpFlit) : Keeps s0 (s.ligOps held k x ds).1 := by
  induction ds generalizing s held k x with
  | nil =>
    unfold State.ligOps
    iterate 150 all_goals try first
      | (intro) | with_reducible assumption | with_reducible exact Keeps.refl _
      | (extract_lets +onlyGivenNames -lift t; first | (refine keeps_cut (P := Keeps s0 t) (fun ht => ?_) ?_; clear_value t; rotate_left; dsimp -zeta only [t]; try clear t; rotate_right) | (refine keeps_cut (P := Keeps s0 t.1) (fun ht => ?_) ?_; clear_value t; rotate_left; dsimp -zeta only [t]; try clear t; rotate_right) | (refine keeps_cut (P := ∀ u a, Keeps s0 u → Keeps s0 (t u a)) (fun ht => ?_) ?_; clear_value t; rotate_left; dsimp -zeta only [t]; try clear t; rotate_right) | (refine keeps_cut (P := ∀ u, Keeps s0 u → Keeps s0 (t u)) (fun ht => ?_) ?_; clear_value t; rotate_left; dsimp -zeta only [t]; try clear t; rotate_right) | (refine keeps_cut (P := ∀ u, Keeps s0 u → Keeps s0 (t u).1) (fun ht => ?_) ?_; clear_value t; rotate_left; dsimp -zeta only [t]; try clear t; rotate_right) | clear_value t)
      | with_reducible apply State.readWord_keeps | (refine State.readWord_keeps_eq (p := (_, _)) (by assumption) ?_) | with_reducible apply State.apply_keeps
      | with_reducible apply keeps_ite | (apply_assumption -exfalso -symm) | simp only [keeps_upd] | split
  | cons d ds ih =>
    unfold State.ligOps
    iterate 150 all_goals try first
      | (intro) | with_reducible assumption | with_reducible exact Keeps.refl _
      | (extract_lets +onlyGivenNames -lift t; first | (refine keeps_cut (P := Keeps s0 t) (fun ht => ?_) ?_; clear_value t; rotate_left; dsimp -zeta only [t]; try clear t; rotate_right) | (refine keeps_cut (P := Keeps s0 t.1) (fun ht => ?_) ?_; clear_value t; rotate_left; dsimp -zeta only [t]; try clear t; rotate_right) | (refine keeps_cut (P := ∀ u a, Keeps s0 u → Keeps s0 (t u a)) (fun ht => ?_) ?_; clear_value t; rotate_left; dsimp -zeta only [t]; try clear t; rotate_right) | (refine keeps_cut (P := ∀ u, Keeps s0 u → Keeps s0 (t u)) (fun ht => ?_) ?_; clear_value t; rotate_left; dsimp -zeta only [t]; try clear t; rotate_right) | (refine keeps_cut (P := ∀ u, Keeps s0 u → Keeps s0 (t u).1) (fun ht => ?_) ?_; clear_value t; rotate_left; dsimp -zeta only [t]; try clear t; rotate_right) | clear_value t)
      | with_reducible apply State.readWord_keeps | (refine State.readWord_keeps_eq (p := (_, _)) (by assumption) ?_) | with_reducible apply State.apply_keeps | with_reducible apply ih
      | with_reducible apply keeps_ite | (apply_assumption -exfalso -symm) | simp only [keeps_upd] | split
theorem State.ligOps_keeps_eq {s0 s : State} {held : List (LineAddr × Nat)} {k : Nat} {x : LigRun} {ds : List OpFlit} {p : State × LigRun} (e : s.ligOps held k x ds = p) (h : Keeps s0 s) : Keeps s0 p.1 := e ▸ State.ligOps_keeps h _ _ _ _

theorem State.writeWords_keeps {s0 s : State} (h : Keeps s0 s) (i k : Nat) (ds : List DWord) : Keeps s0 (s.writeWords i k ds) := by
  induction ds generalizing s k with
  | nil => exact h
  | cons d ds ih => exact ih (State.writeWord_keeps h _ _ _) _

theorem State.ligCommit_keeps {s0 s : State} (h : Keeps s0 s) (g : Lig) (n ji seq : Nat) (x : LigRun) : Keeps s0 (s.ligCommit g n ji seq x) := by
  unfold State.ligCommit
  iterate 150 all_goals try first
    | (intro) | with_reducible assumption | with_reducible exact Keeps.refl _
    | (extract_lets +onlyGivenNames -lift t; first | (refine keeps_cut (P := Keeps s0 t) (fun ht => ?_) ?_; clear_value t; rotate_left; dsimp -zeta only [t]; try clear t; rotate_right) | (refine keeps_cut (P := Keeps s0 t.1) (fun ht => ?_) ?_; clear_value t; rotate_left; dsimp -zeta only [t]; try clear t; rotate_right) | clear_value t)
    | with_reducible apply State.writeWords_keeps | with_reducible apply State.writeWord_keeps | with_reducible apply State.setReg_keeps | with_reducible apply State.ev_keeps | with_reducible apply State.abortNote_keeps
    | with_reducible apply keeps_ite | with_reducible apply keeps_foldl | (apply_assumption -exfalso -symm) | simp only [keeps_upd] | split

theorem State.ligAnswer_keeps {s0 s : State} (h : Keeps s0 s) (g : Lig) (n seq : Nat) (x : LigRun) : Keeps s0 (s.ligAnswer g n seq x) := by
  unfold State.ligAnswer
  iterate 150 all_goals try first
    | (intro) | with_reducible assumption | with_reducible exact Keeps.refl _
    | (extract_lets +onlyGivenNames -lift t; first | (refine keeps_cut (P := Keeps s0 t) (fun ht => ?_) ?_; clear_value t; rotate_left; dsimp -zeta only [t]; try clear t; rotate_right) | (refine keeps_cut (P := Keeps s0 t.1) (fun ht => ?_) ?_; clear_value t; rotate_left; dsimp -zeta only [t]; try clear t; rotate_right) | clear_value t)
    | with_reducible apply State.reply_keeps
    | with_reducible apply keeps_ite | simp only [keeps_upd] | split

theorem State.ligEnd_keeps {s0 s : State} (h : Keeps s0 s) (slot : Nat) (g : Lig) : Keeps s0 (s.ligEnd slot g) := by
  unfold State.ligEnd
  iterate 150 all_goals try first
    | (intro) | with_reducible assumption | with_reducible exact Keeps.refl _
    | (extract_lets +onlyGivenNames -lift t; first | (refine keeps_cut (P := Keeps s0 t) (fun ht => ?_) ?_; clear_value t; rotate_left; dsimp -zeta only [t]; try clear t; rotate_right) | (refine keeps_cut (P := Keeps s0 t.1) (fun ht => ?_) ?_; clear_value t; rotate_left; dsimp -zeta only [t]; try clear t; rotate_right) | clear_value t)
    | with_reducible apply State.inkDrop_keeps | with_reducible apply State.doClose_keeps
    | with_reducible apply keeps_ite | with_reducible apply keeps_foldl | (apply_assumption -exfalso -symm) | simp only [keeps_upd] | split

theorem State.ligFull_keeps {s0 s : State} (h : Keeps s0 s) (g : Lig) (n : Nat) (x : LigRun) : Keeps s0 (s.ligFull g n x).1 := by
  unfold State.ligFull
  iterate 150 all_goals try first
    | with_reducible assumption | with_reducible exact Keeps.refl _
    | (extract_lets +onlyGivenNames -lift t; first | (refine keeps_cut (P := Keeps s0 t) (fun ht => ?_) ?_; clear_value t; rotate_left; dsimp -zeta only [t]; try clear t; rotate_right) | (refine keeps_cut (P := Keeps s0 t.1) (fun ht => ?_) ?_; clear_value t; rotate_left; dsimp -zeta only [t]; try clear t; rotate_right) | clear_value t)
    | with_reducible apply State.setFlag_keeps | with_reducible apply State.ev_keeps
    | with_reducible apply keeps_ite | simp only [keeps_upd] | split
theorem State.ligFull_keeps_eq {s0 s : State} {g : Lig} {n : Nat} {x : LigRun} {p : State × LigRun} (e : s.ligFull g n x = p) (h : Keeps s0 s) : Keeps s0 p.1 := e ▸ State.ligFull_keeps h _ _ _

theorem State.ligRun_keeps {s0 s : State} (h : Keeps s0 s) (slot : Nat) : Keeps s0 (s.ligRun slot) := by
  unfold State.ligRun
  iterate 150 all_goals try first
    | (intro) | with_reducible assumption | with_reducible exact Keeps.refl _
    | (extract_lets +onlyGivenNames -lift t; first | (refine keeps_cut (P := Keeps s0 t) (fun ht => ?_) ?_; clear_value t; rotate_left; dsimp -zeta only [t]; try clear t; rotate_right) | (refine keeps_cut (P := Keeps s0 t.1) (fun ht => ?_) ?_; clear_value t; rotate_left; dsimp -zeta only [t]; try clear t; rotate_right) | clear_value t)
    | with_reducible apply State.readStalls_keeps | with_reducible apply State.ligOps_keeps | (refine State.ligOps_keeps_eq (p := (_, _)) (by assumption) ?_) | with_reducible apply State.ligFull_keeps | (refine State.ligFull_keeps_eq (p := (_, _)) (by assumption) ?_) | with_reducible apply State.ligCommit_keeps | with_reducible apply State.evN_keeps | with_reducible apply State.ev_keeps | with_reducible apply State.alcGive_keeps | with_reducible apply State.settleLine_keeps | with_reducible apply State.ligAnswer_keeps | with_reducible apply State.ligEnd_keeps
    | with_reducible apply keeps_ite | with_reducible apply keeps_foldl | (apply_assumption -exfalso -symm) | simp only [keeps_upd] | split


end Sys2Proof.Machine
end

