-- ==== Sys2Proof/Laws/KeepsAnswers.lean ====
section
/-! SUPPORT. Every named operation of Machine/Answers.lean keeps what `Keeps` names. -/

set_option linter.unusedTactic false
set_option linter.unreachableTactic false
set_option linter.unusedVariables false
set_option linter.tactic.unusedName false

namespace Sys2Proof.Machine

theorem State.cmpWb_keeps {s0 s : State} (h : Keeps s0 s) (b : Absorb) (line : LineAddr) : Keeps s0 (s.cmpWb b line) := by
  unfold State.cmpWb
  iterate 150 all_goals try first
    | with_reducible assumption | with_reducible exact Keeps.refl _
    | with_reducible apply State.tell_keeps
    | with_reducible apply keeps_ite | split

theorem State.release_keeps {s0 s : State} (h : Keeps s0 s) (i : Nat) (who : EpId) : Keeps s0 (s.release i who) := by
  unfold State.release
  iterate 150 all_goals try first
    | (intro) | with_reducible assumption | with_reducible exact Keeps.refl _
    | (extract_lets +onlyGivenNames -lift t; first | (refine keeps_cut (P := Keeps s0 t) (fun ht => ?_) ?_; clear_value t; rotate_left; dsimp -zeta only [t]; try clear t; rotate_right) | (refine keeps_cut (P := Keeps s0 t.1) (fun ht => ?_) ?_; clear_value t; rotate_left; dsimp -zeta only [t]; try clear t; rotate_right) | clear_value t)
    | with_reducible apply State.updStall_keeps | with_reducible apply State.cmpWb_keeps
    | with_reducible apply keeps_ite | (apply_assumption -exfalso -symm) | simp only [keeps_upd] | split

theorem State.settleAnswer_keeps {s0 s : State} (h : Keeps s0 s) (i : Nat) (w : Wait) (a : Ans) : Keeps s0 (s.settleAnswer i w a) := by
  unfold State.settleAnswer
  iterate 150 all_goals try first
    | (intro) | with_reducible assumption | with_reducible exact Keeps.refl _
    | (extract_lets +onlyGivenNames -lift t; first | (refine keeps_cut (P := Keeps s0 t) (fun ht => ?_) ?_; clear_value t; rotate_left; dsimp -zeta only [t]; try clear t; rotate_right) | (refine keeps_cut (P := Keeps s0 t.1) (fun ht => ?_) ?_; clear_value t; rotate_left; dsimp -zeta only [t]; try clear t; rotate_right) | clear_value t)
    | with_reducible apply State.updStall_keeps | with_reducible apply State.release_keeps | with_reducible apply State.inkFill_keeps | with_reducible apply State.step1_keeps
    | with_reducible apply keeps_ite | (apply_assumption -exfalso -symm) | simp only [keeps_upd] | split

theorem State.takeAnswer_keeps {s0 s : State} (h : Keeps s0 s) (i : Nat) (w : Wait) (a : Ans) (op : BitVec 6) : Keeps s0 (s.takeAnswer i w a op) := by
  unfold State.takeAnswer
  iterate 150 all_goals try first
    | (intro) | with_reducible assumption | with_reducible exact Keeps.refl _
    | (extract_lets +onlyGivenNames -lift t; first | (refine keeps_cut (P := Keeps s0 t) (fun ht => ?_) ?_; clear_value t; rotate_left; dsimp -zeta only [t]; try clear t; rotate_right) | (refine keeps_cut (P := Keeps s0 t.1) (fun ht => ?_) ?_; clear_value t; rotate_left; dsimp -zeta only [t]; try clear t; rotate_right) | clear_value t)
    | with_reducible apply State.settleAnswer_keeps | with_reducible apply State.ev_keeps | with_reducible apply State.note_keeps | with_reducible apply State.declare_keeps
    | with_reducible apply keeps_ite | simp only [keeps_upd] | split

theorem State.onBehalf_keeps {s0 s : State} (h : Keeps s0 s) (i : Nat) (w : Wait) : Keeps s0 (s.onBehalf i w) := by
  unfold State.onBehalf
  iterate 150 all_goals try first
    | (intro) | with_reducible assumption | with_reducible exact Keeps.refl _
    | (extract_lets +onlyGivenNames -lift t; first | (refine keeps_cut (P := Keeps s0 t) (fun ht => ?_) ?_; clear_value t; rotate_left; dsimp -zeta only [t]; try clear t; rotate_right) | (refine keeps_cut (P := Keeps s0 t.1) (fun ht => ?_) ?_; clear_value t; rotate_left; dsimp -zeta only [t]; try clear t; rotate_right) | clear_value t)
    | with_reducible apply State.ev_keeps | with_reducible apply State.settleAnswer_keeps | with_reducible apply State.updStall_keeps | with_reducible apply State.declare_keeps
    | with_reducible apply keeps_ite | (apply_assumption -exfalso -symm) | simp only [keeps_upd] | split

theorem State.asForward_keeps {s0 s : State} (h : Keeps s0 s) (i : Nat) (w : Wait) : Keeps s0 (s.asForward i w) := by
  unfold State.asForward
  iterate 150 all_goals try first
    | with_reducible assumption | with_reducible exact Keeps.refl _
    | (extract_lets +onlyGivenNames -lift t; first | (refine keeps_cut (P := Keeps s0 t) (fun ht => ?_) ?_; clear_value t; rotate_left; dsimp -zeta only [t]; try clear t; rotate_right) | (refine keeps_cut (P := Keeps s0 t.1) (fun ht => ?_) ?_; clear_value t; rotate_left; dsimp -zeta only [t]; try clear t; rotate_right) | clear_value t)
    | with_reducible apply State.ev_keeps | with_reducible apply State.settleAnswer_keeps
    | with_reducible apply keeps_ite | simp only [keeps_upd] | split

theorem State.flushed_keeps {s0 s : State} (h : Keeps s0 s) (who : EpId) : Keeps s0 (s.flushed who) := by
  unfold State.flushed
  iterate 150 all_goals try first
    | (intro) | with_reducible assumption | with_reducible exact Keeps.refl _
    | with_reducible apply State.onBehalf_keeps
    | with_reducible apply keeps_ite | with_reducible apply keeps_foldl | (apply_assumption -exfalso -symm) | split

theorem State.unmatched_keeps {s0 s : State} (h : Keeps s0 s) (p : Packet) : Keeps s0 (s.unmatched p) := by
  unfold State.unmatched
  iterate 150 all_goals try first
    | (intro) | with_reducible assumption | with_reducible exact Keeps.refl _
    | (extract_lets +onlyGivenNames -lift t; first | (refine keeps_cut (P := Keeps s0 t) (fun ht => ?_) ?_; clear_value t; rotate_left; dsimp -zeta only [t]; try clear t; rotate_right) | (refine keeps_cut (P := Keeps s0 t.1) (fun ht => ?_) ?_; clear_value t; rotate_left; dsimp -zeta only [t]; try clear t; rotate_right) | clear_value t)
    | with_reducible apply State.addFld_keeps | with_reducible apply State.ev_keeps | with_reducible apply State.note_keeps | with_reducible apply State.stray_keeps
    | with_reducible apply keeps_ite | simp only [keeps_upd] | split

theorem State.snoopAnswer_keeps {s0 s : State} (h : Keeps s0 s) (n : Nat) (p : Packet) (a : Ans) : Keeps s0 (s.snoopAnswer n p a) := by
  unfold State.snoopAnswer
  iterate 150 all_goals try first
    | (intro) | with_reducible assumption | with_reducible exact Keeps.refl _
    | (extract_lets +onlyGivenNames -lift t; first | (refine keeps_cut (P := Keeps s0 t) (fun ht => ?_) ?_; clear_value t; rotate_left; dsimp -zeta only [t]; try clear t; rotate_right) | (refine keeps_cut (P := Keeps s0 t.1) (fun ht => ?_) ?_; clear_value t; rotate_left; dsimp -zeta only [t]; try clear t; rotate_right) | clear_value t)
    | with_reducible apply State.ev_keeps | with_reducible apply State.reading_keeps | with_reducible apply State.takeAnswer_keeps | with_reducible apply State.unmatched_keeps
    | with_reducible apply keeps_ite | (apply_assumption -exfalso -symm) | split

theorem State.takeAck_keeps {s0 s : State} (h : Keeps s0 s) (n : Nat) (p : Packet) : Keeps s0 (s.takeAck n p) := by
  unfold State.takeAck
  iterate 150 all_goals try first
    | (intro) | with_reducible assumption | with_reducible exact Keeps.refl _
    | (extract_lets +onlyGivenNames -lift t; first | (refine keeps_cut (P := Keeps s0 t) (fun ht => ?_) ?_; clear_value t; rotate_left; dsimp -zeta only [t]; try clear t; rotate_right) | (refine keeps_cut (P := Keeps s0 t.1) (fun ht => ?_) ?_; clear_value t; rotate_left; dsimp -zeta only [t]; try clear t; rotate_right) | clear_value t)
    | with_reducible apply State.ev_keeps | with_reducible apply State.unmatched_keeps | with_reducible apply State.reading_keeps | with_reducible apply State.updStall_keeps | with_reducible apply State.asForward_keeps | with_reducible apply State.closeReq_keeps
    | with_reducible apply keeps_ite | (apply_assumption -exfalso -symm) | simp only [keeps_upd] | split

theorem State.absorbLine_keeps {s0 s : State} (h : Keeps s0 s) (i : Nat) (t : Stall) (d : LineData) (who : EpId) : Keeps s0 (s.absorbLine i t d who) := by
  unfold State.absorbLine
  iterate 150 all_goals try first
    | (intro) | with_reducible assumption | with_reducible exact Keeps.refl _
    | (extract_lets +onlyGivenNames -lift t; first | (refine keeps_cut (P := Keeps s0 t) (fun ht => ?_) ?_; clear_value t; rotate_left; dsimp -zeta only [t]; try clear t; rotate_right) | (refine keeps_cut (P := Keeps s0 t.1) (fun ht => ?_) ?_; clear_value t; rotate_left; dsimp -zeta only [t]; try clear t; rotate_right) | clear_value t)
    | with_reducible apply State.updStall_keeps | with_reducible apply State.inkFill_keeps | with_reducible apply State.inkReserve_keeps
    | with_reducible apply keeps_ite | (apply_assumption -exfalso -symm) | simp only [keeps_upd] | split

theorem State.absorb_keeps {s0 s : State} (h : Keeps s0 s) (n : Nat) (p : Packet) (i : Nat) (t : Stall) : Keeps s0 (s.absorb n p i t) := by
  unfold State.absorb
  iterate 150 all_goals try first
    | (intro) | with_reducible assumption | with_reducible exact Keeps.refl _
    | (extract_lets +onlyGivenNames -lift t; first | (refine keeps_cut (P := Keeps s0 t) (fun ht => ?_) ?_; clear_value t; rotate_left; dsimp -zeta only [t]; try clear t; rotate_right) | (refine keeps_cut (P := Keeps s0 t.1) (fun ht => ?_) ?_; clear_value t; rotate_left; dsimp -zeta only [t]; try clear t; rotate_right) | clear_value t)
    | with_reducible apply State.ev_keeps | with_reducible apply State.absorbLine_keeps | with_reducible apply State.updStall_keeps | with_reducible apply State.onBehalf_keeps | with_reducible apply State.cmpWb_keeps | with_reducible apply State.step1_keeps
    | with_reducible apply keeps_ite | (apply_assumption -exfalso -symm) | simp only [keeps_upd] | split

theorem State.strayWb_keeps {s0 s : State} (h : Keeps s0 s) (n : Nat) (p : Packet) : Keeps s0 (s.strayWb n p) := by
  unfold State.strayWb
  iterate 150 all_goals try first
    | (intro) | with_reducible assumption | with_reducible exact Keeps.refl _
    | (extract_lets +onlyGivenNames -lift t; first | (refine keeps_cut (P := Keeps s0 t) (fun ht => ?_) ?_; clear_value t; rotate_left; dsimp -zeta only [t]; try clear t; rotate_right) | (refine keeps_cut (P := Keeps s0 t.1) (fun ht => ?_) ?_; clear_value t; rotate_left; dsimp -zeta only [t]; try clear t; rotate_right) | clear_value t)
    | with_reducible apply State.ev_keeps | with_reducible apply State.note_keeps | with_reducible apply State.tell_keeps
    | with_reducible apply keeps_ite | split

theorem State.wbTake_keeps {s0 s : State} (h : Keeps s0 s) (n : Nat) (p : Packet) (h : HIdx) (i sl : Nat) : Keeps s0 (s.wbTake n p h i sl) := by
  unfold State.wbTake
  iterate 150 all_goals try first
    | (intro) | with_reducible assumption | with_reducible exact Keeps.refl _
    | (extract_lets +onlyGivenNames -lift t; first | (refine keeps_cut (P := Keeps s0 t) (fun ht => ?_) ?_; clear_value t; rotate_left; dsimp -zeta only [t]; try clear t; rotate_right) | (refine keeps_cut (P := Keeps s0 t.1) (fun ht => ?_) ?_; clear_value t; rotate_left; dsimp -zeta only [t]; try clear t; rotate_right) | clear_value t)
    | with_reducible apply State.ev_keeps | with_reducible apply State.openStall_keeps | with_reducible apply State.inkReserve_keeps | with_reducible apply State.inkFill_keeps | with_reducible apply State.dropOwner_keeps | with_reducible apply State.freeEntry_keeps | with_reducible apply State.tell_keeps | with_reducible apply State.doClose_keeps
    | with_reducible apply keeps_ite | split

theorem State.writeBack_keeps {s0 s : State} {n : Nat} {p : Packet} {t : State} (e : s.writeBack n p = some t) (h : Keeps s0 s) :
    Keeps s0 t := by
  unfold State.writeBack at e
  split at e
  · exact Option.some.inj e ▸ State.tell_keeps h _ _
  split at e
  · exact Option.some.inj e ▸ State.strayWb_keeps h _ _
  split at e
  · exact Option.some.inj e ▸ State.viol_keeps h _ _ _ _ _ _ _ _
  rename_i x _
  have hd : Keeps s0 (s.dirAccess x) := State.dirAccess_keeps h x
  generalize s.dirAccess x = s1 at e hd
  dsimp only at e
  split at e
  · exact Option.some.inj e ▸ State.tell_keeps hd _ _
  split at e
  · exact Option.some.inj e ▸ State.strayWb_keeps hd _ _
  split at e
  · split at e
    · split at e
      · cases e
      · exact Option.some.inj e ▸ State.absorb_keeps hd _ _ _ _
    · cases e
  · split at e
    · exact Option.some.inj e ▸ State.wbTake_keeps hd _ _ _ _ _
    · cases e

theorem State.relayFail_keeps {s0 s : State} (h : Keeps s0 s) (ri : Nat) (t : Stall) (w : Wait) (why : Nat) : Keeps s0 (s.relayFail ri t w why) := by
  unfold State.relayFail
  iterate 150 all_goals try first
    | (intro) | with_reducible assumption | with_reducible exact Keeps.refl _
    | (extract_lets +onlyGivenNames -lift t; first | (refine keeps_cut (P := Keeps s0 t) (fun ht => ?_) ?_; clear_value t; rotate_left; dsimp -zeta only [t]; try clear t; rotate_right) | (refine keeps_cut (P := Keeps s0 t.1) (fun ht => ?_) ?_; clear_value t; rotate_left; dsimp -zeta only [t]; try clear t; rotate_right) | clear_value t)
    | with_reducible apply State.relayFailNote_keeps | with_reducible apply State.setFlag_keeps | with_reducible apply State.ev_keeps | with_reducible apply State.redo_keeps | with_reducible apply State.rlySend_keeps | with_reducible apply State.declare_keeps
    | with_reducible apply keeps_ite | simp only [keeps_upd] | split

theorem State.relayDone_keeps {s0 s : State} (h : Keeps s0 s) (ri : Nat) (t : Stall) (w : Wait) (clear : Bool) : Keeps s0 (s.relayDone ri t w clear) := by
  unfold State.relayDone
  iterate 150 all_goals try first
    | (intro) | with_reducible assumption | with_reducible exact Keeps.refl _
    | (extract_lets +onlyGivenNames -lift t; first | (refine keeps_cut (P := Keeps s0 t) (fun ht => ?_) ?_; clear_value t; rotate_left; dsimp -zeta only [t]; try clear t; rotate_right) | (refine keeps_cut (P := Keeps s0 t.1) (fun ht => ?_) ?_; clear_value t; rotate_left; dsimp -zeta only [t]; try clear t; rotate_right) | clear_value t)
    | with_reducible apply State.updStall_keeps | with_reducible apply State.relayStep_keeps
    | with_reducible apply keeps_ite | (apply_assumption -exfalso -symm) | simp only [keeps_upd] | split

theorem State.takeRlyAck_keeps {s0 s : State} (h : Keeps s0 s) (n : Nat) (p : Packet) : Keeps s0 (s.takeRlyAck n p) := by
  unfold State.takeRlyAck
  iterate 150 all_goals try first
    | (intro) | with_reducible assumption | with_reducible exact Keeps.refl _
    | (extract_lets +onlyGivenNames -lift t; first | (refine keeps_cut (P := Keeps s0 t) (fun ht => ?_) ?_; clear_value t; rotate_left; dsimp -zeta only [t]; try clear t; rotate_right) | (refine keeps_cut (P := Keeps s0 t.1) (fun ht => ?_) ?_; clear_value t; rotate_left; dsimp -zeta only [t]; try clear t; rotate_right) | clear_value t)
    | with_reducible apply State.ev_keeps | with_reducible apply State.reading_keeps | with_reducible apply State.unmatched_keeps | with_reducible apply State.relayFail_keeps | with_reducible apply State.note_keeps | with_reducible apply State.setFlag_keeps | with_reducible apply State.census_keeps | with_reducible apply State.relayDone_keeps
    | with_reducible apply keeps_ite | (apply_assumption -exfalso -symm) | split


end Sys2Proof.Machine
end

