-- ==== Sys2Proof/Laws/KeepsRecovery.lean ====
section
/-! SUPPORT. Every named operation of Machine/Recovery.lean keeps what `Keeps` names. -/

set_option linter.unusedTactic false
set_option linter.unreachableTactic false
set_option linter.unusedVariables false
set_option linter.tactic.unusedName false

namespace Sys2Proof.Machine

theorem State.flushPump_keeps {s0 s : State} (h : Keeps s0 s) : Keeps s0 (s.flushPump) := by
  unfold State.flushPump
  iterate 150 all_goals try first
    | (intro) | with_reducible assumption | with_reducible exact Keeps.refl _
    | (extract_lets +onlyGivenNames -lift t; first | (refine keeps_cut (P := Keeps s0 t) (fun ht => ?_) ?_; clear_value t; rotate_left; dsimp -zeta only [t]; try clear t; rotate_right) | (refine keeps_cut (P := Keeps s0 t.1) (fun ht => ?_) ?_; clear_value t; rotate_left; dsimp -zeta only [t]; try clear t; rotate_right) | clear_value t)
    | with_reducible apply State.readAll_keeps
    | with_reducible apply keeps_ite | with_reducible apply keeps_rcvTx | simp only [keeps_upd] | split

theorem State.fenceMoved_keeps {s0 s : State} (h : Keeps s0 s) (k st : Nat) (who : EpId) : Keeps s0 (s.fenceMoved k st who) := by
  unfold State.fenceMoved
  iterate 150 all_goals try first
    | (intro) | with_reducible assumption | with_reducible exact Keeps.refl _
    | (extract_lets +onlyGivenNames -lift t; first | (refine keeps_cut (P := Keeps s0 t) (fun ht => ?_) ?_; clear_value t; rotate_left; dsimp -zeta only [t]; try clear t; rotate_right) | (refine keeps_cut (P := Keeps s0 t.1) (fun ht => ?_) ?_; clear_value t; rotate_left; dsimp -zeta only [t]; try clear t; rotate_right) | clear_value t)
    | with_reducible apply State.setFlag_keeps | with_reducible apply State.note_keeps | with_reducible apply State.noticeFence_keeps
    | with_reducible apply keeps_ite | split

theorem State.unfence_keeps {s0 s : State} (h : Keeps s0 s) (k : Nat) : Keeps s0 (s.unfence k) := by
  unfold State.unfence
  iterate 150 all_goals try first
    | with_reducible assumption | with_reducible exact Keeps.refl _
    | with_reducible apply State.setFld_keeps | with_reducible apply State.fenceMoved_keeps
    | with_reducible apply keeps_ite | split

theorem State.suspect_keeps {s0 s : State} (h : Keeps s0 s) (who : EpId) (trig : Nat) : Keeps s0 (s.suspect who trig) := by
  unfold State.suspect
  iterate 150 all_goals try first
    | (intro) | with_reducible assumption | with_reducible exact Keeps.refl _
    | (extract_lets +onlyGivenNames -lift t; first | (refine keeps_cut (P := Keeps s0 t) (fun ht => ?_) ?_; clear_value t; rotate_left; dsimp -zeta only [t]; try clear t; rotate_right) | (refine keeps_cut (P := Keeps s0 t.1) (fun ht => ?_) ?_; clear_value t; rotate_left; dsimp -zeta only [t]; try clear t; rotate_right) | clear_value t)
    | with_reducible apply State.declare_keeps | with_reducible apply State.setReg_keeps | with_reducible apply State.fenceMoved_keeps | with_reducible apply State.flushPump_keeps
    | with_reducible apply keeps_ite | simp only [keeps_upd] | split

theorem State.joinPurge_keeps {s0 s : State} (h : Keeps s0 s) (who : EpId) : Keeps s0 (s.joinPurge who) := by
  unfold State.joinPurge
  iterate 150 all_goals try first
    | with_reducible assumption | with_reducible exact Keeps.refl _
    | (extract_lets +onlyGivenNames -lift t; first | (refine keeps_cut (P := Keeps s0 t) (fun ht => ?_) ?_; clear_value t; rotate_left; dsimp -zeta only [t]; try clear t; rotate_right) | (refine keeps_cut (P := Keeps s0 t.1) (fun ht => ?_) ?_; clear_value t; rotate_left; dsimp -zeta only [t]; try clear t; rotate_right) | clear_value t)
    | with_reducible apply keeps_ite | simp only [keeps_upd] | split

theorem State.outcome_keeps {s0 s : State} (h : Keeps s0 s) (who : EpId) (code : Nat) : Keeps s0 (s.outcome who code) := by
  unfold State.outcome
  iterate 150 all_goals try first
    | (intro) | with_reducible assumption | with_reducible exact Keeps.refl _
    | (extract_lets +onlyGivenNames -lift t; first | (refine keeps_cut (P := Keeps s0 t) (fun ht => ?_) ?_; clear_value t; rotate_left; dsimp -zeta only [t]; try clear t; rotate_right) | (refine keeps_cut (P := Keeps s0 t.1) (fun ht => ?_) ?_; clear_value t; rotate_left; dsimp -zeta only [t]; try clear t; rotate_right) | clear_value t)
    | with_reducible apply State.setFld_keeps | with_reducible apply State.fenceMoved_keeps | with_reducible apply State.joinPurge_keeps | with_reducible apply State.flushed_keeps
    | with_reducible apply keeps_ite | simp only [keeps_upd] | split

theorem State.retire_keeps {s0 s : State} (h : Keeps s0 s) (who : EpId) : Keeps s0 (s.retire who) := by
  unfold State.retire
  iterate 150 all_goals try first
    | (intro) | with_reducible assumption | with_reducible exact Keeps.refl _
    | with_reducible apply State.setFld_keeps | with_reducible apply State.fenceMoved_keeps
    | with_reducible apply keeps_ite | split

theorem State.purgeVisit_keeps {s0 s : State} (h : Keeps s0 s) : Keeps s0 (s.purgeVisit) := by
  unfold State.purgeVisit
  iterate 150 all_goals try first
    | (intro) | with_reducible assumption | with_reducible exact Keeps.refl _
    | (extract_lets +onlyGivenNames -lift t; first | (refine keeps_cut (P := Keeps s0 t) (fun ht => ?_) ?_; clear_value t; rotate_left; dsimp -zeta only [t]; try clear t; rotate_right) | (refine keeps_cut (P := Keeps s0 t.1) (fun ht => ?_) ?_; clear_value t; rotate_left; dsimp -zeta only [t]; try clear t; rotate_right) | clear_value t)
    | with_reducible apply State.retire_keeps | with_reducible apply State.joinPurge_keeps | with_reducible apply State.setReg_keeps | with_reducible apply State.dirProbe_keeps | with_reducible apply State.extRead_keeps | with_reducible apply State.purgeEntry_keeps | with_reducible apply State.setFld_keeps
    | with_reducible apply keeps_ite | with_reducible apply keeps_foldl | (apply_assumption -exfalso -symm) | simp only [keeps_upd] | split

theorem State.aliasApply_keeps {s0 s : State} (h : Keeps s0 s) (lo ph : Nat) (set : Bool) : Keeps s0 (s.aliasApply lo ph set).1 := by
  unfold State.aliasApply
  iterate 150 all_goals try first
    | (intro) | with_reducible assumption | with_reducible exact Keeps.refl _
    | (extract_lets +onlyGivenNames -lift t; first | (refine keeps_cut (P := Keeps s0 t) (fun ht => ?_) ?_; clear_value t; rotate_left; dsimp -zeta only [t]; try clear t; rotate_right) | (refine keeps_cut (P := Keeps s0 t.1) (fun ht => ?_) ?_; clear_value t; rotate_left; dsimp -zeta only [t]; try clear t; rotate_right) | clear_value t)
    | with_reducible apply State.readAll_keeps | with_reducible apply State.setReg_keeps | with_reducible apply State.ev_keeps | with_reducible apply State.unfence_keeps | with_reducible apply State.setFld_keeps | with_reducible apply State.setFlag_keeps
    | with_reducible apply keeps_ite | (apply_assumption -exfalso -symm) | simp only [keeps_upd] | split
theorem State.aliasApply_keeps_eq {s0 s : State} {lo ph : Nat} {set : Bool} {p : State × Nat} (e : s.aliasApply lo ph set = p) (h : Keeps s0 s) : Keeps s0 p.1 := e ▸ State.aliasApply_keeps h _ _ _

theorem State.bcastEnd_keeps {s0 s : State} (h : Keeps s0 s) : Keeps s0 (s.bcastEnd) := by
  unfold State.bcastEnd
  iterate 150 all_goals try first
    | (intro) | with_reducible assumption | with_reducible exact Keeps.refl _
    | (extract_lets +onlyGivenNames -lift t; first | (refine keeps_cut (P := Keeps s0 t) (fun ht => ?_) ?_; clear_value t; rotate_left; dsimp -zeta only [t]; try clear t; rotate_right) | (refine keeps_cut (P := Keeps s0 t.1) (fun ht => ?_) ?_; clear_value t; rotate_left; dsimp -zeta only [t]; try clear t; rotate_right) | clear_value t)
    | with_reducible apply State.setFld_keeps | with_reducible apply State.setFlag_keeps
    | with_reducible apply keeps_ite | simp only [keeps_upd] | split

theorem State.bcastPump_keeps {s0 s : State} (h : Keeps s0 s) (fuel : Nat) : Keeps s0 (s.bcastPump fuel) := by
  induction fuel generalizing s with
  | zero =>
    unfold State.bcastPump
    iterate 150 all_goals try first
      | (intro) | with_reducible assumption | with_reducible exact Keeps.refl _
      | (extract_lets +onlyGivenNames -lift t; first | (refine keeps_cut (P := Keeps s0 t) (fun ht => ?_) ?_; clear_value t; rotate_left; dsimp -zeta only [t]; try clear t; rotate_right) | (refine keeps_cut (P := Keeps s0 t.1) (fun ht => ?_) ?_; clear_value t; rotate_left; dsimp -zeta only [t]; try clear t; rotate_right) | (refine keeps_cut (P := ∀ u a, Keeps s0 u → Keeps s0 (t u a)) (fun ht => ?_) ?_; clear_value t; rotate_left; dsimp -zeta only [t]; try clear t; rotate_right) | (refine keeps_cut (P := ∀ u, Keeps s0 u → Keeps s0 (t u)) (fun ht => ?_) ?_; clear_value t; rotate_left; dsimp -zeta only [t]; try clear t; rotate_right) | (refine keeps_cut (P := ∀ u, Keeps s0 u → Keeps s0 (t u).1) (fun ht => ?_) ?_; clear_value t; rotate_left; dsimp -zeta only [t]; try clear t; rotate_right) | clear_value t)
      | with_reducible apply State.tell_keeps | with_reducible apply State.addFld_keeps
      | with_reducible apply keeps_ite | simp only [keeps_upd] | split
  | succ fuel ih =>
    unfold State.bcastPump
    iterate 150 all_goals try first
      | (intro) | with_reducible assumption | with_reducible exact Keeps.refl _
      | (extract_lets +onlyGivenNames -lift t; first | (refine keeps_cut (P := Keeps s0 t) (fun ht => ?_) ?_; clear_value t; rotate_left; dsimp -zeta only [t]; try clear t; rotate_right) | (refine keeps_cut (P := Keeps s0 t.1) (fun ht => ?_) ?_; clear_value t; rotate_left; dsimp -zeta only [t]; try clear t; rotate_right) | (refine keeps_cut (P := ∀ u a, Keeps s0 u → Keeps s0 (t u a)) (fun ht => ?_) ?_; clear_value t; rotate_left; dsimp -zeta only [t]; try clear t; rotate_right) | (refine keeps_cut (P := ∀ u, Keeps s0 u → Keeps s0 (t u)) (fun ht => ?_) ?_; clear_value t; rotate_left; dsimp -zeta only [t]; try clear t; rotate_right) | (refine keeps_cut (P := ∀ u, Keeps s0 u → Keeps s0 (t u).1) (fun ht => ?_) ?_; clear_value t; rotate_left; dsimp -zeta only [t]; try clear t; rotate_right) | clear_value t)
      | with_reducible apply State.tell_keeps | with_reducible apply State.addFld_keeps | with_reducible apply ih
      | with_reducible apply keeps_ite | simp only [keeps_upd] | split

theorem State.bcastStart_keeps {s0 s : State} (h : Keeps s0 s) (kind : Nat) (op : BitVec 6) (det : BitVec 40) (targets : List EpId) : Keeps s0 (s.bcastStart kind op det targets) := by
  unfold State.bcastStart
  iterate 150 all_goals try first
    | (intro) | with_reducible assumption | with_reducible exact Keeps.refl _
    | (extract_lets +onlyGivenNames -lift t; first | (refine keeps_cut (P := Keeps s0 t) (fun ht => ?_) ?_; clear_value t; rotate_left; dsimp -zeta only [t]; try clear t; rotate_right) | (refine keeps_cut (P := Keeps s0 t.1) (fun ht => ?_) ?_; clear_value t; rotate_left; dsimp -zeta only [t]; try clear t; rotate_right) | clear_value t)
    | with_reducible apply State.setReg_keeps | with_reducible apply State.bcastPump_keeps | with_reducible apply State.bcastEnd_keeps
    | with_reducible apply keeps_ite | simp only [keeps_upd] | split

theorem State.stopStall_keeps {s0 s : State} (h : Keeps s0 s) (t : Stall) : Keeps s0 (s.stopStall t) := by
  unfold State.stopStall
  iterate 150 all_goals try first
    | (intro) | with_reducible assumption | with_reducible exact Keeps.refl _
    | (extract_lets +onlyGivenNames -lift t; first | (refine keeps_cut (P := Keeps s0 t) (fun ht => ?_) ?_; clear_value t; rotate_left; dsimp -zeta only [t]; try clear t; rotate_right) | (refine keeps_cut (P := Keeps s0 t.1) (fun ht => ?_) ?_; clear_value t; rotate_left; dsimp -zeta only [t]; try clear t; rotate_right) | clear_value t)
    | with_reducible apply State.tell_keeps
    | with_reducible apply keeps_ite | simp only [keeps_upd] | split

theorem State.stopStream_keeps {s0 s : State} (h : Keeps s0 s) (e : Nat × List CpOpen) : Keeps s0 (s.stopStream e) := by
  unfold State.stopStream
  iterate 150 all_goals try first
    | (intro) | with_reducible assumption | with_reducible exact Keeps.refl _
    | with_reducible apply State.cpRespond_keeps
    | with_reducible apply keeps_ite | with_reducible apply keeps_foldl | (apply_assumption -exfalso -symm) | split

theorem State.sweep_keeps {s0 s : State} (h : Keeps s0 s) : Keeps s0 (s.sweep) := by
  unfold State.sweep
  iterate 150 all_goals try first
    | (intro) | with_reducible assumption | with_reducible exact Keeps.refl _
    | (extract_lets +onlyGivenNames -lift t; first | (refine keeps_cut (P := Keeps s0 t) (fun ht => ?_) ?_; clear_value t; rotate_left; dsimp -zeta only [t]; try clear t; rotate_right) | (refine keeps_cut (P := Keeps s0 t.1) (fun ht => ?_) ?_; clear_value t; rotate_left; dsimp -zeta only [t]; try clear t; rotate_right) | clear_value t)
    | with_reducible apply State.stopStall_keeps | with_reducible apply State.tell_keeps | with_reducible apply State.stopStream_keeps | with_reducible apply State.setReg_keeps | with_reducible apply State.setFld_keeps | with_reducible apply State.setFlag_keeps | with_reducible apply State.bcastStart_keeps
    | with_reducible apply keeps_ite | with_reducible apply keeps_foldl | (apply_assumption -exfalso -symm) | simp only [keeps_upd] | split


end Sys2Proof.Machine
end

