-- ==== Sys2Proof/Laws/KeepsSlow.lean ====
section
/-! SUPPORT. Every named operation of Machine/Slow.lean keeps what `Keeps` names. -/

set_option linter.unusedTactic false
set_option linter.unreachableTactic false
set_option linter.unusedVariables false
set_option linter.tactic.unusedName false

namespace Sys2Proof.Machine

theorem State.bankMoves_keeps {s0 s : State} (h : Keeps s0 s) (fuel : Nat) : Keeps s0 (s.bankMoves fuel) := by
  induction fuel generalizing s with
  | zero =>
    unfold State.bankMoves
    iterate 150 all_goals try first
      | (intro) | with_reducible assumption | with_reducible exact Keeps.refl _
      | (extract_lets +onlyGivenNames -lift t; first | (refine keeps_cut (P := Keeps s0 t) (fun ht => ?_) ?_; clear_value t; rotate_left; dsimp -zeta only [t]; try clear t; rotate_right) | (refine keeps_cut (P := Keeps s0 t.1) (fun ht => ?_) ?_; clear_value t; rotate_left; dsimp -zeta only [t]; try clear t; rotate_right) | (refine keeps_cut (P := ∀ u a, Keeps s0 u → Keeps s0 (t u a)) (fun ht => ?_) ?_; clear_value t; rotate_left; dsimp -zeta only [t]; try clear t; rotate_right) | (refine keeps_cut (P := ∀ u, Keeps s0 u → Keeps s0 (t u)) (fun ht => ?_) ?_; clear_value t; rotate_left; dsimp -zeta only [t]; try clear t; rotate_right) | (refine keeps_cut (P := ∀ u, Keeps s0 u → Keeps s0 (t u).1) (fun ht => ?_) ?_; clear_value t; rotate_left; dsimp -zeta only [t]; try clear t; rotate_right) | clear_value t)
      | with_reducible apply State.inkReserve_keeps
      | with_reducible apply keeps_ite | simp only [keeps_upd] | split
  | succ fuel ih =>
    unfold State.bankMoves
    iterate 150 all_goals try first
      | (intro) | with_reducible assumption | with_reducible exact Keeps.refl _
      | (extract_lets +onlyGivenNames -lift t; first | (refine keeps_cut (P := Keeps s0 t) (fun ht => ?_) ?_; clear_value t; rotate_left; dsimp -zeta only [t]; try clear t; rotate_right) | (refine keeps_cut (P := Keeps s0 t.1) (fun ht => ?_) ?_; clear_value t; rotate_left; dsimp -zeta only [t]; try clear t; rotate_right) | (refine keeps_cut (P := ∀ u a, Keeps s0 u → Keeps s0 (t u a)) (fun ht => ?_) ?_; clear_value t; rotate_left; dsimp -zeta only [t]; try clear t; rotate_right) | (refine keeps_cut (P := ∀ u, Keeps s0 u → Keeps s0 (t u)) (fun ht => ?_) ?_; clear_value t; rotate_left; dsimp -zeta only [t]; try clear t; rotate_right) | (refine keeps_cut (P := ∀ u, Keeps s0 u → Keeps s0 (t u).1) (fun ht => ?_) ?_; clear_value t; rotate_left; dsimp -zeta only [t]; try clear t; rotate_right) | clear_value t)
      | with_reducible apply State.inkReserve_keeps | with_reducible apply ih
      | with_reducible apply keeps_ite | simp only [keeps_upd] | split

theorem State.startMove_keeps {s0 s : State} (h : Keeps s0 s) : Keeps s0 (s.startMove) := by
  unfold State.startMove
  iterate 150 all_goals try first
    | (intro) | with_reducible assumption | with_reducible exact Keeps.refl _
    | (extract_lets +onlyGivenNames -lift t; first | (refine keeps_cut (P := Keeps s0 t) (fun ht => ?_) ?_; clear_value t; rotate_left; dsimp -zeta only [t]; try clear t; rotate_right) | (refine keeps_cut (P := Keeps s0 t.1) (fun ht => ?_) ?_; clear_value t; rotate_left; dsimp -zeta only [t]; try clear t; rotate_right) | clear_value t)
    | with_reducible apply State.inkReserve_keeps | with_reducible apply State.bankMoves_keeps
    | with_reducible apply keeps_ite | simp only [keeps_upd] | split

theorem State.bankFree_keeps {s0 s : State} (h : Keeps s0 s) : Keeps s0 (s.bankFree) := by
  unfold State.bankFree
  iterate 150 all_goals try first
    | (intro) | with_reducible assumption | with_reducible exact Keeps.refl _
    | (extract_lets +onlyGivenNames -lift t; first | (refine keeps_cut (P := Keeps s0 t) (fun ht => ?_) ?_; clear_value t; rotate_left; dsimp -zeta only [t]; try clear t; rotate_right) | (refine keeps_cut (P := Keeps s0 t.1) (fun ht => ?_) ?_; clear_value t; rotate_left; dsimp -zeta only [t]; try clear t; rotate_right) | clear_value t)
    | with_reducible apply keeps_ite | (apply_assumption -exfalso -symm) | simp only [keeps_upd] | split

theorem State.setBank_keeps {s0 s : State} (h : Keeps s0 s) (b v : Nat) : Keeps s0 (s.setBank b v) := by
  unfold State.setBank
  iterate 150 all_goals try first
    | with_reducible assumption | with_reducible exact Keeps.refl _
    | with_reducible apply State.setFld_keeps
    | with_reducible apply keeps_ite | split

theorem State.bankOff_keeps {s0 s : State} (h : Keeps s0 s) (b : Nat) : Keeps s0 (s.bankOff b) := by
  unfold State.bankOff
  iterate 150 all_goals try first
    | (intro) | with_reducible assumption | with_reducible exact Keeps.refl _
    | (extract_lets +onlyGivenNames -lift t; first | (refine keeps_cut (P := Keeps s0 t) (fun ht => ?_) ?_; clear_value t; rotate_left; dsimp -zeta only [t]; try clear t; rotate_right) | (refine keeps_cut (P := Keeps s0 t.1) (fun ht => ?_) ?_; clear_value t; rotate_left; dsimp -zeta only [t]; try clear t; rotate_right) | clear_value t)
    | with_reducible apply State.setBank_keeps | with_reducible apply State.setFlag_keeps
    | with_reducible apply keeps_ite | (apply_assumption -exfalso -symm) | simp only [keeps_upd] | split

theorem State.drainEnd_keeps {s0 s : State} (h : Keeps s0 s) : Keeps s0 (s.drainEnd) := by
  unfold State.drainEnd
  iterate 150 all_goals try first
    | (intro) | with_reducible assumption | with_reducible exact Keeps.refl _
    | with_reducible apply State.setFld_keeps
    | with_reducible apply keeps_ite | (apply_assumption -exfalso -symm) | split

theorem State.alcWork_keeps {s0 s : State} (h : Keeps s0 s) : Keeps s0 (s.alcWork) := by
  unfold State.alcWork
  iterate 150 all_goals try first
    | (intro) | with_reducible assumption | with_reducible exact Keeps.refl _
    | (extract_lets +onlyGivenNames -lift t; first | (refine keeps_cut (P := Keeps s0 t) (fun ht => ?_) ?_; clear_value t; rotate_left; dsimp -zeta only [t]; try clear t; rotate_right) | (refine keeps_cut (P := Keeps s0 t.1) (fun ht => ?_) ?_; clear_value t; rotate_left; dsimp -zeta only [t]; try clear t; rotate_right) | clear_value t)
    | with_reducible apply State.alcTags_keeps | with_reducible apply State.bankFree_keeps | with_reducible apply State.startMove_keeps | with_reducible apply State.bankOff_keeps | with_reducible apply State.drainEnd_keeps
    | with_reducible apply keeps_ite | with_reducible apply keeps_foldl | (apply_assumption -exfalso -symm) | split

theorem State.preEnd_keeps {s0 s : State} (h : Keeps s0 s) (result : Nat) : Keeps s0 (s.preEnd result) := by
  unfold State.preEnd
  iterate 150 all_goals try first
    | with_reducible assumption | with_reducible exact Keeps.refl _
    | (extract_lets +onlyGivenNames -lift t; first | (refine keeps_cut (P := Keeps s0 t) (fun ht => ?_) ?_; clear_value t; rotate_left; dsimp -zeta only [t]; try clear t; rotate_right) | (refine keeps_cut (P := Keeps s0 t.1) (fun ht => ?_) ?_; clear_value t; rotate_left; dsimp -zeta only [t]; try clear t; rotate_right) | clear_value t)
    | with_reducible apply State.setReg_keeps
    | with_reducible apply keeps_ite | simp only [keeps_upd] | split

theorem State.preDone_keeps {s0 s : State} (h : Keeps s0 s) (k : Nat) : Keeps s0 (s.preDone k) := by
  unfold State.preDone
  iterate 150 all_goals try first
    | with_reducible assumption | with_reducible exact Keeps.refl _
    | (extract_lets +onlyGivenNames -lift t; first | (refine keeps_cut (P := Keeps s0 t) (fun ht => ?_) ?_; clear_value t; rotate_left; dsimp -zeta only [t]; try clear t; rotate_right) | (refine keeps_cut (P := Keeps s0 t.1) (fun ht => ?_) ?_; clear_value t; rotate_left; dsimp -zeta only [t]; try clear t; rotate_right) | clear_value t)
    | with_reducible apply State.setReg_keeps
    | with_reducible apply keeps_ite | simp only [keeps_upd] | split

theorem State.flushTry_keeps {s0 s : State} (h : Keeps s0 s) (r : Req) : Keeps s0 (s.flushTry r) := by
  unfold State.flushTry
  iterate 150 all_goals try first
    | (intro) | with_reducible assumption | with_reducible exact Keeps.refl _
    | (extract_lets +onlyGivenNames -lift t; first | (refine keeps_cut (P := Keeps s0 t) (fun ht => ?_) ?_; clear_value t; rotate_left; dsimp -zeta only [t]; try clear t; rotate_right) | (refine keeps_cut (P := Keeps s0 t.1) (fun ht => ?_) ?_; clear_value t; rotate_left; dsimp -zeta only [t]; try clear t; rotate_right) | clear_value t)
    | with_reducible apply State.alcTags_keeps | with_reducible apply State.alcFree_keeps | with_reducible apply State.preDone_keeps | with_reducible apply State.inkReserve_keeps | with_reducible apply State.alcRead_keeps | (refine State.alcRead_keeps_eq (p := (_, _)) (by assumption) ?_) | with_reducible apply State.inkFill_keeps | with_reducible apply State.preEnd_keeps
    | with_reducible apply keeps_ite | split

theorem State.preWork_keeps {s0 s : State} (h : Keeps s0 s) : Keeps s0 (s.preWork) := by
  unfold State.preWork
  iterate 150 all_goals try first
    | (intro) | with_reducible assumption | with_reducible exact Keeps.refl _
    | with_reducible apply State.preEnd_keeps | with_reducible apply State.flushTry_keeps | with_reducible apply State.dispatch_keeps
    | with_reducible apply keeps_ite | split

theorem State.wayWork_keeps {s0 s : State} (h : Keeps s0 s) : Keeps s0 (s.wayWork) := by
  unfold State.wayWork
  iterate 150 all_goals try first
    | (intro) | with_reducible assumption | with_reducible exact Keeps.refl _
    | with_reducible apply State.setFld_keeps | with_reducible apply State.setFlag_keeps
    | with_reducible apply keeps_ite | (apply_assumption -exfalso -symm) | split

theorem State.loseCredits_keeps {s0 s : State} (h : Keeps s0 s) (n : Nat) : Keeps s0 (s.loseCredits n) := by
  unfold State.loseCredits
  iterate 150 all_goals try first
    | (intro) | with_reducible assumption | with_reducible exact Keeps.refl _
    | (extract_lets +onlyGivenNames -lift t; first | (refine keeps_cut (P := Keeps s0 t) (fun ht => ?_) ?_; clear_value t; rotate_left; dsimp -zeta only [t]; try clear t; rotate_right) | (refine keeps_cut (P := Keeps s0 t.1) (fun ht => ?_) ?_; clear_value t; rotate_left; dsimp -zeta only [t]; try clear t; rotate_right) | clear_value t)
    | with_reducible apply State.setNp_keeps
    | with_reducible apply keeps_ite | (apply_assumption -exfalso -symm) | simp only [keeps_upd] | split

theorem State.npWork_keeps {s0 s : State} (h : Keeps s0 s) (n : Nat) : Keeps s0 (s.npWork n) := by
  unfold State.npWork
  iterate 150 all_goals try first
    | with_reducible assumption | with_reducible exact Keeps.refl _
    | with_reducible apply State.setLink_keeps | with_reducible apply State.loseCredits_keeps
    | with_reducible apply keeps_ite | split

theorem State.slow_keeps {s0 s : State} (h : Keeps s0 s) : Keeps s0 (s.slow) := by
  unfold State.slow
  iterate 150 all_goals try first
    | (intro) | with_reducible assumption | with_reducible exact Keeps.refl _
    | with_reducible apply State.npWork_keeps | with_reducible apply State.alcWork_keeps | with_reducible apply State.preWork_keeps | with_reducible apply State.wayWork_keeps
    | with_reducible apply keeps_ite | with_reducible apply keeps_foldl | (apply_assumption -exfalso -symm) | split


end Sys2Proof.Machine
end

