-- ==== Sys2Proof/Laws/KeepsReset.lean ====
section
/-! SUPPORT. Every named operation of Machine/Reset.lean keeps what `Keeps` names. -/

set_option linter.unusedTactic false
set_option linter.unreachableTactic false
set_option linter.unusedVariables false
set_option linter.tactic.unusedName false

namespace Sys2Proof.Machine

theorem State.blotLost_keeps {s0 s : State} (h : Keeps s0 s) (src : Nat) : Keeps s0 (s.blotLost src) := by
  unfold State.blotLost
  iterate 150 all_goals try first
    | with_reducible assumption | with_reducible exact Keeps.refl _
    | with_reducible apply State.addFld_keeps | with_reducible apply State.setFld_keeps | with_reducible apply State.ev_keeps
    | with_reducible apply keeps_ite | split

theorem State.blotStore_keeps {s0 s : State} (h : Keeps s0 s) (r : BlotRec) : Keeps s0 (s.blotStore r) := by
  unfold State.blotStore
  iterate 150 all_goals try first
    | (intro) | with_reducible assumption | with_reducible exact Keeps.refl _
    | (extract_lets +onlyGivenNames -lift t; first | (refine keeps_cut (P := Keeps s0 t) (fun ht => ?_) ?_; clear_value t; rotate_left; dsimp -zeta only [t]; try clear t; rotate_right) | (refine keeps_cut (P := Keeps s0 t.1) (fun ht => ?_) ?_; clear_value t; rotate_left; dsimp -zeta only [t]; try clear t; rotate_right) | clear_value t)
    | with_reducible apply State.blotLost_keeps | with_reducible apply State.blot_keeps | with_reducible apply State.addFld_keeps | with_reducible apply State.setReg_keeps | with_reducible apply State.ev_keeps | with_reducible apply State.setFlag_keeps
    | with_reducible apply keeps_ite | simp only [keeps_upd] | split

theorem State.blotWrite_keeps {s0 s : State} (h : Keeps s0 s) : Keeps s0 (s.blotWrite) := by
  unfold State.blotWrite
  iterate 150 all_goals try first
    | (intro) | with_reducible assumption | with_reducible exact Keeps.refl _
    | (extract_lets +onlyGivenNames -lift t; first | (refine keeps_cut (P := Keeps s0 t) (fun ht => ?_) ?_; clear_value t; rotate_left; dsimp -zeta only [t]; try clear t; rotate_right) | (refine keeps_cut (P := Keeps s0 t.1) (fun ht => ?_) ?_; clear_value t; rotate_left; dsimp -zeta only [t]; try clear t; rotate_right) | clear_value t)
    | with_reducible apply State.blotStore_keeps
    | with_reducible apply keeps_ite | simp only [keeps_upd] | split

theorem State.blotFlush_keeps {s0 s : State} (h : Keeps s0 s) (fuel : Nat) : Keeps s0 (s.blotFlush fuel) := by
  induction fuel generalizing s with
  | zero =>
    unfold State.blotFlush
    iterate 150 all_goals try first
      | with_reducible assumption | with_reducible exact Keeps.refl _
      | with_reducible apply State.blotWrite_keeps
      | with_reducible apply keeps_ite | split
  | succ fuel ih =>
    unfold State.blotFlush
    iterate 150 all_goals try first
      | (intro) | with_reducible assumption | with_reducible exact Keeps.refl _
      | with_reducible apply State.blotWrite_keeps | with_reducible apply ih
      | with_reducible apply keeps_ite | split

theorem State.canonical_filter {s t : State} {p : Nat × Word → Bool} (e : t.win = s.win.filter p) (h : s.canonical = true) :
    t.canonical = true := by
  rw [State.canonical_iff] at h ⊢
  rw [e]
  exact ⟨SMap.risesFrom_filter h.1, fun e he => h.2 e (List.mem_filter.1 he).1⟩

theorem State.domainReset_keeps {s0 s : State} (h : Keeps s0 s) (discover : Bool) : Keeps s0 (s.domainReset discover) := by
  unfold State.domainReset
  extract_lets +onlyGivenNames -lift v s1 s2
  have h1 : Keeps s0 s1 := by
    dsimp -zeta only [s1]
    rw [keeps_upd]
    exact h
  have h2 : Keeps s0 s2 := State.blotFlush_keeps h1 _
  clear_value s2
  extract_lets +onlyGivenNames -lift z v1 v2 boot v3 v4
  have ht : Keeps s0 v4 := h2.trans ⟨rfl, rfl, State.canonical_filter rfl, List.prefix_rfl, List.prefix_rfl, List.prefix_rfl,
    List.prefix_rfl⟩
  clear_value v4
  exact State.setFld_keeps (State.setFlag_keeps (State.setFld_keeps (State.setFld_keeps (State.setReg_keeps ht _ _) _ _ _ _) _ _ _ _) _ _ _) _ _ _ _

theorem State.resetWork_keeps {s0 s : State} (h : Keeps s0 s) : Keeps s0 (s.resetWork) := by
  unfold State.resetWork
  iterate 150 all_goals try first
    | with_reducible assumption | with_reducible exact Keeps.refl _
    | with_reducible apply State.domainReset_keeps
    | with_reducible apply keeps_ite | split

theorem State.domainRequest_keeps {s0 s : State} (h : Keeps s0 s) (src : Nat) (discover : Bool) : Keeps s0 (s.domainRequest src discover) := by
  unfold State.domainRequest
  iterate 150 all_goals try first
    | (intro) | with_reducible assumption | with_reducible exact Keeps.refl _
    | (extract_lets +onlyGivenNames -lift t; first | (refine keeps_cut (P := Keeps s0 t) (fun ht => ?_) ?_; clear_value t; rotate_left; dsimp -zeta only [t]; try clear t; rotate_right) | (refine keeps_cut (P := Keeps s0 t.1) (fun ht => ?_) ?_; clear_value t; rotate_left; dsimp -zeta only [t]; try clear t; rotate_right) | clear_value t)
    | with_reducible apply State.setFld_keeps | with_reducible apply State.setFlag_keeps | with_reducible apply State.setNp_keeps | with_reducible apply State.domainReset_keeps | with_reducible apply State.resetWork_keeps
    | with_reducible apply keeps_ite | with_reducible apply keeps_foldl | (apply_assumption -exfalso -symm) | simp only [keeps_upd] | split


end Sys2Proof.Machine
end

