-- ==== Sys2Proof/Laws/KeepsSettle.lean ====
section
/-! SUPPORT. Every named operation of Machine/Settle.lean keeps what `Keeps` names. -/

set_option linter.unusedTactic false
set_option linter.unreachableTactic false
set_option linter.unusedVariables false
set_option linter.tactic.unusedName false

namespace Sys2Proof.Machine

theorem State.edges_keeps {s0 s : State} (h : Keeps s0 s) (was : Bool) : Keeps s0 (s.edges was) := by
  unfold State.edges
  iterate 150 all_goals try first
    | with_reducible assumption | with_reducible exact Keeps.refl _
    | (extract_lets +onlyGivenNames -lift t; first | (refine keeps_cut (P := Keeps s0 t) (fun ht => ?_) ?_; clear_value t; rotate_left; dsimp -zeta only [t]; try clear t; rotate_right) | (refine keeps_cut (P := Keeps s0 t.1) (fun ht => ?_) ?_; clear_value t; rotate_left; dsimp -zeta only [t]; try clear t; rotate_right) | clear_value t)
    | with_reducible apply State.setReg_keeps
    | with_reducible apply keeps_ite | simp only [keeps_upd] | split

theorem State.safeStep_keeps {s0 s : State} (h : Keeps s0 s) : Keeps s0 (s.safeStep) := by
  unfold State.safeStep
  iterate 150 all_goals try first
    | with_reducible assumption | with_reducible exact Keeps.refl _
    | (extract_lets +onlyGivenNames -lift t; first | (refine keeps_cut (P := Keeps s0 t) (fun ht => ?_) ?_; clear_value t; rotate_left; dsimp -zeta only [t]; try clear t; rotate_right) | (refine keeps_cut (P := Keeps s0 t.1) (fun ht => ?_) ?_; clear_value t; rotate_left; dsimp -zeta only [t]; try clear t; rotate_right) | clear_value t)
    | with_reducible apply State.setFld_keeps
    | with_reducible apply keeps_ite | simp only [keeps_upd] | split

theorem State.swept_keeps {s0 s : State} (h : Keeps s0 s) (z : State) : Keeps s0 (s.swept z) := by
  unfold State.swept
  exact keeps_ite (State.sweep_keeps h) h

theorem finish_keeps {s0 s z : State} (h : Keeps s0 s) : Keeps s0 (finish z s) := by
  unfold finish
  extract_lets +onlyGivenNames -lift t u v w
  have ht : Keeps s0 t := State.swept_keeps h _
  have hu : Keeps s0 u := State.swept_keeps (State.slow_keeps ht) _
  have hv : Keeps s0 v := State.safeStep_keeps (State.resetWork_keeps hu)
  have hw : Keeps s0 w := keeps_ite hv (State.edges_keeps hv _)
  rw [keeps_upd]
  exact hw


end Sys2Proof.Machine
end

