-- ==== Sys2Proof/Laws/KeepsIngress.lean ====
section
/-! SUPPORT. Every named operation of Machine/Ingress.lean keeps what `Keeps` names. -/

set_option linter.unusedTactic false
set_option linter.unreachableTactic false
set_option linter.unusedVariables false
set_option linter.tactic.unusedName false

namespace Sys2Proof.Machine

theorem State.npNote_keeps {s0 s : State} (h : Keeps s0 s) (n : Nat) (p : Packet) (cls det sev : Nat) (arg : BitVec 40) : Keeps s0 (s.npNote n p cls det sev arg) := by
  unfold State.npNote
  iterate 150 all_goals try first
    | with_reducible assumption | with_reducible exact Keeps.refl _
    | with_reducible apply State.note_keeps
    | with_reducible apply keeps_ite | split

theorem State.queueIn_keeps {s0 s : State} (h : Keeps s0 s) (n : Nat) (p : Packet) (phys : EpId) (raw : Bool) : Keeps s0 (s.queueIn n p phys raw) := by
  unfold State.queueIn
  iterate 150 all_goals try first
    | (intro) | with_reducible assumption | with_reducible exact Keeps.refl _
    | (extract_lets +onlyGivenNames -lift t; first | (refine keeps_cut (P := Keeps s0 t) (fun ht => ?_) ?_; clear_value t; rotate_left; dsimp -zeta only [t]; try clear t; rotate_right) | (refine keeps_cut (P := Keeps s0 t.1) (fun ht => ?_) ?_; clear_value t; rotate_left; dsimp -zeta only [t]; try clear t; rotate_right) | clear_value t)
    | with_reducible apply State.setNp_keeps
    | with_reducible apply keeps_ite | simp only [keeps_upd] | split

theorem State.doorman_keeps {s0 s : State} (h : Keeps s0 s) (n : Nat) (p : Packet) : Keeps s0 (s.doorman n p) := by
  unfold State.doorman
  iterate 150 all_goals try first
    | with_reducible assumption | with_reducible exact Keeps.refl _
    | (extract_lets +onlyGivenNames -lift t; first | (refine keeps_cut (P := Keeps s0 t) (fun ht => ?_) ?_; clear_value t; rotate_left; dsimp -zeta only [t]; try clear t; rotate_right) | (refine keeps_cut (P := Keeps s0 t.1) (fun ht => ?_) ?_; clear_value t; rotate_left; dsimp -zeta only [t]; try clear t; rotate_right) | clear_value t)
    | with_reducible apply State.addFld_keeps | with_reducible apply State.ev_keeps | with_reducible apply State.answerAt_keeps | with_reducible apply State.queueIn_keeps
    | with_reducible apply keeps_ite | simp only [keeps_upd] | split

theorem State.bridge_keeps {s0 s : State} (h : Keeps s0 s) (n : Nat) (p : Packet) : Keeps s0 (s.bridge n p) := by
  unfold State.bridge
  iterate 150 all_goals try first
    | (intro) | with_reducible assumption | with_reducible exact Keeps.refl _
    | (extract_lets +onlyGivenNames -lift t; first | (refine keeps_cut (P := Keeps s0 t) (fun ht => ?_) ?_; clear_value t; rotate_left; dsimp -zeta only [t]; try clear t; rotate_right) | (refine keeps_cut (P := Keeps s0 t.1) (fun ht => ?_) ?_; clear_value t; rotate_left; dsimp -zeta only [t]; try clear t; rotate_right) | clear_value t)
    | with_reducible apply State.answerAt_keeps
    | with_reducible apply keeps_ite | split

theorem State.malformed_keeps {s0 s : State} (h : Keeps s0 s) (n : Nat) (p : Packet) (answer : Bool) : Keeps s0 (s.malformed n p answer) := by
  unfold State.malformed
  iterate 150 all_goals try first
    | (intro) | with_reducible assumption | with_reducible exact Keeps.refl _
    | (extract_lets +onlyGivenNames -lift t; first | (refine keeps_cut (P := Keeps s0 t) (fun ht => ?_) ?_; clear_value t; rotate_left; dsimp -zeta only [t]; try clear t; rotate_right) | (refine keeps_cut (P := Keeps s0 t.1) (fun ht => ?_) ?_; clear_value t; rotate_left; dsimp -zeta only [t]; try clear t; rotate_right) | clear_value t)
    | with_reducible apply State.addFld_keeps | with_reducible apply State.npNote_keeps | with_reducible apply State.ev_keeps | with_reducible apply State.answerAt_keeps
    | with_reducible apply keeps_ite | split

theorem State.letIn_keeps {s0 s : State} (h : Keeps s0 s) (n : Nat) (p : Packet) : Keeps s0 (s.letIn n p) := by
  unfold State.letIn
  iterate 150 all_goals try first
    | (intro) | with_reducible assumption | with_reducible exact Keeps.refl _
    | (extract_lets +onlyGivenNames -lift t; first | (refine keeps_cut (P := Keeps s0 t) (fun ht => ?_) ?_; clear_value t; rotate_left; dsimp -zeta only [t]; try clear t; rotate_right) | (refine keeps_cut (P := Keeps s0 t.1) (fun ht => ?_) ?_; clear_value t; rotate_left; dsimp -zeta only [t]; try clear t; rotate_right) | clear_value t)
    | with_reducible apply State.npNote_keeps | with_reducible apply State.ev_keeps | with_reducible apply State.viol_keeps | with_reducible apply State.queueIn_keeps
    | with_reducible apply keeps_ite | simp only [keeps_upd] | split

theorem State.check36_keeps {s0 s : State} (h : Keeps s0 s) (n : Nat) (p : Packet) : Keeps s0 (s.check36 n p) := by
  unfold State.check36
  iterate 150 all_goals try first
    | (intro) | with_reducible assumption | with_reducible exact Keeps.refl _
    | (extract_lets +onlyGivenNames -lift t; first | (refine keeps_cut (P := Keeps s0 t) (fun ht => ?_) ?_; clear_value t; rotate_left; dsimp -zeta only [t]; try clear t; rotate_right) | (refine keeps_cut (P := Keeps s0 t.1) (fun ht => ?_) ?_; clear_value t; rotate_left; dsimp -zeta only [t]; try clear t; rotate_right) | clear_value t)
    | with_reducible apply State.doorman_keeps | with_reducible apply State.readAll_keeps | with_reducible apply State.malformed_keeps | with_reducible apply State.addFld_keeps | with_reducible apply State.ev_keeps | with_reducible apply State.npNote_keeps | with_reducible apply State.answerAt_keeps | with_reducible apply State.stray_keeps | with_reducible apply State.letIn_keeps
    | with_reducible apply keeps_ite | simp only [keeps_upd] | split

theorem State.hdrFixed_keeps {s0 s : State} (h : Keeps s0 s) (n : Nat) (p : Packet) : Keeps s0 (s.hdrFixed n p) := by
  unfold State.hdrFixed
  iterate 150 all_goals try first
    | (intro) | with_reducible assumption | with_reducible exact Keeps.refl _
    | (extract_lets +onlyGivenNames -lift t; first | (refine keeps_cut (P := Keeps s0 t) (fun ht => ?_) ?_; clear_value t; rotate_left; dsimp -zeta only [t]; try clear t; rotate_right) | (refine keeps_cut (P := Keeps s0 t.1) (fun ht => ?_) ?_; clear_value t; rotate_left; dsimp -zeta only [t]; try clear t; rotate_right) | clear_value t)
    | with_reducible apply State.addFld_keeps | with_reducible apply State.ev_keeps | with_reducible apply State.npNote_keeps
    | with_reducible apply keeps_ite | simp only [keeps_upd] | split

theorem State.checked_keeps {s0 s : State} (h : Keeps s0 s) (n : Nat) (p : Packet) (out : Bool) : Keeps s0 (s.checked n p out) := by
  unfold State.checked
  iterate 150 all_goals try first
    | with_reducible assumption | with_reducible exact Keeps.refl _
    | with_reducible apply State.addFld_keeps | with_reducible apply State.npNote_keeps | with_reducible apply State.bridge_keeps | with_reducible apply State.check36_keeps
    | with_reducible apply keeps_ite | split

theorem State.receive_keeps {s0 s : State} (h : Keeps s0 s) (n : Nat) (p : Packet) : Keeps s0 (s.receive n p) := by
  unfold State.receive
  iterate 150 all_goals try first
    | (intro) | with_reducible assumption | with_reducible exact Keeps.refl _
    | (extract_lets +onlyGivenNames -lift t; first | (refine keeps_cut (P := Keeps s0 t) (fun ht => ?_) ?_; clear_value t; rotate_left; dsimp -zeta only [t]; try clear t; rotate_right) | (refine keeps_cut (P := Keeps s0 t.1) (fun ht => ?_) ?_; clear_value t; rotate_left; dsimp -zeta only [t]; try clear t; rotate_right) | clear_value t)
    | with_reducible apply State.evN_keeps | with_reducible apply State.setNp_keeps | with_reducible apply State.addFld_keeps | with_reducible apply State.note_keeps | with_reducible apply State.hdrFixed_keeps | with_reducible apply State.checked_keeps | with_reducible apply State.settleIn_keeps
    | with_reducible apply keeps_ite | with_reducible apply keeps_foldl | (apply_assumption -exfalso -symm) | simp only [keeps_upd] | split

theorem State.dropIn_keeps {s0 s : State} (h : Keeps s0 s) (n c : Nat) (x : InItem) : Keeps s0 (s.dropIn n c x) := by
  unfold State.dropIn
  iterate 150 all_goals try first
    | (intro) | with_reducible assumption | with_reducible exact Keeps.refl _
    | (extract_lets +onlyGivenNames -lift t; first | (refine keeps_cut (P := Keeps s0 t) (fun ht => ?_) ?_; clear_value t; rotate_left; dsimp -zeta only [t]; try clear t; rotate_right) | (refine keeps_cut (P := Keeps s0 t.1) (fun ht => ?_) ?_; clear_value t; rotate_left; dsimp -zeta only [t]; try clear t; rotate_right) | clear_value t)
    | with_reducible apply State.setNp_keeps | with_reducible apply State.settleIn_keeps
    | with_reducible apply keeps_ite | simp only [keeps_upd] | split

theorem State.taken_keeps {s0 s : State} (h : Keeps s0 s) (rank lane src : Nat) : Keeps s0 (s.taken rank lane src) := by
  unfold State.taken
  iterate 150 all_goals try first
    | with_reducible assumption | with_reducible exact Keeps.refl _
    | (extract_lets +onlyGivenNames -lift t; first | (refine keeps_cut (P := Keeps s0 t) (fun ht => ?_) ?_; clear_value t; rotate_left; dsimp -zeta only [t]; try clear t; rotate_right) | (refine keeps_cut (P := Keeps s0 t.1) (fun ht => ?_) ?_; clear_value t; rotate_left; dsimp -zeta only [t]; try clear t; rotate_right) | clear_value t)
    | with_reducible apply keeps_ite | simp only [keeps_upd] | split


end Sys2Proof.Machine
end

