-- ==== Sys2Proof/Laws/KeepsRequests.lean ====
section
/-! SUPPORT. Every named operation of Machine/Requests.lean keeps what `Keeps` names. -/

set_option linter.unusedTactic false
set_option linter.unreachableTactic false
set_option linter.unusedVariables false
set_option linter.tactic.unusedName false

namespace Sys2Proof.Machine

theorem State.barred_keeps {s0 s : State} {r : Req} {t : State} (e : s.barred r = some t) (h : Keeps s0 s) : Keeps s0 t := by
  unfold State.barred at e
  split at e
  · exact Option.some.inj e ▸ State.refuse_keeps h _ _ _ _ _
  · split at e
    · exact Option.some.inj e ▸ State.errorTo_keeps (State.ev_keeps (State.note_keeps h _ _ _ _ _ _ _ _ _ _) _ _) _ _
    · split at e
      · exact Option.some.inj e ▸ State.errorTo_keeps h _ _
      · cases e

theorem State.ledgerRefuse_keeps {s0 s : State} (h : Keeps s0 s) (r : Req) (sts fop : Nat) : Keeps s0 (s.ledgerRefuse r sts fop) := by
  unfold State.ledgerRefuse
  iterate 150 all_goals try first
    | (intro) | with_reducible assumption | with_reducible exact Keeps.refl _
    | (extract_lets +onlyGivenNames -lift t; first | (refine keeps_cut (P := Keeps s0 t) (fun ht => ?_) ?_; clear_value t; rotate_left; dsimp -zeta only [t]; try clear t; rotate_right) | (refine keeps_cut (P := Keeps s0 t.1) (fun ht => ?_) ?_; clear_value t; rotate_left; dsimp -zeta only [t]; try clear t; rotate_right) | clear_value t)
    | with_reducible apply State.abortNote_keeps | with_reducible apply State.refuse_keeps
    | with_reducible apply keeps_ite | simp only [keeps_upd] | split

theorem State.handle_keeps {s0 s : State} (h : Keeps s0 s) (r : Req) : Keeps s0 (s.handle r) := by
  unfold State.handle
  iterate 150 all_goals try first
    | (intro) | with_reducible assumption | with_reducible exact Keeps.refl _
    | (refine State.barred_keeps (by assumption) ?_) | with_reducible apply State.ledgerRefuse_keeps | with_reducible apply State.refuseRegion_keeps | with_reducible apply State.sendRetry_keeps | with_reducible apply State.dispatchLig_keeps | with_reducible apply State.dispatch_keeps
    | with_reducible apply keeps_ite | split

theorem State.request_keeps {s0 s : State} (h : Keeps s0 s) (n : Nat) (op : BitVec 6) : Keeps s0 (s.request n op) := by
  unfold State.request
  iterate 150 all_goals try first
    | (intro) | with_reducible assumption | with_reducible exact Keeps.refl _
    | with_reducible apply State.dropIn_keeps | with_reducible apply State.taken_keeps | with_reducible apply State.handle_keeps
    | with_reducible apply keeps_ite | split

theorem State.offerWb_keeps {s0 s : State} (h : Keeps s0 s) (n : Nat) : Keeps s0 (s.offerWb n) := by
  unfold State.offerWb
  iterate 150 all_goals try first
    | (intro) | with_reducible assumption | with_reducible exact Keeps.refl _
    | with_reducible apply State.dropIn_keeps | with_reducible apply State.taken_keeps | (refine State.writeBack_keeps (by assumption) ?_)
    | with_reducible apply keeps_ite | split

theorem State.noteDropped_keeps {s0 s : State} (h : Keeps s0 s) (n : Nat) (p : Packet) : Keeps s0 (s.noteDropped n p) := by
  unfold State.noteDropped
  iterate 150 all_goals try first
    | with_reducible assumption | with_reducible exact Keeps.refl _
    | with_reducible apply State.ev_keeps
    | with_reducible apply keeps_ite | split

theorem State.census_keeps {s0 s : State} (h : Keeps s0 s) (q : EpId) (h : HIdx) (e : DirEntry) : Keeps s0 (s.census q h e) := by
  unfold State.census
  iterate 150 all_goals try first
    | (intro) | with_reducible assumption | with_reducible exact Keeps.refl _
    | (extract_lets +onlyGivenNames -lift t; first | (refine keeps_cut (P := Keeps s0 t) (fun ht => ?_) ?_; clear_value t; rotate_left; dsimp -zeta only [t]; try clear t; rotate_right) | (refine keeps_cut (P := Keeps s0 t.1) (fun ht => ?_) ?_; clear_value t; rotate_left; dsimp -zeta only [t]; try clear t; rotate_right) | clear_value t)
    | with_reducible apply State.inkReserve_keeps | with_reducible apply State.openStall_keeps | with_reducible apply State.ev_keeps | with_reducible apply State.multicast_keeps | with_reducible apply State.censusStep_keeps
    | with_reducible apply keeps_ite | (apply_assumption -exfalso -symm) | simp only [keeps_upd] | split

theorem State.evictNoteOn_keeps {s0 s : State} (h : Keeps s0 s) (n : Nat) (p : Packet) (h : HIdx) (k : Nat) (e : DirEntry) : Keeps s0 (s.evictNoteOn n p h k e) := by
  unfold State.evictNoteOn
  iterate 150 all_goals try first
    | (intro) | with_reducible assumption | with_reducible exact Keeps.refl _
    | (extract_lets +onlyGivenNames -lift t; first | (refine keeps_cut (P := Keeps s0 t) (fun ht => ?_) ?_; clear_value t; rotate_left; dsimp -zeta only [t]; try clear t; rotate_right) | (refine keeps_cut (P := Keeps s0 t.1) (fun ht => ?_) ?_; clear_value t; rotate_left; dsimp -zeta only [t]; try clear t; rotate_right) | clear_value t)
    | with_reducible apply State.freeEntry_keeps | with_reducible apply State.ev_keeps | with_reducible apply State.noteDropped_keeps | with_reducible apply State.setExact_keeps | with_reducible apply State.census_keeps
    | with_reducible apply keeps_ite | (apply_assumption -exfalso -symm) | split

theorem State.takeNote_keeps {s0 s : State} (h : Keeps s0 s) (n : Nat) (p : Packet) : Keeps s0 (s.takeNote n p) := by
  unfold State.takeNote
  iterate 150 all_goals try first
    | (intro) | with_reducible assumption | with_reducible exact Keeps.refl _
    | (extract_lets +onlyGivenNames -lift t; first | (refine keeps_cut (P := Keeps s0 t) (fun ht => ?_) ?_; clear_value t; rotate_left; dsimp -zeta only [t]; try clear t; rotate_right) | (refine keeps_cut (P := Keeps s0 t.1) (fun ht => ?_) ?_; clear_value t; rotate_left; dsimp -zeta only [t]; try clear t; rotate_right) | clear_value t)
    | with_reducible apply State.noteDropped_keeps | with_reducible apply State.viol_keeps | with_reducible apply State.dirAccess_keeps | with_reducible apply State.evictNoteOn_keeps
    | with_reducible apply keeps_ite | split

theorem State.redispatch_keeps {s0 s : State} (h : Keeps s0 s) (k : Nat) (e : PenEntry) : Keeps s0 (s.redispatch k e) := by
  unfold State.redispatch
  iterate 150 all_goals try first
    | (intro) | with_reducible assumption | with_reducible exact Keeps.refl _
    | (extract_lets +onlyGivenNames -lift t; first | (refine keeps_cut (P := Keeps s0 t) (fun ht => ?_) ?_; clear_value t; rotate_left; dsimp -zeta only [t]; try clear t; rotate_right) | (refine keeps_cut (P := Keeps s0 t.1) (fun ht => ?_) ?_; clear_value t; rotate_left; dsimp -zeta only [t]; try clear t; rotate_right) | clear_value t)
    | with_reducible apply State.ligStep_keeps | with_reducible apply State.doClose_keeps | with_reducible apply State.evictGo_keeps | with_reducible apply State.dispatch_keeps
    | with_reducible apply keeps_ite | simp only [keeps_upd] | split

theorem State.expirePen_keeps {s0 s : State} (h : Keeps s0 s) (k : Nat) (e : PenEntry) : Keeps s0 (s.expirePen k e) := by
  unfold State.expirePen
  iterate 150 all_goals try first
    | (intro) | with_reducible assumption | with_reducible exact Keeps.refl _
    | (extract_lets +onlyGivenNames -lift t; first | (refine keeps_cut (P := Keeps s0 t) (fun ht => ?_) ?_; clear_value t; rotate_left; dsimp -zeta only [t]; try clear t; rotate_right) | (refine keeps_cut (P := Keeps s0 t.1) (fun ht => ?_) ?_; clear_value t; rotate_left; dsimp -zeta only [t]; try clear t; rotate_right) | clear_value t)
    | with_reducible apply State.ligRelease_keeps | with_reducible apply State.addFld_keeps | with_reducible apply State.respEv_keeps | with_reducible apply State.issue_keeps | (refine State.issue_keeps_eq (p := (_, _)) (by assumption) ?_) | with_reducible apply State.giveBack_keeps | with_reducible apply State.sendRetry_keeps
    | with_reducible apply keeps_ite | simp only [keeps_upd] | split


end Sys2Proof.Machine
end

