-- ==== Sys2Proof/Laws/KeepsRelayUnit.lean ====
section
/-! SUPPORT. Every named operation of Machine/RelayUnit.lean keeps what `Keeps` names. -/

set_option linter.unusedTactic false
set_option linter.unreachableTactic false
set_option linter.unusedVariables false
set_option linter.tactic.unusedName false

namespace Sys2Proof.Machine

theorem State.rlyAckTo_keeps {s0 s : State} (h : Keeps s0 s) (port : Nat) (x : InItem) (detail : Nat) : Keeps s0 (s.rlyAckTo port x detail) := by
  unfold State.rlyAckTo
  iterate 150 all_goals try first
    | (intro) | with_reducible assumption | with_reducible exact Keeps.refl _
    | (extract_lets +onlyGivenNames -lift t; first | (refine keeps_cut (P := Keeps s0 t) (fun ht => ?_) ?_; clear_value t; rotate_left; dsimp -zeta only [t]; try clear t; rotate_right) | (refine keeps_cut (P := Keeps s0 t.1) (fun ht => ?_) ?_; clear_value t; rotate_left; dsimp -zeta only [t]; try clear t; rotate_right) | clear_value t)
    | with_reducible apply State.setFlag_keeps | with_reducible apply State.ev_keeps | with_reducible apply State.sendFrom_keeps | (refine State.sendFrom_keeps_eq (p := (_, _)) (by assumption) ?_) | with_reducible apply State.noRouteNote_keeps
    | with_reducible apply keeps_ite | simp only [keeps_upd] | split

theorem State.rlyFinish_keeps {s0 s : State} (h : Keeps s0 s) (k : Nat) : Keeps s0 (s.rlyFinish k) := by
  unfold State.rlyFinish
  iterate 150 all_goals try first
    | (intro) | with_reducible assumption | with_reducible exact Keeps.refl _
    | (extract_lets +onlyGivenNames -lift t; first | (refine keeps_cut (P := Keeps s0 t) (fun ht => ?_) ?_; clear_value t; rotate_left; dsimp -zeta only [t]; try clear t; rotate_right) | (refine keeps_cut (P := Keeps s0 t.1) (fun ht => ?_) ?_; clear_value t; rotate_left; dsimp -zeta only [t]; try clear t; rotate_right) | clear_value t)
    | with_reducible apply State.rlyAckTo_keeps | with_reducible apply State.viol_keeps
    | with_reducible apply keeps_ite | simp only [keeps_upd] | split

theorem State.memberFail_keeps {s0 s : State} (h : Keeps s0 s) (k : Nat) (who : EpId) : Keeps s0 (s.memberFail k who) := by
  unfold State.memberFail
  iterate 150 all_goals try first
    | (intro) | with_reducible assumption | with_reducible exact Keeps.refl _
    | (extract_lets +onlyGivenNames -lift t; first | (refine keeps_cut (P := Keeps s0 t) (fun ht => ?_) ?_; clear_value t; rotate_left; dsimp -zeta only [t]; try clear t; rotate_right) | (refine keeps_cut (P := Keeps s0 t.1) (fun ht => ?_) ?_; clear_value t; rotate_left; dsimp -zeta only [t]; try clear t; rotate_right) | clear_value t)
    | with_reducible apply State.updRly_keeps
    | with_reducible apply keeps_ite | (apply_assumption -exfalso -symm) | simp only [keeps_upd] | split

theorem State.memberSnoop_keeps {s0 s : State} (h : Keeps s0 s) (k : Nat) (x : InItem) (who : EpId) : Keeps s0 (s.memberSnoop k x who) := by
  unfold State.memberSnoop
  iterate 150 all_goals try first
    | (intro) | with_reducible assumption | with_reducible exact Keeps.refl _
    | (extract_lets +onlyGivenNames -lift t; first | (refine keeps_cut (P := Keeps s0 t) (fun ht => ?_) ?_; clear_value t; rotate_left; dsimp -zeta only [t]; try clear t; rotate_right) | (refine keeps_cut (P := Keeps s0 t.1) (fun ht => ?_) ?_; clear_value t; rotate_left; dsimp -zeta only [t]; try clear t; rotate_right) | clear_value t)
    | with_reducible apply State.ev_keeps | with_reducible apply State.updRly_keeps | with_reducible apply State.sendFrom_keeps | (refine State.sendFrom_keeps_eq (p := (_, _)) (by assumption) ?_) | with_reducible apply State.noRouteNote_keeps | with_reducible apply State.memberFail_keeps
    | with_reducible apply keeps_ite | (apply_assumption -exfalso -symm) | simp only [keeps_upd] | split

theorem State.rlyOpen_keeps {s0 s : State} (h : Keeps s0 s) (port : Nat) (x : InItem) (k : Nat) : Keeps s0 (s.rlyOpen port x k) := by
  unfold State.rlyOpen
  iterate 150 all_goals try first
    | (intro) | with_reducible assumption | with_reducible exact Keeps.refl _
    | (extract_lets +onlyGivenNames -lift t; first | (refine keeps_cut (P := Keeps s0 t) (fun ht => ?_) ?_; clear_value t; rotate_left; dsimp -zeta only [t]; try clear t; rotate_right) | (refine keeps_cut (P := Keeps s0 t.1) (fun ht => ?_) ?_; clear_value t; rotate_left; dsimp -zeta only [t]; try clear t; rotate_right) | clear_value t)
    | with_reducible apply State.ev_keeps | with_reducible apply State.note_keeps | with_reducible apply State.malformed_keeps | with_reducible apply State.rlyAckTo_keeps | with_reducible apply State.memberSnoop_keeps | with_reducible apply State.rlyFinish_keeps
    | with_reducible apply keeps_ite | with_reducible apply keeps_foldl | (apply_assumption -exfalso -symm) | simp only [keeps_upd] | split

theorem State.memberAnswer_keeps {s0 s : State} (h : Keeps s0 s) (n : Nat) (x : InItem) : Keeps s0 (s.memberAnswer n x) := by
  unfold State.memberAnswer
  iterate 150 all_goals try first
    | (intro) | with_reducible assumption | with_reducible exact Keeps.refl _
    | (extract_lets +onlyGivenNames -lift t; first | (refine keeps_cut (P := Keeps s0 t) (fun ht => ?_) ?_; clear_value t; rotate_left; dsimp -zeta only [t]; try clear t; rotate_right) | (refine keeps_cut (P := Keeps s0 t.1) (fun ht => ?_) ?_; clear_value t; rotate_left; dsimp -zeta only [t]; try clear t; rotate_right) | clear_value t)
    | with_reducible apply State.ev_keeps | with_reducible apply State.unmatched_keeps | with_reducible apply State.note_keeps | with_reducible apply State.updRly_keeps | with_reducible apply State.viol_keeps | with_reducible apply State.rlyFinish_keeps
    | with_reducible apply keeps_ite | (apply_assumption -exfalso -symm) | simp only [keeps_upd] | split

theorem State.memberTimeout_keeps {s0 s : State} (h : Keeps s0 s) (k : Nat) (who : EpId) : Keeps s0 (s.memberTimeout k who) := by
  unfold State.memberTimeout
  iterate 150 all_goals try first
    | (intro) | with_reducible assumption | with_reducible exact Keeps.refl _
    | (extract_lets +onlyGivenNames -lift t; first | (refine keeps_cut (P := Keeps s0 t) (fun ht => ?_) ?_; clear_value t; rotate_left; dsimp -zeta only [t]; try clear t; rotate_right) | (refine keeps_cut (P := Keeps s0 t.1) (fun ht => ?_) ?_; clear_value t; rotate_left; dsimp -zeta only [t]; try clear t; rotate_right) | clear_value t)
    | with_reducible apply State.ev_keeps | with_reducible apply State.note_keeps | with_reducible apply State.memberFail_keeps | with_reducible apply State.suspect_keeps | with_reducible apply State.rlyFinish_keeps
    | with_reducible apply keeps_ite | (apply_assumption -exfalso -symm) | simp only [keeps_upd] | split


end Sys2Proof.Machine
end

