-- ==== Sys2Proof/Laws/KeepsAnswerRows.lean ====
section
/-! SUPPORT. Every named operation of Machine/AnswerRows.lean keeps what `Keeps` names. -/

set_option linter.unusedTactic false
set_option linter.unreachableTactic false
set_option linter.unusedVariables false
set_option linter.tactic.unusedName false

namespace Sys2Proof.Machine

theorem State.onArrival_keeps {s0 s : State} (h : Keeps s0 s) (n : Nat) (op : BitVec 6) {f : State → Packet → State}
    (hf : ∀ t p, Keeps s0 t → Keeps s0 (f t p)) : Keeps s0 (s.onArrival n op f) := by
  unfold State.onArrival
  split
  · exact hf _ _ (State.taken_keeps (State.dropIn_keeps h _ _ _) _ _ _)
  · exact h

theorem State.addLate_keeps {s0 s : State} (h : Keeps s0 s) (i : Nat) (who : EpId) (tag : Tag) (line : LineAddr) (ack : Bool) : Keeps s0 (s.addLate i who tag line ack) := by
  unfold State.addLate
  iterate 150 all_goals try first
    | with_reducible assumption | with_reducible exact Keeps.refl _
    | (extract_lets +onlyGivenNames -lift t; first | (refine keeps_cut (P := Keeps s0 t) (fun ht => ?_) ?_; clear_value t; rotate_left; dsimp -zeta only [t]; try clear t; rotate_right) | (refine keeps_cut (P := Keeps s0 t.1) (fun ht => ?_) ?_; clear_value t; rotate_left; dsimp -zeta only [t]; try clear t; rotate_right) | clear_value t)
    | with_reducible apply keeps_ite | simp only [keeps_upd] | split

theorem State.snoopLate_keeps {s0 s : State} (h : Keeps s0 s) (i : Nat) (t : Stall) (w : Wait) : Keeps s0 (s.snoopLate i t w) := by
  unfold State.snoopLate
  iterate 150 all_goals try first
    | (intro) | with_reducible assumption | with_reducible exact Keeps.refl _
    | (extract_lets +onlyGivenNames -lift t; first | (refine keeps_cut (P := Keeps s0 t) (fun ht => ?_) ?_; clear_value t; rotate_left; dsimp -zeta only [t]; try clear t; rotate_right) | (refine keeps_cut (P := Keeps s0 t.1) (fun ht => ?_) ?_; clear_value t; rotate_left; dsimp -zeta only [t]; try clear t; rotate_right) | clear_value t)
    | with_reducible apply State.ev_keeps | with_reducible apply State.note_keeps | with_reducible apply State.addLate_keeps | with_reducible apply State.suspect_keeps | with_reducible apply State.asForward_keeps | with_reducible apply State.updStall_keeps | with_reducible apply State.onBehalf_keeps
    | with_reducible apply keeps_ite | (apply_assumption -exfalso -symm) | simp only [keeps_upd] | split

theorem State.resent_keeps {s0 s : State} (h : Keeps s0 s) (l : LineAddr) : Keeps s0 (s.resent l) := by
  unfold State.resent
  iterate 150 all_goals try first
    | with_reducible assumption | with_reducible exact Keeps.refl _
    | (extract_lets +onlyGivenNames -lift t; first | (refine keeps_cut (P := Keeps s0 t) (fun ht => ?_) ?_; clear_value t; rotate_left; dsimp -zeta only [t]; try clear t; rotate_right) | (refine keeps_cut (P := Keeps s0 t.1) (fun ht => ?_) ?_; clear_value t; rotate_left; dsimp -zeta only [t]; try clear t; rotate_right) | clear_value t)
    | with_reducible apply State.setFlag_keeps | with_reducible apply State.ev_keeps
    | with_reducible apply keeps_ite | simp only [keeps_upd] | split

theorem State.resendSnoop_keeps {s0 s : State} (h : Keeps s0 s) (i : Nat) (t : Stall) (w : Wait) : Keeps s0 (s.resendSnoop i t w) := by
  unfold State.resendSnoop
  iterate 150 all_goals try first
    | (intro) | with_reducible assumption | with_reducible exact Keeps.refl _
    | (extract_lets +onlyGivenNames -lift t; first | (refine keeps_cut (P := Keeps s0 t) (fun ht => ?_) ?_; clear_value t; rotate_left; dsimp -zeta only [t]; try clear t; rotate_right) | (refine keeps_cut (P := Keeps s0 t.1) (fun ht => ?_) ?_; clear_value t; rotate_left; dsimp -zeta only [t]; try clear t; rotate_right) | clear_value t)
    | with_reducible apply State.onBehalf_keeps | with_reducible apply State.resent_keeps | with_reducible apply State.redo_keeps | with_reducible apply State.setWait_keeps | with_reducible apply State.snoopMsg_keeps | (refine State.snoopMsg_keeps_eq (p := (_, _)) (by assumption) ?_) | with_reducible apply State.suspect_keeps
    | with_reducible apply keeps_ite | (apply_assumption -exfalso -symm) | simp only [keeps_upd] | split


end Sys2Proof.Machine
end

