-- ==== Sys2Proof/Laws/KeepsMgt.lean ====
section
/-! SUPPORT. Every named operation of Machine/Mgt.lean keeps what `Keeps` names. -/

set_option linter.unusedTactic false
set_option linter.unreachableTactic false
set_option linter.unusedVariables false
set_option linter.tactic.unusedName false

namespace Sys2Proof.Machine

theorem State.flip_keeps {s0 s : State} (h : Keeps s0 s) : Keeps s0 (s.flip) := by
  unfold State.flip
  iterate 150 all_goals try first
    | (intro) | with_reducible assumption | with_reducible exact Keeps.refl _
    | (extract_lets +onlyGivenNames -lift t; first | (refine keeps_cut (P := Keeps s0 t) (fun ht => ?_) ?_; clear_value t; rotate_left; dsimp -zeta only [t]; try clear t; rotate_right) | (refine keeps_cut (P := Keeps s0 t.1) (fun ht => ?_) ?_; clear_value t; rotate_left; dsimp -zeta only [t]; try clear t; rotate_right) | clear_value t)
    | with_reducible apply State.setFld_keeps
    | with_reducible apply keeps_ite | simp only [keeps_upd] | split

theorem State.sendSwap_keeps {s0 s : State} (h : Keeps s0 s) (k : Nat) : Keeps s0 (s.sendSwap k) := by
  unfold State.sendSwap
  iterate 150 all_goals try first
    | (intro) | with_reducible assumption | with_reducible exact Keeps.refl _
    | (extract_lets +onlyGivenNames -lift t; first | (refine keeps_cut (P := Keeps s0 t) (fun ht => ?_) ?_; clear_value t; rotate_left; dsimp -zeta only [t]; try clear t; rotate_right) | (refine keeps_cut (P := Keeps s0 t.1) (fun ht => ?_) ?_; clear_value t; rotate_left; dsimp -zeta only [t]; try clear t; rotate_right) | clear_value t)
    | with_reducible apply State.enqueue_keeps
    | with_reducible apply keeps_ite | simp only [keeps_upd] | split

theorem State.swapPump_keeps {s0 s : State} (h : Keeps s0 s) (fuel : Nat) : Keeps s0 (s.swapPump fuel) := by
  induction fuel generalizing s with
  | zero =>
    unfold State.swapPump
    iterate 150 all_goals try first
      | (intro) | with_reducible assumption | with_reducible exact Keeps.refl _
      | (extract_lets +onlyGivenNames -lift t; first | (refine keeps_cut (P := Keeps s0 t) (fun ht => ?_) ?_; clear_value t; rotate_left; dsimp -zeta only [t]; try clear t; rotate_right) | (refine keeps_cut (P := Keeps s0 t.1) (fun ht => ?_) ?_; clear_value t; rotate_left; dsimp -zeta only [t]; try clear t; rotate_right) | (refine keeps_cut (P := ∀ u a, Keeps s0 u → Keeps s0 (t u a)) (fun ht => ?_) ?_; clear_value t; rotate_left; dsimp -zeta only [t]; try clear t; rotate_right) | (refine keeps_cut (P := ∀ u, Keeps s0 u → Keeps s0 (t u)) (fun ht => ?_) ?_; clear_value t; rotate_left; dsimp -zeta only [t]; try clear t; rotate_right) | (refine keeps_cut (P := ∀ u, Keeps s0 u → Keeps s0 (t u).1) (fun ht => ?_) ?_; clear_value t; rotate_left; dsimp -zeta only [t]; try clear t; rotate_right) | clear_value t)
      | with_reducible apply State.sendSwap_keeps
      | with_reducible apply keeps_ite | simp only [keeps_upd] | split
  | succ fuel ih =>
    unfold State.swapPump
    iterate 150 all_goals try first
      | (intro) | with_reducible assumption | with_reducible exact Keeps.refl _
      | (extract_lets +onlyGivenNames -lift t; first | (refine keeps_cut (P := Keeps s0 t) (fun ht => ?_) ?_; clear_value t; rotate_left; dsimp -zeta only [t]; try clear t; rotate_right) | (refine keeps_cut (P := Keeps s0 t.1) (fun ht => ?_) ?_; clear_value t; rotate_left; dsimp -zeta only [t]; try clear t; rotate_right) | (refine keeps_cut (P := ∀ u a, Keeps s0 u → Keeps s0 (t u a)) (fun ht => ?_) ?_; clear_value t; rotate_left; dsimp -zeta only [t]; try clear t; rotate_right) | (refine keeps_cut (P := ∀ u, Keeps s0 u → Keeps s0 (t u)) (fun ht => ?_) ?_; clear_value t; rotate_left; dsimp -zeta only [t]; try clear t; rotate_right) | (refine keeps_cut (P := ∀ u, Keeps s0 u → Keeps s0 (t u).1) (fun ht => ?_) ?_; clear_value t; rotate_left; dsimp -zeta only [t]; try clear t; rotate_right) | clear_value t)
      | with_reducible apply State.sendSwap_keeps | with_reducible apply ih
      | with_reducible apply keeps_ite | simp only [keeps_upd] | split

theorem State.swapEnd_keeps {s0 s : State} (h : Keeps s0 s) : Keeps s0 (s.swapEnd) := by
  unfold State.swapEnd
  iterate 150 all_goals try first
    | with_reducible assumption | with_reducible exact Keeps.refl _
    | with_reducible apply State.setFld_keeps | with_reducible apply State.flip_keeps
    | with_reducible apply keeps_ite | split

theorem State.swapGo_keeps {s0 s : State} (h : Keeps s0 s) : Keeps s0 (s.swapGo) := by
  unfold State.swapGo
  iterate 150 all_goals try first
    | with_reducible assumption | with_reducible exact Keeps.refl _
    | with_reducible apply State.swapPump_keeps | with_reducible apply State.swapEnd_keeps
    | with_reducible apply keeps_ite | split

theorem State.swapStart_keeps {s0 s : State} (h : Keeps s0 s) : Keeps s0 (s.swapStart) := by
  unfold State.swapStart
  iterate 150 all_goals try first
    | (intro) | with_reducible assumption | with_reducible exact Keeps.refl _
    | (extract_lets +onlyGivenNames -lift t; first | (refine keeps_cut (P := Keeps s0 t) (fun ht => ?_) ?_; clear_value t; rotate_left; dsimp -zeta only [t]; try clear t; rotate_right) | (refine keeps_cut (P := Keeps s0 t.1) (fun ht => ?_) ?_; clear_value t; rotate_left; dsimp -zeta only [t]; try clear t; rotate_right) | clear_value t)
    | with_reducible apply State.setFld_keeps | with_reducible apply State.setFlag_keeps | with_reducible apply State.swapGo_keeps
    | with_reducible apply keeps_ite | with_reducible apply keeps_foldl | (apply_assumption -exfalso -symm) | simp only [keeps_upd] | split

theorem State.dropMgt_keeps {s0 s : State} (h : Keeps s0 s) (n : Nat) (x : InItem) : Keeps s0 (s.dropMgt n x) := by
  unfold State.dropMgt
  iterate 150 all_goals try first
    | (intro) | with_reducible assumption | with_reducible exact Keeps.refl _
    | (extract_lets +onlyGivenNames -lift t; first | (refine keeps_cut (P := Keeps s0 t) (fun ht => ?_) ?_; clear_value t; rotate_left; dsimp -zeta only [t]; try clear t; rotate_right) | (refine keeps_cut (P := Keeps s0 t.1) (fun ht => ?_) ?_; clear_value t; rotate_left; dsimp -zeta only [t]; try clear t; rotate_right) | clear_value t)
    | with_reducible apply State.setNp_keeps | with_reducible apply State.dropIn_keeps
    | with_reducible apply keeps_ite | simp only [keeps_upd] | split

theorem State.onMgt_keeps {s0 s : State} (h : Keeps s0 s) (n : Nat) (op : BitVec 6) {f : State → InItem → State}
    (hf : ∀ t p, Keeps s0 t → Keeps s0 (f t p)) : Keeps s0 (s.onMgt n op f) := by
  unfold State.onMgt
  split
  · exact hf _ _ (State.dropMgt_keeps h _ _)
  · exact h

theorem State.ackMgt_keeps {s0 s : State} (h : Keeps s0 s) (n : Nat) (x : InItem) : Keeps s0 (s.ackMgt n x) := by
  unfold State.ackMgt
  iterate 150 all_goals try first
    | with_reducible assumption | with_reducible exact Keeps.refl _
    | with_reducible apply State.answerAt_keeps
    | with_reducible apply keeps_ite | split

theorem State.mgtDemoted_keeps {s0 s : State} (h : Keeps s0 s) (n : Nat) (x : InItem) : Keeps s0 (s.mgtDemoted n x) := by
  unfold State.mgtDemoted
  iterate 150 all_goals try first
    | with_reducible assumption | with_reducible exact Keeps.refl _
    | with_reducible apply State.viol_keeps
    | with_reducible apply keeps_ite | split

theorem State.takeStop_keeps {s0 s : State} (h : Keeps s0 s) (n : Nat) (x : InItem) : Keeps s0 (s.takeStop n x) := by
  unfold State.takeStop
  iterate 150 all_goals try first
    | with_reducible assumption | with_reducible exact Keeps.refl _
    | with_reducible apply State.mgtDemoted_keeps | with_reducible apply State.ackMgt_keeps | with_reducible apply State.declare_keeps
    | with_reducible apply keeps_ite | split

theorem State.aliasNote_keeps {s0 s : State} (h : Keeps s0 s) (x : InItem) : Keeps s0 (s.aliasNote x) := by
  unfold State.aliasNote
  iterate 150 all_goals try first
    | with_reducible assumption | with_reducible exact Keeps.refl _
    | with_reducible apply State.note_keeps
    | with_reducible apply keeps_ite | split

theorem State.takeAlias_keeps {s0 s : State} (h : Keeps s0 s) (n : Nat) (x : InItem) : Keeps s0 (s.takeAlias n x) := by
  unfold State.takeAlias
  iterate 150 all_goals try first
    | (intro) | with_reducible assumption | with_reducible exact Keeps.refl _
    | (extract_lets +onlyGivenNames -lift t; first | (refine keeps_cut (P := Keeps s0 t) (fun ht => ?_) ?_; clear_value t; rotate_left; dsimp -zeta only [t]; try clear t; rotate_right) | (refine keeps_cut (P := Keeps s0 t.1) (fun ht => ?_) ?_; clear_value t; rotate_left; dsimp -zeta only [t]; try clear t; rotate_right) | clear_value t)
    | with_reducible apply State.mgtDemoted_keeps | with_reducible apply State.aliasNote_keeps | with_reducible apply State.ackMgt_keeps | with_reducible apply State.aliasApply_keeps
    | with_reducible apply keeps_ite | split

theorem State.swapIgnored_keeps {s0 s : State} (h : Keeps s0 s) (x : InItem) : Keeps s0 (s.swapIgnored x) := by
  unfold State.swapIgnored
  iterate 150 all_goals try first
    | with_reducible assumption | with_reducible exact Keeps.refl _
    | with_reducible apply State.setFlag_keeps | with_reducible apply State.note_keeps
    | with_reducible apply keeps_ite | split

theorem State.takeSwap_keeps {s0 s : State} (h : Keeps s0 s) (n : Nat) (x : InItem) : Keeps s0 (s.takeSwap n x) := by
  unfold State.takeSwap
  iterate 150 all_goals try first
    | (intro) | with_reducible assumption | with_reducible exact Keeps.refl _
    | (extract_lets +onlyGivenNames -lift t; first | (refine keeps_cut (P := Keeps s0 t) (fun ht => ?_) ?_; clear_value t; rotate_left; dsimp -zeta only [t]; try clear t; rotate_right) | (refine keeps_cut (P := Keeps s0 t.1) (fun ht => ?_) ?_; clear_value t; rotate_left; dsimp -zeta only [t]; try clear t; rotate_right) | clear_value t)
    | with_reducible apply State.setFlag_keeps | with_reducible apply State.mgtDemoted_keeps | with_reducible apply State.swapIgnored_keeps | with_reducible apply State.flip_keeps | with_reducible apply State.ackMgt_keeps
    | with_reducible apply keeps_ite | split

theorem State.takeMgtAck_keeps {s0 s : State} (h : Keeps s0 s) (x : InItem) : Keeps s0 (s.takeMgtAck x) := by
  unfold State.takeMgtAck
  iterate 150 all_goals try first
    | (intro) | with_reducible assumption | with_reducible exact Keeps.refl _
    | (extract_lets +onlyGivenNames -lift t; first | (refine keeps_cut (P := Keeps s0 t) (fun ht => ?_) ?_; clear_value t; rotate_left; dsimp -zeta only [t]; try clear t; rotate_right) | (refine keeps_cut (P := Keeps s0 t.1) (fun ht => ?_) ?_; clear_value t; rotate_left; dsimp -zeta only [t]; try clear t; rotate_right) | clear_value t)
    | with_reducible apply State.setFlag_keeps | with_reducible apply State.swapGo_keeps | with_reducible apply State.addFld_keeps | with_reducible apply State.bcastPump_keeps | with_reducible apply State.bcastEnd_keeps
    | with_reducible apply keeps_ite | (apply_assumption -exfalso -symm) | simp only [keeps_upd] | split


end Sys2Proof.Machine
end

