-- ==== Sys2Proof/Laws/KeepsRecoveryRows.lean ====
section
/-! SUPPORT. Every named operation of Machine/RecoveryRows.lean keeps what `Keeps` names. -/

set_option linter.unusedTactic false
set_option linter.unreachableTactic false
set_option linter.unusedVariables false
set_option linter.tactic.unusedName false

namespace Sys2Proof.Machine

theorem State.flushTold_keeps {s0 s : State} (h : Keeps s0 s) (id : EpId) (code : Nat) : Keeps s0 (s.flushTold id code) := by
  unfold State.flushTold
  iterate 150 all_goals try first
    | (intro) | with_reducible assumption | with_reducible exact Keeps.refl _
    | (extract_lets +onlyGivenNames -lift t; first | (refine keeps_cut (P := Keeps s0 t) (fun ht => ?_) ?_; clear_value t; rotate_left; dsimp -zeta only [t]; try clear t; rotate_right) | (refine keeps_cut (P := Keeps s0 t.1) (fun ht => ?_) ?_; clear_value t; rotate_left; dsimp -zeta only [t]; try clear t; rotate_right) | clear_value t)
    | with_reducible apply State.readAll_keeps | with_reducible apply State.outcome_keeps | with_reducible apply State.note_keeps
    | with_reducible apply keeps_ite | split

theorem State.cleanEntry_keeps {s0 s : State} (h : Keeps s0 s) (k : Nat) (e : DirEntry) : Keeps s0 (s.cleanEntry k e) := by
  unfold State.cleanEntry
  iterate 150 all_goals try first
    | (intro) | with_reducible assumption | with_reducible exact Keeps.refl _
    | (extract_lets +onlyGivenNames -lift t; first | (refine keeps_cut (P := Keeps s0 t) (fun ht => ?_) ?_; clear_value t; rotate_left; dsimp -zeta only [t]; try clear t; rotate_right) | (refine keeps_cut (P := Keeps s0 t.1) (fun ht => ?_) ?_; clear_value t; rotate_left; dsimp -zeta only [t]; try clear t; rotate_right) | clear_value t)
    | with_reducible apply State.openEvict_keeps | (refine State.openEvict_keeps_eq (p := (_, _)) (by assumption) ?_) | with_reducible apply State.penPut_keeps | with_reducible apply State.evictGo_keeps
    | with_reducible apply keeps_ite | simp only [keeps_upd] | split

theorem State.cleanVisit_keeps {s0 s : State} (h : Keeps s0 s) : Keeps s0 (s.cleanVisit) := by
  unfold State.cleanVisit
  iterate 150 all_goals try first
    | (intro) | with_reducible assumption | with_reducible exact Keeps.refl _
    | (extract_lets +onlyGivenNames -lift t; first | (refine keeps_cut (P := Keeps s0 t) (fun ht => ?_) ?_; clear_value t; rotate_left; dsimp -zeta only [t]; try clear t; rotate_right) | (refine keeps_cut (P := Keeps s0 t.1) (fun ht => ?_) ?_; clear_value t; rotate_left; dsimp -zeta only [t]; try clear t; rotate_right) | clear_value t)
    | with_reducible apply State.dirProbe_keeps | with_reducible apply State.extRead_keeps | with_reducible apply State.cleanEntry_keeps
    | with_reducible apply keeps_ite | with_reducible apply keeps_foldl | (apply_assumption -exfalso -symm) | simp only [keeps_upd] | split

theorem State.scrub_keeps {s0 s : State} (h : Keeps s0 s) : Keeps s0 (s.scrub) := by
  unfold State.scrub
  iterate 150 all_goals try first
    | (intro) | with_reducible assumption | with_reducible exact Keeps.refl _
    | (extract_lets +onlyGivenNames -lift t; first | (refine keeps_cut (P := Keeps s0 t) (fun ht => ?_) ?_; clear_value t; rotate_left; dsimp -zeta only [t]; try clear t; rotate_right) | (refine keeps_cut (P := Keeps s0 t.1) (fun ht => ?_) ?_; clear_value t; rotate_left; dsimp -zeta only [t]; try clear t; rotate_right) | clear_value t)
    | with_reducible apply State.dirProbe_keeps | with_reducible apply State.extProbe_keeps
    | with_reducible apply keeps_ite | with_reducible apply keeps_foldl | (apply_assumption -exfalso -symm) | simp only [keeps_upd] | split


end Sys2Proof.Machine
end

