-- ==== Sys2Proof/Laws/KeepsMemoryPorts.lean ====
section
/-! SUPPORT. Every named operation of Machine/MemoryPorts.lean keeps what `Keeps` names. -/

set_option linter.unusedTactic false
set_option linter.unreachableTactic false
set_option linter.unusedVariables false
set_option linter.tactic.unusedName false

namespace Sys2Proof.Machine

theorem State.setMpState_keeps {s0 s : State} (h : Keeps s0 s) (n v : Nat) : Keeps s0 (s.setMpState n v) := by
  unfold State.setMpState
  iterate 150 all_goals try first
    | with_reducible assumption | with_reducible exact Keeps.refl _
    | with_reducible apply State.notice_keeps | with_reducible apply State.setFld_keeps
    | with_reducible apply keeps_ite | split

theorem State.reread_keeps {s0 s : State} (h : Keeps s0 s) (n : Nat) (r : MpRead) : Keeps s0 (s.reread n r) := by
  unfold State.reread
  iterate 150 all_goals try first
    | (intro) | with_reducible assumption | with_reducible exact Keeps.refl _
    | (extract_lets +onlyGivenNames -lift t; first | (refine keeps_cut (P := Keeps s0 t) (fun ht => ?_) ?_; clear_value t; rotate_left; dsimp -zeta only [t]; try clear t; rotate_right) | (refine keeps_cut (P := Keeps s0 t.1) (fun ht => ?_) ?_; clear_value t; rotate_left; dsimp -zeta only [t]; try clear t; rotate_right) | clear_value t)
    | with_reducible apply State.redo_keeps | with_reducible apply State.setFlag_keeps
    | with_reducible apply keeps_ite | split

theorem State.issueRead_keeps {s0 s : State} (h : Keeps s0 s) (n : Nat) : Keeps s0 (s.issueRead n) := by
  unfold State.issueRead
  iterate 150 all_goals try first
    | (intro) | with_reducible assumption | with_reducible exact Keeps.refl _
    | (extract_lets +onlyGivenNames -lift t; first | (refine keeps_cut (P := Keeps s0 t) (fun ht => ?_) ?_; clear_value t; rotate_left; dsimp -zeta only [t]; try clear t; rotate_right) | (refine keeps_cut (P := Keeps s0 t.1) (fun ht => ?_) ?_; clear_value t; rotate_left; dsimp -zeta only [t]; try clear t; rotate_right) | clear_value t)
    | with_reducible apply State.setMp_keeps | with_reducible apply State.reread_keeps | with_reducible apply State.ev_keeps
    | with_reducible apply keeps_ite | with_reducible apply keeps_mpTx | (apply_assumption -exfalso -symm) | simp only [keeps_upd] | split

theorem State.copyRead_keeps {s0 s : State} (h : Keeps s0 s) (m : Nat) : Keeps s0 (s.copyRead m) := by
  unfold State.copyRead
  iterate 150 all_goals try first
    | (intro) | with_reducible assumption | with_reducible exact Keeps.refl _
    | (extract_lets +onlyGivenNames -lift t; first | (refine keeps_cut (P := Keeps s0 t) (fun ht => ?_) ?_; clear_value t; rotate_left; dsimp -zeta only [t]; try clear t; rotate_right) | (refine keeps_cut (P := Keeps s0 t.1) (fun ht => ?_) ?_; clear_value t; rotate_left; dsimp -zeta only [t]; try clear t; rotate_right) | clear_value t)
    | with_reducible apply State.setMp_keeps | with_reducible apply State.ev_keeps
    | with_reducible apply keeps_ite | with_reducible apply keeps_mpTx | (apply_assumption -exfalso -symm) | simp only [keeps_upd] | split

theorem State.copyGot_keeps {s0 s : State} (h : Keeps s0 s) (n : Nat) (h : HIdx) (d : LineData) : Keeps s0 (s.copyGot n h d) := by
  unfold State.copyGot
  iterate 150 all_goals try first
    | (intro) | with_reducible assumption | with_reducible exact Keeps.refl _
    | (extract_lets +onlyGivenNames -lift t; first | (refine keeps_cut (P := Keeps s0 t) (fun ht => ?_) ?_; clear_value t; rotate_left; dsimp -zeta only [t]; try clear t; rotate_right) | (refine keeps_cut (P := Keeps s0 t.1) (fun ht => ?_) ?_; clear_value t; rotate_left; dsimp -zeta only [t]; try clear t; rotate_right) | clear_value t)
    | with_reducible apply State.setMp_keeps
    | with_reducible apply keeps_ite | simp only [keeps_upd] | split

theorem State.copyWrite_keeps {s0 s : State} (h : Keeps s0 s) (n : Nat) : Keeps s0 (s.copyWrite n) := by
  unfold State.copyWrite
  iterate 150 all_goals try first
    | (intro) | with_reducible assumption | with_reducible exact Keeps.refl _
    | (extract_lets +onlyGivenNames -lift t; first | (refine keeps_cut (P := Keeps s0 t) (fun ht => ?_) ?_; clear_value t; rotate_left; dsimp -zeta only [t]; try clear t; rotate_right) | (refine keeps_cut (P := Keeps s0 t.1) (fun ht => ?_) ?_; clear_value t; rotate_left; dsimp -zeta only [t]; try clear t; rotate_right) | clear_value t)
    | with_reducible apply State.setMp_keeps
    | with_reducible apply keeps_ite | with_reducible apply keeps_mpTx | (apply_assumption -exfalso -symm) | simp only [keeps_upd] | split

theorem State.copyPut_keeps {s0 s : State} (h : Keeps s0 s) (n : Nat) (h : HIdx) : Keeps s0 (s.copyPut n h) := by
  unfold State.copyPut
  iterate 150 all_goals try first
    | (intro) | with_reducible assumption | with_reducible exact Keeps.refl _
    | (extract_lets +onlyGivenNames -lift t; first | (refine keeps_cut (P := Keeps s0 t) (fun ht => ?_) ?_; clear_value t; rotate_left; dsimp -zeta only [t]; try clear t; rotate_right) | (refine keeps_cut (P := Keeps s0 t.1) (fun ht => ?_) ?_; clear_value t; rotate_left; dsimp -zeta only [t]; try clear t; rotate_right) | clear_value t)
    | with_reducible apply State.setMp_keeps
    | with_reducible apply keeps_ite | (apply_assumption -exfalso -symm) | simp only [keeps_upd] | split

theorem State.copyStop_keeps {s0 s : State} (h : Keeps s0 s) (n : Nat) : Keeps s0 (s.copyStop n) := by
  unfold State.copyStop
  iterate 150 all_goals try first
    | (intro) | with_reducible assumption | with_reducible exact Keeps.refl _
    | (extract_lets +onlyGivenNames -lift t; first | (refine keeps_cut (P := Keeps s0 t) (fun ht => ?_) ?_; clear_value t; rotate_left; dsimp -zeta only [t]; try clear t; rotate_right) | (refine keeps_cut (P := Keeps s0 t.1) (fun ht => ?_) ?_; clear_value t; rotate_left; dsimp -zeta only [t]; try clear t; rotate_right) | clear_value t)
    | with_reducible apply State.setFld_keeps | with_reducible apply State.setMp_keeps
    | with_reducible apply keeps_ite | (apply_assumption -exfalso -symm) | simp only [keeps_upd] | split

theorem State.issueWrite_keeps {s0 s : State} (h : Keeps s0 s) (n : Nat) : Keeps s0 (s.issueWrite n) := by
  unfold State.issueWrite
  split
  · exact h
  · rename_i k _ _
    have hr : Keeps s0 (s.inkRead k).1 := State.inkRead_keeps h k
    generalize s.inkRead k = r at hr
    extract_lets +onlyGivenNames -lift r' s1 p
    split
    · split
      · exact hr
      · extract_lets +onlyGivenNames -lift s2 s3 s4
        have h2 : Keeps s0 s2 := State.setMp_keeps hr n _
        clear_value s2
        have h3 : Keeps s0 s3 := by dsimp -zeta only [s3]; rw [keeps_upd]; exact h2
        clear_value s3
        have h4 : Keeps s0 s4 := keeps_ite (State.setFlag_keeps h3 _ _ _) h3
        exact keeps_mpTx h4 _
    · exact hr

theorem State.commitStep_keeps {s0 s : State} (h : Keeps s0 s) (i : Nat) : Keeps s0 (s.commitStep i) := by
  unfold State.commitStep
  iterate 150 all_goals try first
    | (intro) | with_reducible assumption | with_reducible exact Keeps.refl _
    | with_reducible apply State.syncStep_keeps | with_reducible apply State.reply_keeps | with_reducible apply State.closeReq_keeps
    | with_reducible apply keeps_ite | split

theorem State.commit_keeps {s0 s : State} (h : Keeps s0 s) (k : Nat) : Keeps s0 (s.commit k) := by
  unfold State.commit
  iterate 150 all_goals try first
    | (intro) | with_reducible assumption | with_reducible exact Keeps.refl _
    | (extract_lets +onlyGivenNames -lift t; first | (refine keeps_cut (P := Keeps s0 t) (fun ht => ?_) ?_; clear_value t; rotate_left; dsimp -zeta only [t]; try clear t; rotate_right) | (refine keeps_cut (P := Keeps s0 t.1) (fun ht => ?_) ?_; clear_value t; rotate_left; dsimp -zeta only [t]; try clear t; rotate_right) | clear_value t)
    | with_reducible apply State.maxFld_keeps | with_reducible apply State.addFld_keeps | with_reducible apply State.commitStep_keeps | with_reducible apply State.cpDrain_keeps | with_reducible apply State.cpAdvance_keeps
    | with_reducible apply keeps_ite | with_reducible apply keeps_foldl | (apply_assumption -exfalso -symm) | simp only [keeps_upd] | split

theorem State.portDone_keeps {s0 s : State} (h : Keeps s0 s) (n k : Nat) : Keeps s0 (s.portDone n k) := by
  unfold State.portDone
  iterate 150 all_goals try first
    | (intro) | with_reducible assumption | with_reducible exact Keeps.refl _
    | (extract_lets +onlyGivenNames -lift t; first | (refine keeps_cut (P := Keeps s0 t) (fun ht => ?_) ?_; clear_value t; rotate_left; dsimp -zeta only [t]; try clear t; rotate_right) | (refine keeps_cut (P := Keeps s0 t.1) (fun ht => ?_) ?_; clear_value t; rotate_left; dsimp -zeta only [t]; try clear t; rotate_right) | clear_value t)
    | with_reducible apply State.need_keeps | (refine State.need_keeps_eq (p := (_, _)) (by assumption) ?_) | with_reducible apply State.commit_keeps
    | with_reducible apply keeps_ite | (apply_assumption -exfalso -symm) | simp only [keeps_upd] | split

theorem State.portGone_keeps {s0 s : State} (h : Keeps s0 s) (n k : Nat) : Keeps s0 (s.portGone n k) := by
  unfold State.portGone
  iterate 150 all_goals try first
    | (intro) | with_reducible assumption | with_reducible exact Keeps.refl _
    | (extract_lets +onlyGivenNames -lift t; first | (refine keeps_cut (P := Keeps s0 t) (fun ht => ?_) ?_; clear_value t; rotate_left; dsimp -zeta only [t]; try clear t; rotate_right) | (refine keeps_cut (P := Keeps s0 t.1) (fun ht => ?_) ?_; clear_value t; rotate_left; dsimp -zeta only [t]; try clear t; rotate_right) | clear_value t)
    | with_reducible apply State.portDone_keeps
    | with_reducible apply keeps_ite | (apply_assumption -exfalso -symm) | simp only [keeps_upd] | split

theorem State.copyNote_keeps {s0 s : State} (h : Keeps s0 s) (n : Nat) (h : HIdx) (d : LineData) (det : Nat) : Keeps s0 (s.copyNote n h d det) := by
  unfold State.copyNote
  iterate 150 all_goals try first
    | with_reducible assumption | with_reducible exact Keeps.refl _
    | with_reducible apply State.note_keeps
    | with_reducible apply keeps_ite | split

theorem State.deliver_keeps {s0 s : State} (h : Keeps s0 s) (i : Nat) (h : HIdx) (d : LineData) : Keeps s0 (s.deliver i h d) := by
  unfold State.deliver
  iterate 150 all_goals try first
    | (intro) | with_reducible assumption | with_reducible exact Keeps.refl _
    | (extract_lets +onlyGivenNames -lift t; first | (refine keeps_cut (P := Keeps s0 t) (fun ht => ?_) ?_; clear_value t; rotate_left; dsimp -zeta only [t]; try clear t; rotate_right) | (refine keeps_cut (P := Keeps s0 t.1) (fun ht => ?_) ?_; clear_value t; rotate_left; dsimp -zeta only [t]; try clear t; rotate_right) | clear_value t)
    | with_reducible apply State.reading_keeps | with_reducible apply State.updStall_keeps | with_reducible apply State.step1_keeps
    | with_reducible apply keeps_ite | (apply_assumption -exfalso -symm) | simp only [keeps_upd] | split

theorem State.moveReads_keeps {s0 s : State} (h : Keeps s0 s) (n : Nat) (why : Rerun) (rs : List MpRead) : Keeps s0 (s.moveReads n why rs) := by
  unfold State.moveReads
  iterate 150 all_goals try first
    | (intro) | with_reducible assumption | with_reducible exact Keeps.refl _
    | (extract_lets +onlyGivenNames -lift t; first | (refine keeps_cut (P := Keeps s0 t) (fun ht => ?_) ?_; clear_value t; rotate_left; dsimp -zeta only [t]; try clear t; rotate_right) | (refine keeps_cut (P := Keeps s0 t.1) (fun ht => ?_) ?_; clear_value t; rotate_left; dsimp -zeta only [t]; try clear t; rotate_right) | clear_value t)
    | with_reducible apply State.setMp_keeps
    | with_reducible apply keeps_ite | with_reducible apply keeps_foldl | (apply_assumption -exfalso -symm) | simp only [keeps_upd] | split

theorem State.failPort_keeps {s0 s : State} (h : Keeps s0 s) (n why : Nat) : Keeps s0 (s.failPort n why) := by
  unfold State.failPort
  iterate 150 all_goals try first
    | (intro) | with_reducible assumption | with_reducible exact Keeps.refl _
    | (extract_lets +onlyGivenNames -lift t; first | (refine keeps_cut (P := Keeps s0 t) (fun ht => ?_) ?_; clear_value t; rotate_left; dsimp -zeta only [t]; try clear t; rotate_right) | (refine keeps_cut (P := Keeps s0 t.1) (fun ht => ?_) ?_; clear_value t; rotate_left; dsimp -zeta only [t]; try clear t; rotate_right) | clear_value t)
    | with_reducible apply State.copyStop_keeps | with_reducible apply State.setMpState_keeps | with_reducible apply State.note_keeps | with_reducible apply State.setFlag_keeps | with_reducible apply State.setMp_keeps | with_reducible apply State.declare_keeps | with_reducible apply State.moveReads_keeps | with_reducible apply State.portGone_keeps
    | with_reducible apply keeps_ite | with_reducible apply keeps_foldl | (apply_assumption -exfalso -symm) | simp only [keeps_upd] | split

theorem State.badCopy_keeps {s0 s : State} (h : Keeps s0 s) (n : Nat) (h : HIdx) (d : LineData) (err : Bool) : Keeps s0 (s.badCopy n h d err) := by
  unfold State.badCopy
  iterate 150 all_goals try first
    | (intro) | with_reducible assumption | with_reducible exact Keeps.refl _
    | (extract_lets +onlyGivenNames -lift t; first | (refine keeps_cut (P := Keeps s0 t) (fun ht => ?_) ?_; clear_value t; rotate_left; dsimp -zeta only [t]; try clear t; rotate_right) | (refine keeps_cut (P := Keeps s0 t.1) (fun ht => ?_) ?_; clear_value t; rotate_left; dsimp -zeta only [t]; try clear t; rotate_right) | clear_value t)
    | with_reducible apply State.addFld_keeps | with_reducible apply State.setReg_keeps
    | with_reducible apply keeps_ite | split

theorem State.repair_keeps {s0 s : State} (h : Keeps s0 s) (h : HIdx) (d : LineData) (ports : List Nat) : Keeps s0 (s.repair h d ports) := by
  unfold State.repair
  iterate 150 all_goals try first
    | (intro) | with_reducible assumption | with_reducible exact Keeps.refl _
    | (extract_lets +onlyGivenNames -lift t; first | (refine keeps_cut (P := Keeps s0 t) (fun ht => ?_) ?_; clear_value t; rotate_left; dsimp -zeta only [t]; try clear t; rotate_right) | (refine keeps_cut (P := Keeps s0 t.1) (fun ht => ?_) ?_; clear_value t; rotate_left; dsimp -zeta only [t]; try clear t; rotate_right) | clear_value t)
    | with_reducible apply State.addFld_keeps | with_reducible apply State.inkReserve_keeps | with_reducible apply State.inkFill_keeps | with_reducible apply State.ev_keeps
    | with_reducible apply keeps_ite | with_reducible apply keeps_foldl | (apply_assumption -exfalso -symm) | simp only [keeps_upd] | split

theorem State.supply_keeps {s0 s : State} (h : Keeps s0 s) (n : Nat) (r : MpRead) (d : LineData) (err : Bool) : Keeps s0 (s.supply n r d err) := by
  unfold State.supply
  iterate 150 all_goals try first
    | (intro) | with_reducible assumption | with_reducible exact Keeps.refl _
    | (extract_lets +onlyGivenNames -lift t; first | (refine keeps_cut (P := Keeps s0 t) (fun ht => ?_) ?_; clear_value t; rotate_left; dsimp -zeta only [t]; try clear t; rotate_right) | (refine keeps_cut (P := Keeps s0 t.1) (fun ht => ?_) ?_; clear_value t; rotate_left; dsimp -zeta only [t]; try clear t; rotate_right) | clear_value t)
    | with_reducible apply State.ev_keeps | with_reducible apply State.copyGot_keeps | with_reducible apply State.deliver_keeps
    | with_reducible apply keeps_ite | simp only [keeps_upd] | split

theorem State.returned_keeps {s0 s : State} (h : Keeps s0 s) (n : Nat) (r : MpRead) (data : LineData) (err : Bool) : Keeps s0 (s.returned n r data err) := by
  unfold State.returned
  iterate 150 all_goals try first
    | (intro) | with_reducible assumption | with_reducible exact Keeps.refl _
    | (extract_lets +onlyGivenNames -lift t; first | (refine keeps_cut (P := Keeps s0 t) (fun ht => ?_) ?_; clear_value t; rotate_left; dsimp -zeta only [t]; try clear t; rotate_right) | (refine keeps_cut (P := Keeps s0 t.1) (fun ht => ?_) ?_; clear_value t; rotate_left; dsimp -zeta only [t]; try clear t; rotate_right) | clear_value t)
    | with_reducible apply State.addFld_keeps | with_reducible apply State.evN_keeps | with_reducible apply State.note_keeps | with_reducible apply State.badCopy_keeps | with_reducible apply State.setMp_keeps | with_reducible apply State.ev_keeps | with_reducible apply State.copyNote_keeps | with_reducible apply State.supply_keeps | with_reducible apply State.repair_keeps
    | with_reducible apply keeps_ite | simp only [keeps_upd] | split

theorem State.unissue_keeps {s0 s : State} (h : Keeps s0 s) (n k seq : Nat) : Keeps s0 (s.unissue n k seq) := by
  unfold State.unissue
  iterate 150 all_goals try first
    | (intro) | with_reducible assumption | with_reducible exact Keeps.refl _
    | (extract_lets +onlyGivenNames -lift t; first | (refine keeps_cut (P := Keeps s0 t) (fun ht => ?_) ?_; clear_value t; rotate_left; dsimp -zeta only [t]; try clear t; rotate_right) | (refine keeps_cut (P := Keeps s0 t.1) (fun ht => ?_) ?_; clear_value t; rotate_left; dsimp -zeta only [t]; try clear t; rotate_right) | clear_value t)
    | with_reducible apply keeps_ite | (apply_assumption -exfalso -symm) | simp only [keeps_upd] | split

theorem State.interrupt_keeps {s0 s : State} (h : Keeps s0 s) (n : Nat) : Keeps s0 (s.interrupt n) := by
  unfold State.interrupt
  iterate 150 all_goals try first
    | (intro) | with_reducible assumption | with_reducible exact Keeps.refl _
    | (extract_lets +onlyGivenNames -lift t; first | (refine keeps_cut (P := Keeps s0 t) (fun ht => ?_) ?_; clear_value t; rotate_left; dsimp -zeta only [t]; try clear t; rotate_right) | (refine keeps_cut (P := Keeps s0 t.1) (fun ht => ?_) ?_; clear_value t; rotate_left; dsimp -zeta only [t]; try clear t; rotate_right) | (refine keeps_cut (P := ∀ u a, Keeps s0 u → Keeps s0 (t u a)) (fun ht => ?_) ?_; clear_value t; rotate_left; dsimp -zeta only [t]; try clear t; rotate_right) | (refine keeps_cut (P := ∀ u, Keeps s0 u → Keeps s0 (t u)) (fun ht => ?_) ?_; clear_value t; rotate_left; dsimp -zeta only [t]; try clear t; rotate_right) | (refine keeps_cut (P := ∀ u, Keeps s0 u → Keeps s0 (t u).1) (fun ht => ?_) ?_; clear_value t; rotate_left; dsimp -zeta only [t]; try clear t; rotate_right) | clear_value t)
    | with_reducible apply State.unissue_keeps | with_reducible apply State.setMp_keeps | with_reducible apply State.moveReads_keeps
    | with_reducible apply keeps_ite | with_reducible apply keeps_foldl | (apply_assumption -exfalso -symm) | simp only [keeps_upd] | split

theorem State.resyncStop_keeps {s0 s : State} (h : Keeps s0 s) (n : Nat) : Keeps s0 (s.resyncStop n) := by
  unfold State.resyncStop
  iterate 150 all_goals try first
    | (intro) | with_reducible assumption | with_reducible exact Keeps.refl _
    | (extract_lets +onlyGivenNames -lift t; first | (refine keeps_cut (P := Keeps s0 t) (fun ht => ?_) ?_; clear_value t; rotate_left; dsimp -zeta only [t]; try clear t; rotate_right) | (refine keeps_cut (P := Keeps s0 t.1) (fun ht => ?_) ?_; clear_value t; rotate_left; dsimp -zeta only [t]; try clear t; rotate_right) | clear_value t)
    | with_reducible apply State.copyStop_keeps | with_reducible apply State.setMpState_keeps | with_reducible apply State.setMp_keeps | with_reducible apply State.portGone_keeps
    | with_reducible apply keeps_ite | with_reducible apply keeps_foldl | (apply_assumption -exfalso -symm) | simp only [keeps_upd] | split

theorem State.mpReset_keeps {s0 s : State} (h : Keeps s0 s) (n : Nat) (driven : Bool) : Keeps s0 (s.mpReset n driven) := by
  unfold State.mpReset
  iterate 150 all_goals try first
    | (intro) | with_reducible assumption | with_reducible exact Keeps.refl _
    | (extract_lets +onlyGivenNames -lift t; first | (refine keeps_cut (P := Keeps s0 t) (fun ht => ?_) ?_; clear_value t; rotate_left; dsimp -zeta only [t]; try clear t; rotate_right) | (refine keeps_cut (P := Keeps s0 t.1) (fun ht => ?_) ?_; clear_value t; rotate_left; dsimp -zeta only [t]; try clear t; rotate_right) | clear_value t)
    | with_reducible apply State.addFld_keeps | with_reducible apply State.setMpState_keeps | with_reducible apply State.interrupt_keeps | with_reducible apply State.setMp_keeps | with_reducible apply State.setFlag_keeps | with_reducible apply State.resyncStop_keeps
    | with_reducible apply keeps_ite | simp only [keeps_upd] | split

theorem State.mpBack_keeps {s0 s : State} (h : Keeps s0 s) (n : Nat) : Keeps s0 (s.mpBack n) := by
  unfold State.mpBack
  iterate 150 all_goals try first
    | (intro) | with_reducible assumption | with_reducible exact Keeps.refl _
    | (extract_lets +onlyGivenNames -lift t; first | (refine keeps_cut (P := Keeps s0 t) (fun ht => ?_) ?_; clear_value t; rotate_left; dsimp -zeta only [t]; try clear t; rotate_right) | (refine keeps_cut (P := Keeps s0 t.1) (fun ht => ?_) ?_; clear_value t; rotate_left; dsimp -zeta only [t]; try clear t; rotate_right) | clear_value t)
    | with_reducible apply State.setFlag_keeps | with_reducible apply State.copyStop_keeps | with_reducible apply State.setMpState_keeps
    | with_reducible apply keeps_ite | split

theorem State.resyncStart_keeps {s0 s : State} (h : Keeps s0 s) (n : Nat) : Keeps s0 (s.resyncStart n) := by
  unfold State.resyncStart
  iterate 150 all_goals try first
    | (intro) | with_reducible assumption | with_reducible exact Keeps.refl _
    | (extract_lets +onlyGivenNames -lift t; first | (refine keeps_cut (P := Keeps s0 t) (fun ht => ?_) ?_; clear_value t; rotate_left; dsimp -zeta only [t]; try clear t; rotate_right) | (refine keeps_cut (P := Keeps s0 t.1) (fun ht => ?_) ?_; clear_value t; rotate_left; dsimp -zeta only [t]; try clear t; rotate_right) | clear_value t)
    | with_reducible apply State.setMpState_keeps | with_reducible apply State.setFld_keeps | with_reducible apply State.setFlag_keeps | with_reducible apply State.setMp_keeps | with_reducible apply State.repair_keeps | with_reducible apply State.need_keeps
    | with_reducible apply keeps_ite | (apply_assumption -exfalso -symm) | simp only [keeps_upd] | split


end Sys2Proof.Machine
end

