-- ==== Sys2Proof/Laws/KeepsChannelPort.lean ====
section
/-! SUPPORT. Every named operation of Machine/ChannelPort.lean keeps what `Keeps` names. -/

set_option linter.unusedTactic false
set_option linter.unreachableTactic false
set_option linter.unusedVariables false
set_option linter.tactic.unusedName false

namespace Sys2Proof.Machine

theorem State.cpAtOnce_keeps {s0 s : State} (h : Keeps s0 s) (c : CpCmd) (status lo : Nat) : Keeps s0 (s.cpAtOnce c status lo) := by
  unfold State.cpAtOnce
  iterate 150 all_goals try first
    | (intro) | with_reducible assumption | with_reducible exact Keeps.refl _
    | (extract_lets +onlyGivenNames -lift t; first | (refine keeps_cut (P := Keeps s0 t) (fun ht => ?_) ?_; clear_value t; rotate_left; dsimp -zeta only [t]; try clear t; rotate_right) | (refine keeps_cut (P := Keeps s0 t.1) (fun ht => ?_) ?_; clear_value t; rotate_left; dsimp -zeta only [t]; try clear t; rotate_right) | clear_value t)
    | with_reducible apply State.addFld_keeps | with_reducible apply State.ev_keeps | with_reducible apply State.note_keeps | with_reducible apply State.cpRespond_keeps
    | with_reducible apply keeps_ite | simp only [keeps_upd] | split

theorem State.cpOpen_keeps {s0 s : State} (h : Keeps s0 s) (st : Nat) (o : CpOpen) : Keeps s0 (s.cpOpen st o) := by
  unfold State.cpOpen
  iterate 150 all_goals try first
    | with_reducible assumption | with_reducible exact Keeps.refl _
    | (extract_lets +onlyGivenNames -lift t; first | (refine keeps_cut (P := Keeps s0 t) (fun ht => ?_) ?_; clear_value t; rotate_left; dsimp -zeta only [t]; try clear t; rotate_right) | (refine keeps_cut (P := Keeps s0 t.1) (fun ht => ?_) ?_; clear_value t; rotate_left; dsimp -zeta only [t]; try clear t; rotate_right) | clear_value t)
    | with_reducible apply keeps_ite | simp only [keeps_upd] | split

theorem State.cpDispatch_keeps {s0 s : State} (h : Keeps s0 s) (r : Req) : Keeps s0 (s.cpDispatch r) := by
  unfold State.cpDispatch
  iterate 150 all_goals try first
    | (intro) | with_reducible assumption | with_reducible exact Keeps.refl _
    | (extract_lets +onlyGivenNames -lift t; first | (refine keeps_cut (P := Keeps s0 t) (fun ht => ?_) ?_; clear_value t; rotate_left; dsimp -zeta only [t]; try clear t; rotate_right) | (refine keeps_cut (P := Keeps s0 t.1) (fun ht => ?_) ?_; clear_value t; rotate_left; dsimp -zeta only [t]; try clear t; rotate_right) | clear_value t)
    | with_reducible apply State.taken_keeps | with_reducible apply State.refuseRegion_keeps | with_reducible apply State.dispatch_keeps
    | with_reducible apply keeps_ite | split

theorem State.cpExecute_keeps {s0 s : State} (h : Keeps s0 s) (c : CpCmd) (op : BitVec 6) (dup : Bool) : Keeps s0 (s.cpExecute c op dup) := by
  unfold State.cpExecute
  iterate 150 all_goals try first
    | (intro) | with_reducible assumption | with_reducible exact Keeps.refl _
    | (extract_lets +onlyGivenNames -lift t; first | (refine keeps_cut (P := Keeps s0 t) (fun ht => ?_) ?_; clear_value t; rotate_left; dsimp -zeta only [t]; try clear t; rotate_right) | (refine keeps_cut (P := Keeps s0 t.1) (fun ht => ?_) ?_; clear_value t; rotate_left; dsimp -zeta only [t]; try clear t; rotate_right) | clear_value t)
    | with_reducible apply State.cpOpen_keeps | with_reducible apply State.cpDispatch_keeps
    | with_reducible apply keeps_ite | simp only [keeps_upd] | split

theorem State.cpReplay_keeps {s0 s : State} (h : Keeps s0 s) (c : CpCmd) (op : BitVec 6) : Keeps s0 (s.cpReplay c op) := by
  unfold State.cpReplay
  iterate 150 all_goals try first
    | (intro) | with_reducible assumption | with_reducible exact Keeps.refl _
    | (extract_lets +onlyGivenNames -lift t; first | (refine keeps_cut (P := Keeps s0 t) (fun ht => ?_) ?_; clear_value t; rotate_left; dsimp -zeta only [t]; try clear t; rotate_right) | (refine keeps_cut (P := Keeps s0 t.1) (fun ht => ?_) ?_; clear_value t; rotate_left; dsimp -zeta only [t]; try clear t; rotate_right) | clear_value t)
    | with_reducible apply State.addFld_keeps | with_reducible apply State.ev_keeps | with_reducible apply State.cpOpen_keeps | with_reducible apply State.cpDrain_keeps | with_reducible apply State.cpExecute_keeps
    | with_reducible apply keeps_ite | simp only [keeps_upd] | split

theorem State.cpIntake_keeps {s0 s : State} (h : Keeps s0 s) (c : CpCmd) : Keeps s0 (s.cpIntake c) := by
  unfold State.cpIntake
  iterate 150 all_goals try first
    | (intro) | with_reducible assumption | with_reducible exact Keeps.refl _
    | (extract_lets +onlyGivenNames -lift t; first | (refine keeps_cut (P := Keeps s0 t) (fun ht => ?_) ?_; clear_value t; rotate_left; dsimp -zeta only [t]; try clear t; rotate_right) | (refine keeps_cut (P := Keeps s0 t.1) (fun ht => ?_) ?_; clear_value t; rotate_left; dsimp -zeta only [t]; try clear t; rotate_right) | clear_value t)
    | with_reducible apply State.note_keeps | with_reducible apply State.ev_keeps
    | with_reducible apply keeps_ite | simp only [keeps_upd] | split

theorem State.cpFresh_keeps {s0 s : State} (h : Keeps s0 s) (c : CpCmd) (op : BitVec 6) : Keeps s0 (s.cpFresh c op) := by
  unfold State.cpFresh
  iterate 150 all_goals try first
    | (intro) | with_reducible assumption | with_reducible exact Keeps.refl _
    | (extract_lets +onlyGivenNames -lift t; first | (refine keeps_cut (P := Keeps s0 t) (fun ht => ?_) ?_; clear_value t; rotate_left; dsimp -zeta only [t]; try clear t; rotate_right) | (refine keeps_cut (P := Keeps s0 t.1) (fun ht => ?_) ?_; clear_value t; rotate_left; dsimp -zeta only [t]; try clear t; rotate_right) | clear_value t)
    | with_reducible apply State.setFld_keeps | with_reducible apply State.cpIntake_keeps | with_reducible apply State.ev_keeps | with_reducible apply State.cpExecute_keeps
    | with_reducible apply keeps_ite | simp only [keeps_upd] | split

theorem State.cpSpend_keeps {s0 s : State} (h : Keeps s0 s) (c : CpCmd) : Keeps s0 (s.cpSpend c) := by
  unfold State.cpSpend
  split
  · simpa only [keeps_upd] using h
  · exact h

theorem State.cpCommand_keeps {s0 s : State} (h : Keeps s0 s) (c : CpCmd) : Keeps s0 (s.cpCommand c) := by
  unfold State.cpCommand
  iterate 150 all_goals try first
    | (intro) | with_reducible assumption | with_reducible exact Keeps.refl _
    | (extract_lets +onlyGivenNames -lift t; first | (refine keeps_cut (P := Keeps s0 t) (fun ht => ?_) ?_; clear_value t; rotate_left; dsimp -zeta only [t]; try clear t; rotate_right) | (refine keeps_cut (P := Keeps s0 t.1) (fun ht => ?_) ?_; clear_value t; rotate_left; dsimp -zeta only [t]; try clear t; rotate_right) | clear_value t)
    | with_reducible apply State.cpSpend_keeps | with_reducible apply State.cpRespond_keeps | with_reducible apply State.cpAtOnce_keeps | with_reducible apply State.probe_keeps | with_reducible apply State.cpFresh_keeps | with_reducible apply State.cpReplay_keeps
    | with_reducible apply keeps_ite | split

theorem State.cpAgain_keeps {s0 s : State} (h : Keeps s0 s) (st : Fin 64) : Keeps s0 (s.cpAgain st) := by
  unfold State.cpAgain
  iterate 150 all_goals try first
    | (intro) | with_reducible assumption | with_reducible exact Keeps.refl _
    | (extract_lets +onlyGivenNames -lift t; first | (refine keeps_cut (P := Keeps s0 t) (fun ht => ?_) ?_; clear_value t; rotate_left; dsimp -zeta only [t]; try clear t; rotate_right) | (refine keeps_cut (P := Keeps s0 t.1) (fun ht => ?_) ?_; clear_value t; rotate_left; dsimp -zeta only [t]; try clear t; rotate_right) | clear_value t)
    | with_reducible apply State.cpDispatch_keeps
    | with_reducible apply keeps_ite | (apply_assumption -exfalso -symm) | simp only [keeps_upd] | split

theorem State.cpReset_keeps {s0 s : State} (h : Keeps s0 s) (driven : Bool) : Keeps s0 (s.cpReset driven) := by
  unfold State.cpReset
  iterate 150 all_goals try first
    | (intro) | with_reducible assumption | with_reducible exact Keeps.refl _
    | (extract_lets +onlyGivenNames -lift t; first | (refine keeps_cut (P := Keeps s0 t) (fun ht => ?_) ?_; clear_value t; rotate_left; dsimp -zeta only [t]; try clear t; rotate_right) | (refine keeps_cut (P := Keeps s0 t.1) (fun ht => ?_) ?_; clear_value t; rotate_left; dsimp -zeta only [t]; try clear t; rotate_right) | clear_value t)
    | with_reducible apply State.setLink_keeps | with_reducible apply State.addFld_keeps | with_reducible apply State.setFlag_keeps
    | with_reducible apply keeps_ite | simp only [keeps_upd] | split

theorem State.cpAckAll_keeps {s0 s : State} (h : Keeps s0 s) : Keeps s0 (s.cpAckAll) := by
  unfold State.cpAckAll
  iterate 150 all_goals try first
    | (intro) | with_reducible assumption | with_reducible exact Keeps.refl _
    | (extract_lets +onlyGivenNames -lift t; first | (refine keeps_cut (P := Keeps s0 t) (fun ht => ?_) ?_; clear_value t; rotate_left; dsimp -zeta only [t]; try clear t; rotate_right) | (refine keeps_cut (P := Keeps s0 t.1) (fun ht => ?_) ?_; clear_value t; rotate_left; dsimp -zeta only [t]; try clear t; rotate_right) | clear_value t)
    | with_reducible apply State.evN_keeps
    | with_reducible apply keeps_ite | (apply_assumption -exfalso -symm) | simp only [keeps_upd] | split


end Sys2Proof.Machine
end

