-- ==== Sys2Proof/Laws/KeepsLedgerRows.lean ====
section
/-! SUPPORT. Every named operation of Machine/LedgerRows.lean keeps what `Keeps` names. -/

set_option linter.unusedTactic false
set_option linter.unreachableTactic false
set_option linter.unusedVariables false
set_option linter.tactic.unusedName false

namespace Sys2Proof.Machine

theorem State.entryFreed_keeps {s0 s : State} (h : Keeps s0 s) (k : Nat) : Keeps s0 (s.entryFreed k) := by
  unfold State.entryFreed
  iterate 150 all_goals try first
    | (intro) | with_reducible assumption | with_reducible exact Keeps.refl _
    | with_reducible apply State.advance_keeps
    | with_reducible apply keeps_ite | with_reducible apply keeps_foldl | (apply_assumption -exfalso -symm) | split

theorem State.moveDone_keeps {s0 s : State} (h : Keeps s0 s) (m : Move) : Keeps s0 (s.moveDone m) := by
  unfold State.moveDone
  iterate 150 all_goals try first
    | (intro) | with_reducible assumption | with_reducible exact Keeps.refl _
    | (extract_lets +onlyGivenNames -lift t; first | (refine keeps_cut (P := Keeps s0 t) (fun ht => ?_) ?_; clear_value t; rotate_left; dsimp -zeta only [t]; try clear t; rotate_right) | (refine keeps_cut (P := Keeps s0 t.1) (fun ht => ?_) ?_; clear_value t; rotate_left; dsimp -zeta only [t]; try clear t; rotate_right) | clear_value t)
    | with_reducible apply State.alcTag_keeps | with_reducible apply State.alcRead_keeps | with_reducible apply State.inkFill_keeps | with_reducible apply State.alcFree_keeps | with_reducible apply State.ev_keeps | with_reducible apply State.entryFreed_keeps
    | with_reducible apply keeps_ite | simp only [keeps_upd] | split

theorem State.tagsWritten_keeps {s0 s : State} (h : Keeps s0 s) (p : Nat → Bool) : Keeps s0 (s.tagsWritten p) := by
  unfold State.tagsWritten
  iterate 150 all_goals try first
    | (intro) | with_reducible assumption | with_reducible exact Keeps.refl _
    | (extract_lets +onlyGivenNames -lift t; first | (refine keeps_cut (P := Keeps s0 t) (fun ht => ?_) ?_; clear_value t; rotate_left; dsimp -zeta only [t]; try clear t; rotate_right) | (refine keeps_cut (P := Keeps s0 t.1) (fun ht => ?_) ?_; clear_value t; rotate_left; dsimp -zeta only [t]; try clear t; rotate_right) | clear_value t)
    | with_reducible apply keeps_ite | (apply_assumption -exfalso -symm) | simp only [keeps_upd] | split


end Sys2Proof.Machine
end

