-- ==== Sys2Proof/Laws/KeepsIslands.lean ====
section
/-! SUPPORT. Every named operation of Machine/Islands.lean keeps what `Keeps` names. -/

set_option linter.unusedTactic false
set_option linter.unreachableTactic false
set_option linter.unusedVariables false
set_option linter.tactic.unusedName false

namespace Sys2Proof.Machine

theorem State.setIsl_keeps {s0 s : State} (h : Keeps s0 s) (i v : Nat) : Keeps s0 (s.setIsl i v) := by
  unfold State.setIsl
  iterate 150 all_goals try first
    | with_reducible assumption | with_reducible exact Keeps.refl _
    | with_reducible apply State.setFld_keeps
    | with_reducible apply keeps_ite | split

theorem State.islDone_keeps {s0 s : State} (h : Keeps s0 s) (i v : Nat) : Keeps s0 (s.islDone i v) := by
  unfold State.islDone
  iterate 150 all_goals try first
    | with_reducible assumption | with_reducible exact Keeps.refl _
    | with_reducible apply State.setIsl_keeps | with_reducible apply State.setFlag_keeps
    | with_reducible apply keeps_ite | split

theorem State.openPort_keeps {s0 s : State} (h : Keeps s0 s) (n : Nat) : Keeps s0 (s.openPort n) := by
  unfold State.openPort
  iterate 150 all_goals try first
    | (intro) | with_reducible assumption | with_reducible exact Keeps.refl _
    | (extract_lets +onlyGivenNames -lift t; first | (refine keeps_cut (P := Keeps s0 t) (fun ht => ?_) ?_; clear_value t; rotate_left; dsimp -zeta only [t]; try clear t; rotate_right) | (refine keeps_cut (P := Keeps s0 t.1) (fun ht => ?_) ?_; clear_value t; rotate_left; dsimp -zeta only [t]; try clear t; rotate_right) | clear_value t)
    | with_reducible apply State.setFlag_keeps | with_reducible apply State.setCredNow_keeps | with_reducible apply State.setNp_keeps | with_reducible apply State.settleIn_keeps
    | with_reducible apply keeps_ite | with_reducible apply keeps_foldl | (apply_assumption -exfalso -symm) | simp only [keeps_upd] | split

theorem State.awake_keeps {s0 s : State} (h : Keeps s0 s) (i : Nat) : Keeps s0 (s.awake i) := by
  unfold State.awake
  iterate 150 all_goals try first
    | (intro) | with_reducible assumption | with_reducible exact Keeps.refl _
    | (extract_lets +onlyGivenNames -lift t; first | (refine keeps_cut (P := Keeps s0 t) (fun ht => ?_) ?_; clear_value t; rotate_left; dsimp -zeta only [t]; try clear t; rotate_right) | (refine keeps_cut (P := Keeps s0 t.1) (fun ht => ?_) ?_; clear_value t; rotate_left; dsimp -zeta only [t]; try clear t; rotate_right) | clear_value t)
    | with_reducible apply State.openPort_keeps | with_reducible apply State.resyncStop_keeps | with_reducible apply State.setMp_keeps | with_reducible apply State.setMpState_keeps | with_reducible apply State.setFld_keeps
    | with_reducible apply keeps_ite | simp only [keeps_upd] | split

theorem State.npResetEnd_keeps {s0 s : State} (h : Keeps s0 s) (n : Nat) : Keeps s0 (s.npResetEnd n) := by
  unfold State.npResetEnd
  iterate 150 all_goals try first
    | with_reducible assumption | with_reducible exact Keeps.refl _
    | with_reducible apply State.setFlag_keeps
    | with_reducible apply keeps_ite | split

theorem State.mpResetEnd_keeps {s0 s : State} (h : Keeps s0 s) (n : Nat) : Keeps s0 (s.mpResetEnd n) := by
  unfold State.mpResetEnd
  iterate 150 all_goals try first
    | (intro) | with_reducible assumption | with_reducible exact Keeps.refl _
    | (extract_lets +onlyGivenNames -lift t; first | (refine keeps_cut (P := Keeps s0 t) (fun ht => ?_) ?_; clear_value t; rotate_left; dsimp -zeta only [t]; try clear t; rotate_right) | (refine keeps_cut (P := Keeps s0 t.1) (fun ht => ?_) ?_; clear_value t; rotate_left; dsimp -zeta only [t]; try clear t; rotate_right) | clear_value t)
    | with_reducible apply State.setMp_keeps | with_reducible apply State.mpBack_keeps | with_reducible apply State.setFlag_keeps
    | with_reducible apply keeps_ite | simp only [keeps_upd] | split


end Sys2Proof.Machine
end

