-- ==== Sys2Proof/Laws/KeepsSpRead.lean ====
section
/-! SUPPORT. Every named operation of Machine/SpRead.lean keeps what `Keeps` names. -/

set_option linter.unusedTactic false
set_option linter.unreachableTactic false
set_option linter.unusedVariables false
set_option linter.tactic.unusedName false

namespace Sys2Proof.Machine

theorem State.readClear_keeps {s0 s : State} (h : Keeps s0 s) (a : Nat) : Keeps s0 (s.readClear a) := by
  unfold State.readClear
  iterate 150 all_goals try first
    | (intro) | with_reducible assumption | with_reducible exact Keeps.refl _
    | with_reducible apply State.setFld_keeps
    | with_reducible apply keeps_ite | with_reducible apply keeps_foldl | (apply_assumption -exfalso -symm) | split

theorem State.violObject_keeps {s0 s : State} (h : Keeps s0 s) (x : SpAcc) : Keeps s0 (s.violObject x) := by
  unfold State.violObject
  iterate 150 all_goals try first
    | with_reducible assumption | with_reducible exact Keeps.refl _
    | with_reducible apply State.addFld_keeps | with_reducible apply State.setReg_keeps
    | with_reducible apply keeps_ite | split

theorem State.mbxRead_keeps {s0 s : State} (h : Keeps s0 s) (x : SpAcc) (c off : Nat) : Keeps s0 (s.mbxRead x c off).1 := by
  unfold State.mbxRead
  iterate 150 all_goals try first
    | (intro) | with_reducible assumption | with_reducible exact Keeps.refl _
    | (extract_lets +onlyGivenNames -lift t; first | (refine keeps_cut (P := Keeps s0 t) (fun ht => ?_) ?_; clear_value t; rotate_left; dsimp -zeta only [t]; try clear t; rotate_right) | (refine keeps_cut (P := Keeps s0 t.1) (fun ht => ?_) ?_; clear_value t; rotate_left; dsimp -zeta only [t]; try clear t; rotate_right) | clear_value t)
    | with_reducible apply State.addFld_keeps
    | with_reducible apply keeps_ite | split
theorem State.mbxRead_keeps_eq {s0 s : State} {x : SpAcc} {c off : Nat} {p : State × Word} (e : s.mbxRead x c off = p) (h : Keeps s0 s) : Keeps s0 p.1 := e ▸ State.mbxRead_keeps h _ _ _

theorem State.plainRead_keeps {s0 s : State} (h : Keeps s0 s) (x : SpAcc) : Keeps s0 (s.plainRead x).1 := by
  unfold State.plainRead
  iterate 150 all_goals try first
    | (intro) | with_reducible assumption | with_reducible exact Keeps.refl _
    | (extract_lets +onlyGivenNames -lift t; first | (refine keeps_cut (P := Keeps s0 t) (fun ht => ?_) ?_; clear_value t; rotate_left; dsimp -zeta only [t]; try clear t; rotate_right) | (refine keeps_cut (P := Keeps s0 t.1) (fun ht => ?_) ?_; clear_value t; rotate_left; dsimp -zeta only [t]; try clear t; rotate_right) | clear_value t)
    | with_reducible apply State.violObject_keeps | with_reducible apply State.mbxRead_keeps | (refine State.mbxRead_keeps_eq (p := (_, _)) (by assumption) ?_)
    | with_reducible apply keeps_ite | with_reducible apply keeps_foldl | (apply_assumption -exfalso -symm) | split
theorem State.plainRead_keeps_eq {s0 s : State} {x : SpAcc} {p : State × Word} (e : s.plainRead x = p) (h : Keeps s0 s) : Keeps s0 p.1 := e ▸ State.plainRead_keeps h _


end Sys2Proof.Machine
end

