-- ==== Sys2Proof/Laws/KeepsSpCore.lean ====
section
/-! SUPPORT. Every named operation of Machine/SpCore.lean keeps what `Keeps` names. -/

set_option linter.unusedTactic false
set_option linter.unreachableTactic false
set_option linter.unusedVariables false
set_option linter.tactic.unusedName false

namespace Sys2Proof.Machine

theorem State.storeFld_keeps {s0 s : State} (h : Keeps s0 s) (a : Nat) (locked : Bool) (v : Word) (f : Fld) : Keeps s0 (s.storeFld a locked v f) := by
  unfold State.storeFld
  iterate 150 all_goals try first
    | (intro) | with_reducible assumption | with_reducible exact Keeps.refl _
    | with_reducible apply State.setFld_keeps
    | with_reducible apply keeps_ite
    | (extract_lets +onlyGivenNames -lift t; first | (refine keeps_cut (P := Keeps s0 t) (fun ht => ?_) ?_; clear_value t; rotate_left; dsimp -zeta only [t]; try clear t; rotate_right) | (refine keeps_cut (P := Keeps s0 t.1) (fun ht => ?_) ?_; clear_value t; rotate_left; dsimp -zeta only [t]; try clear t; rotate_right) | clear_value t) | split

theorem State.storeReg_keeps {s0 s : State} (h : Keeps s0 s) (a : Nat) (v : Word) : Keeps s0 (s.storeReg a v) := by
  unfold State.storeReg
  iterate 150 all_goals try first
    | (intro) | with_reducible assumption | with_reducible exact Keeps.refl _
    | with_reducible apply State.storeFld_keeps
    | with_reducible apply keeps_ite | with_reducible apply keeps_foldl | (apply_assumption -exfalso -symm) | split

theorem State.waypwr_keeps {s0 s : State} (h : Keeps s0 s) (v : Word) : Keeps s0 (s.waypwr v) := by
  unfold State.waypwr
  iterate 150 all_goals try first
    | (intro) | with_reducible assumption | with_reducible exact Keeps.refl _
    | with_reducible apply State.storeReg_keeps | with_reducible apply State.setFld_keeps | with_reducible apply State.setFlag_keeps
    | with_reducible apply keeps_ite
    | (extract_lets +onlyGivenNames -lift t; first | (refine keeps_cut (P := Keeps s0 t) (fun ht => ?_) ?_; clear_value t; rotate_left; dsimp -zeta only [t]; try clear t; rotate_right) | (refine keeps_cut (P := Keeps s0 t.1) (fun ht => ?_) ?_; clear_value t; rotate_left; dsimp -zeta only [t]; try clear t; rotate_right) | (refine keeps_cut (P := ∀ u a, Keeps s0 u → Keeps s0 (t u a)) (fun ht => ?_) ?_; clear_value t; rotate_left; dsimp -zeta only [t]; try clear t; rotate_right) | (refine keeps_cut (P := ∀ u, Keeps s0 u → Keeps s0 (t u)) (fun ht => ?_) ?_; clear_value t; rotate_left; dsimp -zeta only [t]; try clear t; rotate_right) | (refine keeps_cut (P := ∀ u, Keeps s0 u → Keeps s0 (t u).1) (fun ht => ?_) ?_; clear_value t; rotate_left; dsimp -zeta only [t]; try clear t; rotate_right) | clear_value t) | (apply_assumption -exfalso -symm) | simp only [keeps_upd] | split

theorem State.putCapture_keeps {s0 s : State} (h : Keeps s0 s) (a : Nat) (ws : List Word) : Keeps s0 (s.putCapture a ws) := by
  unfold State.putCapture
  iterate 150 all_goals try first
    | (intro) | with_reducible assumption | with_reducible exact Keeps.refl _
    | with_reducible apply State.setReg_keeps
    | with_reducible apply keeps_ite | with_reducible apply keeps_foldl | (apply_assumption -exfalso -symm) | split

theorem State.insp_keeps {s0 s : State} (h : Keeps s0 s) (v : Word) : Keeps s0 (s.insp v) := by
  unfold State.insp
  iterate 150 all_goals try first
    | (intro) | with_reducible assumption | with_reducible exact Keeps.refl _
    | with_reducible apply State.storeReg_keeps | with_reducible apply State.reading_keeps | with_reducible apply State.putCapture_keeps | with_reducible apply State.freeStall_keeps
    | with_reducible apply keeps_ite
    | (extract_lets +onlyGivenNames -lift t; first | (refine keeps_cut (P := Keeps s0 t) (fun ht => ?_) ?_; clear_value t; rotate_left; dsimp -zeta only [t]; try clear t; rotate_right) | (refine keeps_cut (P := Keeps s0 t.1) (fun ht => ?_) ?_; clear_value t; rotate_left; dsimp -zeta only [t]; try clear t; rotate_right) | (refine keeps_cut (P := ∀ u a, Keeps s0 u → Keeps s0 (t u a)) (fun ht => ?_) ?_; clear_value t; rotate_left; dsimp -zeta only [t]; try clear t; rotate_right) | (refine keeps_cut (P := ∀ u, Keeps s0 u → Keeps s0 (t u)) (fun ht => ?_) ?_; clear_value t; rotate_left; dsimp -zeta only [t]; try clear t; rotate_right) | (refine keeps_cut (P := ∀ u, Keeps s0 u → Keeps s0 (t u).1) (fun ht => ?_) ?_; clear_value t; rotate_left; dsimp -zeta only [t]; try clear t; rotate_right) | clear_value t) | (apply_assumption -exfalso -symm) | simp only [keeps_upd] | split

theorem State.jhead_keeps {s0 s : State} (h : Keeps s0 s) (n : Nat) (v : Word) : Keeps s0 (s.jhead n v) := by
  unfold State.jhead
  iterate 150 all_goals try first
    | (intro) | with_reducible assumption | with_reducible exact Keeps.refl _
    | with_reducible apply State.setFld_keeps | with_reducible apply State.setFlag_keeps
    | with_reducible apply keeps_ite
    | (extract_lets +onlyGivenNames -lift t; first | (refine keeps_cut (P := Keeps s0 t) (fun ht => ?_) ?_; clear_value t; rotate_left; dsimp -zeta only [t]; try clear t; rotate_right) | (refine keeps_cut (P := Keeps s0 t.1) (fun ht => ?_) ?_; clear_value t; rotate_left; dsimp -zeta only [t]; try clear t; rotate_right) | clear_value t) | split

theorem State.ringEnable_keeps {s0 s : State} (h : Keeps s0 s) (n : Nat) (v : Word) (who : BitVec 10) : Keeps s0 (s.ringEnable n v who) := by
  unfold State.ringEnable
  iterate 150 all_goals try first
    | (intro) | with_reducible assumption | with_reducible exact Keeps.refl _
    | with_reducible apply State.storeReg_keeps | with_reducible apply State.setReg_keeps | with_reducible apply State.setFlag_keeps | with_reducible apply State.note_keeps
    | with_reducible apply keeps_ite
    | (extract_lets +onlyGivenNames -lift t; first | (refine keeps_cut (P := Keeps s0 t) (fun ht => ?_) ?_; clear_value t; rotate_left; dsimp -zeta only [t]; try clear t; rotate_right) | (refine keeps_cut (P := Keeps s0 t.1) (fun ht => ?_) ?_; clear_value t; rotate_left; dsimp -zeta only [t]; try clear t; rotate_right) | clear_value t) | split

theorem State.ringWrite_keeps {s0 s : State} (h : Keeps s0 s) (n : Nat) (v : Word) : Keeps s0 (s.ringWrite n v) := by
  unfold State.ringWrite
  iterate 150 all_goals try first
    | (intro) | with_reducible assumption | with_reducible exact Keeps.refl _
    | with_reducible apply State.storeReg_keeps
    | with_reducible apply keeps_ite
    | (extract_lets +onlyGivenNames -lift t; first | (refine keeps_cut (P := Keeps s0 t) (fun ht => ?_) ?_; clear_value t; rotate_left; dsimp -zeta only [t]; try clear t; rotate_right) | (refine keeps_cut (P := Keeps s0 t.1) (fun ht => ?_) ?_; clear_value t; rotate_left; dsimp -zeta only [t]; try clear t; rotate_right) | clear_value t) | (apply_assumption -exfalso -symm) | simp only [keeps_upd] | split

theorem State.alcRefuse_keeps {s0 s : State} (h : Keeps s0 s) (cause : Nat) : Keeps s0 (s.alcRefuse cause) := by
  unfold State.alcRefuse
  iterate 150 all_goals try first
    | with_reducible assumption | with_reducible exact Keeps.refl _
    | with_reducible apply State.setFld_keeps | with_reducible apply State.setFlag_keeps
    | with_reducible apply keeps_ite | split

theorem State.alcDrain_keeps {s0 s : State} (h : Keeps s0 s) : Keeps s0 (s.alcDrain) := by
  unfold State.alcDrain
  iterate 150 all_goals try first
    | with_reducible assumption | with_reducible exact Keeps.refl _
    | with_reducible apply State.setFld_keeps | with_reducible apply State.setFlag_keeps
    | with_reducible apply keeps_ite | split

theorem State.alcOn_keeps {s0 s : State} (h : Keeps s0 s) : Keeps s0 (s.alcOn) := by
  unfold State.alcOn
  iterate 150 all_goals try first
    | (intro) | with_reducible assumption | with_reducible exact Keeps.refl _
    | with_reducible apply State.alcRefuse_keeps | with_reducible apply State.setFld_keeps | with_reducible apply State.alcDrain_keeps
    | with_reducible apply keeps_ite
    | (extract_lets +onlyGivenNames -lift t; first | (refine keeps_cut (P := Keeps s0 t) (fun ht => ?_) ?_; clear_value t; rotate_left; dsimp -zeta only [t]; try clear t; rotate_right) | (refine keeps_cut (P := Keeps s0 t.1) (fun ht => ?_) ?_; clear_value t; rotate_left; dsimp -zeta only [t]; try clear t; rotate_right) | clear_value t) | split

theorem State.alcCtl_keeps {s0 s : State} (h : Keeps s0 s) (v : Word) : Keeps s0 (s.alcCtl v) := by
  unfold State.alcCtl
  iterate 150 all_goals try first
    | (intro) | with_reducible assumption | with_reducible exact Keeps.refl _
    | with_reducible apply State.setFld_keeps | with_reducible apply State.alcRefuse_keeps | with_reducible apply State.alcOn_keeps | with_reducible apply State.alcDrain_keeps
    | with_reducible apply keeps_ite
    | (extract_lets +onlyGivenNames -lift t; first | (refine keeps_cut (P := Keeps s0 t) (fun ht => ?_) ?_; clear_value t; rotate_left; dsimp -zeta only [t]; try clear t; rotate_right) | (refine keeps_cut (P := Keeps s0 t.1) (fun ht => ?_) ?_; clear_value t; rotate_left; dsimp -zeta only [t]; try clear t; rotate_right) | clear_value t) | split

theorem State.movesStop_keeps {s0 s : State} (h : Keeps s0 s) (b : Nat) : Keeps s0 (s.movesStop b) := by
  unfold State.movesStop
  iterate 150 all_goals try first
    | (intro) | with_reducible assumption | with_reducible exact Keeps.refl _
    | with_reducible apply State.inkDrop_keeps
    | with_reducible apply keeps_ite | with_reducible apply keeps_foldl
    | (extract_lets +onlyGivenNames -lift t; first | (refine keeps_cut (P := Keeps s0 t) (fun ht => ?_) ?_; clear_value t; rotate_left; dsimp -zeta only [t]; try clear t; rotate_right) | (refine keeps_cut (P := Keeps s0 t.1) (fun ht => ?_) ?_; clear_value t; rotate_left; dsimp -zeta only [t]; try clear t; rotate_right) | clear_value t) | (apply_assumption -exfalso -symm) | simp only [keeps_upd] | split

theorem State.bankReq_keeps {s0 s : State} (h : Keeps s0 s) (b : Nat) (on : Bool) : Keeps s0 (s.bankReq b on) := by
  unfold State.bankReq
  iterate 150 all_goals try first
    | (intro) | with_reducible assumption | with_reducible exact Keeps.refl _
    | with_reducible apply State.setFlag_keeps | with_reducible apply State.movesStop_keeps | with_reducible apply State.setBank_keeps | with_reducible apply State.alcRefuse_keeps
    | with_reducible apply keeps_ite
    | (extract_lets +onlyGivenNames -lift t; first | (refine keeps_cut (P := Keeps s0 t) (fun ht => ?_) ?_; clear_value t; rotate_left; dsimp -zeta only [t]; try clear t; rotate_right) | (refine keeps_cut (P := Keeps s0 t.1) (fun ht => ?_) ?_; clear_value t; rotate_left; dsimp -zeta only [t]; try clear t; rotate_right) | clear_value t) | split

theorem State.bankpwr_keeps {s0 s : State} (h : Keeps s0 s) (v : Word) : Keeps s0 (s.bankpwr v) := by
  unfold State.bankpwr
  iterate 150 all_goals try first
    | (intro) | with_reducible assumption | with_reducible exact Keeps.refl _
    | with_reducible apply State.setFld_keeps | with_reducible apply State.bankReq_keeps
    | with_reducible apply keeps_ite | with_reducible apply keeps_foldl
    | (extract_lets +onlyGivenNames -lift t; first | (refine keeps_cut (P := Keeps s0 t) (fun ht => ?_) ?_; clear_value t; rotate_left; dsimp -zeta only [t]; try clear t; rotate_right) | (refine keeps_cut (P := Keeps s0 t.1) (fun ht => ?_) ?_; clear_value t; rotate_left; dsimp -zeta only [t]; try clear t; rotate_right) | clear_value t) | (apply_assumption -exfalso -symm) | split

theorem State.preloadGo_keeps {s0 s : State} (h : Keeps s0 s) (x : SpAcc) : Keeps s0 (s.preloadGo x) := by
  unfold State.preloadGo
  iterate 150 all_goals try first
    | (intro) | with_reducible assumption | with_reducible exact Keeps.refl _
    | with_reducible apply State.setFld_keeps | with_reducible apply State.storeReg_keeps | with_reducible apply State.preEnd_keeps | with_reducible apply State.viol_keeps
    | with_reducible apply keeps_ite
    | (extract_lets +onlyGivenNames -lift t; first | (refine keeps_cut (P := Keeps s0 t) (fun ht => ?_) ?_; clear_value t; rotate_left; dsimp -zeta only [t]; try clear t; rotate_right) | (refine keeps_cut (P := Keeps s0 t.1) (fun ht => ?_) ?_; clear_value t; rotate_left; dsimp -zeta only [t]; try clear t; rotate_right) | clear_value t) | simp only [keeps_upd] | split

theorem State.alcInsp_keeps {s0 s : State} (h : Keeps s0 s) (v : Word) : Keeps s0 (s.alcInsp v) := by
  unfold State.alcInsp
  iterate 150 all_goals try first
    | (intro) | with_reducible assumption | with_reducible exact Keeps.refl _
    | with_reducible apply State.storeReg_keeps | with_reducible apply State.alcTag_keeps | with_reducible apply State.setReg_keeps
    | with_reducible apply keeps_ite
    | (extract_lets +onlyGivenNames -lift t; first | (refine keeps_cut (P := Keeps s0 t) (fun ht => ?_) ?_; clear_value t; rotate_left; dsimp -zeta only [t]; try clear t; rotate_right) | (refine keeps_cut (P := Keeps s0 t.1) (fun ht => ?_) ?_; clear_value t; rotate_left; dsimp -zeta only [t]; try clear t; rotate_right) | clear_value t) | simp only [keeps_upd] | split

theorem State.swapGoWrite_keeps {s0 s : State} (h : Keeps s0 s) (v : Word) : Keeps s0 (s.swapGoWrite v) := by
  unfold State.swapGoWrite
  iterate 150 all_goals try first
    | with_reducible assumption | with_reducible exact Keeps.refl _
    | with_reducible apply State.storeReg_keeps | with_reducible apply State.swapStart_keeps
    | with_reducible apply keeps_ite | split

theorem State.aliasCmd_keeps {s0 s : State} (h : Keeps s0 s) (v : Word) : Keeps s0 (s.aliasCmd v) := by
  unfold State.aliasCmd
  iterate 150 all_goals try first
    | with_reducible assumption | with_reducible exact Keeps.refl _
    | with_reducible apply State.storeReg_keeps | with_reducible apply State.aliasApply_keeps
    | with_reducible apply keeps_ite | split

theorem State.routeWrite_keeps {s0 s : State} (h : Keeps s0 s) (a : Nat) (v : Word) : Keeps s0 (s.routeWrite a v) := by
  unfold State.routeWrite
  iterate 150 all_goals try first
    | (intro) | with_reducible assumption | with_reducible exact Keeps.refl _
    | with_reducible apply State.setFlag_keeps | with_reducible apply State.storeReg_keeps
    | with_reducible apply keeps_ite
    | (extract_lets +onlyGivenNames -lift t; first | (refine keeps_cut (P := Keeps s0 t) (fun ht => ?_) ?_; clear_value t; rotate_left; dsimp -zeta only [t]; try clear t; rotate_right) | (refine keeps_cut (P := Keeps s0 t.1) (fun ht => ?_) ?_; clear_value t; rotate_left; dsimp -zeta only [t]; try clear t; rotate_right) | clear_value t) | (apply_assumption -exfalso -symm) | simp only [keeps_upd] | split

theorem State.mpCtl_keeps {s0 s : State} (h : Keeps s0 s) (n : Nat) (v : Word) : Keeps s0 (s.mpCtl n v) := by
  unfold State.mpCtl
  iterate 150 all_goals try first
    | (intro) | with_reducible assumption | with_reducible exact Keeps.refl _
    | with_reducible apply State.failPort_keeps | with_reducible apply State.setFlag_keeps | with_reducible apply State.resyncStart_keeps
    | with_reducible apply keeps_ite
    | (extract_lets +onlyGivenNames -lift t; first | (refine keeps_cut (P := Keeps s0 t) (fun ht => ?_) ?_; clear_value t; rotate_left; dsimp -zeta only [t]; try clear t; rotate_right) | (refine keeps_cut (P := Keeps s0 t.1) (fun ht => ?_) ?_; clear_value t; rotate_left; dsimp -zeta only [t]; try clear t; rotate_right) | clear_value t) | split

theorem State.streamRst_keeps {s0 s : State} (h : Keeps s0 s) (st : Nat) (v : Word) : Keeps s0 (s.streamRst st v) := by
  unfold State.streamRst
  iterate 150 all_goals try first
    | (intro) | with_reducible assumption | with_reducible exact Keeps.refl _
    | with_reducible apply State.storeReg_keeps | with_reducible apply State.setFld_keeps | with_reducible apply State.setFlag_keeps
    | with_reducible apply keeps_ite
    | (extract_lets +onlyGivenNames -lift t; first | (refine keeps_cut (P := Keeps s0 t) (fun ht => ?_) ?_; clear_value t; rotate_left; dsimp -zeta only [t]; try clear t; rotate_right) | (refine keeps_cut (P := Keeps s0 t.1) (fun ht => ?_) ?_; clear_value t; rotate_left; dsimp -zeta only [t]; try clear t; rotate_right) | clear_value t) | split

theorem State.credMaxWrite_keeps {s0 s : State} (h : Keeps s0 s) (n : Nat) (v : Word) : Keeps s0 (s.credMaxWrite n v) := by
  unfold State.credMaxWrite
  iterate 150 all_goals try first
    | (intro) | with_reducible assumption | with_reducible exact Keeps.refl _
    | with_reducible apply State.setCredNow_keeps | with_reducible apply State.storeReg_keeps
    | with_reducible apply keeps_ite | with_reducible apply keeps_foldl
    | (extract_lets +onlyGivenNames -lift t; first | (refine keeps_cut (P := Keeps s0 t) (fun ht => ?_) ?_; clear_value t; rotate_left; dsimp -zeta only [t]; try clear t; rotate_right) | (refine keeps_cut (P := Keeps s0 t.1) (fun ht => ?_) ?_; clear_value t; rotate_left; dsimp -zeta only [t]; try clear t; rotate_right) | clear_value t) | (apply_assumption -exfalso -symm) | split

theorem State.regionRefuse_keeps {s0 s : State} (h : Keeps s0 s) (n cause a : Nat) (who : BitVec 10) : Keeps s0 (s.regionRefuse n cause a who) := by
  unfold State.regionRefuse
  iterate 150 all_goals try first
    | (intro) | with_reducible assumption | with_reducible exact Keeps.refl _
    | with_reducible apply State.setFld_keeps | with_reducible apply State.setFlag_keeps | with_reducible apply State.note_keeps
    | with_reducible apply keeps_ite
    | (extract_lets +onlyGivenNames -lift t; first | (refine keeps_cut (P := Keeps s0 t) (fun ht => ?_) ?_; clear_value t; rotate_left; dsimp -zeta only [t]; try clear t; rotate_right) | (refine keeps_cut (P := Keeps s0 t.1) (fun ht => ?_) ?_; clear_value t; rotate_left; dsimp -zeta only [t]; try clear t; rotate_right) | clear_value t) | split

theorem State.regionWrite_keeps {s0 s : State} (h : Keeps s0 s) (n : Nat) (b : Bool) (v : Word) (who : BitVec 10) : Keeps s0 (s.regionWrite n b v who) := by
  unfold State.regionWrite
  iterate 150 all_goals try first
    | (intro) | with_reducible assumption | with_reducible exact Keeps.refl _
    | with_reducible apply State.regionRefuse_keeps | with_reducible apply State.storeReg_keeps
    | with_reducible apply keeps_ite
    | (extract_lets +onlyGivenNames -lift t; first | (refine keeps_cut (P := Keeps s0 t) (fun ht => ?_) ?_; clear_value t; rotate_left; dsimp -zeta only [t]; try clear t; rotate_right) | (refine keeps_cut (P := Keeps s0 t.1) (fun ht => ?_) ?_; clear_value t; rotate_left; dsimp -zeta only [t]; try clear t; rotate_right) | clear_value t) | split


end Sys2Proof.Machine
end

