-- ==== Sys2Proof/Laws/KeepsMuster.lean ====
section
/-! SUPPORT. Every named operation of Machine/Muster.lean keeps what `Keeps` names. -/

set_option linter.unusedTactic false
set_option linter.unreachableTactic false
set_option linter.unusedVariables false
set_option linter.tactic.unusedName false

namespace Sys2Proof.Machine

theorem State.setPhase_keeps {s0 s : State} (h : Keeps s0 s) (p : Nat) : Keeps s0 (s.setPhase p) := by
  unfold State.setPhase
  iterate 150 all_goals try first
    | with_reducible assumption | with_reducible exact Keeps.refl _
    | with_reducible apply State.setFld_keeps
    | with_reducible apply keeps_ite | split

theorem State.openCp_keeps {s0 s : State} (h : Keeps s0 s) : Keeps s0 (s.openCp) := by
  unfold State.openCp
  iterate 150 all_goals try first
    | with_reducible assumption | with_reducible exact Keeps.refl _
    | (extract_lets +onlyGivenNames -lift t; first | (refine keeps_cut (P := Keeps s0 t) (fun ht => ?_) ?_; clear_value t; rotate_left; dsimp -zeta only [t]; try clear t; rotate_right) | (refine keeps_cut (P := Keeps s0 t.1) (fun ht => ?_) ?_; clear_value t; rotate_left; dsimp -zeta only [t]; try clear t; rotate_right) | clear_value t)
    | with_reducible apply keeps_ite | simp only [keeps_upd] | split

theorem State.musterStart_keeps {s0 s : State} (h : Keeps s0 s) : Keeps s0 (s.musterStart) := by
  unfold State.musterStart
  iterate 150 all_goals try first
    | (intro) | with_reducible assumption | with_reducible exact Keeps.refl _
    | (extract_lets +onlyGivenNames -lift t; first | (refine keeps_cut (P := Keeps s0 t) (fun ht => ?_) ?_; clear_value t; rotate_left; dsimp -zeta only [t]; try clear t; rotate_right) | (refine keeps_cut (P := Keeps s0 t.1) (fun ht => ?_) ?_; clear_value t; rotate_left; dsimp -zeta only [t]; try clear t; rotate_right) | clear_value t)
    | with_reducible apply State.setPhase_keeps | with_reducible apply State.openCp_keeps
    | with_reducible apply keeps_ite | simp only [keeps_upd] | split

theorem State.readyCheck_keeps {s0 s : State} (h : Keeps s0 s) : Keeps s0 (s.readyCheck) := by
  unfold State.readyCheck
  iterate 150 all_goals try first
    | (intro) | with_reducible assumption | with_reducible exact Keeps.refl _
    | (extract_lets +onlyGivenNames -lift t; first | (refine keeps_cut (P := Keeps s0 t) (fun ht => ?_) ?_; clear_value t; rotate_left; dsimp -zeta only [t]; try clear t; rotate_right) | (refine keeps_cut (P := Keeps s0 t.1) (fun ht => ?_) ?_; clear_value t; rotate_left; dsimp -zeta only [t]; try clear t; rotate_right) | clear_value t)
    | with_reducible apply State.setPhase_keeps | with_reducible apply State.setReg_keeps | with_reducible apply State.musterStart_keeps
    | with_reducible apply keeps_ite | split

theorem State.musterNext_keeps {s0 s : State} (h : Keeps s0 s) : Keeps s0 (s.musterNext) := by
  unfold State.musterNext
  iterate 150 all_goals try first
    | (intro) | with_reducible assumption | with_reducible exact Keeps.refl _
    | (extract_lets +onlyGivenNames -lift t; first | (refine keeps_cut (P := Keeps s0 t) (fun ht => ?_) ?_; clear_value t; rotate_left; dsimp -zeta only [t]; try clear t; rotate_right) | (refine keeps_cut (P := Keeps s0 t.1) (fun ht => ?_) ?_; clear_value t; rotate_left; dsimp -zeta only [t]; try clear t; rotate_right) | clear_value t)
    | with_reducible apply State.openPort_keeps | with_reducible apply State.setPhase_keeps | with_reducible apply State.setReg_keeps
    | with_reducible apply keeps_ite | simp only [keeps_upd] | split


end Sys2Proof.Machine
end

