-- ==== Sys2Proof/Laws/KeepsSpSystem.lean ====
section
/-! SUPPORT. Every named operation of Machine/SpSystem.lean keeps what `Keeps` names. -/

set_option linter.unusedTactic false
set_option linter.unreachableTactic false
set_option linter.unusedVariables false
set_option linter.tactic.unusedName false

namespace Sys2Proof.Machine

theorem State.fenceEnd_keeps {s0 s : State} (h : Keeps s0 s) (result : Nat) : Keeps s0 (s.fenceEnd result) := by
  unfold State.fenceEnd
  iterate 150 all_goals try first
    | with_reducible assumption | with_reducible exact Keeps.refl _
    | with_reducible apply State.setFld_keeps | with_reducible apply State.setFlag_keeps
    | with_reducible apply keeps_ite | split

theorem State.fenceNew_keeps {s0 s : State} (h : Keeps s0 s) (who : EpId) (k o : Nat) : Keeps s0 (s.fenceNew who k o) := by
  unfold State.fenceNew
  iterate 150 all_goals try first
    | (intro) | with_reducible assumption | with_reducible exact Keeps.refl _
    | (extract_lets +onlyGivenNames -lift t; first | (refine keeps_cut (P := Keeps s0 t) (fun ht => ?_) ?_; clear_value t; rotate_left; dsimp -zeta only [t]; try clear t; rotate_right) | (refine keeps_cut (P := Keeps s0 t.1) (fun ht => ?_) ?_; clear_value t; rotate_left; dsimp -zeta only [t]; try clear t; rotate_right) | clear_value t)
    | with_reducible apply State.setReg_keeps | with_reducible apply State.fenceMoved_keeps | with_reducible apply State.joinPurge_keeps
    | with_reducible apply keeps_ite | split

theorem State.fenceSuspect_keeps {s0 s : State} (h : Keeps s0 s) (who : EpId) : Keeps s0 (s.fenceSuspect who) := by
  unfold State.fenceSuspect
  iterate 150 all_goals try first
    | (intro) | with_reducible assumption | with_reducible exact Keeps.refl _
    | with_reducible apply State.fenceEnd_keeps | with_reducible apply State.suspect_keeps
    | with_reducible apply keeps_ite | split

theorem State.fenceOutcome_keeps {s0 s : State} (h : Keeps s0 s) (who : EpId) (o : Nat) : Keeps s0 (s.fenceOutcome who o) := by
  unfold State.fenceOutcome
  iterate 150 all_goals try first
    | (intro) | with_reducible assumption | with_reducible exact Keeps.refl _
    | with_reducible apply State.outcome_keeps | with_reducible apply State.fenceEnd_keeps | with_reducible apply State.fenceNew_keeps
    | with_reducible apply keeps_ite | split

theorem State.fenceRelease_keeps {s0 s : State} (h : Keeps s0 s) (who : EpId) : Keeps s0 (s.fenceRelease who) := by
  unfold State.fenceRelease
  iterate 150 all_goals try first
    | (intro) | with_reducible assumption | with_reducible exact Keeps.refl _
    | with_reducible apply State.unfence_keeps | with_reducible apply State.fenceEnd_keeps
    | with_reducible apply keeps_ite | split

theorem State.fenceCmd_keeps {s0 s : State} (h : Keeps s0 s) (v : Word) : Keeps s0 (s.fenceCmd v) := by
  unfold State.fenceCmd
  iterate 150 all_goals try first
    | (intro) | with_reducible assumption | with_reducible exact Keeps.refl _
    | (extract_lets +onlyGivenNames -lift t; first | (refine keeps_cut (P := Keeps s0 t) (fun ht => ?_) ?_; clear_value t; rotate_left; dsimp -zeta only [t]; try clear t; rotate_right) | (refine keeps_cut (P := Keeps s0 t.1) (fun ht => ?_) ?_; clear_value t; rotate_left; dsimp -zeta only [t]; try clear t; rotate_right) | clear_value t)
    | with_reducible apply State.storeReg_keeps | with_reducible apply State.fenceSuspect_keeps | with_reducible apply State.fenceRelease_keeps | with_reducible apply State.fenceOutcome_keeps
    | with_reducible apply keeps_ite | split

theorem State.chkCmd_keeps {s0 s : State} (h : Keeps s0 s) (v : Word) : Keeps s0 (s.chkCmd v) := by
  unfold State.chkCmd
  iterate 150 all_goals try first
    | (intro) | with_reducible assumption | with_reducible exact Keeps.refl _
    | (extract_lets +onlyGivenNames -lift t; first | (refine keeps_cut (P := Keeps s0 t) (fun ht => ?_) ?_; clear_value t; rotate_left; dsimp -zeta only [t]; try clear t; rotate_right) | (refine keeps_cut (P := Keeps s0 t.1) (fun ht => ?_) ?_; clear_value t; rotate_left; dsimp -zeta only [t]; try clear t; rotate_right) | clear_value t)
    | with_reducible apply State.storeReg_keeps | with_reducible apply State.declare_keeps
    | with_reducible apply keeps_ite | split

theorem State.spareEnd_keeps {s0 s : State} (h : Keeps s0 s) (result : Nat) : Keeps s0 (s.spareEnd result) := by
  unfold State.spareEnd
  iterate 150 all_goals try first
    | with_reducible assumption | with_reducible exact Keeps.refl _
    | with_reducible apply State.setFld_keeps | with_reducible apply State.setFlag_keeps
    | with_reducible apply keeps_ite | split

theorem State.spareCmd_keeps {s0 s : State} (h : Keeps s0 s) (v : Word) : Keeps s0 (s.spareCmd v) := by
  unfold State.spareCmd
  have h1 : Keeps s0 (s.storeReg R.GLB_SPARECMD v) := State.storeReg_keeps h _ _
  generalize s.storeReg R.GLB_SPARECMD v = s1 at h1
  extract_lets +onlyGivenNames -lift s2 lo ph p
  refine keeps_ite (State.setFld_keeps h1 _ _ _ _) (keeps_ite (State.spareEnd_keeps h1 _) ?_)
  have hp : Keeps s0 p.1 := State.aliasApply_keeps h1 _ _ _
  clear_value p
  split
  · exact State.bcastStart_keeps hp _ _ _ _
  · exact State.spareEnd_keeps hp _

theorem State.homeIdWrite_keeps {s0 s : State} (h : Keeps s0 s) (v : Word) : Keeps s0 (s.homeIdWrite v) := by
  unfold State.homeIdWrite
  iterate 150 all_goals try first
    | with_reducible assumption | with_reducible exact Keeps.refl _
    | with_reducible apply State.storeReg_keeps
    | with_reducible apply keeps_ite | split

theorem State.islRefuse_keeps {s0 s : State} (h : Keeps s0 s) (i cause : Nat) : Keeps s0 (s.islRefuse i cause) := by
  unfold State.islRefuse
  iterate 150 all_goals try first
    | with_reducible assumption | with_reducible exact Keeps.refl _
    | with_reducible apply State.setFlag_keeps | with_reducible apply State.setFld_keeps
    | with_reducible apply keeps_ite | split

theorem State.drainLink_keeps {s0 s : State} (h : Keeps s0 s) (i : Nat) (drain : Bool) : Keeps s0 (s.drainLink i drain) := by
  unfold State.drainLink
  iterate 150 all_goals try first
    | (intro) | with_reducible assumption | with_reducible exact Keeps.refl _
    | (extract_lets +onlyGivenNames -lift t; first | (refine keeps_cut (P := Keeps s0 t) (fun ht => ?_) ?_; clear_value t; rotate_left; dsimp -zeta only [t]; try clear t; rotate_right) | (refine keeps_cut (P := Keeps s0 t.1) (fun ht => ?_) ?_; clear_value t; rotate_left; dsimp -zeta only [t]; try clear t; rotate_right) | clear_value t)
    | with_reducible apply State.setLink_keeps
    | with_reducible apply keeps_ite | split

theorem State.powerDown_keeps {s0 s : State} (h : Keeps s0 s) (i : Nat) : Keeps s0 (s.powerDown i) := by
  unfold State.powerDown
  iterate 150 all_goals try first
    | (intro) | with_reducible assumption | with_reducible exact Keeps.refl _
    | (extract_lets +onlyGivenNames -lift t; first | (refine keeps_cut (P := Keeps s0 t) (fun ht => ?_) ?_; clear_value t; rotate_left; dsimp -zeta only [t]; try clear t; rotate_right) | (refine keeps_cut (P := Keeps s0 t.1) (fun ht => ?_) ?_; clear_value t; rotate_left; dsimp -zeta only [t]; try clear t; rotate_right) | clear_value t)
    | with_reducible apply State.setFlag_keeps | with_reducible apply State.setIsl_keeps | with_reducible apply State.drainLink_keeps | with_reducible apply State.islRefuse_keeps
    | with_reducible apply keeps_ite | split

theorem State.powerUp_keeps {s0 s : State} (h : Keeps s0 s) (i : Nat) : Keeps s0 (s.powerUp i) := by
  unfold State.powerUp
  iterate 150 all_goals try first
    | (intro) | with_reducible assumption | with_reducible exact Keeps.refl _
    | (extract_lets +onlyGivenNames -lift t; first | (refine keeps_cut (P := Keeps s0 t) (fun ht => ?_) ?_; clear_value t; rotate_left; dsimp -zeta only [t]; try clear t; rotate_right) | (refine keeps_cut (P := Keeps s0 t.1) (fun ht => ?_) ?_; clear_value t; rotate_left; dsimp -zeta only [t]; try clear t; rotate_right) | clear_value t)
    | with_reducible apply State.setFlag_keeps | with_reducible apply State.setIsl_keeps | with_reducible apply State.islDone_keeps | with_reducible apply State.drainLink_keeps
    | with_reducible apply keeps_ite | split

theorem State.pwrReq_keeps {s0 s : State} (h : Keeps s0 s) (v : Word) : Keeps s0 (s.pwrReq v) := by
  unfold State.pwrReq
  iterate 150 all_goals try first
    | (intro) | with_reducible assumption | with_reducible exact Keeps.refl _
    | with_reducible apply State.powerUp_keeps | with_reducible apply State.powerDown_keeps
    | with_reducible apply keeps_ite | with_reducible apply keeps_foldl | (apply_assumption -exfalso -symm) | split

theorem State.npReset_keeps {s0 s : State} (h : Keeps s0 s) (n : Nat) : Keeps s0 (s.npReset n) := by
  unfold State.npReset
  iterate 150 all_goals try first
    | (intro) | with_reducible assumption | with_reducible exact Keeps.refl _
    | (extract_lets +onlyGivenNames -lift t; first | (refine keeps_cut (P := Keeps s0 t) (fun ht => ?_) ?_; clear_value t; rotate_left; dsimp -zeta only [t]; try clear t; rotate_right) | (refine keeps_cut (P := Keeps s0 t.1) (fun ht => ?_) ?_; clear_value t; rotate_left; dsimp -zeta only [t]; try clear t; rotate_right) | clear_value t)
    | with_reducible apply State.addFld_keeps | with_reducible apply State.setFlag_keeps | with_reducible apply State.setLink_keeps | with_reducible apply State.loseCredits_keeps
    | with_reducible apply keeps_ite | split

theorem State.funcReset_keeps {s0 s : State} (h : Keeps s0 s) (i : Nat) : Keeps s0 (s.funcReset i) := by
  unfold State.funcReset
  iterate 150 all_goals try first
    | with_reducible assumption | with_reducible exact Keeps.refl _
    | with_reducible apply State.islRefuse_keeps | with_reducible apply State.npReset_keeps | with_reducible apply State.mpReset_keeps | with_reducible apply State.cpReset_keeps
    | with_reducible apply keeps_ite | split

theorem State.rstCmd_keeps {s0 s : State} (h : Keeps s0 s) (v : Word) : Keeps s0 (s.rstCmd v) := by
  unfold State.rstCmd
  iterate 150 all_goals try first
    | (intro) | with_reducible assumption | with_reducible exact Keeps.refl _
    | (extract_lets +onlyGivenNames -lift t; first | (refine keeps_cut (P := Keeps s0 t) (fun ht => ?_) ?_; clear_value t; rotate_left; dsimp -zeta only [t]; try clear t; rotate_right) | (refine keeps_cut (P := Keeps s0 t.1) (fun ht => ?_) ?_; clear_value t; rotate_left; dsimp -zeta only [t]; try clear t; rotate_right) | clear_value t)
    | with_reducible apply State.storeReg_keeps | with_reducible apply State.domainRequest_keeps | with_reducible apply State.funcReset_keeps
    | with_reducible apply keeps_ite | (apply_assumption -exfalso -symm) | split

theorem State.bootCtl_keeps {s0 s : State} (h : Keeps s0 s) (m : MasterId) (v : Word) : Keeps s0 (s.bootCtl m v) := by
  unfold State.bootCtl
  iterate 150 all_goals try first
    | (intro) | with_reducible assumption | with_reducible exact Keeps.refl _
    | (extract_lets +onlyGivenNames -lift t; first | (refine keeps_cut (P := Keeps s0 t) (fun ht => ?_) ?_; clear_value t; rotate_left; dsimp -zeta only [t]; try clear t; rotate_right) | (refine keeps_cut (P := Keeps s0 t.1) (fun ht => ?_) ?_; clear_value t; rotate_left; dsimp -zeta only [t]; try clear t; rotate_right) | clear_value t)
    | with_reducible apply State.setFlag_keeps | with_reducible apply State.readyCheck_keeps | with_reducible apply State.domainRequest_keeps
    | with_reducible apply keeps_ite | simp only [keeps_upd] | split


end Sys2Proof.Machine
end

