-- ==== Sys2Proof/Laws/KeepsSpService.lean ====
section
/-! SUPPORT. Every named operation of Machine/SpService.lean keeps what `Keeps` names. -/

set_option linter.unusedTactic false
set_option linter.unreachableTactic false
set_option linter.unusedVariables false
set_option linter.tactic.unusedName false

namespace Sys2Proof.Machine

theorem State.crossEdges_keeps {s0 s z : State} (h : Keeps s0 s) : Keeps s0 (State.crossEdges z s) := by
  unfold State.crossEdges
  iterate 150 all_goals try first
    | (intro) | with_reducible assumption | with_reducible exact Keeps.refl _
    | with_reducible apply State.setFlag_keeps
    | with_reducible apply keeps_ite | with_reducible apply keeps_foldl | (apply_assumption -exfalso -symm) | split

theorem State.ringBell_keeps {s0 s : State} (h : Keeps s0 s) (b : Nat) : Keeps s0 (s.ringBell b) := by
  unfold State.ringBell
  iterate 150 all_goals try first
    | with_reducible assumption | with_reducible exact Keeps.refl _
    | with_reducible apply State.setFlag_keeps
    | with_reducible apply keeps_ite | split

theorem State.ackBell_keeps {s0 s : State} (h : Keeps s0 s) (c : Nat) : Keeps s0 (s.ackBell c) := by
  unfold State.ackBell
  iterate 150 all_goals try first
    | with_reducible assumption | with_reducible exact Keeps.refl _
    | with_reducible apply State.ringBell_keeps
    | with_reducible apply keeps_ite | split

theorem State.mbxBindWrite_keeps {s0 s : State} (h : Keeps s0 s) (c : Nat) (v : Word) (who : BitVec 10) : Keeps s0 (s.mbxBindWrite c v who) := by
  unfold State.mbxBindWrite
  iterate 150 all_goals try first
    | (intro) | with_reducible assumption | with_reducible exact Keeps.refl _
    | (extract_lets +onlyGivenNames -lift t; first | (refine keeps_cut (P := Keeps s0 t) (fun ht => ?_) ?_; clear_value t; rotate_left; dsimp -zeta only [t]; try clear t; rotate_right) | (refine keeps_cut (P := Keeps s0 t.1) (fun ht => ?_) ?_; clear_value t; rotate_left; dsimp -zeta only [t]; try clear t; rotate_right) | clear_value t)
    | with_reducible apply State.storeReg_keeps | with_reducible apply State.setFlag_keeps | with_reducible apply State.setFld_keeps | with_reducible apply State.note_keeps
    | with_reducible apply keeps_ite | split

theorem State.mbxStore_keeps {s0 s : State} (h : Keeps s0 s) (c w : Nat) (v : Word) : Keeps s0 (s.mbxStore c w v) := by
  unfold State.mbxStore
  iterate 150 all_goals try first
    | (intro) | with_reducible assumption | with_reducible exact Keeps.refl _
    | (extract_lets +onlyGivenNames -lift t; first | (refine keeps_cut (P := Keeps s0 t) (fun ht => ?_) ?_; clear_value t; rotate_left; dsimp -zeta only [t]; try clear t; rotate_right) | (refine keeps_cut (P := Keeps s0 t.1) (fun ht => ?_) ?_; clear_value t; rotate_left; dsimp -zeta only [t]; try clear t; rotate_right) | clear_value t)
    | with_reducible apply State.setReg_keeps | with_reducible apply State.setFlag_keeps | with_reducible apply State.addFld_keeps | with_reducible apply State.crossEdges_keeps | with_reducible apply State.ringBell_keeps
    | with_reducible apply keeps_ite | (apply_assumption -exfalso -symm) | simp only [keeps_upd] | split

theorem State.mbxWrite_keeps {s0 s : State} (h : Keeps s0 s) (x : SpAcc) (c off : Nat) : Keeps s0 (s.mbxWrite x c off) := by
  unfold State.mbxWrite
  iterate 150 all_goals try first
    | (intro) | with_reducible assumption | with_reducible exact Keeps.refl _
    | (extract_lets +onlyGivenNames -lift t; first | (refine keeps_cut (P := Keeps s0 t) (fun ht => ?_) ?_; clear_value t; rotate_left; dsimp -zeta only [t]; try clear t; rotate_right) | (refine keeps_cut (P := Keeps s0 t.1) (fun ht => ?_) ?_; clear_value t; rotate_left; dsimp -zeta only [t]; try clear t; rotate_right) | clear_value t)
    | with_reducible apply State.storeReg_keeps | with_reducible apply State.mbxStore_keeps | with_reducible apply State.addFld_keeps
    | with_reducible apply keeps_ite | split

theorem State.mbxTake_keeps {s0 s : State} (h : Keeps s0 s) (x : SpAcc) (c : Nat) : Keeps s0 (s.mbxTake x c).1 := by
  unfold State.mbxTake
  iterate 150 all_goals try first
    | (intro) | with_reducible assumption | with_reducible exact Keeps.refl _
    | (extract_lets +onlyGivenNames -lift t; first | (refine keeps_cut (P := Keeps s0 t) (fun ht => ?_) ?_; clear_value t; rotate_left; dsimp -zeta only [t]; try clear t; rotate_right) | (refine keeps_cut (P := Keeps s0 t.1) (fun ht => ?_) ?_; clear_value t; rotate_left; dsimp -zeta only [t]; try clear t; rotate_right) | clear_value t)
    | with_reducible apply State.setFlag_keeps | with_reducible apply State.ackBell_keeps | with_reducible apply State.mbxRead_keeps
    | with_reducible apply keeps_ite | simp only [keeps_upd] | split
theorem State.mbxTake_keeps_eq {s0 s : State} {x : SpAcc} {c : Nat} {p : State × Word} (e : s.mbxTake x c = p) (h : Keeps s0 s) : Keeps s0 p.1 := e ▸ State.mbxTake_keeps h _ _

theorem State.bellWrite_keeps {s0 s : State} (h : Keeps s0 s) (x : SpAcc) (a : Nat) : Keeps s0 (s.bellWrite x a) := by
  unfold State.bellWrite
  iterate 150 all_goals try first
    | (intro) | with_reducible assumption | with_reducible exact Keeps.refl _
    | (extract_lets +onlyGivenNames -lift t; first | (refine keeps_cut (P := Keeps s0 t) (fun ht => ?_) ?_; clear_value t; rotate_left; dsimp -zeta only [t]; try clear t; rotate_right) | (refine keeps_cut (P := Keeps s0 t.1) (fun ht => ?_) ?_; clear_value t; rotate_left; dsimp -zeta only [t]; try clear t; rotate_right) | clear_value t)
    | with_reducible apply State.setReg_keeps
    | with_reducible apply keeps_ite | split

theorem State.mbxReset_keeps {s0 s : State} (h : Keeps s0 s) (m : Nat) (c : Nat) : Keeps s0 (s.mbxReset m c) := by
  unfold State.mbxReset
  iterate 150 all_goals try first
    | (intro) | with_reducible assumption | with_reducible exact Keeps.refl _
    | (extract_lets +onlyGivenNames -lift t; first | (refine keeps_cut (P := Keeps s0 t) (fun ht => ?_) ?_; clear_value t; rotate_left; dsimp -zeta only [t]; try clear t; rotate_right) | (refine keeps_cut (P := Keeps s0 t.1) (fun ht => ?_) ?_; clear_value t; rotate_left; dsimp -zeta only [t]; try clear t; rotate_right) | clear_value t)
    | with_reducible apply State.setFlag_keeps | with_reducible apply State.ackBell_keeps | with_reducible apply State.notice_keeps | with_reducible apply State.setReg_keeps | with_reducible apply State.setFld_keeps
    | with_reducible apply keeps_ite | with_reducible apply keeps_foldl | (apply_assumption -exfalso -symm) | simp only [keeps_upd] | split

theorem State.railRead_keeps {s0 s : State} (h : Keeps s0 s) (m : MasterId) (k : Nat) : Keeps s0 (s.railRead m k).1 := by
  unfold State.railRead
  iterate 150 all_goals try first
    | (intro) | with_reducible assumption | with_reducible exact Keeps.refl _
    | (extract_lets +onlyGivenNames -lift t; first | (refine keeps_cut (P := Keeps s0 t) (fun ht => ?_) ?_; clear_value t; rotate_left; dsimp -zeta only [t]; try clear t; rotate_right) | (refine keeps_cut (P := Keeps s0 t.1) (fun ht => ?_) ?_; clear_value t; rotate_left; dsimp -zeta only [t]; try clear t; rotate_right) | clear_value t)
    | with_reducible apply State.setFld_keeps | with_reducible apply State.setFlag_keeps | with_reducible apply State.addFld_keeps
    | with_reducible apply keeps_ite | split
theorem State.railRead_keeps_eq {s0 s : State} {m : MasterId} {k : Nat} {p : State × Word} (e : s.railRead m k = p) (h : Keeps s0 s) : Keeps s0 p.1 := e ▸ State.railRead_keeps h _ _

theorem State.railFree_keeps {s0 s : State} (h : Keeps s0 s) (k : Nat) : Keeps s0 (s.railFree k) := by
  unfold State.railFree
  iterate 150 all_goals try first
    | with_reducible assumption | with_reducible exact Keeps.refl _
    | with_reducible apply State.setFld_keeps | with_reducible apply State.setFlag_keeps
    | with_reducible apply keeps_ite | split

theorem State.railRel_keeps {s0 s : State} (h : Keeps s0 s) (m : MasterId) (k : Nat) : Keeps s0 (s.railRel m k) := by
  unfold State.railRel
  iterate 150 all_goals try first
    | with_reducible assumption | with_reducible exact Keeps.refl _
    | with_reducible apply State.railFree_keeps | with_reducible apply State.addFld_keeps
    | with_reducible apply keeps_ite | split

theorem State.railForce_keeps {s0 s : State} (h : Keeps s0 s) (k how : Nat) : Keeps s0 (s.railForce k how) := by
  unfold State.railForce
  iterate 150 all_goals try first
    | (intro) | with_reducible assumption | with_reducible exact Keeps.refl _
    | (extract_lets +onlyGivenNames -lift t; first | (refine keeps_cut (P := Keeps s0 t) (fun ht => ?_) ?_; clear_value t; rotate_left; dsimp -zeta only [t]; try clear t; rotate_right) | (refine keeps_cut (P := Keeps s0 t.1) (fun ht => ?_) ?_; clear_value t; rotate_left; dsimp -zeta only [t]; try clear t; rotate_right) | clear_value t)
    | with_reducible apply State.railFree_keeps | with_reducible apply State.addFld_keeps | with_reducible apply State.notice_keeps
    | with_reducible apply keeps_ite | simp only [keeps_upd] | split

theorem State.nqPut_keeps {s0 s : State} (h : Keeps s0 s) (ws : List Word) : Keeps s0 (s.nqPut ws) := by
  unfold State.nqPut
  iterate 150 all_goals try first
    | (intro) | with_reducible assumption | with_reducible exact Keeps.refl _
    | (extract_lets +onlyGivenNames -lift t; first | (refine keeps_cut (P := Keeps s0 t) (fun ht => ?_) ?_; clear_value t; rotate_left; dsimp -zeta only [t]; try clear t; rotate_right) | (refine keeps_cut (P := Keeps s0 t.1) (fun ht => ?_) ?_; clear_value t; rotate_left; dsimp -zeta only [t]; try clear t; rotate_right) | clear_value t)
    | with_reducible apply State.setFld_keeps
    | with_reducible apply keeps_ite | with_reducible apply keeps_foldl | (apply_assumption -exfalso -symm) | simp only [keeps_upd] | split

theorem State.nqDrop_keeps {s0 s : State} (h : Keeps s0 s) : Keeps s0 (s.nqDrop) := by
  unfold State.nqDrop
  iterate 150 all_goals try first
    | (intro) | with_reducible assumption | with_reducible exact Keeps.refl _
    | (extract_lets +onlyGivenNames -lift t; first | (refine keeps_cut (P := Keeps s0 t) (fun ht => ?_) ?_; clear_value t; rotate_left; dsimp -zeta only [t]; try clear t; rotate_right) | (refine keeps_cut (P := Keeps s0 t.1) (fun ht => ?_) ?_; clear_value t; rotate_left; dsimp -zeta only [t]; try clear t; rotate_right) | clear_value t)
    | with_reducible apply State.addFld_keeps | with_reducible apply State.setFlag_keeps | with_reducible apply State.ev_keeps
    | with_reducible apply keeps_ite | simp only [keeps_upd] | split

theorem State.nqPost_keeps {s0 s : State} (h : Keeps s0 s) (j : Nat) (v : Word) : Keeps s0 (s.nqPost j v) := by
  unfold State.nqPost
  iterate 150 all_goals try first
    | (intro) | with_reducible assumption | with_reducible exact Keeps.refl _
    | (extract_lets +onlyGivenNames -lift t; first | (refine keeps_cut (P := Keeps s0 t) (fun ht => ?_) ?_; clear_value t; rotate_left; dsimp -zeta only [t]; try clear t; rotate_right) | (refine keeps_cut (P := Keeps s0 t.1) (fun ht => ?_) ?_; clear_value t; rotate_left; dsimp -zeta only [t]; try clear t; rotate_right) | clear_value t)
    | with_reducible apply State.setReg_keeps | with_reducible apply State.notice_keeps
    | with_reducible apply keeps_ite | (apply_assumption -exfalso -symm) | split

theorem State.notReader_keeps {s0 s : State} (h : Keeps s0 s) : Keeps s0 (s.notReader) := by
  unfold State.notReader
  iterate 150 all_goals try first
    | with_reducible assumption | with_reducible exact Keeps.refl _
    | with_reducible apply State.addFld_keeps
    | with_reducible apply keeps_ite | split

theorem State.nqTake_keeps {s0 s : State} (h : Keeps s0 s) (m : MasterId) : Keeps s0 (s.nqTake m).1 := by
  unfold State.nqTake
  iterate 150 all_goals try first
    | (intro) | with_reducible assumption | with_reducible exact Keeps.refl _
    | (extract_lets +onlyGivenNames -lift t; first | (refine keeps_cut (P := Keeps s0 t) (fun ht => ?_) ?_; clear_value t; rotate_left; dsimp -zeta only [t]; try clear t; rotate_right) | (refine keeps_cut (P := Keeps s0 t.1) (fun ht => ?_) ?_; clear_value t; rotate_left; dsimp -zeta only [t]; try clear t; rotate_right) | clear_value t)
    | with_reducible apply State.notReader_keeps | with_reducible apply State.addFld_keeps | with_reducible apply State.setFlag_keeps | with_reducible apply State.setFld_keeps
    | with_reducible apply keeps_ite | split
theorem State.nqTake_keeps_eq {s0 s : State} {m : MasterId} {p : State × Word} (e : s.nqTake m = p) (h : Keeps s0 s) : Keeps s0 p.1 := e ▸ State.nqTake_keeps h _

theorem State.nqCopy_keeps {s0 s : State} (h : Keeps s0 s) (src dst : Nat) : Keeps s0 (s.nqCopy src dst) := by
  unfold State.nqCopy
  iterate 150 all_goals try first
    | with_reducible assumption | with_reducible exact Keeps.refl _
    | with_reducible apply State.setFld_keeps
    | with_reducible apply keeps_ite | split

theorem State.nqDoMark_keeps {s0 s : State} (h : Keeps s0 s) : Keeps s0 (s.nqDoMark) := by
  unfold State.nqDoMark
  iterate 150 all_goals try first
    | with_reducible assumption | with_reducible exact Keeps.refl _
    | with_reducible apply State.nqCopy_keeps | with_reducible apply State.setFlag_keeps
    | with_reducible apply keeps_ite | split

theorem State.nqDoRewind_keeps {s0 s : State} (h : Keeps s0 s) : Keeps s0 (s.nqDoRewind) := by
  unfold State.nqDoRewind
  iterate 150 all_goals try first
    | with_reducible assumption | with_reducible exact Keeps.refl _
    | with_reducible apply State.nqCopy_keeps | with_reducible apply State.setFlag_keeps
    | with_reducible apply keeps_ite | split

theorem State.nqDoRelease_keeps {s0 s : State} (h : Keeps s0 s) : Keeps s0 (s.nqDoRelease) := by
  unfold State.nqDoRelease
  iterate 150 all_goals try first
    | (intro) | with_reducible assumption | with_reducible exact Keeps.refl _
    | (extract_lets +onlyGivenNames -lift t; first | (refine keeps_cut (P := Keeps s0 t) (fun ht => ?_) ?_; clear_value t; rotate_left; dsimp -zeta only [t]; try clear t; rotate_right) | (refine keeps_cut (P := Keeps s0 t.1) (fun ht => ?_) ?_; clear_value t; rotate_left; dsimp -zeta only [t]; try clear t; rotate_right) | clear_value t)
    | with_reducible apply State.nqCopy_keeps | with_reducible apply State.setFlag_keeps
    | with_reducible apply keeps_ite | split

theorem State.nqCmd_keeps {s0 s : State} (h : Keeps s0 s) (m : MasterId) (v : Word) : Keeps s0 (s.nqCmd m v) := by
  unfold State.nqCmd
  iterate 150 all_goals try first
    | (intro) | with_reducible assumption | with_reducible exact Keeps.refl _
    | (extract_lets +onlyGivenNames -lift t; first | (refine keeps_cut (P := Keeps s0 t) (fun ht => ?_) ?_; clear_value t; rotate_left; dsimp -zeta only [t]; try clear t; rotate_right) | (refine keeps_cut (P := Keeps s0 t.1) (fun ht => ?_) ?_; clear_value t; rotate_left; dsimp -zeta only [t]; try clear t; rotate_right) | clear_value t)
    | with_reducible apply State.notReader_keeps | with_reducible apply State.storeReg_keeps | with_reducible apply State.nqDoMark_keeps | with_reducible apply State.nqDoRewind_keeps | with_reducible apply State.nqDoRelease_keeps
    | with_reducible apply keeps_ite | split

theorem State.pmcCtl_keeps {s0 s : State} (h : Keeps s0 s) (v : Word) : Keeps s0 (s.pmcCtl v) := by
  unfold State.pmcCtl
  iterate 150 all_goals try first
    | (intro) | with_reducible assumption | with_reducible exact Keeps.refl _
    | (extract_lets +onlyGivenNames -lift t; first | (refine keeps_cut (P := Keeps s0 t) (fun ht => ?_) ?_; clear_value t; rotate_left; dsimp -zeta only [t]; try clear t; rotate_right) | (refine keeps_cut (P := Keeps s0 t.1) (fun ht => ?_) ?_; clear_value t; rotate_left; dsimp -zeta only [t]; try clear t; rotate_right) | clear_value t)
    | with_reducible apply State.storeReg_keeps | with_reducible apply State.setReg_keeps | with_reducible apply State.setFlag_keeps
    | with_reducible apply keeps_ite | simp only [keeps_upd] | split

theorem State.dumpHeadWrite_keeps {s0 s : State} (h : Keeps s0 s) (v : Word) : Keeps s0 (s.dumpHeadWrite v) := by
  unfold State.dumpHeadWrite
  iterate 150 all_goals try first
    | (intro) | with_reducible assumption | with_reducible exact Keeps.refl _
    | (extract_lets +onlyGivenNames -lift t; first | (refine keeps_cut (P := Keeps s0 t) (fun ht => ?_) ?_; clear_value t; rotate_left; dsimp -zeta only [t]; try clear t; rotate_right) | (refine keeps_cut (P := Keeps s0 t.1) (fun ht => ?_) ?_; clear_value t; rotate_left; dsimp -zeta only [t]; try clear t; rotate_right) | clear_value t)
    | with_reducible apply State.setFld_keeps | with_reducible apply State.addFld_keeps
    | with_reducible apply keeps_ite | split

theorem State.cfgChange_keeps {s0 s : State} (h : Keeps s0 s) : Keeps s0 (s.cfgChange) := by
  unfold State.cfgChange
  iterate 150 all_goals try first
    | with_reducible assumption | with_reducible exact Keeps.refl _
    | (extract_lets +onlyGivenNames -lift t; first | (refine keeps_cut (P := Keeps s0 t) (fun ht => ?_) ?_; clear_value t; rotate_left; dsimp -zeta only [t]; try clear t; rotate_right) | (refine keeps_cut (P := Keeps s0 t.1) (fun ht => ?_) ?_; clear_value t; rotate_left; dsimp -zeta only [t]; try clear t; rotate_right) | clear_value t)
    | with_reducible apply keeps_ite | simp only [keeps_upd] | split

theorem State.fsel_keeps {s0 s : State} (h : Keeps s0 s) (x : SpAcc) (j : Nat) : Keeps s0 (s.fsel x j) := by
  unfold State.fsel
  iterate 150 all_goals try first
    | (intro) | with_reducible assumption | with_reducible exact Keeps.refl _
    | (extract_lets +onlyGivenNames -lift t; first | (refine keeps_cut (P := Keeps s0 t) (fun ht => ?_) ?_; clear_value t; rotate_left; dsimp -zeta only [t]; try clear t; rotate_right) | (refine keeps_cut (P := Keeps s0 t.1) (fun ht => ?_) ?_; clear_value t; rotate_left; dsimp -zeta only [t]; try clear t; rotate_right) | (refine keeps_cut (P := ∀ u a, Keeps s0 u → Keeps s0 (t u a)) (fun ht => ?_) ?_; clear_value t; rotate_left; dsimp -zeta only [t]; try clear t; rotate_right) | (refine keeps_cut (P := ∀ u, Keeps s0 u → Keeps s0 (t u)) (fun ht => ?_) ?_; clear_value t; rotate_left; dsimp -zeta only [t]; try clear t; rotate_right) | (refine keeps_cut (P := ∀ u, Keeps s0 u → Keeps s0 (t u).1) (fun ht => ?_) ?_; clear_value t; rotate_left; dsimp -zeta only [t]; try clear t; rotate_right) | clear_value t)
    | with_reducible apply State.setReg_keeps | with_reducible apply State.violObject_keeps | with_reducible apply State.cfgChange_keeps
    | with_reducible apply keeps_ite | with_reducible apply keeps_foldl | (apply_assumption -exfalso -symm) | split

theorem State.filterWrite_keeps {s0 s : State} (h : Keeps s0 s) (x : SpAcc) (a : Nat) : Keeps s0 (s.filterWrite x a) := by
  unfold State.filterWrite
  iterate 150 all_goals try first
    | (intro) | with_reducible assumption | with_reducible exact Keeps.refl _
    | (extract_lets +onlyGivenNames -lift t; first | (refine keeps_cut (P := Keeps s0 t) (fun ht => ?_) ?_; clear_value t; rotate_left; dsimp -zeta only [t]; try clear t; rotate_right) | (refine keeps_cut (P := Keeps s0 t.1) (fun ht => ?_) ?_; clear_value t; rotate_left; dsimp -zeta only [t]; try clear t; rotate_right) | clear_value t)
    | with_reducible apply State.violObject_keeps | with_reducible apply State.storeReg_keeps | with_reducible apply State.cfgChange_keeps
    | with_reducible apply keeps_ite | split

theorem State.snapshot_keeps {s0 s : State} (h : Keeps s0 s) : Keeps s0 (s.snapshot) := by
  unfold State.snapshot
  iterate 150 all_goals try first
    | (intro) | with_reducible assumption | with_reducible exact Keeps.refl _
    | (extract_lets +onlyGivenNames -lift t; first | (refine keeps_cut (P := Keeps s0 t) (fun ht => ?_) ?_; clear_value t; rotate_left; dsimp -zeta only [t]; try clear t; rotate_right) | (refine keeps_cut (P := Keeps s0 t.1) (fun ht => ?_) ?_; clear_value t; rotate_left; dsimp -zeta only [t]; try clear t; rotate_right) | clear_value t)
    | with_reducible apply State.setReg_keeps
    | with_reducible apply keeps_ite | with_reducible apply keeps_foldl | (apply_assumption -exfalso -symm) | simp only [keeps_upd] | split

theorem State.blotSel_keeps {s0 s : State} (h : Keeps s0 s) (v : Word) : Keeps s0 (s.blotSel v) := by
  unfold State.blotSel
  iterate 150 all_goals try first
    | (intro) | with_reducible assumption | with_reducible exact Keeps.refl _
    | (extract_lets +onlyGivenNames -lift t; first | (refine keeps_cut (P := Keeps s0 t) (fun ht => ?_) ?_; clear_value t; rotate_left; dsimp -zeta only [t]; try clear t; rotate_right) | (refine keeps_cut (P := Keeps s0 t.1) (fun ht => ?_) ?_; clear_value t; rotate_left; dsimp -zeta only [t]; try clear t; rotate_right) | clear_value t)
    | with_reducible apply State.storeReg_keeps | with_reducible apply State.blot_keeps | with_reducible apply State.putCapture_keeps
    | with_reducible apply keeps_ite | simp only [keeps_upd] | split

theorem State.blotCtl_keeps {s0 s : State} (h : Keeps s0 s) (v : Word) : Keeps s0 (s.blotCtl v) := by
  unfold State.blotCtl
  iterate 150 all_goals try first
    | (intro) | with_reducible assumption | with_reducible exact Keeps.refl _
    | (extract_lets +onlyGivenNames -lift t; first | (refine keeps_cut (P := Keeps s0 t) (fun ht => ?_) ?_; clear_value t; rotate_left; dsimp -zeta only [t]; try clear t; rotate_right) | (refine keeps_cut (P := Keeps s0 t.1) (fun ht => ?_) ?_; clear_value t; rotate_left; dsimp -zeta only [t]; try clear t; rotate_right) | clear_value t)
    | with_reducible apply State.storeReg_keeps | with_reducible apply State.setFld_keeps | with_reducible apply State.setFlag_keeps
    | with_reducible apply keeps_ite | simp only [keeps_upd] | split

theorem State.blotRearm_keeps {s0 s : State} (h : Keeps s0 s) (v : Word) : Keeps s0 (s.blotRearm v) := by
  unfold State.blotRearm
  iterate 150 all_goals try first
    | (intro) | with_reducible assumption | with_reducible exact Keeps.refl _
    | (extract_lets +onlyGivenNames -lift t; first | (refine keeps_cut (P := Keeps s0 t) (fun ht => ?_) ?_; clear_value t; rotate_left; dsimp -zeta only [t]; try clear t; rotate_right) | (refine keeps_cut (P := Keeps s0 t.1) (fun ht => ?_) ?_; clear_value t; rotate_left; dsimp -zeta only [t]; try clear t; rotate_right) | clear_value t)
    | with_reducible apply State.setFlag_keeps
    | with_reducible apply keeps_ite | simp only [keeps_upd] | split


end Sys2Proof.Machine
end

