-- ==== Sys2Proof/Laws/KeepsServicePort.lean ====
section
/-! SUPPORT. Every named operation of Machine/ServicePort.lean keeps what `Keeps` names. -/

set_option linter.unusedTactic false
set_option linter.unreachableTactic false
set_option linter.unusedVariables false
set_option linter.tactic.unusedName false

namespace Sys2Proof.Machine

theorem State.spRefused_keeps {s0 s : State} (h : Keeps s0 s) (x : SpAcc) (status : Nat) : Keeps s0 (s.spRefused x status) := by
  unfold State.spRefused
  iterate 150 all_goals try first
    | with_reducible assumption | with_reducible exact Keeps.refl _
    | with_reducible apply State.note_keeps | with_reducible apply State.viol_keeps | with_reducible apply State.violObject_keeps
    | with_reducible apply keeps_ite | split

theorem State.spAnswer_keeps {s0 s : State} (h : Keeps s0 s) (x : SpAcc) (status : Nat) (v : Word) : Keeps s0 (s.spAnswer x status v) := by
  unfold State.spAnswer
  iterate 150 all_goals try first
    | (intro) | with_reducible assumption | with_reducible exact Keeps.refl _
    | (extract_lets +onlyGivenNames -lift t; first | (refine keeps_cut (P := Keeps s0 t) (fun ht => ?_) ?_; clear_value t; rotate_left; dsimp -zeta only [t]; try clear t; rotate_right) | (refine keeps_cut (P := Keeps s0 t.1) (fun ht => ?_) ?_; clear_value t; rotate_left; dsimp -zeta only [t]; try clear t; rotate_right) | clear_value t)
    | with_reducible apply State.ev_keeps | with_reducible apply State.addFld_keeps | with_reducible apply State.setReg_keeps
    | with_reducible apply keeps_ite | simp only [keeps_upd] | split

theorem State.plainWrite_keeps {s0 s : State} (h : Keeps s0 s) (x : SpAcc) : Keeps s0 (s.plainWrite x) := by
  unfold State.plainWrite
  iterate 150 all_goals try first
    | (intro) | with_reducible assumption | with_reducible exact Keeps.refl _
    | (extract_lets +onlyGivenNames -lift t; first | (refine keeps_cut (P := Keeps s0 t) (fun ht => ?_) ?_; clear_value t; rotate_left; dsimp -zeta only [t]; try clear t; rotate_right) | (refine keeps_cut (P := Keeps s0 t.1) (fun ht => ?_) ?_; clear_value t; rotate_left; dsimp -zeta only [t]; try clear t; rotate_right) | clear_value t)
    | with_reducible apply State.ringWrite_keeps | with_reducible apply State.credMaxWrite_keeps | with_reducible apply State.storeReg_keeps | with_reducible apply State.mpBack_keeps | with_reducible apply State.regionWrite_keeps | with_reducible apply State.bootCtl_keeps | with_reducible apply State.bellWrite_keeps | with_reducible apply State.mbxBindWrite_keeps | with_reducible apply State.mbxWrite_keeps | with_reducible apply State.nqCmd_keeps | with_reducible apply State.pmcCtl_keeps | with_reducible apply State.blotCtl_keeps | with_reducible apply State.filterWrite_keeps
    | with_reducible apply keeps_ite | split

theorem State.readThenClear_keeps {s0 s : State} (h : Keeps s0 s) (x : SpAcc) : Keeps s0 (s.readThenClear x).1 := by
  unfold State.readThenClear
  iterate 150 all_goals try first
    | (intro) | with_reducible assumption | with_reducible exact Keeps.refl _
    | (extract_lets +onlyGivenNames -lift t; first | (refine keeps_cut (P := Keeps s0 t) (fun ht => ?_) ?_; clear_value t; rotate_left; dsimp -zeta only [t]; try clear t; rotate_right) | (refine keeps_cut (P := Keeps s0 t.1) (fun ht => ?_) ?_; clear_value t; rotate_left; dsimp -zeta only [t]; try clear t; rotate_right) | clear_value t)
    | with_reducible apply State.plainRead_keeps | with_reducible apply State.readClear_keeps
    | with_reducible apply keeps_ite | split
theorem State.readThenClear_keeps_eq {s0 s : State} {x : SpAcc} {p : State × Word} (e : s.readThenClear x = p) (h : Keeps s0 s) : Keeps s0 p.1 := e ▸ State.readThenClear_keeps h _

theorem State.spDo_keeps {s0 s : State} (h : Keeps s0 s) (x : SpAcc) (row : SpRow) : Keeps s0 (s.spDo x row).1 := by
  cases row with
  | waypwr => exact State.waypwr_keeps h _
  | insp => exact State.insp_keeps h _
  | alcInsp => exact State.alcInsp_keeps h _
  | jhead => exact State.jhead_keeps h _ _
  | ringEnable => exact State.ringEnable_keeps h _ _ _
  | alcInv => exact State.alcCtl_keeps h _
  | alcEnable => exact State.alcCtl_keeps h _
  | alcDisable => exact State.alcCtl_keeps h _
  | bankpwr => exact State.bankpwr_keeps h _
  | preload => exact State.preloadGo_keeps h _
  | preloadZero => exact State.preloadGo_keeps h _
  | preloadAndLock => exact State.preloadGo_keeps h _
  | flush => exact State.preloadGo_keeps h _
  | epochSwapGo => exact State.swapGoWrite_keeps h _
  | aliasSet => exact State.aliasCmd_keeps h _
  | aliasRemove => exact State.aliasCmd_keeps h _
  | route => exact State.routeWrite_keeps h _ _
  | mpCtlFail => exact State.mpCtl_keeps h _ _
  | resync => exact State.mpCtl_keeps h _ _
  | streamRst => exact State.streamRst_keeps h _ _
  | regionEnable => exact State.regionWrite_keeps h _ _ _ _
  | fenceSuspect => exact State.fenceCmd_keeps h _
  | fenceFlushed => exact State.fenceCmd_keeps h _
  | fenceNoflush => exact State.fenceCmd_keeps h _
  | fenceRelease => exact State.fenceCmd_keeps h _
  | chkcmd => exact State.chkCmd_keeps h _
  | spareSet => exact State.spareCmd_keeps h _
  | spareRemove => exact State.spareCmd_keeps h _
  | homeid => exact State.homeIdWrite_keeps h _
  | powerDown => exact State.pwrReq_keeps h _
  | powerUp => exact State.pwrReq_keeps h _
  | rstFunc => exact State.rstCmd_keeps h _
  | rstDomain => exact State.rstCmd_keeps h _
  | ostready => exact State.bootCtl_keeps h _ _
  | bootRetry => exact State.bootCtl_keeps h _ _
  | mbxBind => exact State.mbxBindWrite_keeps h _ _ _
  | mbxPost => exact State.mbxWrite_keeps h _ _ _
  | mbxTake => exact State.mbxTake_keeps h _ _
  | railAcquire => exact State.railRead_keeps h _ _
  | railRelease => exact State.railRel_keeps h _ _
  | railForce => exact State.railForce_keeps (State.storeReg_keeps h _ _) _ _
  | nqPost => exact State.nqPost_keeps h _ _
  | nqRead => exact State.nqTake_keeps h _
  | nqMark => exact State.nqCmd_keeps h _ _
  | nqRewind => exact State.nqCmd_keeps h _ _
  | nqRelease => exact State.nqCmd_keeps h _ _
  | dumpNow => exact State.pmcCtl_keeps h _
  | dumpEnable => exact State.pmcCtl_keeps h _
  | dumphead => exact State.dumpHeadWrite_keeps h _
  | fsel => exact State.fsel_keeps h _ _
  | blotSel => exact State.blotSel_keeps h _
  | blotClear => exact State.blotCtl_keeps h _
  | blotRearm => exact State.blotRearm_keeps h _
  | write => exact State.plainWrite_keeps h _
  | readClear => exact State.readThenClear_keeps h _
  | read => exact State.plainRead_keeps h _

theorem State.spServe_keeps {s0 s : State} (h : Keeps s0 s) (x : SpAcc) {f : State → SpAcc → State × Word}
    (hf : ∀ t y, Keeps s0 t → Keeps s0 (f t y).1) : Keeps s0 (s.spServe x f) := by
  unfold State.spServe
  refine keeps_ite (State.spAnswer_keeps (hf _ _ ?_) _ _ _) (State.spAnswer_keeps (State.spRefused_keeps ?_ _ _) _ _ _)
  · rw [keeps_upd]; exact h
  · rw [keeps_upd]; exact h

theorem State.spHeld_keeps {s0 s : State} {m : MasterId} {p : SpAcc × State} (e : s.spHeld m = some p) (h : Keeps s0 s) :
    Keeps s0 p.2 := by
  unfold State.spHeld at e
  split at e
  · cases e
  split at e
  · split at e
    · cases e; rw [keeps_upd]; exact h
    · cases e
  · split at e
    · cases e; rw [keeps_upd]; exact h
    · cases e

theorem State.spNext_keeps {s0 s : State} {m : MasterId} {p : SpAcc × State} (e : s.spNext m = some p) (h : Keeps s0 s) :
    Keeps s0 p.2 := by
  unfold State.spNext at e
  split at e
  · exact State.spHeld_keeps e h
  · cases e

theorem State.ostRead_keeps {s0 s : State} (h : Keeps s0 s) (m : MasterId) : Keeps s0 (s.ostRead m) := by
  unfold State.ostRead
  iterate 150 all_goals try first
    | with_reducible assumption | with_reducible exact Keeps.refl _
    | with_reducible apply State.readAll_keeps
    | with_reducible apply keeps_ite | split





theorem State.spReads_keeps {s0 s : State} (h : Keeps s0 s) (fuel : Nat) : Keeps s0 (s.spReads fuel) := by
  induction fuel generalizing s with
  | zero => exact h
  | succ fuel ih =>
    unfold State.spReads
    split
    · split
      · rename_i e
        exact keeps_ite (ih (State.spServe_keeps (State.spHeld_keeps e h) _ (fun t y ht => State.plainRead_keeps ht y))) h
      · exact h
    · exact h

theorem State.spIdle_keeps {s0 s : State} (h : Keeps s0 s) : Keeps s0 s.spIdle := State.spReads_keeps h _

theorem State.spTake_keeps {s0 s : State} (h : Keeps s0 s) (m : MasterId) (row : SpRow) {f : State → SpAcc → State × Word}
    (hf : ∀ t y, Keeps s0 t → Keeps s0 (f t y).1) : Keeps s0 (s.spTake m row f) := by
  unfold State.spTake
  have hr : Keeps s0 (s.ostRead m) := State.ostRead_keeps h m
  generalize s.ostRead m = r at hr
  dsimp only
  split
  · rename_i e
    have ht := State.spNext_keeps e hr
    exact keeps_ite (State.spIdle_keeps (keeps_ite ht (State.spServe_keeps ht _ hf))) (State.spIdle_keeps hr)
  · exact State.spIdle_keeps hr

theorem State.masterReset_keeps {s0 s : State} (h : Keeps s0 s) (m : MasterId) : Keeps s0 (s.masterReset m) := by
  unfold State.masterReset
  iterate 150 all_goals try first
    | (intro) | with_reducible assumption | with_reducible exact Keeps.refl _
    | (extract_lets +onlyGivenNames -lift t; first | (refine keeps_cut (P := Keeps s0 t) (fun ht => ?_) ?_; clear_value t; rotate_left; dsimp -zeta only [t]; try clear t; rotate_right) | (refine keeps_cut (P := Keeps s0 t.1) (fun ht => ?_) ?_; clear_value t; rotate_left; dsimp -zeta only [t]; try clear t; rotate_right) | clear_value t)
    | with_reducible apply State.railForce_keeps | with_reducible apply State.mbxReset_keeps
    | with_reducible apply keeps_ite | with_reducible apply keeps_foldl | (apply_assumption -exfalso -symm) | simp only [keeps_upd] | split


end Sys2Proof.Machine
end

