-- ==== Sys2Proof/WellFormed.lean ====
section
/-! DEFINITION. Which commands are well formed: the lengths and codes that the wires of an interface allow (R229, R232,
R264, R284, R291, R490). -/

namespace Sys2Proof

/-- A packet carries four words in each data flit of its header's count (R229, R232). -/
def Packet.wf (p : Packet) : Bool := p.data.length == 4 * p.nflit.toNat

/-- A channel-port command of an opcode with its data flits (R284), or one of an unassigned opcode without any (R285). -/
def CpCmd.wf (op : BitVec 4) (words : Nat) (c : CpCmd) : Bool :=
  (c.op == op && c.data.length == words) || ((c.op == 0 || decide (4 < c.op.toNat)) && c.data.isEmpty)

/-- A link of the network has six credit pools; the link of the channel port has one (R237, R291). -/
def poolWf (port : Fin 5) (pool : Fin 6) : Bool := port.val != 4 || pool.val == 0

/-- The command could arrive on its interface. -/
def Instr.wf : Instr → Bool
  | .niIngress _ p => p.wf
  | .cpRead c => c.wf 1 0
  | .cpWrfull c => c.wf 2 32
  | .cpWrpart c => c.wf 3 32
  | .cpSync c => c.wf 4 0
  | .mpReadData _ _ d _ => d.length == 32
  | .linkCreditReturn p k => poolWf p k
  | .creditRampStep p k => poolWf p k
  | .rdShared _ | .rdUnique _ | .upgrade _ | .claimZero _ | .rdOnce _ | .wrFull _ | .wrPart _ | .stroke _ => true
  | .ligature _ | .sync _ | .wbDirty _ | .wbRetryOffer _ | .evictNote _ | .penRedispatch _ | .penDeadline _ => true
  | .ticketExpiry _ | .snpAckI _ | .snpAckS _ | .snpFwdI _ | .snpFwdO _ | .snpWbPend _ | .snpDataI _ | .snpDataO _ => true
  | .rlyAck _ | .cmpAck _ | .rlyInv _ | .relayMemberAnswer _ | .domainStopReceived _ | .aliasSetReceived _ => true
  | .epochSwapReceived _ | .mgtAck _ | .snoopTimeout _ _ | .cmpackTimeout _ | .rlyinvTimeout _ _ | .resendTimer _ _ => true
  | .fwdWindowExpiry _ | .flushRequestAck _ | .flushOutcome _ _ | .flushTimeout _ | .purgeWalkVisit | .cleanerVisit => true
  | .scrubRead | .wayClearDone | .mpReadIssue _ | .inkWriteIssue _ | .mpWrDone _ _ _ | .mpCmdCredit _ _ | .mpFail _ => true
  | .mpRdTimeout _ | .mpWrTimeout _ | .mpCtrlRst _ | .resyncCopyDone _ | .cpLinkRst | .strokeExecute => true
  | .ligatureExecute | .alcMoveDone | .alcDrainFree | .alcInvalidateDone | .bankClearDone _ | .waypwrReq _ => true
  | .inspSel _ | .alcInspSel _ | .jheadWrite _ | .ringEnable _ | .alcInv _ | .alcEnable _ | .alcDisable _ => true
  | .bankpwrReq _ | .preload _ | .preloadZero _ | .preloadAndLock _ | .flush _ | .epochSwapGo _ => true
  | .epochAckTimeout _ | .epochRetire | .aliasSet _ | .aliasRemove _ | .routeEntryWrite _ | .mpCtlFail _ => true
  | .resync _ | .streamRst _ | .regionEnable _ | .fenceSuspect _ | .fenceFlushed _ | .fenceNoflush _ => true
  | .fenceRelease _ | .chkcmdGo _ | .spareSet _ | .spareRemove _ | .bcastAckTimeout _ | .homeidWrite _ => true
  | .powerDownReq _ | .powerUpReq _ | .islandPowerOff _ | .islandWakeDone _ | .rstcmdFunc _ | .funcResetEnd _ => true
  | .rstcmdDomain _ | .domrstReq | .powerOnReset | .powerOnRelease _ _ | .flashDiscoveryDone _ _ => true
  | .imageLoadDone _ _ _ | .digestCompare _ | .ostready _ | .ostreadyTimeout | .directoryClearDone | .bootRetry _ => true
  | .musterGo | .portOpen | .rlyholdEnd | .pwrWarnAssert | .pwrWarnDeassert | .chkstopIn => true
  | .linkPartnerReset _ | .linkRun _ | .islandClockGate _ | .islandWake _ | .wakeLate _ | .todPublish _ => true
  | .spMasterReset _ | .mbxBind _ | .mbxPost _ | .mbxTake _ | .railAcquire _ | .railRelease _ | .railForce _ => true
  | .nqPost _ | .nqRecordWrite | .gapRecordWrite | .nqRead _ | .nqMark _ | .nqRewind _ | .nqRelease _ => true
  | .dumpNow _ | .dumpDue | .dumpLineWrite | .dumpEnable _ | .dumpheadWrite _ | .fselWrite _ | .blotterWrite => true
  | .blotSel _ | .blotClear _ | .blotFfRearm _ | .registerWrite _ | .bistStart _ | .tapBlotffCapture => true
  | .registerReadClear _ | .spRequestAccept _ | .railAbortPulseEnd _ | .cpCommandRetry _ | .bistDone _ _ _ => true
  | .tapRepairLoad _ => true

end Sys2Proof
end

