-- ==== Sys2Proof/Laws/PerInstr.lean ====
section
/-! SUPPORT. One lemma for each command: what a well-formed command brings in data is bounded. -/

namespace Sys2Proof

/-- The number of 64-bit words of data that a command brings in (R229, R264, R284). -/
def Instr.dataWords : Instr → Nat
  | .niIngress _ p => p.data.length
  | .cpRead c | .cpWrfull c | .cpWrpart c | .cpSync c => c.data.length
  | .mpReadData _ _ d _ => d.length
  | _ => 0

/-- A well-formed channel-port command brings no data or that of its opcode. -/
theorem CpCmd.wf_length {op : BitVec 4} {n : Nat} {c : CpCmd} (h : c.wf op n = true) (hn : n ≤ 60) : c.data.length ≤ 60 := by
  simp only [CpCmd.wf, Bool.or_eq_true, Bool.and_eq_true, beq_iff_eq, List.isEmpty_iff] at h
  obtain ⟨-, h⟩ | ⟨-, h⟩ := h <;> simp [h, hn]

/-- A well-formed command brings at most the 60 words that the flit count of a header can announce. -/
def Laws.DataBound.Statement (i : Instr) : Prop := i.wf = true → i.dataWords ≤ 60

theorem Laws.DataBound.niIngress (port) (p) : Laws.DataBound.Statement (.niIngress port p) := by
  intro h
  simp only [Instr.wf, Packet.wf, beq_iff_eq] at h
  have := p.nflit.isLt
  simp only [Instr.dataWords]; omega
theorem Laws.DataBound.rdShared (port) : Laws.DataBound.Statement (.rdShared port) := fun _ => Nat.zero_le _
theorem Laws.DataBound.rdUnique (port) : Laws.DataBound.Statement (.rdUnique port) := fun _ => Nat.zero_le _
theorem Laws.DataBound.upgrade (port) : Laws.DataBound.Statement (.upgrade port) := fun _ => Nat.zero_le _
theorem Laws.DataBound.claimZero (port) : Laws.DataBound.Statement (.claimZero port) := fun _ => Nat.zero_le _
theorem Laws.DataBound.rdOnce (port) : Laws.DataBound.Statement (.rdOnce port) := fun _ => Nat.zero_le _
theorem Laws.DataBound.wrFull (port) : Laws.DataBound.Statement (.wrFull port) := fun _ => Nat.zero_le _
theorem Laws.DataBound.wrPart (port) : Laws.DataBound.Statement (.wrPart port) := fun _ => Nat.zero_le _
theorem Laws.DataBound.stroke (port) : Laws.DataBound.Statement (.stroke port) := fun _ => Nat.zero_le _
theorem Laws.DataBound.ligature (port) : Laws.DataBound.Statement (.ligature port) := fun _ => Nat.zero_le _
theorem Laws.DataBound.sync (port) : Laws.DataBound.Statement (.sync port) := fun _ => Nat.zero_le _
theorem Laws.DataBound.wbDirty (port) : Laws.DataBound.Statement (.wbDirty port) := fun _ => Nat.zero_le _
theorem Laws.DataBound.wbRetryOffer (port) : Laws.DataBound.Statement (.wbRetryOffer port) := fun _ => Nat.zero_le _
theorem Laws.DataBound.evictNote (port) : Laws.DataBound.Statement (.evictNote port) := fun _ => Nat.zero_le _
theorem Laws.DataBound.penRedispatch (pen) : Laws.DataBound.Statement (.penRedispatch pen) := fun _ => Nat.zero_le _
theorem Laws.DataBound.penDeadline (pen) : Laws.DataBound.Statement (.penDeadline pen) := fun _ => Nat.zero_le _
theorem Laws.DataBound.ticketExpiry (idx) : Laws.DataBound.Statement (.ticketExpiry idx) := fun _ => Nat.zero_le _
theorem Laws.DataBound.snpAckI (port) : Laws.DataBound.Statement (.snpAckI port) := fun _ => Nat.zero_le _
theorem Laws.DataBound.snpAckS (port) : Laws.DataBound.Statement (.snpAckS port) := fun _ => Nat.zero_le _
theorem Laws.DataBound.snpFwdI (port) : Laws.DataBound.Statement (.snpFwdI port) := fun _ => Nat.zero_le _
theorem Laws.DataBound.snpFwdO (port) : Laws.DataBound.Statement (.snpFwdO port) := fun _ => Nat.zero_le _
theorem Laws.DataBound.snpWbPend (port) : Laws.DataBound.Statement (.snpWbPend port) := fun _ => Nat.zero_le _
theorem Laws.DataBound.snpDataI (port) : Laws.DataBound.Statement (.snpDataI port) := fun _ => Nat.zero_le _
theorem Laws.DataBound.snpDataO (port) : Laws.DataBound.Statement (.snpDataO port) := fun _ => Nat.zero_le _
theorem Laws.DataBound.rlyAck (port) : Laws.DataBound.Statement (.rlyAck port) := fun _ => Nat.zero_le _
theorem Laws.DataBound.cmpAck (port) : Laws.DataBound.Statement (.cmpAck port) := fun _ => Nat.zero_le _
theorem Laws.DataBound.rlyInv (port) : Laws.DataBound.Statement (.rlyInv port) := fun _ => Nat.zero_le _
theorem Laws.DataBound.relayMemberAnswer (port) : Laws.DataBound.Statement (.relayMemberAnswer port) := fun _ => Nat.zero_le _
theorem Laws.DataBound.domainStopReceived (port) : Laws.DataBound.Statement (.domainStopReceived port) := fun _ => Nat.zero_le _
theorem Laws.DataBound.aliasSetReceived (port) : Laws.DataBound.Statement (.aliasSetReceived port) := fun _ => Nat.zero_le _
theorem Laws.DataBound.epochSwapReceived (port) : Laws.DataBound.Statement (.epochSwapReceived port) := fun _ => Nat.zero_le _
theorem Laws.DataBound.mgtAck (port) : Laws.DataBound.Statement (.mgtAck port) := fun _ => Nat.zero_le _
theorem Laws.DataBound.snoopTimeout (tag) (who) : Laws.DataBound.Statement (.snoopTimeout tag who) := fun _ => Nat.zero_le _
theorem Laws.DataBound.cmpackTimeout (stall) : Laws.DataBound.Statement (.cmpackTimeout stall) := fun _ => Nat.zero_le _
theorem Laws.DataBound.rlyinvTimeout (stall) (relay) : Laws.DataBound.Statement (.rlyinvTimeout stall relay) := fun _ => Nat.zero_le _
theorem Laws.DataBound.resendTimer (stall) (who) : Laws.DataBound.Statement (.resendTimer stall who) := fun _ => Nat.zero_le _
theorem Laws.DataBound.fwdWindowExpiry (stall) : Laws.DataBound.Statement (.fwdWindowExpiry stall) := fun _ => Nat.zero_le _
theorem Laws.DataBound.flushRequestAck (level) : Laws.DataBound.Statement (.flushRequestAck level) := fun _ => Nat.zero_le _
theorem Laws.DataBound.flushOutcome (id) (code) : Laws.DataBound.Statement (.flushOutcome id code) := fun _ => Nat.zero_le _
theorem Laws.DataBound.flushTimeout (entry) : Laws.DataBound.Statement (.flushTimeout entry) := fun _ => Nat.zero_le _
theorem Laws.DataBound.purgeWalkVisit : Laws.DataBound.Statement (.purgeWalkVisit) := fun _ => Nat.zero_le _
theorem Laws.DataBound.cleanerVisit : Laws.DataBound.Statement (.cleanerVisit) := fun _ => Nat.zero_le _
theorem Laws.DataBound.scrubRead : Laws.DataBound.Statement (.scrubRead) := fun _ => Nat.zero_le _
theorem Laws.DataBound.wayClearDone : Laws.DataBound.Statement (.wayClearDone) := fun _ => Nat.zero_le _
theorem Laws.DataBound.mpReadIssue (port) : Laws.DataBound.Statement (.mpReadIssue port) := fun _ => Nat.zero_le _
theorem Laws.DataBound.inkWriteIssue (port) : Laws.DataBound.Statement (.inkWriteIssue port) := fun _ => Nat.zero_le _
theorem Laws.DataBound.mpReadData (port) (tag) (data) (err) : Laws.DataBound.Statement (.mpReadData port tag data err) := by
  intro h
  simp only [Instr.wf, beq_iff_eq] at h
  simp [Instr.dataWords, h]
theorem Laws.DataBound.mpWrDone (port) (tag) (err) : Laws.DataBound.Statement (.mpWrDone port tag err) := fun _ => Nat.zero_le _
theorem Laws.DataBound.mpCmdCredit (port) (write) : Laws.DataBound.Statement (.mpCmdCredit port write) := fun _ => Nat.zero_le _
theorem Laws.DataBound.mpFail (port) : Laws.DataBound.Statement (.mpFail port) := fun _ => Nat.zero_le _
theorem Laws.DataBound.mpRdTimeout (port) : Laws.DataBound.Statement (.mpRdTimeout port) := fun _ => Nat.zero_le _
theorem Laws.DataBound.mpWrTimeout (port) : Laws.DataBound.Statement (.mpWrTimeout port) := fun _ => Nat.zero_le _
theorem Laws.DataBound.mpCtrlRst (port) : Laws.DataBound.Statement (.mpCtrlRst port) := fun _ => Nat.zero_le _
theorem Laws.DataBound.resyncCopyDone (port) : Laws.DataBound.Statement (.resyncCopyDone port) := fun _ => Nat.zero_le _
theorem Laws.DataBound.cpRead (c) : Laws.DataBound.Statement (.cpRead c) := fun h => CpCmd.wf_length h (by decide)
theorem Laws.DataBound.cpWrfull (c) : Laws.DataBound.Statement (.cpWrfull c) := fun h => CpCmd.wf_length h (by decide)
theorem Laws.DataBound.cpWrpart (c) : Laws.DataBound.Statement (.cpWrpart c) := fun h => CpCmd.wf_length h (by decide)
theorem Laws.DataBound.cpSync (c) : Laws.DataBound.Statement (.cpSync c) := fun h => CpCmd.wf_length h (by decide)
theorem Laws.DataBound.cpLinkRst : Laws.DataBound.Statement (.cpLinkRst) := fun _ => Nat.zero_le _
theorem Laws.DataBound.strokeExecute : Laws.DataBound.Statement (.strokeExecute) := fun _ => Nat.zero_le _
theorem Laws.DataBound.ligatureExecute : Laws.DataBound.Statement (.ligatureExecute) := fun _ => Nat.zero_le _
theorem Laws.DataBound.alcMoveDone : Laws.DataBound.Statement (.alcMoveDone) := fun _ => Nat.zero_le _
theorem Laws.DataBound.alcDrainFree : Laws.DataBound.Statement (.alcDrainFree) := fun _ => Nat.zero_le _
theorem Laws.DataBound.alcInvalidateDone : Laws.DataBound.Statement (.alcInvalidateDone) := fun _ => Nat.zero_le _
theorem Laws.DataBound.bankClearDone (bank) : Laws.DataBound.Statement (.bankClearDone bank) := fun _ => Nat.zero_le _
theorem Laws.DataBound.waypwrReq (m) : Laws.DataBound.Statement (.waypwrReq m) := fun _ => Nat.zero_le _
theorem Laws.DataBound.inspSel (m) : Laws.DataBound.Statement (.inspSel m) := fun _ => Nat.zero_le _
theorem Laws.DataBound.alcInspSel (m) : Laws.DataBound.Statement (.alcInspSel m) := fun _ => Nat.zero_le _
theorem Laws.DataBound.jheadWrite (m) : Laws.DataBound.Statement (.jheadWrite m) := fun _ => Nat.zero_le _
theorem Laws.DataBound.ringEnable (m) : Laws.DataBound.Statement (.ringEnable m) := fun _ => Nat.zero_le _
theorem Laws.DataBound.alcInv (m) : Laws.DataBound.Statement (.alcInv m) := fun _ => Nat.zero_le _
theorem Laws.DataBound.alcEnable (m) : Laws.DataBound.Statement (.alcEnable m) := fun _ => Nat.zero_le _
theorem Laws.DataBound.alcDisable (m) : Laws.DataBound.Statement (.alcDisable m) := fun _ => Nat.zero_le _
theorem Laws.DataBound.bankpwrReq (m) : Laws.DataBound.Statement (.bankpwrReq m) := fun _ => Nat.zero_le _
theorem Laws.DataBound.preload (m) : Laws.DataBound.Statement (.preload m) := fun _ => Nat.zero_le _
theorem Laws.DataBound.preloadZero (m) : Laws.DataBound.Statement (.preloadZero m) := fun _ => Nat.zero_le _
theorem Laws.DataBound.preloadAndLock (m) : Laws.DataBound.Statement (.preloadAndLock m) := fun _ => Nat.zero_le _
theorem Laws.DataBound.flush (m) : Laws.DataBound.Statement (.flush m) := fun _ => Nat.zero_le _
theorem Laws.DataBound.epochSwapGo (m) : Laws.DataBound.Statement (.epochSwapGo m) := fun _ => Nat.zero_le _
theorem Laws.DataBound.epochAckTimeout (k) : Laws.DataBound.Statement (.epochAckTimeout k) := fun _ => Nat.zero_le _
theorem Laws.DataBound.epochRetire : Laws.DataBound.Statement (.epochRetire) := fun _ => Nat.zero_le _
theorem Laws.DataBound.aliasSet (m) : Laws.DataBound.Statement (.aliasSet m) := fun _ => Nat.zero_le _
theorem Laws.DataBound.aliasRemove (m) : Laws.DataBound.Statement (.aliasRemove m) := fun _ => Nat.zero_le _
theorem Laws.DataBound.routeEntryWrite (m) : Laws.DataBound.Statement (.routeEntryWrite m) := fun _ => Nat.zero_le _
theorem Laws.DataBound.mpCtlFail (m) : Laws.DataBound.Statement (.mpCtlFail m) := fun _ => Nat.zero_le _
theorem Laws.DataBound.resync (m) : Laws.DataBound.Statement (.resync m) := fun _ => Nat.zero_le _
theorem Laws.DataBound.streamRst (m) : Laws.DataBound.Statement (.streamRst m) := fun _ => Nat.zero_le _
theorem Laws.DataBound.regionEnable (m) : Laws.DataBound.Statement (.regionEnable m) := fun _ => Nat.zero_le _
theorem Laws.DataBound.fenceSuspect (m) : Laws.DataBound.Statement (.fenceSuspect m) := fun _ => Nat.zero_le _
theorem Laws.DataBound.fenceFlushed (m) : Laws.DataBound.Statement (.fenceFlushed m) := fun _ => Nat.zero_le _
theorem Laws.DataBound.fenceNoflush (m) : Laws.DataBound.Statement (.fenceNoflush m) := fun _ => Nat.zero_le _
theorem Laws.DataBound.fenceRelease (m) : Laws.DataBound.Statement (.fenceRelease m) := fun _ => Nat.zero_le _
theorem Laws.DataBound.chkcmdGo (m) : Laws.DataBound.Statement (.chkcmdGo m) := fun _ => Nat.zero_le _
theorem Laws.DataBound.spareSet (m) : Laws.DataBound.Statement (.spareSet m) := fun _ => Nat.zero_le _
theorem Laws.DataBound.spareRemove (m) : Laws.DataBound.Statement (.spareRemove m) := fun _ => Nat.zero_le _
theorem Laws.DataBound.bcastAckTimeout (target) : Laws.DataBound.Statement (.bcastAckTimeout target) := fun _ => Nat.zero_le _
theorem Laws.DataBound.homeidWrite (m) : Laws.DataBound.Statement (.homeidWrite m) := fun _ => Nat.zero_le _
theorem Laws.DataBound.powerDownReq (m) : Laws.DataBound.Statement (.powerDownReq m) := fun _ => Nat.zero_le _
theorem Laws.DataBound.powerUpReq (m) : Laws.DataBound.Statement (.powerUpReq m) := fun _ => Nat.zero_le _
theorem Laws.DataBound.islandPowerOff (i) : Laws.DataBound.Statement (.islandPowerOff i) := fun _ => Nat.zero_le _
theorem Laws.DataBound.islandWakeDone (i) : Laws.DataBound.Statement (.islandWakeDone i) := fun _ => Nat.zero_le _
theorem Laws.DataBound.rstcmdFunc (m) : Laws.DataBound.Statement (.rstcmdFunc m) := fun _ => Nat.zero_le _
theorem Laws.DataBound.funcResetEnd (i) : Laws.DataBound.Statement (.funcResetEnd i) := fun _ => Nat.zero_le _
theorem Laws.DataBound.rstcmdDomain (m) : Laws.DataBound.Statement (.rstcmdDomain m) := fun _ => Nat.zero_le _
theorem Laws.DataBound.domrstReq : Laws.DataBound.Statement (.domrstReq) := fun _ => Nat.zero_le _
theorem Laws.DataBound.powerOnReset : Laws.DataBound.Statement (.powerOnReset) := fun _ => Nat.zero_le _
theorem Laws.DataBound.powerOnRelease (fpCfg) (testMode) : Laws.DataBound.Statement (.powerOnRelease fpCfg testMode) := fun _ => Nat.zero_le _
theorem Laws.DataBound.flashDiscoveryDone (jedec) (sfdp) : Laws.DataBound.Statement (.flashDiscoveryDone jedec sfdp) := fun _ => Nat.zero_le _
theorem Laws.DataBound.imageLoadDone (img) (reread) (sbReq) : Laws.DataBound.Statement (.imageLoadDone img reread sbReq) := fun _ => Nat.zero_le _
theorem Laws.DataBound.digestCompare (digest) : Laws.DataBound.Statement (.digestCompare digest) := fun _ => Nat.zero_le _
theorem Laws.DataBound.ostready (m) : Laws.DataBound.Statement (.ostready m) := fun _ => Nat.zero_le _
theorem Laws.DataBound.ostreadyTimeout : Laws.DataBound.Statement (.ostreadyTimeout) := fun _ => Nat.zero_le _
theorem Laws.DataBound.directoryClearDone : Laws.DataBound.Statement (.directoryClearDone) := fun _ => Nat.zero_le _
theorem Laws.DataBound.bootRetry (m) : Laws.DataBound.Statement (.bootRetry m) := fun _ => Nat.zero_le _
theorem Laws.DataBound.musterGo : Laws.DataBound.Statement (.musterGo) := fun _ => Nat.zero_le _
theorem Laws.DataBound.portOpen : Laws.DataBound.Statement (.portOpen) := fun _ => Nat.zero_le _
theorem Laws.DataBound.creditRampStep (port) (pool) : Laws.DataBound.Statement (.creditRampStep port pool) := fun _ => Nat.zero_le _
theorem Laws.DataBound.rlyholdEnd : Laws.DataBound.Statement (.rlyholdEnd) := fun _ => Nat.zero_le _
theorem Laws.DataBound.pwrWarnAssert : Laws.DataBound.Statement (.pwrWarnAssert) := fun _ => Nat.zero_le _
theorem Laws.DataBound.pwrWarnDeassert : Laws.DataBound.Statement (.pwrWarnDeassert) := fun _ => Nat.zero_le _
theorem Laws.DataBound.chkstopIn : Laws.DataBound.Statement (.chkstopIn) := fun _ => Nat.zero_le _
theorem Laws.DataBound.linkPartnerReset (port) : Laws.DataBound.Statement (.linkPartnerReset port) := fun _ => Nat.zero_le _
theorem Laws.DataBound.linkRun (port) : Laws.DataBound.Statement (.linkRun port) := fun _ => Nat.zero_le _
theorem Laws.DataBound.linkCreditReturn (port) (pool) : Laws.DataBound.Statement (.linkCreditReturn port pool) := fun _ => Nat.zero_le _
theorem Laws.DataBound.islandClockGate (i) : Laws.DataBound.Statement (.islandClockGate i) := fun _ => Nat.zero_le _
theorem Laws.DataBound.islandWake (i) : Laws.DataBound.Statement (.islandWake i) := fun _ => Nat.zero_le _
theorem Laws.DataBound.wakeLate (i) : Laws.DataBound.Statement (.wakeLate i) := fun _ => Nat.zero_le _
theorem Laws.DataBound.todPublish (tod) : Laws.DataBound.Statement (.todPublish tod) := fun _ => Nat.zero_le _
theorem Laws.DataBound.spRequestAccept (a) : Laws.DataBound.Statement (.spRequestAccept a) := fun _ => Nat.zero_le _
theorem Laws.DataBound.spMasterReset (m) : Laws.DataBound.Statement (.spMasterReset m) := fun _ => Nat.zero_le _
theorem Laws.DataBound.mbxBind (m) : Laws.DataBound.Statement (.mbxBind m) := fun _ => Nat.zero_le _
theorem Laws.DataBound.mbxPost (m) : Laws.DataBound.Statement (.mbxPost m) := fun _ => Nat.zero_le _
theorem Laws.DataBound.mbxTake (m) : Laws.DataBound.Statement (.mbxTake m) := fun _ => Nat.zero_le _
theorem Laws.DataBound.railAcquire (m) : Laws.DataBound.Statement (.railAcquire m) := fun _ => Nat.zero_le _
theorem Laws.DataBound.railRelease (m) : Laws.DataBound.Statement (.railRelease m) := fun _ => Nat.zero_le _
theorem Laws.DataBound.railForce (m) : Laws.DataBound.Statement (.railForce m) := fun _ => Nat.zero_le _
theorem Laws.DataBound.nqPost (m) : Laws.DataBound.Statement (.nqPost m) := fun _ => Nat.zero_le _
theorem Laws.DataBound.nqRecordWrite : Laws.DataBound.Statement (.nqRecordWrite) := fun _ => Nat.zero_le _
theorem Laws.DataBound.gapRecordWrite : Laws.DataBound.Statement (.gapRecordWrite) := fun _ => Nat.zero_le _
theorem Laws.DataBound.nqRead (m) : Laws.DataBound.Statement (.nqRead m) := fun _ => Nat.zero_le _
theorem Laws.DataBound.nqMark (m) : Laws.DataBound.Statement (.nqMark m) := fun _ => Nat.zero_le _
theorem Laws.DataBound.nqRewind (m) : Laws.DataBound.Statement (.nqRewind m) := fun _ => Nat.zero_le _
theorem Laws.DataBound.nqRelease (m) : Laws.DataBound.Statement (.nqRelease m) := fun _ => Nat.zero_le _
theorem Laws.DataBound.dumpNow (m) : Laws.DataBound.Statement (.dumpNow m) := fun _ => Nat.zero_le _
theorem Laws.DataBound.dumpDue : Laws.DataBound.Statement (.dumpDue) := fun _ => Nat.zero_le _
theorem Laws.DataBound.dumpLineWrite : Laws.DataBound.Statement (.dumpLineWrite) := fun _ => Nat.zero_le _
theorem Laws.DataBound.dumpEnable (m) : Laws.DataBound.Statement (.dumpEnable m) := fun _ => Nat.zero_le _
theorem Laws.DataBound.dumpheadWrite (m) : Laws.DataBound.Statement (.dumpheadWrite m) := fun _ => Nat.zero_le _
theorem Laws.DataBound.fselWrite (m) : Laws.DataBound.Statement (.fselWrite m) := fun _ => Nat.zero_le _
theorem Laws.DataBound.blotterWrite : Laws.DataBound.Statement (.blotterWrite) := fun _ => Nat.zero_le _
theorem Laws.DataBound.blotSel (m) : Laws.DataBound.Statement (.blotSel m) := fun _ => Nat.zero_le _
theorem Laws.DataBound.blotClear (m) : Laws.DataBound.Statement (.blotClear m) := fun _ => Nat.zero_le _
theorem Laws.DataBound.blotFfRearm (m) : Laws.DataBound.Statement (.blotFfRearm m) := fun _ => Nat.zero_le _
theorem Laws.DataBound.registerWrite (m) : Laws.DataBound.Statement (.registerWrite m) := fun _ => Nat.zero_le _
theorem Laws.DataBound.bistStart (ctl) : Laws.DataBound.Statement (.bistStart ctl) := fun _ => Nat.zero_le _
theorem Laws.DataBound.tapBlotffCapture : Laws.DataBound.Statement (.tapBlotffCapture) := fun _ => Nat.zero_le _
theorem Laws.DataBound.registerReadClear (m) : Laws.DataBound.Statement (.registerReadClear m) := fun _ => Nat.zero_le _
theorem Laws.DataBound.railAbortPulseEnd (k) : Laws.DataBound.Statement (.railAbortPulseEnd k) := fun _ => Nat.zero_le _
theorem Laws.DataBound.cpCommandRetry (stream) : Laws.DataBound.Statement (.cpCommandRetry stream) := fun _ => Nat.zero_le _
theorem Laws.DataBound.bistDone (fail) (macroIdx) (addr) : Laws.DataBound.Statement (.bistDone fail macroIdx addr) := fun _ => Nat.zero_le _
theorem Laws.DataBound.tapRepairLoad (repair) : Laws.DataBound.Statement (.tapRepairLoad repair) := fun _ => Nat.zero_le _

end Sys2Proof
end

