-- ==== Sys2Proof/Laws/Service.lean ====
section
/-! SUPPORT. How an access of the service port that is answered OK is carried out, and when nothing follows a command. -/

namespace Sys2Proof.Machine

/-- The command of a row carries out the access that the arbiter chooses and answers it. -/
theorem State.spTake_oldest {s t : State} {m : MasterId} {row : SpRow} {x : SpAcc} (h : s.oldest m row = some (x, t))
    (f : State → SpAcc → State × Word) : s.spTake m row f = (f t x).1.answered x (f t x).2 := by
  unfold State.oldest at h
  split at h
  · cases h
  rename_i hg
  have hr : s.ostRead m = s := by
    unfold State.ostRead State.readAll
    split
    · rename_i hm
      subst hm
      have hn : ∀ f ∈ s.faults, f.1 ≠ 7 := fun f hf e => hg (by simpa using ⟨f.2.1, f.2.2, e ▸ hf⟩)
      generalize s.faults = l at hn
      induction l with
      | nil => rfl
      | cons f l ih => simp [hn f (by simp), ih (fun g hg => hn g (by simp [hg]))]
    · rfl
  split at h
  · rename_i y u hu
    split at h
    · rename_i hc
      simp only [Bool.and_eq_true, decide_eq_true_eq, Bool.not_eq_true', beq_iff_eq] at hc
      obtain ⟨⟨hw, hv⟩, hs⟩ := hc
      simp only [Option.some.injEq, Prod.mk.injEq] at h
      obtain ⟨rfl, rfl⟩ := h
      unfold State.spTake
      simp only [hr, hu, hw, hv, if_true, Bool.false_eq_true, if_false]
      unfold State.spServe State.answered
      simp only [hs, if_true]
    · cases h
  · cases h

end Sys2Proof.Machine
end

