-- ==== Sys2Proof/Laws/Wire.lean ====
section
/-! SUPPORT. Fields placed in a word and read back, and what the header words of a packet spell (R5, R230). -/

namespace Sys2Proof

/-- A field reads what is placed at its own bits. -/
@[simp] theorem fieldAt_placeAt {w : Nat} (x : BitVec w) (lo : Nat) (h : lo + w ≤ 64) : fieldAt (placeAt x lo) lo w = x := by
  apply BitVec.eq_of_getLsbD_eq
  intro i hi
  simp only [fieldAt, placeAt, BitVec.getLsbD_setWidth, BitVec.getLsbD_ushiftRight, BitVec.getLsbD_shiftLeft]
  simp [hi, show lo + i < 64 by omega, show i < 64 by omega]

/-- A field reads nothing of what lies below it or above it. -/
theorem fieldAt_placeAt_apart {w v : Nat} (x : BitVec v) (lo k : Nat) (h : lo + v ≤ k ∨ k + w ≤ lo) : fieldAt (placeAt x lo) k w = 0 := by
  apply BitVec.eq_of_getLsbD_eq
  intro i hi
  simp only [fieldAt, placeAt, BitVec.getLsbD_setWidth, BitVec.getLsbD_ushiftRight, BitVec.getLsbD_shiftLeft]
  rcases h with h | h
  · have : x.getLsbD (k + i - lo) = false := BitVec.getLsbD_of_ge _ _ (by omega)
    simp [this]
  · have : decide (k + i < lo) = true := decide_eq_true (by omega)
    simp [this]

/-- A field of a word that is put together is put together of the parts' fields. -/
@[simp] theorem fieldAt_or (a b : Word) (k w : Nat) : fieldAt (a ||| b) k w = fieldAt a k w ||| fieldAt b k w := by
  apply BitVec.eq_of_getLsbD_eq
  intro i hi
  simp [fieldAt, BitVec.getLsbD_ushiftRight, hi]

/-- A one-bit field reads as the bit placed in it. -/
theorem bitOf_eq_one (b : Bool) : (bitOf b == 1#1) = b := by cases b <;> rfl

/-- What the four header words of a packet spell, field by field (R230). -/
theorem Packet.ofHeader_header (p : Packet) : Packet.ofHeader p.header p.data =
    { dst := fieldAt p.word0 0 18, src := fieldAt p.word0 18 18, domain := fieldAt p.word0 36 12, opcode := fieldAt p.word0 48 6,
      world := fieldAt p.word0 54 1 == 1, cls := fieldAt p.word0 55 3, nflit := fieldAt p.word0 58 4,
      line := fieldAt p.word1 0 52, tag := fieldAt p.word1 52 12, route := fieldAt p.word2 0 48, hopcnt := fieldAt p.word2 48 4,
      nhop := fieldAt p.word2 52 4, epoch := fieldAt p.word2 56 1 == 1, detail := fieldAt p.word3 0 40, seq := fieldAt p.word3 40 16,
      stream := fieldAt p.word3 56 8, syn := p.synOf 3 ++ p.synOf 2 ++ p.synOf 1 ++ p.synOf 0, data := p.data } := rfl

end Sys2Proof
end

