-- ==== Sys2Proof/Tests/Slice0.lean ====
section
/-! SUPPORT. Tests of the model, and for every clause of every statement a state that meets its hypotheses. -/

set_option Elab.async false

open Sys2Proof Sys2Proof.Machine
namespace Sys2Proof.Tests

/-! ### States to test on -/

/-- Registers set to values. -/
def withRegs (l : List (Nat × Nat)) (s : State) : State := l.foldl (fun s e => s.setReg e.1 (BitVec.ofNat 64 e.2)) s

/-- A network port with items in the ingress queue of a class and credits in every pool. -/
def portWith (c : Nat) (q : List InItem) : NpSt := { NpSt.reset with inq := if q.isEmpty then [] else [(c, q)], cred := [9, 9, 9, 9, 9, 9], mustered := true }
/-- A memory port with credits. -/
def mpReady : MpSt := ⟨4, 4, true, true, [], [], false, none⟩

/-- A running instance: RUN, one region of 1,024 lines on memory port 0, cluster 0 in the domain, home ID 5, NP0 open with
routes to the endpoints 1, 2 and 3 of cluster 0, both memory ports in RUN. -/
def running : State :=
  { State.reset with
    win := [(R.GLB_HOMEID / 8, 5), (R.DIR_STATUS / 8, 1), (R.DIR_CMASK / 8, 1), (R.NP_CTL / 8, 0x188), (R.NP_STATUS / 8, 1),
      (mpBase R.MP_CFG 0 / 8, 0x4040000201), (mpBase R.MP_STATUS 0 / 8, 1), (mpBase R.MP_CFG 1 / 8, 0x4040000201),
      (mpBase R.MP_STATUS 1 / 8, 1), (R.CP_STATUS / 8, 1), (R.SEC_REGIONA / 8, 0x400000000000), (R.SEC_REGIONB / 8, 4),
      (R.BOOT_STATUS / 8, 8), (routeAddr 0 0 0 / 8, 0x8001000000000000), (routeAddr 0 0 1 / 8 + 512, 0x8001000000000000),
      (routeAddr 0 0 2 / 8 + 512, 0x8001000000000000), (routeAddr 0 0 3 / 8 + 512, 0x8001000000000000)]
    tod := 0x100000
    nps := [(0, portWith 0 []), (1, NpSt.reset), (2, NpSt.reset), (3, NpSt.reset)]
    mps := [(0, mpReady), (1, mpReady)]
    cp := { CpSt.reset with opened := true, cred := 20 }
    alcUndef := 0 }

/-- A packet of an opcode from an endpoint for a line. -/
def pkt (op : BitVec 6) (src : EpId) (line : LineAddr) (tag : Tag) (data : LineData := []) (detail : BitVec 40 := 0) : Packet where
  dst := 5
  src := src
  domain := 0
  opcode := op
  world := false
  cls := BitVec.ofNat 3 (classOf op)
  nflit := BitVec.ofNat 4 (data.length / 4)
  line := line
  tag := tag
  route := 0
  hopcnt := 2
  nhop := 2
  epoch := false
  detail := detail
  seq := 0
  stream := 0
  syn := 0
  data := data
/-- A queued packet. -/
def item (p : Packet) : InItem := ⟨p, p.src, p.world, 0⟩
/-- The running instance with one packet queued on NP0. -/
def queued (p : Packet) (s : State := running) : State := s.setNp 0 (portWith p.cls.toNat [item p])
/-- A line whose words all hold one value. -/
def lineOf (v : Word) : LineData := List.replicate 32 (DWord.gen v)
/-- A request of a packet on NP0. -/
def reqOf (p : Packet) : Req := (item p).req 0
/-- A request stall for a line, in the state in which it has just been accepted. -/
def stallFor (r : Req) (h : HIdx) : Stall where
  role := .req
  code := 2
  req := r
  h := h
  way := none
  ticketed := false
  waited := false
  acc := 0x100000
  blocks := true
  reason := 0
  waits := []
  relay := none
  evict := none
  ink := none
  alc := none
  hold := none
  out := none
  wbWait := none
  absorbed := none
  got := none
  rd := .no
  ready := false
  final := false
  first := false
  ackGot := false
  recorded := false
  respAt := none
  datPort := none
  displ := false
  noCopy := false
/-- A write by a master, held in the input stage. -/
def wr (m : MasterId) (a v : Nat) (world : Bool := true) : SpAcc := ⟨true, BitVec.ofNat 17 (a / 8), m, world, 0, DWord.gen (BitVec.ofNat 64 v)⟩
/-- A read by a master, held in the input stage. -/
def rd (m : MasterId) (a : Nat) (world : Bool := true) : SpAcc := ⟨false, BitVec.ofNat 17 (a / 8), m, world, 0, DWord.zero⟩
/-- A state with one access held in the input stage. -/
def held (x : SpAcc) (s : State := running) : State := { s with svc := { s.svc with stage := [x] } }
/-- The running instance with registers set, and one access held. -/
def heldWith (l : List (Nat × Nat)) (x : SpAcc) : State := held x (withRegs l running)

def stallA : Stall := stallFor (reqOf (pkt Op.rdOnce 3 7 5)) 7
def alcA : AlcEntry := ⟨7, true, true, true, false, true, lineOf 3, 0⟩
def stallInspected : State := { held (wr 1 R.YARD_INSP_SEL 2047) with stalls := [(2047, stallA)] }
def alcInspected : State := { held (wr 1 R.ALC_INSP_SEL 63) with alc := [(63, alcA)] }
def accepting (l : List SpAcc) : State := { running with svc := { running.svc with stage := l } }
/-- The access that master 1 holds, and the state in which it has left the stage. -/
def heldX (s : State) : SpAcc := ((s.spNext 1).getD (wr 1 0 0, s)).1
def heldT (s : State) : State := ((s.spNext 1).getD (wr 1 0 0, s)).2
def badWrite : State := held { wr 1 R.GLB_SCRATCH 5 with word := ⟨5, 0xFF⟩ }
def swapWaits : State := { withRegs [(R.RTE_EPOCHCTL, 4), (swapReg 63, 2 ^ 18 + 3)] running with mgt := { running.mgt with swapOut := [(63, 0x1000)], swapNext := 64 } }
def swapRetires : State := { withRegs [(R.RTE_EPOCHCTL, 8)] running with mgt := { running.mgt with flipAt := 0x1000 } }
def portFailed : State := { heldWith [(mpBase R.MP_STATUS 1, 2), (mpBase R.MP_CTL 1, 1), (R.SEC_REGIONA, 2 ^ 46 + 2 ^ 44)] (wr 1 (mpBase R.MP_CTL 1) 2) with ink := [(5, ⟨9, true, .filled, lineOf 2, [0], [0], [], [], [], [], 0, 0x1000, false, false, 0⟩)] }
def streamBusy : State := { heldWith [(cpReg 63, 7)] (wr 1 (cpReg 63) (2^63 + 0xABC * 2^41)) with cp := { running.cp with opens := [(63, [⟨6, false, none, none, none⟩])] } }
def fc (op : Nat) (st : Option Nat) : State := heldWith (match st with | some k => [(fenceReg 1, k * 2^18 + 1)] | none => []) (wr 1 R.GLB_FENCECMD (2^63 + op * 2^18 + 1))
def stopped (c : Nat) : State := { heldWith [] (wr 1 R.GLB_CHKCMD (2^63 + c)) with stalls := [(3, stallFor (reqOf (pkt Op.rdOnce 3 7 5)) 7)] }
def bcasting : State := { withRegs [(R.GLB_BCAST, 1 + 2^2)] running with mgt := { running.mgt with bOut := [(9, 0x1000)], bMsg := some (Op.aliasSet, 0) } }
def ostler (l : List (Nat × Nat)) : State := { heldWith ((R.BOOT_STATUS, 5) :: l) (wr 0x3FF R.BOOT_CTL 1) with boot := { running.boot with ostRun := true } }
def fr (i : Nat) (l : List (Nat × Nat) := []) : State := heldWith l (wr 1 R.ISL_RSTCMD (2^63 + 2 * i))
def pw (v : Nat) (l : List (Nat × Nat) := []) : State := heldWith l (wr 1 R.ISL_PWRREQ v)
def cpBusy : State := { pw 0xBF with cp := { running.cp with opens := [(0, [⟨1, false, some 3, none, some 0x1000⟩])] } }
def wslot (ph : InkPhase) : InkSlot := ⟨9, true, ph, lineOf 2, [0], [0], [], [], [], [], 0, 0x1000, false, false, 0⟩
def dr (l : List (Nat × Nat) := []) : State := heldWith l (wr 1 R.ISL_RSTCMD (2^63 + 1))
def drInk (l : List (Nat × Nat)) : State := { dr l with ink := [(4, wslot .filled)] }
def runInk : State := { running with ink := [(4, wslot .filled)] }
def mbx (bind stat : Nat) (x : SpAcc) (msg : List Word := []) : State :=
  { heldWith [(mbxReg R.MBX_BIND 31, bind), (mbxReg R.MBX_STAT 31, stat), (mbxReg R.MBX_DATA0 31, 10), (mbxReg R.MBX_DATA1 31, 11), (mbxReg R.MBX_DATA2 31, 12)] x with
    svc := { (held x).svc with msg := if msg.isEmpty then [] else [(31, msg)] } }
def bind31 : Nat := 2^63 + 2^26 + 31 * 2^21 + 2^20 + 2 * 2^10 + 1
def railIs (v : Nat) (x : SpAcc) (w : Nat := 2^64 - 1) : State := heldWith [(railReg 63, v), (R.RAIL_WORLD, w)] x
def awayRead : State := heldWith [(railReg 63, 0x3001)] (rd 1 (railReg 63) false)
def heldBy (m : Nat) : Nat := 0x3000 + m
def twoLocks : State := heldWith [(railReg 63, heldBy 1), (railReg 62, heldBy 2)] (wr 1 R.GLB_SCRATCH 5)
def nqIn (l : List (Nat × Nat)) (q : List (List Word)) (gap : Nat := 0) : State :=
  { withRegs l running with svc := { running.svc with nqIn := q, gap := gap } }
def nq (cmd : Nat) (l : List (Nat × Nat)) (m : MasterId := 5) : State := heldWith ((R.NQ_CTL, 5) :: l) (wr m R.NQ_CMD (2^63 + cmd))
def nqr (l : List (Nat × Nat)) (m : MasterId := 5) : State :=
  { heldWith ((R.NQ_CTL, 5) :: l) (rd m R.NQ_READ) with svc := { (held (rd m R.NQ_READ)).svc with nq := [(7, 0x55)] } }
def dumpRegs : List (Nat × Nat) := [(R.PMC_DUMPBASE, 0), (R.PMC_DUMPSIZE, 2), (R.SEC_WORLDCFG, 0x20)]
def pmcOn (l : List (Nat × Nat)) (p : PmcSt → PmcSt) : State :=
  { withRegs (dumpRegs ++ (R.PMC_CTL, 0x7D1) :: l) running with pmc := p running.pmc }
def aDump (left : List Nat) : Dump := ⟨[(33, 0xAB)], left, [], 1⟩
def dumpIsDue : State := pmcOn [(R.PMC_CNT, 7), (R.PMC_CNT + 8*255, 9), (R.PMC_REDO + 24, 5)] (fun p => { p with due := true })
def dumpFullDue : State := pmcOn [(R.PMC_DUMPSEQ, 2)] (fun p => { p with due := true })
def dumpAgain : State := pmcOn [] (fun p => { p with due := true, dump := some (aDump [1, 0]) })
def dumpRuns : State := pmcOn [] (fun p => { p with dump := some (aDump [1, 0]) })
def dumpEnds : State := pmcOn [] (fun p => { p with dump := some (aDump [0]) })
def blotQ (l : List (Nat × Nat)) (r : BlotRec) : State := { withRegs l running with svc := { running.svc with blotQ := [(2, [r])] } }
def aRec (sev : Nat) : BlotRec := ⟨0x1000, 2, 0x105, sev, true, false, 7, 3, 5, Op.rdOnce, 0⟩
def blotHeld : State := { heldWith [] (wr 1 R.BLOT_SEL 4095) with svc := { (held (wr 1 R.BLOT_SEL 4095)).svc with blot := [(4095, [1, 2, 3, 4])] } }
def testing : State := { State.reset with boot := { State.reset.boot with testMode := true } }
def bistOn : State := { testing with svc := { testing.svc with bistRun := true } }
def rq (op : BitVec 6) (d : LineData := []) (det : BitVec 40 := 0) : Packet := pkt op 1 7 3 d det
def k7 := dirKey (posOf 7) 0
def strokePkt : Packet := rq Op.stroke [DWord.gen (BitVec.ofNat 64 (7 + 3 * 2^52 + 2 * 2^57)), DWord.gen 5, DWord.zero, DWord.zero]
def badPkt : Packet := { rq Op.rdOnce with syn := 0xFF }
def strayPkt : Packet := { rq Op.rdOnce with hopcnt := 1 }
def closed : State := withRegs [(R.NP_CTL, 0)] running
def ligPkt : Packet := pkt Op.ligature 1 9 3 [DWord.gen (BitVec.ofNat 64 (9 + 3 * 2^52 + 2 * 2^57)), DWord.gen 5, DWord.zero, DWord.zero] 0
def ligSt : State := queued ligPkt (withRegs [(R.LED_JSIZE, 64), (R.LED_JBASE, 2^63 + 0x200)] running)
def inkOf (l : List EpId) : InkSlot := ⟨9, true, .filled, lineOf 2, [0], [0], [], [], l, [], 0, 0x1000, false, false, 0⟩
def syncSt (l : List EpId) : State := { queued (rq Op.sync) with ink := [(3, inkOf l)] }
def slotR (h : HIdx) : InkSlot := ⟨h, false, .reserved, [], [], [], [], [], [], [], 0, 0, false, false, 0⟩
def ligBlocks : Stall := { stallFor (reqOf ligPkt) 9 with role := .lig 0 false, ink := some 0, rd := .asked, out := some .direct }
def ligPens : Stall := { stallFor (reqOf ligPkt) 0 with role := .lig 0 false, code := 1, blocks := false }
def ligHalf : Lig := ⟨reqOf ligPkt, [9], [0, 1], [(9, 0)], none, [], [1], true, some 0, 0x1000, none, false, false⟩
def ligPen : PenEntry := ⟨1, 0, 0x200, none, 0⟩
def ligWaits : State :=
  { withRegs [(R.LED_JSIZE, 64), (R.LED_JBASE, 2^63 + 0x200)] running with
    stalls := [(0, ligBlocks), (1, ligPens)], ligs := [(0, ligHalf)], pen := [(0, ligPen)], ink := [(0, slotR 9), (1, slotR 0x200)] }
def owned (who : EpId) : DirEntry := ⟨tagOf 7, true, false, .x, .ptr (some who) none⟩
def withDir (e : DirEntry) (s : State) : State := { s with dirs := [(k7, e)] }
def wbSt : State := withDir (owned 1) (queued (rq Op.wbDirty (lineOf 4)))
def wbFull : State := { wbSt with stalls := (List.range 256).map (fun k => (Config.baseWb + k, { stallFor (reqOf (rq Op.wbDirty)) 100 with role := .wb })) }
def noteSt (e : List DirEntry) : State := { queued (rq Op.evictNote) with dirs := e.map (fun x => (k7, x)) }
def shared2 (a b : EpId) : DirEntry := ⟨tagOf 7, true, false, .s, .ptr (some a) (some b)⟩
def S (l : List (Nat × Stall)) (s : State := running) : State := { s with stalls := l }
def st1 (op : BitVec 6 := Op.rdOnce) : Stall := stallFor (reqOf (rq op)) 7
def pennedStall : Stall := { st1 with code := 1, blocks := false }
def pennedLate : Stall := { st1 with code := 1, acc := 0, blocks := false }
def aPen : PenEntry := ⟨5, 0, 7, none, 0⟩
def penned : State := { S [(5, pennedStall)] with pen := [(511, aPen)] }
def pennedLong : State := { S [(5, pennedLate)] with pen := [(511, aPen)] }
def tkt : Ticket := ⟨1, 7, [7], 0, 0, [5], 0, false⟩
def ticketed : State := { running with tickets := [(255, tkt)] }
def hw (op : BitVec 6) (f : Bool) : Wait := ⟨2, op, f, true, .sent 0x100000, 0⟩
def ow : Wait := ⟨3, Op.snpInv, false, false, .sent 0x100000, 0⟩
def ans (op : BitVec 6) (d : LineData := []) : Packet := pkt op 2 7 5 d
def snooping (rop : BitVec 6) (ws : List Wait) : Stall := { st1 rop with waits := ws, way := some k7 }
def snoopSt (rop : BitVec 6) (ws : List Wait) (p : Packet) : State := withDir (owned 2) (S [(5, snooping rop ws)] (queued p))
def ackP : Packet := rq Op.cmpAck
def waitsAck : Stall := { st1 Op.rdShared with code := 3, out := some .direct, final := true, recorded := true, respAt := some 0x1000 }
def rlyW : Wait := ⟨9, Op.rlyInv, false, false, .sent 0x100000, 0⟩
def rlyStall : Stall := { st1 Op.rdUnique with role := .relay 5, waits := [rlyW], blocks := false }
def parentSt : Stall := { st1 Op.rdUnique with relay := some Config.baseRly, waits := [ow], way := some k7 }
def rlyAckP : Packet := pkt Op.rlyAck 9 7 (BitVec.ofNat 12 Config.baseRly)
def rlySt : State := withDir (shared2 2 3) (S [(5, parentSt), (Config.baseRly, rlyStall)] (queued rlyAckP))
def rlySelf : State := { withDir (shared2 2 3) (S [(5, parentSt), (Config.baseRly, rlyStall)]) with ruBack := [item rlyAckP] }
def ackEarly : Stall := { st1 Op.rdUnique with waits := [hw Op.snpUnique true], way := some k7 }
def ackW : Wait := ⟨2, Op.snpUnique, true, true, .window 0x1000, 0⟩
def ackWindow : Stall := { st1 Op.rdUnique with waits := [ackW], way := some k7 }
def ackWindowSt : State := withDir (owned 2) (S [(5, ackWindow)] (queued ackP))
def rlyTwo : Stall := { rlyStall with waits := [rlyW, { rlyW with who := 10 }] }
def rlyTwoSt : State := withDir (shared2 2 3) (S [(5, parentSt), (Config.baseRly, rlyTwo)] (queued rlyAckP))
def rlyErrP : Packet := { rlyAckP with detail := 0x400000 }
def rlyErrSt : State := withDir (shared2 2 3) (S [(5, parentSt), (Config.baseRly, rlyStall)] (queued rlyErrP (withRegs [(routeAddr 0 0 9 + 0x1000, 2 ^ 63 + 2 ^ 48), (R.DIR_CTL, 1)] running)))
def rlyLone : State := { running with ruBack := [item rlyAckP] }
def rlyInvP (det : Nat) : Packet := pkt Op.rlyInv 6 7 0x700 [] (BitVec.ofNat 40 det)
def ruOn : List (Nat × Nat) := [(R.DIR_RUCTL, 1 + 2 * 8), (R.DIR_RUDOM, 2^12), (R.DIR_RUMASK, 2 + 4)]
def ruSt (det : Nat) : State := queued (rlyInvP det) (withRegs ruOn running)
def rlyOpen : RlyOpen := ⟨4, item (rlyInvP 0), [⟨2, Op.snpInv, false, false, .sent 0x100000, 0⟩], 1, 1, false, false⟩
def memP : Packet := { pkt Op.snpAckI 2 7 0x800 with dst := 8 }
def memSt : State := { queued memP (withRegs ruOn running) with rlys := [(0, rlyOpen)] }
def mgt (op : BitVec 6) (det : Nat) (w : Bool := true) : Packet := { pkt op 6 0 0x7 [] (BitVec.ofNat 40 det) with world := w }
def swapAck : State := { queued (mgt Op.mgtAck 0) (withRegs [(R.RTE_EPOCHCTL, 4), (swapReg 7, 2 ^ 18 + 3)] running) with mgt := { running.mgt with swapOut := [(7, 0x1000)], swapNext := 64 } }
def oneWait (w : Wait) : Stall := { st1 Op.rdUnique with waits := [w], way := some k7 }
def oneSt (w : Wait) : State := withDir (owned 2) (S [(5, oneWait w)])
def lateW : Wait := ⟨2, Op.snpUnique, true, true, .sent 0x1000, 0⟩
def lateAck : Stall := { waitsAck with respAt := some 0x1000 }
def rlyLate (k : Nat) : Wait := ⟨9, Op.rlyInv, false, false, .sent 0x1000, k⟩
def rlyLateStall (k : Nat) : Stall := { rlyStall with waits := [rlyLate k] }
def relayIdx : Fin 2048 := ⟨Config.baseRly, by decide⟩
def rlyLateSt (k : Nat) : State := withDir (shared2 2 3) (S [(5, parentSt), (Config.baseRly, { rlyStall with waits := [rlyLate k] })] (withRegs [(routeAddr 0 0 9 + 0x1000, 2 ^ 63 + 2 ^ 48), (R.DIR_CTL, 1)] running))
def resendW : Wait := ⟨2, Op.snpUnique, true, true, .resend 0x1000, 0⟩
def windowW : Wait := ⟨2, Op.snpUnique, true, true, .window 0x1000, 0⟩
def windowSt : State := withDir (owned 2) (S [(5, oneWait windowW)] (withRegs [(fenceReg 0, 2^18 + 2)] running))
def rcv (f : RcvSt → RcvSt) (l : List (Nat × Nat) := []) : State := { withRegs l running with rcv := f running.rcv }
def askedHigh : State := rcv (fun r => { r with req := some 2, reqHigh := true }) [(fenceReg 3, 2^18 + 2)]
def asked : State := rcv (fun r => { r with req := some 2 })
def askedMore : State := rcv (fun r => { r with req := some 2, asks := [4, 5] })
def suspect15 : State := rcv (fun r => r) [(fenceReg 15, 2^18 + 2)]
def flushLate : State := rcv (fun r => { r with ackAt := [(15, 0)] }) [(fenceReg 15, 2^18 + 2), (R.GLB_RCVCTL, 1)]
def rspHigh : State := rcv (fun r => { r with rspAck := true })
def purgedEntry : DirEntry := ⟨3, true, false, .s, .ptr (some 2) none⟩
def cleanedEntry : DirEntry := ⟨3, true, false, .x, .ptr (some 2) none⟩
def purging (l : List (EpId × Nat × Bool)) (regs : List (Nat × Nat)) (d : SMap DirEntry) : State := { rcv (fun r => { r with purge := l }) regs with dirs := d }
def cleaning (d : SMap DirEntry) : State := { rcv (fun r => { r with cleanPos := 131071 }) [(R.DIR_WAYPWR, 2)] with dirs := d }
def scrubbing : State := { withRegs [(R.DIR_SCRUB, 100)] running with faults := [(0, dirKey 3 2, .ce)] }
def clearing (req : Nat) : State := withRegs [(R.DIR_WAYPWR, 6 + req)] running
def rdW : MpRead := ⟨7, 5, none, 0x1000, some 0x1000, none, .no, false⟩
def rdT (t : Nat) : MpRead := ⟨7, 5, some t, 0x1000, some 0x1000, none, .no, false⟩
def mpsWith (p0 p1 : MpSt) (s : State := running) : State := { s with mps := [(0, p0), (1, p1)] }
def slotF : InkSlot := ⟨7, false, .filled, lineOf 2, [0], [0], [], [], [1], [], 3, 0x100000, false, false, 0⟩
def slotI (need sent : List Nat) : InkSlot := ⟨7, false, .issued, lineOf 2, need, need, sent, [], [1], [], 3, 0x1000, false, false, 0⟩
def inkSt (x : InkSlot) (s : State) : State := { s with ink := [(511, x)] }
def rdOnceWait : Stall := { st1 Op.rdOnce with rd := .asked, out := some .direct }
def issueSt : State := mpsWith { mpReady with reads := [rdW, rdT 0] } mpReady
def writeSt : State := inkSt slotF running
def wrOut (s : State) (x : InkSlot) : State := inkSt x (mpsWith { mpReady with writes := [(95, 511, 3, 0x1000)] } mpReady s)
def creditSt : State := mpsWith { mpReady with seenRd := true, seenWr := false } mpReady (withRegs [(mpBase R.MP_STATUS 0, 3), (R.ISL_RSTSTAT, 2^5)] running)
def creditAbsent : State := mpsWith { mpReady with seenRd := true, seenWr := false } mpReady (withRegs [(mpBase R.MP_STATUS 0, 0)] running)
def mirrorRegs : List (Nat × Nat) := [(R.SEC_REGIONA, 2 ^ 46 + 2 ^ 44), (mpBase R.MP_STATUS 1, 4), (R.INK_STATUS, 2 ^ 30)]
def copyOf (c : CopySt) (w : SMap (Nat × Nat × Tod) := []) : State :=
  mpsWith mpReady { mpReady with copy := some c, writes := w } (withRegs mirrorRegs running)
def copyStart : CopySt := ⟨0, [], []⟩
def copyHas : CopySt := ⟨1, [0], [(0, lineOf 3)]⟩
def copyBusy : CopySt := ⟨1, [0], []⟩
def copyDone : CopySt := ⟨2 ^ 34, [], []⟩
def copying : State := copyOf copyStart
def copyRead : State := copyOf copyHas
def copyWritten : State := copyOf copyBusy [(95, Config.inkSlots, 0, 0x1000)]
def copyEnds : State := copyOf copyDone
def dataSt (t : Stall) : State := mpsWith { mpReady with reads := [rdT 63] } mpReady (S [(5, t)])
def shareWait : Stall := { st1 Op.rdShared with rd := .asked, out := some .direct, way := some k7 }
def shareSnoop : Stall := { st1 Op.rdShared with rd := .asked, waits := [ow] }
def failSt (s : State) : State := mpsWith { mpReady with reads := [rdT 63], writes := [(95, 511, 3, 0x1000)] } mpReady (S [(5, rdOnceWait)] s)
def mirrored : State := withRegs [(R.SEC_REGIONA, 2 ^ 46 + 2^44)] running
def resetWr : State := inkSt (slotI [0] [0]) (mpsWith { mpReady with writes := [(95, 511, 3, 0x1000)] } mpReady)
def resyncing : State := withRegs [(mpBase R.MP_STATUS 0, 4), (R.INK_STATUS, 2^30)] running
def oneFailed : State := mpsWith { mpReady with reads := [rdT 63] } mpReady (withRegs [(mpBase R.MP_STATUS 1, 2)] running)
def absentPort : State := mpsWith mpReady mpReady (withRegs [(mpBase R.MP_STATUS 1, 0)] running)
def resetPort : State := mpsWith { mpReady with reads := [rdT 63] } mpReady (withRegs [(mpBase R.MP_STATUS 0, 3), (mpBase R.MP_STATUS 1, 2)] running)
def mirroredReads : State := mpsWith { mpReady with reads := [rdW, rdT 63] } mpReady mirrored
def failWr (s : State) : State := mpsWith { mpReady with writes := [(95, 511, 3, 0x1000)] } mpReady (S [(5, rdOnceWait)] s)
def cmd (op : BitVec 4) (seq : BitVec 16 := 5) (d : LineData := []) (m : BitVec 32 := 0) : CpCmd := ⟨63, seq, op, 7, m, d⟩
def cpAt : List (Nat × Nat) := [(cpReg 63, 5 + 4 * 2^16)]
def cpSt : State := withRegs cpAt running
def cpInk (q : Nat) : State := { cpSt with ink := [(3, { inkOf [] with cps := [(63, BitVec.ofNat 16 q)] })] }
def heldCp : State := { cpSt with cp := { cpSt.cp with retry := [(cmd 1 4, 0, false)], opens := [(63, [⟨4, false, none, none, none⟩])] } }
def flit (line word op guard a g : Nat) : LineData := [DWord.gen (BitVec.ofNat 64 (line + word * 2^52 + op * 2^57 + guard * 2^61)), DWord.gen (BitVec.ofNat 64 a), DWord.gen (BitVec.ofNat 64 g), DWord.zero]
def strk (guard g : Nat) : Packet := rq Op.stroke (flit 7 3 2 guard 5 g)
def strkAlc (p : Packet) : Stall := { stallFor (reqOf p) 7 with alc := some 63 }
def strkInk (p : Packet) : Stall := { stallFor (reqOf p) 7 with ink := some 511, got := some (lineOf 2), rd := .got, out := some .direct }
def alcE : AlcEntry := ⟨7, false, true, false, false, false, lineOf 2, 0⟩
def strokeAlc (p : Packet) : State := { S [(5, strkAlc p)] (withRegs [(R.ALC_STATUS, 1), (R.ALC_CTL, 3)] running) with readyStrk := [5], alc := [(63, alcE)] }
def strokeInk (p : Packet) : State := { S [(5, strkInk p)] with readyStrk := [5, 6], ink := [(511, slotR 7)] }
def ligP (guard g : Nat) : Packet := pkt Op.ligature 1 9 3 (flit 9 3 2 guard 5 g) 0
def ligD (p : Packet) (journal : Bool) : Stall :=
  { stallFor (reqOf p) (if journal then 0x200 else 9) with role := .lig 0 journal, ink := some (if journal then 511 else 0), got := some (lineOf 2), rd := .got, out := some .direct }
def aLig (p : Packet) : Lig := ⟨reqOf p, [9], [5, 6], [(9, 5)], some (0x200, 6), [], [], true, none, 0x1000, none, false, false⟩
def ringAt (seq : Nat) : State := withRegs [(R.LED_JSIZE, 64), (R.LED_JBASE, 2^63 + 0x200), (R.LED_JSEQ, seq), (R.LED_JHEAD, seq)] running
def ligRun (p : Packet) (seq : Nat) : State :=
  { S [(5, ligD p false), (6, ligD p true)] (ringAt seq) with
    ligs := [(0, aLig p)], readyLig := [0], ink := [(0, slotR 9), (511, slotR 0x200)] }
def alcDirty : AlcEntry := { alcE with d := true }
def aMove : Move := ⟨63, 511, 0, 7⟩
def moving : State := { S [] with moves := [aMove], alc := [(62, { alcE with h := 8 }), (63, alcDirty)], ink := [(511, slotR 7)] }
def draining : State := { withRegs [(R.ALC_CTL, 4)] running with alc := [(63, alcE)] }
def pst (i v : Nat) (l : List (Nat × Nat) := []) (s : State := running) : State := withRegs ((R.ISL_PWRSTAT, v * 2^(3*i)) :: l) s
def unm : State := { running with nps := [(0, { portWith 0 [] with mustered := false })] }
def dropCp : State := { withRegs [(R.CP_STATUS, 3), (R.ISL_RSTSTAT, 2^7)] running with cp := { running.cp with lost := true } }
def le (n v : Nat) : List Byte := (List.range n).map (fun k => BitVec.ofNat 8 (v / 256 ^ k))
def secBytes : List Byte := [0x13, 0, 0, 0, 0x13, 0, 0, 0]
def secTable : List Byte := [1, 0, 0, 0] ++ le 4 80 ++ le 4 8 ++ le 4 (Digest.crc32c secBytes).toNat
def hdr60 : List Byte := [0x41, 0x50, 0x52, 0x4B] ++ le 2 1 ++ le 2 1 ++ le 4 88 ++ le 4 0x51427200 ++ le 8 0 ++ le 4 (Digest.crc32c secTable).toNat ++ List.replicate 32 0
def image : List Byte := hdr60 ++ le 4 (Digest.crc32c hdr60).toNat ++ secTable ++ secBytes
def bootAt (p : Nat) (f : BootSt → BootSt) (l : List (Nat × Nat) := []) : State := { withRegs ((R.BOOT_STATUS, p) :: l) State.reset with boot := f State.reset.boot, tod := 0x100000 }
def flashPart : Sfdp := { densLog2 := 24, r144 := true, r114 := false, r122 := true, r112 := true, qer := 0, form4 := false, enterB7 := false, enter06B7 := false }
def imgSt : State := bootAt 2 (fun b => { b with readable := 2^24 })
def imgAlt : State := bootAt 2 (fun b => { b with readable := 2^24, altOff := some (2^23) })
def digestSt : State := bootAt 3 (fun b => { b with digest := 1, img := image })
def ostWait : State := bootAt 5 (fun b => { b with ostRun := true }) [(R.DIR_STATUS, 0), (R.BOOT_CTL, 1)]
def must (f : BootSt → BootSt) (p : Nat) : State := { withRegs [(R.BOOT_STATUS, p), (R.NP_CTL, 0x88)] running with boot := f running.boot, tod := 0x10000000 }
def musterNp : State := must (fun b => { b with nextPort := 1 }) 7
def musterEnd : State := must (fun b => { b with nextPort := 6 }) 7
def lateRun : State := { running with tod := 0x10000000 }
def damagedStall : State := { snoopSt Op.rdUnique [hw Op.snpUnique true] (ans Op.snpAckI) with faults := [(4, 5, .ue)] }
def damagedCam : State := { running with faults := [(6, 1023, .ue)] }
def damagedStore : State := { held (wr 0x3FF R.GLB_SCRATCH 1) with faults := [(7, 0, .ue)] }
def damagedTicket : State := { running with faults := [(4, tktSram 255, .ce)] }


/-! ### What the witnesses are made of -/

/-- The service port in `s` holds, as the oldest access of master `m`, one of a row, for which `pre` holds, in a state with a
canonical window: what `spDoes` assumes. -/
def spMeets (s : State) (m : MasterId) (row : SpRow) (pre : State → SpAcc → Bool) : Bool :=
  match s.oldest m row with
  | some (x, t) => t.canonical && pre t x
  | none => false

theorem spNext_win {s t : State} {m : MasterId} {x : SpAcc} (h : s.spNext m = some (x, t)) : t.win = s.win := by
  unfold State.spNext State.spHeld at h
  repeat' split at h
  all_goals first | (cases h; done) | (obtain ⟨-, rfl⟩ := Prod.mk.inj (Option.some.inj h); rfl)

/-- Taking an access from the input stage leaves the register window as it was. -/
theorem oldest_win {s t : State} {m : MasterId} {row : SpRow} {x : SpAcc} (h : s.oldest m row = some (x, t)) : t.win = s.win := by
  unfold State.oldest at h
  split at h
  · cases h
  split at h
  · split at h
    · rename_i y u hu _
      have e := congrArg State.win (Prod.mk.inj (Option.some.inj h)).2
      exact e.symm.trans (show u.win = s.win from spNext_win hu)
    · cases h
  · cases h

/-- The canonical form depends on the window alone. -/
theorem canonical_win {s t : State} (h : t.win = s.win) : t.canonical = s.canonical := by unfold State.canonical; rw [h]

theorem meets_of {s : State} {m : MasterId} {row : SpRow} {pre : State → SpAcc → Bool} (h : s.canonical = true)
    (g : (match s.oldest m row with | some (x, t) => pre t x | none => false) = true) : spMeets s m row pre = true := by
  unfold spMeets
  split at g
  · rename_i x t ho
    have e : t.canonical = s.canonical := canonical_win (oldest_win ho)
    simp [e, h, g]
  · cases g

theorem calm_of {s : State} (h : s.canonical = true)
    (g : SMap.wf s.dirs = true ∧ SMap.wf s.stalls = true ∧ SMap.wf s.pen = true ∧ SMap.wf s.tickets = true ∧
      SMap.wf s.ink = true ∧ SMap.wf s.alc = true ∧ SMap.wf s.ligs = true ∧ SMap.wf s.rlys = true ∧ SMap.wf s.nps = true ∧
      SMap.wf s.mps = true ∧ s.faults = [] ∧ s.chk = false) : s.calm := ⟨h, g⟩

@[simp] theorem canonR : running.canonical = true := by decide +kernel
@[simp] theorem canonZ : State.reset.canonical = true := by decide +kernel
/-- Registers set one by one keep the window canonical. -/
@[simp] theorem canonW (l : List (Nat × Nat)) {s : State} (h : s.canonical = true) : (withRegs l s).canonical = true := by
  induction l generalizing s with
  | nil => exact h
  | cons e r ih => exact ih (State.canonical_setReg _ _ h)

@[simp] theorem canonical_queued (p : Packet) (s : State) : (queued p s).canonical = s.canonical := canonical_win rfl
@[simp] theorem canonical_held (x : SpAcc) (s : State) : (held x s).canonical = s.canonical := canonical_win rfl
@[simp] theorem canonical_heldWith (l : List (Nat × Nat)) (x : SpAcc) : (heldWith l x).canonical = true := by simp [heldWith]
@[simp] theorem canonical_stallInspected : stallInspected.canonical = true := (canonical_win (s := held (wr 1 R.YARD_INSP_SEL 2047)) (t := stallInspected) (by unfold stallInspected; with_reducible rfl)).trans (by simp)
@[simp] theorem canonical_alcInspected : alcInspected.canonical = true := (canonical_win (s := held (wr 1 R.ALC_INSP_SEL 63)) (t := alcInspected) (by unfold alcInspected; with_reducible rfl)).trans (by simp)
@[simp] theorem canonical_accepting (l : List SpAcc) : (accepting l).canonical = true := (canonical_win (s := running) (t := (accepting l)) (by unfold accepting; with_reducible rfl)).trans (by simp)
@[simp] theorem canonical_heldT (s : State) (h : s.canonical = true) : (heldT s).canonical = true := by
  unfold heldT
  cases e : s.spNext 1 with
  | none => exact h
  | some p => exact (canonical_win (spNext_win (show s.spNext 1 = some (p.1, p.2) from e))).trans h
@[simp] theorem canonical_badWrite : badWrite.canonical = true := by simp [badWrite]
@[simp] theorem canonical_swapWaits : swapWaits.canonical = true := (canonical_win (s := withRegs [(R.RTE_EPOCHCTL, 4), (swapReg 63, 2 ^ 18 + 3)] running) (t := swapWaits) (by unfold swapWaits; with_reducible rfl)).trans (by simp)
@[simp] theorem canonical_swapRetires : swapRetires.canonical = true := (canonical_win (s := withRegs [(R.RTE_EPOCHCTL, 8)] running) (t := swapRetires) (by unfold swapRetires; with_reducible rfl)).trans (by simp)
@[simp] theorem canonical_portFailed : portFailed.canonical = true := (canonical_win (s := heldWith [(mpBase R.MP_STATUS 1, 2), (mpBase R.MP_CTL 1, 1), (R.SEC_REGIONA, 2 ^ 46 + 2 ^ 44)] (wr 1 (mpBase R.MP_CTL 1) 2)) (t := portFailed) (by unfold portFailed; with_reducible rfl)).trans (by simp)
@[simp] theorem canonical_streamBusy : streamBusy.canonical = true := (canonical_win (s := heldWith [(cpReg 63, 7)] (wr 1 (cpReg 63) (2^63 + 0xABC * 2^41))) (t := streamBusy) (by unfold streamBusy; with_reducible rfl)).trans (by simp)
@[simp] theorem canonical_fc (op : Nat) (st : Option Nat) : (fc op st).canonical = true := by simp [fc]
@[simp] theorem canonical_stopped (c : Nat) : (stopped c).canonical = true := (canonical_win (s := heldWith [] (wr 1 R.GLB_CHKCMD (2^63 + c))) (t := (stopped c)) (by unfold stopped; with_reducible rfl)).trans (by simp)
@[simp] theorem canonical_bcasting : bcasting.canonical = true := (canonical_win (s := withRegs [(R.GLB_BCAST, 1 + 2^2)] running) (t := bcasting) (by unfold bcasting; with_reducible rfl)).trans (by simp)
@[simp] theorem canonical_ostler (l : List (Nat × Nat)) : (ostler l).canonical = true := (canonical_win (s := heldWith ((R.BOOT_STATUS, 5) :: l) (wr 0x3FF R.BOOT_CTL 1)) (t := (ostler l)) (by unfold ostler; with_reducible rfl)).trans (by simp)
@[simp] theorem canonical_fr (i : Nat) (l : List (Nat × Nat)) : (fr i l).canonical = true := by simp [fr]
@[simp] theorem canonical_pw (v : Nat) (l : List (Nat × Nat)) : (pw v l).canonical = true := by simp [pw]
@[simp] theorem canonical_cpBusy : cpBusy.canonical = true := (canonical_win (s := pw 0xBF) (t := cpBusy) (by unfold cpBusy; with_reducible rfl)).trans (by simp)
@[simp] theorem canonical_dr (l : List (Nat × Nat)) : (dr l).canonical = true := by simp [dr]
@[simp] theorem canonical_drInk (l : List (Nat × Nat)) : (drInk l).canonical = true := (canonical_win (s := dr l) (t := (drInk l)) (by unfold drInk; with_reducible rfl)).trans (by simp)
@[simp] theorem canonical_runInk : runInk.canonical = true := (canonical_win (s := running) (t := runInk) (by unfold runInk; with_reducible rfl)).trans (by simp)
@[simp] theorem canonical_mbx (bind stat : Nat) (x : SpAcc) (msg : List Word) : (mbx bind stat x msg).canonical = true := (canonical_win (s := heldWith [(mbxReg R.MBX_BIND 31, bind), (mbxReg R.MBX_STAT 31, stat), (mbxReg R.MBX_DATA0 31, 10), (mbxReg R.MBX_DATA1 31, 11), (mbxReg R.MBX_DATA2 31, 12)] x) (t := (mbx bind stat x msg)) (by unfold mbx; with_reducible rfl)).trans (by simp)
@[simp] theorem canonical_railIs (v : Nat) (x : SpAcc) (w : Nat) : (railIs v x w).canonical = true := by simp [railIs]
@[simp] theorem canonical_awayRead : awayRead.canonical = true := by simp [awayRead]
@[simp] theorem canonical_twoLocks : twoLocks.canonical = true := by simp [twoLocks]
@[simp] theorem canonical_nqIn (l : List (Nat × Nat)) (q : List (List Word)) (gap : Nat) : (nqIn l q gap).canonical = true := (canonical_win (s := withRegs l running) (t := (nqIn l q gap)) (by unfold nqIn; with_reducible rfl)).trans (by simp)
@[simp] theorem canonical_nq (cmd : Nat) (l : List (Nat × Nat)) (m : MasterId) : (nq cmd l m).canonical = true := by simp [nq]
@[simp] theorem canonical_nqr (l : List (Nat × Nat)) (m : MasterId) : (nqr l m).canonical = true := (canonical_win (s := heldWith ((R.NQ_CTL, 5) :: l) (rd m R.NQ_READ)) (t := (nqr l m)) (by unfold nqr; with_reducible rfl)).trans (by simp)
@[simp] theorem canonical_pmcOn (l : List (Nat × Nat)) (p : PmcSt → PmcSt) : (pmcOn l p).canonical = true := (canonical_win (s := withRegs (dumpRegs ++ (R.PMC_CTL, 0x7D1) :: l) running) (t := (pmcOn l p)) (by unfold pmcOn; with_reducible rfl)).trans (by simp)
@[simp] theorem canonical_dumpIsDue : dumpIsDue.canonical = true := by simp [dumpIsDue]
@[simp] theorem canonical_dumpFullDue : dumpFullDue.canonical = true := by simp [dumpFullDue]
@[simp] theorem canonical_dumpAgain : dumpAgain.canonical = true := by simp [dumpAgain]
@[simp] theorem canonical_dumpRuns : dumpRuns.canonical = true := by simp [dumpRuns]
@[simp] theorem canonical_dumpEnds : dumpEnds.canonical = true := by simp [dumpEnds]
@[simp] theorem canonical_blotQ (l : List (Nat × Nat)) (r : BlotRec) : (blotQ l r).canonical = true := (canonical_win (s := withRegs l running) (t := (blotQ l r)) (by unfold blotQ; with_reducible rfl)).trans (by simp)
@[simp] theorem canonical_blotHeld : blotHeld.canonical = true := (canonical_win (s := heldWith [] (wr 1 R.BLOT_SEL 4095)) (t := blotHeld) (by unfold blotHeld; with_reducible rfl)).trans (by simp)
@[simp] theorem canonical_testing : testing.canonical = true := (canonical_win (s := State.reset) (t := testing) (by unfold testing; with_reducible rfl)).trans (by simp)
@[simp] theorem canonical_bistOn : bistOn.canonical = true := (canonical_win (s := testing) (t := bistOn) (by unfold bistOn; with_reducible rfl)).trans (by simp)
@[simp] theorem canonical_closed : closed.canonical = true := by simp [closed]
@[simp] theorem canonical_ligSt : ligSt.canonical = true := by simp [ligSt]
@[simp] theorem canonical_syncSt (l : List EpId) : (syncSt l).canonical = true := (canonical_win (s := queued (rq Op.sync)) (t := (syncSt l)) (by unfold syncSt; with_reducible rfl)).trans (by simp)
@[simp] theorem canonical_ligWaits : ligWaits.canonical = true := (canonical_win (s := withRegs [(R.LED_JSIZE, 64), (R.LED_JBASE, 2^63 + 0x200)] running) (t := ligWaits) (by unfold ligWaits; with_reducible rfl)).trans (by simp)
@[simp] theorem canonical_withDir (e : DirEntry) (s : State) : (withDir e s).canonical = s.canonical := canonical_win rfl
@[simp] theorem canonical_wbSt : wbSt.canonical = true := by simp [wbSt]
@[simp] theorem canonical_wbFull : wbFull.canonical = true := (canonical_win (s := wbSt) (t := wbFull) (by unfold wbFull; with_reducible rfl)).trans (by simp)
@[simp] theorem canonical_noteSt (e : List DirEntry) : (noteSt e).canonical = true := (canonical_win (s := queued (rq Op.evictNote)) (t := (noteSt e)) (by unfold noteSt; with_reducible rfl)).trans (by simp)
@[simp] theorem canonical_S (l : List (Nat × Stall)) (s : State) : (S l s).canonical = s.canonical := canonical_win rfl
@[simp] theorem canonical_penned : penned.canonical = true := (canonical_win (s := S [(5, pennedStall)]) (t := penned) (by unfold penned; with_reducible rfl)).trans (by simp)
@[simp] theorem canonical_pennedLong : pennedLong.canonical = true := (canonical_win (s := S [(5, pennedLate)]) (t := pennedLong) (by unfold pennedLong; with_reducible rfl)).trans (by simp)
@[simp] theorem canonical_ticketed : ticketed.canonical = true := (canonical_win (s := running) (t := ticketed) (by unfold ticketed; with_reducible rfl)).trans (by simp)
@[simp] theorem canonical_snoopSt (rop : BitVec 6) (ws : List Wait) (p : Packet) : (snoopSt rop ws p).canonical = true := by simp [snoopSt]
@[simp] theorem canonical_rlySt : rlySt.canonical = true := by simp [rlySt]
@[simp] theorem canonical_rlySelf : rlySelf.canonical = true := (canonical_win (s := withDir (shared2 2 3) (S [(5, parentSt), (Config.baseRly, rlyStall)])) (t := rlySelf) (by unfold rlySelf; with_reducible rfl)).trans (by simp)
@[simp] theorem canonical_ackWindowSt : ackWindowSt.canonical = true := by simp [ackWindowSt]
@[simp] theorem canonical_rlyTwoSt : rlyTwoSt.canonical = true := by simp [rlyTwoSt]
@[simp] theorem canonical_rlyErrSt : rlyErrSt.canonical = true := by simp [rlyErrSt]
@[simp] theorem canonical_rlyLone : rlyLone.canonical = true := (canonical_win (s := running) (t := rlyLone) (by unfold rlyLone; with_reducible rfl)).trans (by simp)
@[simp] theorem canonical_ruSt (det : Nat) : (ruSt det).canonical = true := by simp [ruSt]
@[simp] theorem canonical_memSt : memSt.canonical = true := (canonical_win (s := queued memP (withRegs ruOn running)) (t := memSt) (by unfold memSt; with_reducible rfl)).trans (by simp)
@[simp] theorem canonical_swapAck : swapAck.canonical = true := (canonical_win (s := queued (mgt Op.mgtAck 0) (withRegs [(R.RTE_EPOCHCTL, 4), (swapReg 7, 2 ^ 18 + 3)] running)) (t := swapAck) (by unfold swapAck; with_reducible rfl)).trans (by simp)
@[simp] theorem canonical_oneSt (w : Wait) : (oneSt w).canonical = true := by simp [oneSt]
@[simp] theorem canonical_rlyLateSt (k : Nat) : (rlyLateSt k).canonical = true := by simp [rlyLateSt]
@[simp] theorem canonical_windowSt : windowSt.canonical = true := by simp [windowSt]
@[simp] theorem canonical_rcv (f : RcvSt → RcvSt) (l : List (Nat × Nat)) : (rcv f l).canonical = true := (canonical_win (s := withRegs l running) (t := (rcv f l)) (by unfold rcv; with_reducible rfl)).trans (by simp)
@[simp] theorem canonical_askedHigh : askedHigh.canonical = true := by simp [askedHigh]
@[simp] theorem canonical_asked : asked.canonical = true := by simp [asked]
@[simp] theorem canonical_askedMore : askedMore.canonical = true := by simp [askedMore]
@[simp] theorem canonical_suspect15 : suspect15.canonical = true := by simp [suspect15]
@[simp] theorem canonical_flushLate : flushLate.canonical = true := by simp [flushLate]
@[simp] theorem canonical_rspHigh : rspHigh.canonical = true := by simp [rspHigh]
@[simp] theorem canonical_purging (l : List (EpId × Nat × Bool)) (regs : List (Nat × Nat)) (d : SMap DirEntry) : (purging l regs d).canonical = true := (canonical_win (s := rcv (fun r => { r with purge := l }) regs) (t := (purging l regs d)) (by unfold purging; with_reducible rfl)).trans (by simp)
@[simp] theorem canonical_cleaning (d : SMap DirEntry) : (cleaning d).canonical = true := (canonical_win (s := rcv (fun r => { r with cleanPos := 131071 }) [(R.DIR_WAYPWR, 2)]) (t := (cleaning d)) (by unfold cleaning; with_reducible rfl)).trans (by simp)
@[simp] theorem canonical_scrubbing : scrubbing.canonical = true := (canonical_win (s := withRegs [(R.DIR_SCRUB, 100)] running) (t := scrubbing) (by unfold scrubbing; with_reducible rfl)).trans (by simp)
@[simp] theorem canonical_clearing (req : Nat) : (clearing req).canonical = true := by simp [clearing]
@[simp] theorem canonical_mpsWith (p0 p1 : MpSt) (s : State) : (mpsWith p0 p1 s).canonical = s.canonical := canonical_win rfl
@[simp] theorem canonical_inkSt (x : InkSlot) (s : State) : (inkSt x s).canonical = s.canonical := canonical_win rfl
@[simp] theorem canonical_issueSt : issueSt.canonical = true := by simp [issueSt]
@[simp] theorem canonical_writeSt : writeSt.canonical = true := by simp [writeSt]
@[simp] theorem canonical_wrOut (s : State) (x : InkSlot) (h : s.canonical = true) : (wrOut s x).canonical = true := by simp [wrOut, h]
@[simp] theorem canonical_creditSt : creditSt.canonical = true := by simp [creditSt]
@[simp] theorem canonical_creditAbsent : creditAbsent.canonical = true := by simp [creditAbsent]
@[simp] theorem canonical_copyOf (c : CopySt) (w : SMap (Nat × Nat × Tod)) : (copyOf c w).canonical = true := by simp [copyOf]
@[simp] theorem canonical_copying : copying.canonical = true := by simp [copying]
@[simp] theorem canonical_copyRead : copyRead.canonical = true := by simp [copyRead]
@[simp] theorem canonical_copyWritten : copyWritten.canonical = true := by simp [copyWritten]
@[simp] theorem canonical_copyEnds : copyEnds.canonical = true := by simp [copyEnds]
@[simp] theorem canonical_dataSt (t : Stall) : (dataSt t).canonical = true := by simp [dataSt]
@[simp] theorem canonical_failSt (s : State) (h : s.canonical = true) : (failSt s).canonical = true := by simp [failSt, h]
@[simp] theorem canonical_mirrored : mirrored.canonical = true := by simp [mirrored]
@[simp] theorem canonical_resetWr : resetWr.canonical = true := by simp [resetWr]
@[simp] theorem canonical_resyncing : resyncing.canonical = true := by simp [resyncing]
@[simp] theorem canonical_oneFailed : oneFailed.canonical = true := by simp [oneFailed]
@[simp] theorem canonical_absentPort : absentPort.canonical = true := by simp [absentPort]
@[simp] theorem canonical_resetPort : resetPort.canonical = true := by simp [resetPort]
@[simp] theorem canonical_mirroredReads : mirroredReads.canonical = true := by simp [mirroredReads]
@[simp] theorem canonical_failWr (s : State) (h : s.canonical = true) : (failWr s).canonical = true := by simp [failWr, h]
@[simp] theorem canonical_cpSt : cpSt.canonical = true := by simp [cpSt]
@[simp] theorem canonical_cpInk (q : Nat) : (cpInk q).canonical = true := (canonical_win (s := cpSt) (t := (cpInk q)) (by unfold cpInk; with_reducible rfl)).trans (by simp)
@[simp] theorem canonical_heldCp : heldCp.canonical = true := (canonical_win (s := cpSt) (t := heldCp) (by unfold heldCp; with_reducible rfl)).trans (by simp)
@[simp] theorem canonical_strokeAlc (p : Packet) : (strokeAlc p).canonical = true := (canonical_win (s := S [(5, strkAlc p)] (withRegs [(R.ALC_STATUS, 1), (R.ALC_CTL, 3)] running)) (t := (strokeAlc p)) (by unfold strokeAlc; with_reducible rfl)).trans (by simp)
@[simp] theorem canonical_strokeInk (p : Packet) : (strokeInk p).canonical = true := (canonical_win (s := S [(5, strkInk p)]) (t := (strokeInk p)) (by unfold strokeInk; with_reducible rfl)).trans (by simp)
@[simp] theorem canonical_ringAt (seq : Nat) : (ringAt seq).canonical = true := by simp [ringAt]
@[simp] theorem canonical_ligRun (p : Packet) (seq : Nat) : (ligRun p seq).canonical = true := (canonical_win (s := S [(5, ligD p false), (6, ligD p true)] (ringAt seq)) (t := (ligRun p seq)) (by unfold ligRun; with_reducible rfl)).trans (by simp)
@[simp] theorem canonical_moving : moving.canonical = true := (canonical_win (s := S []) (t := moving) (by unfold moving; with_reducible rfl)).trans (by simp)
@[simp] theorem canonical_draining : draining.canonical = true := (canonical_win (s := withRegs [(R.ALC_CTL, 4)] running) (t := draining) (by unfold draining; with_reducible rfl)).trans (by simp)
@[simp] theorem canonical_pst (i v : Nat) (l : List (Nat × Nat)) (s : State) (h : s.canonical = true) : (pst i v l s).canonical = true := by simp [pst, h]
@[simp] theorem canonical_unm : unm.canonical = true := (canonical_win (s := running) (t := unm) (by unfold unm; with_reducible rfl)).trans (by simp)
@[simp] theorem canonical_dropCp : dropCp.canonical = true := (canonical_win (s := withRegs [(R.CP_STATUS, 3), (R.ISL_RSTSTAT, 2^7)] running) (t := dropCp) (by unfold dropCp; with_reducible rfl)).trans (by simp)
@[simp] theorem canonical_bootAt (p : Nat) (f : BootSt → BootSt) (l : List (Nat × Nat)) : (bootAt p f l).canonical = true := (canonical_win (s := withRegs ((R.BOOT_STATUS, p) :: l) State.reset) (t := (bootAt p f l)) (by unfold bootAt; with_reducible rfl)).trans (by simp)
@[simp] theorem canonical_imgSt : imgSt.canonical = true := by simp [imgSt]
@[simp] theorem canonical_imgAlt : imgAlt.canonical = true := by simp [imgAlt]
@[simp] theorem canonical_digestSt : digestSt.canonical = true := by simp [digestSt]
@[simp] theorem canonical_ostWait : ostWait.canonical = true := by simp [ostWait]
@[simp] theorem canonical_must (f : BootSt → BootSt) (p : Nat) : (must f p).canonical = true := (canonical_win (s := withRegs [(R.BOOT_STATUS, p), (R.NP_CTL, 0x88)] running) (t := (must f p)) (by unfold must; with_reducible rfl)).trans (by simp)
@[simp] theorem canonical_musterNp : musterNp.canonical = true := by simp [musterNp]
@[simp] theorem canonical_musterEnd : musterEnd.canonical = true := by simp [musterEnd]
@[simp] theorem canonical_lateRun : lateRun.canonical = true := (canonical_win (s := running) (t := lateRun) (by unfold lateRun; with_reducible rfl)).trans (by simp)
@[simp] theorem canonical_damagedStall : damagedStall.canonical = true := (canonical_win (s := snoopSt Op.rdUnique [hw Op.snpUnique true] (ans Op.snpAckI)) (t := damagedStall) (by unfold damagedStall; with_reducible rfl)).trans (by simp)
@[simp] theorem canonical_damagedCam : damagedCam.canonical = true := (canonical_win (s := running) (t := damagedCam) (by unfold damagedCam; with_reducible rfl)).trans (by simp)
@[simp] theorem canonical_damagedStore : damagedStore.canonical = true := (canonical_win (s := held (wr 0x3FF R.GLB_SCRATCH 1)) (t := damagedStore) (by unfold damagedStore; with_reducible rfl)).trans (by simp)
@[simp] theorem canonical_damagedTicket : damagedTicket.canonical = true := (canonical_win (s := running) (t := damagedTicket) (by unfold damagedTicket; with_reducible rfl)).trans (by simp)

/-! ### Worked examples of the spec -/

/-- R90, the worked example: H = 0x1_2345_6789 lies in set 0x2CF1 of slice 1, with tag 0x91A2. -/
theorem test_directory_index :
    setOf 0x123456789 = 0x2CF1 ∧ tagOf 0x123456789 = 0x91A2 ∧ sliceOf 0x123456789 = 1 ∧ sliceOf 0x12345678A = 2 := by decide +kernel
/-- R386: the check value of CRC-32C over "123456789". -/
theorem test_crc32c : Digest.crc32c [0x31, 0x32, 0x33, 0x34, 0x35, 0x36, 0x37, 0x38, 0x39] = 0xE3069283 := by decide +kernel
/-- SHA-256 of the empty string (FIPS 180-4, which R390 names). -/
theorem test_sha256 : Digest.sha256 [] = 0xE3B0C44298FC1C149AFBF4C8996FB92427AE41E4649B934CA495991B7852B855 := by decide +kernel
/-- R175, the worked example: the words of +125.50 and -500.00 in cents by R175's own layout, and two invalid words. -/
theorem test_decimal_words :
    decWord 12550 = 0x12550C ∧ decVal 0x50000D = -50000 ∧ decValid 0x125A0C = false ∧ decValid 0x12550B = false := by decide +kernel
/-- R261, the worked example: region 3 of 64 MiB; the line's H is 0x1200_19E3. -/
theorem test_region_example :
    (withRegs [(R.SEC_REGIONA, 0), (R.SEC_REGIONA + 48, 2 ^ 46 + 2 ^ 44 + 0x4B2C00), (R.SEC_REGIONB + 48, 0x120000 * 2 ^ 27 + 0x400)]
      running).hIdx 0x4B2C19E3 = some 0x120019E3 := by decide +kernel
/-- R259, the worked example: the addresses of two route entries of NP2 in epoch 1. -/
theorem test_route_addresses : routeAddr 2 1 0x40 = 0x2A200 ∧ routeAddr 2 1 0x1F3 + 0x1000 = 0x2BF98 := by decide +kernel
/-- R424, the worked example: FREE and AVAIL of the notice queue. -/
theorem test_notice_queue_room :
    (withRegs [(R.NQ_PTR, 0x20 * 2 ^ 32 + 0x200 * 2 ^ 16 + 0x41E)] running).nqFree = 2 ∧
    (withRegs [(R.NQ_PTR, 0x20 * 2 ^ 32 + 0x200 * 2 ^ 16 + 0x41E)] running).nqAvail = 542 := by decide +kernel

/-- The values that the service port has answered once a command has been carried out at the front of the queue. -/
def answers (c : Instr) (s : State) : List Word :=
  match step { s with pending := [c] } with
  | .next t => t.svc.rsp.map (fun r => r.data.val)
  | _ => []
/-- R422, the worked example: reads of lock 9, free and then held by 0x0A4. -/
theorem test_rail_acquire : answers (.railAcquire 0xA4) (heldWith [(R.RAIL_WORLD, 0)] (rd 0xA4 (railReg 9))) = [0x2CA4] := by decide +kernel
theorem test_rail_contend :
    answers (.railAcquire 0x21) (heldWith [(R.RAIL_WORLD, 0), (railReg 9, 0x20A4)] (rd 0x21 (railReg 9))) = [0x20A4] := by decide +kernel

/-- R243, the worked example: the header of a `DataS` that Home 0x0_2BE3 sends to the spare 0x0_81F3. -/
def exampleHeader : Packet where
  dst := 0x81F3
  src := 0x2BE3
  domain := 0x2C7
  opcode := Op.dataS
  world := false
  cls := 5
  nflit := 8
  line := 0x4B2C1D35
  tag := 0x0B7
  route := 0xB426113
  hopcnt := 0
  nhop := 7
  epoch := true
  detail := 0
  seq := 0
  stream := 0x35
  syn := 0
  data := []
/-- R230 and R243: its four words, bit by bit. -/
theorem test_header_words :
    exampleHeader.header.map (fun w => w.val) = [0x22A02C70AF8C81F3, 0x0B7000004B2C1D35, 0x017000000B426113, 0x3500000000000000] := by
  decide +kernel
/-- R284: the words of a WRFULL with SEQ 0x01F7 of stream 5 (R291's worked example). -/
theorem test_command_flit :
    CpCmd.ofFlit [DWord.gen 0x807DC5, DWord.gen 0x4B2C1A03, DWord.zero, DWord.zero] [] = ⟨5, 0x1F7, 2, 0x4B2C1A03, 0, []⟩ := by decide +kernel
/-- R288: the response DONE with the line to READ 0x01F6 of stream 5, with DACK 0x01F7. -/
theorem test_response_flit :
    (CpRsp.flit ⟨5, 0x1F6, 0, false, 0x1F7, lineOf 1⟩).map (fun w => w.val) = [0x4007D85, 0x1F7, 0, 0] := by decide +kernel
/-- R183, the worked example: a lock word taken by compare-and-swap, and one held by another. -/
theorem test_lock_word : (opFlit (flit 0x4B2C1B20 5 2 1 0x2A41 0) 0).apply (DWord.gen 0) = (0, DWord.gen 0x2A41) ∧
    (opFlit (flit 0x4B2C1B20 5 2 1 0x2A41 0) 0).apply (DWord.gen 0x310) = (1, DWord.gen 0x310) := by decide +kernel

/-! ### Well-formed commands: one ill-formed command for each check -/

theorem test_wf_packet : (Instr.niIngress 0 (pkt Op.rdOnce 1 7 3)).wf = true := by decide +kernel
theorem test_wf_packet_short : (Instr.niIngress 0 { pkt Op.wrFull 1 7 3 with nflit := 8 }).wf = false := by decide +kernel
theorem test_wf_cp_read : (Instr.cpRead (cmd 1)).wf = true ∧ (Instr.cpRead (cmd 1 5 (lineOf 1))).wf = false := by decide +kernel
theorem test_wf_cp_wrfull : (Instr.cpWrfull (cmd 2)).wf = false := by decide +kernel
theorem test_wf_cp_wrpart : (Instr.cpWrpart (cmd 3)).wf = false := by decide +kernel
theorem test_wf_cp_sync : (Instr.cpSync (cmd 1)).wf = false ∧ (Instr.cpSync (cmd 15)).wf = true := by decide +kernel
theorem test_wf_mp_data : (Instr.mpReadData 0 0 [] false).wf = false := by decide +kernel
theorem test_wf_credit_pool : (Instr.linkCreditReturn 4 1).wf = false ∧ (Instr.creditRampStep 4 1).wf = false := by decide +kernel

/-! ### Single steps -/

/-- An empty queue idles (log 1). -/
theorem test_idle : step State.reset = .next State.reset := rfl
/-- The entries of the directory after a command. -/
def dirAfter (c : Instr) (s : State) : List DirEntry :=
  match step { s with pending := [c] } with
  | .next t => t.dirs.map (fun e => e.2)
  | _ => []
/-- R78: `ClaimZero` of a line in state I records the requester as its holder in X. -/
theorem test_claim_zero :
    (dirAfter (.claimZero 0) (queued (rq Op.claimZero))).map (fun e => (e.st, e.sh)) = [(.x, .ptr (some 1) none)] := by decide +kernel
/-- R78: `EvictNote` of one of two sharers leaves the other. -/
theorem test_evict_note :
    (dirAfter (.evictNote 0) (noteSt [shared2 1 2])).map (fun e => (e.st, e.sh)) = [(.s, .ptr (some 2) none)] := by decide +kernel
/-- R336: TK_CHKSTOP_IN declares checkstop with cause Integrity. -/
theorem test_chkstop_in :
    (match step { running with pending := [.chkstopIn] } with | .next t => (t.chk, t.chkCause) | _ => (false, 0)) = (true, 8) := by
  decide +kernel

/-! ### Witnesses: for every clause of a statement with hypotheses, what meets them -/

/-- StepRunsFrontCommand, its two clauses. -/
theorem witness_StepRunsFrontCommand :
    ({ running with pending := [Instr.portOpen] } : State).pending = .portOpen :: [] ∧ running.pending = [] := by decide +kernel
theorem witness_CommandsKeep : Instr.chkstopIn ≠ .powerOnReset ∧
    (match exec .chkstopIn running with | .next _ => true | _ => false) = true := by decide +kernel
theorem witness_StepKeepsCanonical : running.canonical = true ∧
    (match step { running with pending := [.chkstopIn] } with | .next _ => true | _ => false) = true :=
  ⟨by simp, by decide +kernel⟩
theorem witness_WhatFollowsCommands : running.settled running = true := by decide +kernel
/-- Each access code, at the field of a register that has it; the locked RWL field as well. -/
theorem witness_WriteActsByAccessCode :
    running.canonical = true ∧ (∃ r ∈ regRows, regRow r.addr = some r ∧ fieldsApart r.fields = true ∧
      ∃ f ∈ r.fields, f.acc = .rw) := ⟨by simp, by decide +kernel⟩
theorem witness_WriteActsByAccessCode_codes :
    [Acc.rwl, .w1c, .w1s, .ro, .rc, .wo].all (fun c => regRows.any (fun r => r.fields.any (fun f => decide (f.acc = c)) &&
      decide (regRow r.addr = some r) && fieldsApart r.fields)) = true := by decide +kernel
theorem witness_IndexAndRoute : 12 ≤ 12 ∧ 11 < 12 ∧ 31 < 32 ∧ posOf 7 = posOf 7 ∧ tagOf 7 = tagOf 7 := by decide +kernel

-- StepRunsFrontCommand: no hypotheses logged
-- EveryCommandAnswersNext: no hypotheses logged
-- CommandsKeep: no hypotheses logged
-- StepKeepsCanonical: no hypotheses logged
-- ResetState: no hypotheses logged
-- WhatFollowsCommands: no hypotheses logged
-- WriteActsByAccessCode: no hypotheses logged
theorem witness_RegistersWrittenAndCleared_1 :
    spMeets (held (wr 1 (R.GLB_SCRATCH + 56) 5)) 1 SpRow.write fun t x => x.addr = R.GLB_SCRATCH + 8 * 7 :=
  meets_of (by simp) (by decide +kernel)
theorem witness_RegistersWrittenAndCleared_2 :
    spMeets (heldWith [(R.DIR_ECC_STATUS, 65539)] (rd 1 R.DIR_ECC_STATUS)) 1 SpRow.readClear fun t x => x.world = true ∧
    mbxChan x.addr = none :=
  meets_of (by simp) (by decide +kernel)
theorem witness_AccessesAcceptedAndRefused_1 :
    List.countP (fun y => y.master != 1023) running.svc.stage < 8 :=
  by decide +kernel
theorem witness_AccessesAcceptedAndRefused_2 :
    8 ≤ List.countP (fun y => y.master != 1023) (accepting (List.map (fun k => wr (BitVec.ofNat 10 (k + 1)) R.GLB_SCRATCH 1) (List.range 8))).svc.stage :=
  by decide +kernel
theorem witness_AccessesAcceptedAndRefused_3 :
    running.svc.stage = [] ∧ running.boot.queued = [] ∧ running.spRow (wr 1 R.GLB_SCRATCH 5) ≠ SpRow.read :=
  by decide +kernel
theorem witness_AccessesAcceptedAndRefused_4 :
    running.svc.stage = [] ∧ running.boot.queued = [] ∧ running.spRow (rd 1 R.GLB_SCRATCH) = SpRow.read ∧
    running.spStatus (rd 1 R.GLB_SCRATCH) = 0 :=
  by decide +kernel
theorem witness_AccessesAcceptedAndRefused_5 :
    1 ≠ 1023 ∧ badWrite.spNext 1 = some (heldX badWrite, heldT badWrite) ∧ badWrite.spRow (heldX badWrite) = SpRow.write ∧
    (heldT badWrite).spStatus (heldX badWrite) ≠ 0 :=
  by decide +kernel
theorem witness_AccessesAcceptedAndRefused_6 :
    (wr 1 R.GLB_SCRATCH 5).master ≠ 1023 :=
  by decide +kernel
theorem witness_Captures_1 :
    spMeets stallInspected 1 SpRow.insp fun t x => x.addr = R.YARD_INSP_SEL ∧ t.stalls.find (getBits x.data 0 11) = some stallA ∧
    t.faults = [] :=
  meets_of (by simp) (by decide +kernel)
theorem witness_Captures_2 :
    spMeets alcInspected 1 SpRow.alcInsp fun t x => x.addr = R.ALC_INSP_SEL ∧ t.alcUndef.getLsbD (getBits x.data 0 6 / 8) = false ∧
    t.bank (getBits x.data 0 6 / 8) ≠ 2 ∧ t.faults = [] ∧ t.alc.find (getBits x.data 0 6) = some alcA :=
  meets_of (by simp) (by decide +kernel)
theorem witness_JournalRings_1 :
    spMeets (heldWith [(R.LED_JSEQ + 224, 9)] (wr 1 (R.LED_JHEAD + 224) 9)) 1 SpRow.jhead fun t x => x.addr = R.LED_JHEAD + 32 * 7 :=
  meets_of (by simp) (by decide +kernel)
theorem witness_JournalRings_2 :
    spMeets (heldWith [(R.LED_JSEQ + 224, 9)] (wr 1 (R.LED_JHEAD + 224) 10)) 1 SpRow.jhead fun t x => x.addr = R.LED_JHEAD + 32 * 7 :=
  meets_of (by simp) (by decide +kernel)
theorem witness_JournalRings_3 :
    spMeets (heldWith [(R.LED_JBASE + 232, 1024)] (wr 1 (R.LED_JBASE + 224) (2 ^ 63))) 1 SpRow.ringEnable fun t x => x.addr = R.LED_JBASE + 32 * 7 ∧
    bit (BitVec.toNat x.data) 63 = true ∧ t.ringEn 7 = false ∧ t.flag R.LED_CTL 63 = false :=
  meets_of (by simp) (by decide +kernel)
theorem witness_JournalRings_4 :
    spMeets (heldWith [] (wr 1 (R.LED_JBASE + 224) (2 ^ 63 + 1))) 1 SpRow.ringEnable fun t x => x.addr = R.LED_JBASE + 32 * 7 ∧
    bit (BitVec.toNat x.data) 63 = true ∧ t.ringEn 7 = false ∧ t.flag R.LED_CTL 63 = false :=
  meets_of (by simp) (by decide +kernel)
theorem witness_AlcControl_1 :
    spMeets (held (wr 1 R.ALC_CTL 8)) 1 SpRow.alcInv fun t x => bit (BitVec.toNat x.data) 3 = true ∧
    bit (BitVec.toNat x.data) 0 = false ∧ t.alcState = 0 :=
  meets_of (by simp) (by decide +kernel)
theorem witness_AlcControl_2 :
    spMeets (held (wr 1 R.ALC_CTL 9)) 1 SpRow.alcInv fun t x => bit (BitVec.toNat x.data) 3 = true ∧
    bit (BitVec.toNat x.data) 0 = true ∧ t.alcState = 0 :=
  meets_of (by simp) (by decide +kernel)
theorem witness_AlcControl_3 :
    spMeets (heldWith [(R.ALC_CTL, 4)] (wr 1 R.ALC_CTL 8)) 1 SpRow.alcInv fun t x => bit (BitVec.toNat x.data) 3 = true ∧
    bit (BitVec.toNat x.data) 0 = false ∧ t.alcState ≠ 0 ∧ t.alcState ≠ 1 :=
  meets_of (by simp) (by decide +kernel)
theorem witness_AlcControl_4 :
    spMeets (heldWith [(R.ALC_STATUS, 1), (R.ALC_CTL, 3)] (wr 1 R.ALC_CTL 8)) 1 SpRow.alcInv fun t x => bit (BitVec.toNat x.data) 3 = true ∧
    bit (BitVec.toNat x.data) 0 = false ∧ t.alcState = 1 :=
  meets_of (by simp) (by decide +kernel)
theorem witness_AlcControl_5 :
    spMeets (heldWith [(R.ALC_STATUS, 1)] (wr 1 R.ALC_CTL 1)) 1 SpRow.alcEnable fun t x => bit (BitVec.toNat x.data) 3 = false ∧
    bit (BitVec.toNat x.data) 0 = true ∧ t.alcState = 0 ∧ t.flag R.ALC_STATUS 0 = true ∧ t.bank 0 ≠ 2 ∧ t.warn = false :=
  meets_of (by simp) (by decide +kernel)
theorem witness_AlcControl_6 :
    spMeets (held (wr 1 R.ALC_CTL 1)) 1 SpRow.alcEnable fun t x => bit (BitVec.toNat x.data) 3 = false ∧
    bit (BitVec.toNat x.data) 0 = true ∧ t.alcState = 0 ∧ t.flag R.ALC_STATUS 0 = false :=
  meets_of (by simp) (by decide +kernel)
theorem witness_AlcControl_7 :
    spMeets (heldWith [(R.ALC_STATUS, 1), (R.ALC_BANKPWR, 766)] (wr 1 R.ALC_CTL 1)) 1 SpRow.alcEnable fun t x => bit (BitVec.toNat x.data) 3 = false ∧
    bit (BitVec.toNat x.data) 0 = true ∧ t.alcState = 0 ∧ t.flag R.ALC_STATUS 0 = true ∧ t.bank 0 = 2 :=
  meets_of (by simp) (by decide +kernel)
theorem witness_AlcControl_8 :
    spMeets (heldWith [(R.ALC_STATUS, 1), (R.ALC_CTL, 4)] (wr 1 R.ALC_CTL 1)) 1 SpRow.alcEnable fun t x => bit (BitVec.toNat x.data) 3 = false ∧
    bit (BitVec.toNat x.data) 0 = true ∧ (t.alcState = 2 ∨ t.alcState = 3) :=
  meets_of (by simp) (by decide +kernel)
theorem witness_AlcControl_9 :
    spMeets (heldWith [(R.ALC_STATUS, 1), (R.ALC_CTL, 3)] (wr 1 R.ALC_CTL 1)) 1 SpRow.alcEnable fun t x => bit (BitVec.toNat x.data) 3 = false ∧
    bit (BitVec.toNat x.data) 0 = true ∧ t.alcState = 1 :=
  meets_of (by simp) (by decide +kernel)
theorem witness_AlcControl_10 :
    spMeets (heldWith [(R.ALC_STATUS, 1), (R.ALC_CTL, 3)] (wr 1 R.ALC_CTL 0)) 1 SpRow.alcDisable fun t x => bit (BitVec.toNat x.data) 3 = false ∧
    bit (BitVec.toNat x.data) 0 = false ∧ t.alcState = 1 :=
  meets_of (by simp) (by decide +kernel)
theorem witness_AlcControl_11 :
    spMeets (heldWith [(R.ALC_STATUS, 1), (R.ALC_CTL, 4)] (wr 1 R.ALC_CTL 0)) 1 SpRow.alcDisable fun t x => bit (BitVec.toNat x.data) 3 = false ∧
    bit (BitVec.toNat x.data) 0 = false ∧ t.alcState ≠ 1 :=
  meets_of (by simp) (by decide +kernel)
theorem witness_AlcControl_12 :
    spMeets (heldWith [(R.ALC_STATUS, 1), (R.ALC_CTL, 3)] (wr 1 R.ALC_PRELOAD (2 ^ 63 + 7))) 1 SpRow.preload fun t x => x.addr = R.ALC_PRELOAD ∧
    t.preBusy = false ∧ t.alcState = 1 ∧ t.hIdx (BitVec.ofNat 52 (getBits x.data 0 52)) = some 7 ∧
    t.denies x.world (BitVec.ofNat 52 (getBits x.data 0 52)) = false ∧ getBits x.data 52 2 = 0 ∧ (0 = 2 → t.lockLimit 7 = false) :=
  meets_of (by simp) (by decide +kernel)
theorem witness_AlcControl_13 :
    spMeets (heldWith [(R.ALC_STATUS, 1), (R.ALC_CTL, 3)] (wr 1 R.ALC_PRELOAD (2 ^ 63 + 2 ^ 52 + 7))) 1 SpRow.preloadZero fun t x => x.addr = R.ALC_PRELOAD ∧
    t.preBusy = false ∧ t.alcState = 1 ∧ t.hIdx (BitVec.ofNat 52 (getBits x.data 0 52)) = some 7 ∧
    t.denies x.world (BitVec.ofNat 52 (getBits x.data 0 52)) = false ∧ getBits x.data 52 2 = 1 ∧ (1 = 2 → t.lockLimit 7 = false) :=
  meets_of (by simp) (by decide +kernel)
theorem witness_AlcControl_14 :
    spMeets (heldWith [(R.ALC_STATUS, 1), (R.ALC_CTL, 3)] (wr 1 R.ALC_PRELOAD (2 ^ 63 + 2 ^ 53 + 7))) 1 SpRow.preloadAndLock fun t x => x.addr = R.ALC_PRELOAD ∧
    t.preBusy = false ∧ t.alcState = 1 ∧ t.hIdx (BitVec.ofNat 52 (getBits x.data 0 52)) = some 7 ∧
    t.denies x.world (BitVec.ofNat 52 (getBits x.data 0 52)) = false ∧ getBits x.data 52 2 = 2 ∧ (2 = 2 → t.lockLimit 7 = false) :=
  meets_of (by simp) (by decide +kernel)
theorem witness_AlcControl_15 :
    spMeets (heldWith [(R.ALC_STATUS, 1), (R.ALC_CTL, 3)] (wr 1 R.ALC_PRELOAD (2 ^ 63 + 3 * 2 ^ 52 + 7))) 1 SpRow.flush fun t x => x.addr = R.ALC_PRELOAD ∧
    t.preBusy = false ∧ t.alcState = 1 ∧ t.hIdx (BitVec.ofNat 52 (getBits x.data 0 52)) = some 7 ∧
    t.denies x.world (BitVec.ofNat 52 (getBits x.data 0 52)) = false ∧ getBits x.data 52 2 = 3 ∧ (3 = 2 → t.lockLimit 7 = false) :=
  meets_of (by simp) (by decide +kernel)
theorem witness_WayAndBankPower_1 :
    spMeets (held (wr 1 R.DIR_WAYPWR 0)) 1 SpRow.waypwr fun t x => x.addr = R.DIR_WAYPWR ∧ t.flag R.DIR_STATUS 0 = true ∧
    t.flag R.DIR_WAYPWR 0 = true ∧ bit (BitVec.toNat x.data) 0 = false ∧ t.wayState = 0 :=
  meets_of (by simp) (by decide +kernel)
theorem witness_WayAndBankPower_2 :
    spMeets (heldWith [(R.DIR_WAYPWR, 4)] (wr 1 R.DIR_WAYPWR 1)) 1 SpRow.waypwr fun t x => x.addr = R.DIR_WAYPWR ∧
    t.flag R.DIR_STATUS 0 = true ∧ t.flag R.DIR_WAYPWR 0 = false ∧ bit (BitVec.toNat x.data) 0 = true ∧ t.wayState = 2 :=
  meets_of (by simp) (by decide +kernel)
theorem witness_WayAndBankPower_3 :
    spMeets (held (wr 1 R.ALC_BANKPWR 127)) 1 SpRow.bankpwr fun t x => x.addr = R.ALC_BANKPWR ∧ getBits x.data 24 8 = 0 ∧
    (∀ c : Nat, c < 8 → c ≠ 7 → bit (BitVec.toNat x.data) c = t.flag R.ALC_BANKPWR c) ∧ t.flag R.ALC_BANKPWR 7 = true ∧
    bit (BitVec.toNat x.data) 7 = false ∧ t.bank 7 = 0 ∧ (7 ≠ 0 ∨ t.alcState = 0) :=
  meets_of (by simp) (by decide +kernel)
theorem witness_WayAndBankPower_4 :
    spMeets (heldWith [(R.ALC_BANKPWR, 8388735)] (wr 1 R.ALC_BANKPWR 255)) 1 SpRow.bankpwr fun t x => x.addr = R.ALC_BANKPWR ∧
    getBits x.data 24 8 = 0 ∧ (∀ c : Nat, c < 8 → c ≠ 7 → bit (BitVec.toNat x.data) c = t.flag R.ALC_BANKPWR c) ∧
    t.flag R.ALC_BANKPWR 7 = false ∧ bit (BitVec.toNat x.data) 7 = true ∧ t.bank 7 = 2 :=
  meets_of (by simp) (by decide +kernel)
theorem witness_WayAndBankPower_5 :
    spMeets (heldWith [(R.ALC_CTL, 3)] (wr 1 R.ALC_BANKPWR 254)) 1 SpRow.bankpwr fun t x => x.addr = R.ALC_BANKPWR ∧
    getBits x.data 24 8 = 0 ∧ (∀ c : Nat, c < 8 → c ≠ 0 → bit (BitVec.toNat x.data) c = t.flag R.ALC_BANKPWR c) ∧ 0 = 0 ∧
    t.flag R.ALC_BANKPWR 0 = true ∧ bit (BitVec.toNat x.data) 0 = false ∧ t.alcState ≠ 0 :=
  meets_of (by simp) (by decide +kernel)
theorem witness_EpochSwaps_1 :
    spMeets (heldWith [(R.RTE_EPOCHCTL, 4)] (wr 1 R.RTE_EPOCHCTL 2)) 1 SpRow.epochSwapGo fun t x => t.swapState ≠ 0 :=
  meets_of (by simp) (by decide +kernel)
theorem witness_EpochSwaps_2 :
    spMeets (heldWith [] (wr 1 R.RTE_EPOCHCTL 2)) 1 SpRow.epochSwapGo fun t x => t.swapState = 0 ∧ t.chk = false ∧
    ∀ k : Nat, k < 64 → t.flag (swapReg k) 18 = false :=
  meets_of (by simp) (by decide +kernel)
theorem witness_EpochSwaps_3 :
    spMeets (heldWith [(swapReg 63, 2 ^ 18 + 3)] (wr 1 R.RTE_EPOCHCTL 2)) 1 SpRow.epochSwapGo fun t x => t.swapState = 0 ∧
    t.chk = false ∧ t.faults = [] ∧ t.flag (swapReg 63) 18 = true ∧ ∀ j : Nat, j < 64 → j ≠ 63 → t.flag (swapReg j) 18 = false :=
  meets_of (by simp) (by decide +kernel)
theorem witness_EpochSwaps_4 :
    swapWaits.mgt.swapOut = [(63, 4096)] ∧ swapWaits.mgt.swapNext = 64 ∧ swapWaits.swapState = 1 ∧ swapWaits.chk = false ∧
    swapWaits.canonical = true ∧ swapWaits.ackTmo ≤ elapsed 4096 swapWaits.tod :=
  by decide +kernel
theorem witness_EpochSwaps_5 :
    swapRetires.swapState = 2 ∧ swapRetires.chk = false ∧
    usec (max 1 (swapRetires.fld R.RTE_EPOCHTIME 8 8)) ≤ elapsed swapRetires.mgt.flipAt swapRetires.tod ∧
    swapRetires.canonical = true :=
  by decide +kernel
theorem witness_RouteEntryWrites_1 :
    spMeets (heldWith [] (wr 1 (routeAddr 3 1 1023) (2 ^ 63 + 2 ^ 52 + 3 * 2 ^ 48 + 801))) 1 SpRow.route fun t x => x.addr = routeAddr 3 1 1023 ∧
    (t.fromReady = false ∨ t.swapState = 0 ∧ 1 ≠ t.curEpoch) :=
  meets_of (by simp) (by decide +kernel)
theorem witness_RouteEntryWrites_2 :
    spMeets (heldWith [(R.BOOT_STATUS, 5)] (wr 1023 (routeAddr 3 1 1023) (2 ^ 63 + 2 ^ 52 + 3 * 2 ^ 48 + 801))) 1023 SpRow.route fun t x => x.addr = routeAddr 3 1 1023 ∧
    (t.fromReady = false ∨ t.swapState = 0 ∧ 1 ≠ t.curEpoch) :=
  meets_of (by simp) (by decide +kernel)
theorem witness_RouteEntryWrites_3 :
    spMeets (heldWith [] (wr 1 (routeAddr 0 0 0) (2 ^ 63 + 2 ^ 52 + 3 * 2 ^ 48 + 801))) 1 SpRow.route fun t x => x.addr = routeAddr 0 0 0 ∧
    t.fromReady = true ∧ (t.swapState ≠ 0 ∨ 0 = t.curEpoch) :=
  meets_of (by simp) (by decide +kernel)
theorem witness_RouteEntryWrites_4 :
    spMeets (heldWith [(R.RTE_EPOCHCTL, 4)] (wr 1 (routeAddr 0 1 0) (2 ^ 63 + 2 ^ 52 + 3 * 2 ^ 48 + 801))) 1 SpRow.route fun t x => x.addr = routeAddr 0 1 0 ∧
    t.fromReady = true ∧ (t.swapState ≠ 0 ∨ 1 = t.curEpoch) :=
  meets_of (by simp) (by decide +kernel)
theorem witness_AliasRequests_1 :
    spMeets (heldWith [] (wr 1 R.RTE_ALIASCMD (2 ^ 63 + 2 ^ 36 + 9 * 2 ^ 18 + 3))) 1 SpRow.aliasSet fun t x => t.faults = [] ∧
    (t.aliasResult (getBits x.data 0 18) (getBits x.data 18 18) true).1 = 0 ∧
    t.fenceIdx (BitVec.ofNat 18 (getBits x.data 0 18)) = none :=
  meets_of (by simp) (by decide +kernel)
theorem witness_AliasRequests_2 :
    spMeets (heldWith [(camReg 0, 2 ^ 36 + 77 * 2 ^ 18 + 5), (camReg 1, 2 ^ 36 + 78 * 2 ^ 18 + 3)] (wr 1 R.RTE_ALIASCMD (2 ^ 63 + 2 ^ 36 + 9 * 2 ^ 18 + 3))) 1 SpRow.aliasSet fun t x => t.faults = [] ∧
    (t.aliasResult (getBits x.data 0 18) (getBits x.data 18 18) true).1 = 0 ∧
    t.fenceIdx (BitVec.ofNat 18 (getBits x.data 0 18)) = none :=
  meets_of (by simp) (by decide +kernel)
theorem witness_AliasRequests_3 :
    spMeets (heldWith [(fenceReg 5, 3 * 2 ^ 18 + 3)] (wr 1 R.RTE_ALIASCMD (2 ^ 63 + 2 ^ 36 + 9 * 2 ^ 18 + 3))) 1 SpRow.aliasSet fun t x => t.faults = [] ∧
    (t.aliasResult (getBits x.data 0 18) (getBits x.data 18 18) true).1 = 0 ∧
    t.fenceIdx (BitVec.ofNat 18 (getBits x.data 0 18)) = some 5 ∧ t.fld (fenceReg 5) 18 2 = 3 :=
  meets_of (by simp) (by decide +kernel)
theorem witness_AliasRequests_4 :
    spMeets (heldWith [(camReg 1023, 2 ^ 36 + 9 * 2 ^ 18 + 4)] (wr 1 R.RTE_ALIASCMD (2 ^ 63 + 2 ^ 36 + 9 * 2 ^ 18 + 3))) 1 SpRow.aliasSet fun t x => t.faults = [] ∧
    (t.aliasResult (getBits x.data 0 18) (getBits x.data 18 18) true).1 ≠ 0 :=
  meets_of (by simp) (by decide +kernel)
theorem witness_AliasRequests_5 :
    spMeets (heldWith [(camReg 1023, 2 ^ 36 + 9 * 2 ^ 18 + 4)] (wr 1 R.RTE_ALIASCMD (2 ^ 63 + 4))) 1 SpRow.aliasRemove fun t x => t.faults = [] ∧
    (t.aliasResult (getBits x.data 0 18) (getBits x.data 18 18) false).1 = 0 :=
  meets_of (by simp) (by decide +kernel)
theorem witness_AliasRequests_6 :
    spMeets (heldWith [(camReg 1023, 2 ^ 36 + 9 * 2 ^ 18 + 4)] (wr 1 R.RTE_ALIASCMD (2 ^ 63 + 3))) 1 SpRow.aliasRemove fun t x => t.faults = [] ∧
    (t.aliasResult (getBits x.data 0 18) (getBits x.data 18 18) false).1 ≠ 0 :=
  meets_of (by simp) (by decide +kernel)
theorem witness_AliasRequests_7 :
    4 = 4 ∨ (∃ e ∈ (withRegs [(camReg 0, 2 ^ 36 + 9 * 2 ^ 18 + 4), (camReg 1, 2 ^ 36 + 77 * 2 ^ 18 + 5)] running).camList, e.2.1 = 4) ∨ ∃ e ∈ (withRegs [(camReg 0, 2 ^ 36 + 9 * 2 ^ 18 + 4), (camReg 1, 2 ^ 36 + 77 * 2 ^ 18 + 5)] running).camList, e.2.2 = 4 :=
  by decide +kernel
theorem witness_AliasRequests_8 :
    3 ≠ 9 ∧
    (∀ e ∈ (withRegs [(camReg 0, 2 ^ 36 + 9 * 2 ^ 18 + 4), (camReg 1, 2 ^ 36 + 77 * 2 ^ 18 + 5)] running).camList, e.2.1 ≠ 9 ∧
    e.2.2 ≠ 3) ∧
    (∃ e ∈ (withRegs [(camReg 0, 2 ^ 36 + 9 * 2 ^ 18 + 4), (camReg 1, 2 ^ 36 + 77 * 2 ^ 18 + 5)] running).camList, e.2.2 = 9 ∧
    e.2.1 ≠ 3) :=
  by decide +kernel
theorem witness_AliasRequests_9 :
    4 ≠ 10 ∧
    (∀ e ∈ (withRegs [(camReg 0, 2 ^ 36 + 9 * 2 ^ 18 + 4), (camReg 1, 2 ^ 36 + 77 * 2 ^ 18 + 5)] running).camList, e.2.1 ≠ 10 ∧
    e.2.2 ≠ 4) ∧
    (∀ e ∈ (withRegs [(camReg 0, 2 ^ 36 + 9 * 2 ^ 18 + 4), (camReg 1, 2 ^ 36 + 77 * 2 ^ 18 + 5)] running).camList, e.2.2 = 10 → e.2.1 = 4) ∧
    (0, 4, 9) ∈ (withRegs [(camReg 0, 2 ^ 36 + 9 * 2 ^ 18 + 4), (camReg 1, 2 ^ 36 + 77 * 2 ^ 18 + 5)] running).camList ∧
    (∀ e ∈ (withRegs [(camReg 0, 2 ^ 36 + 9 * 2 ^ 18 + 4), (camReg 1, 2 ^ 36 + 77 * 2 ^ 18 + 5)] running).camList, e.2.1 = 4 → e.1 = 0) :=
  by decide +kernel
theorem witness_AliasRequests_10 :
    3 ≠ 10 ∧
    (∀ e ∈ (withRegs [(camReg 0, 2 ^ 36 + 9 * 2 ^ 18 + 4), (camReg 1, 2 ^ 36 + 77 * 2 ^ 18 + 5)] running).camList, e.2.1 ≠ 10 ∧
    e.2.2 ≠ 3) ∧
    (∀ e ∈ (withRegs [(camReg 0, 2 ^ 36 + 9 * 2 ^ 18 + 4), (camReg 1, 2 ^ 36 + 77 * 2 ^ 18 + 5)] running).camList, e.2.2 = 10 → e.2.1 = 3) ∧
    (∀ e ∈ (withRegs [(camReg 0, 2 ^ 36 + 9 * 2 ^ 18 + 4), (camReg 1, 2 ^ 36 + 77 * 2 ^ 18 + 5)] running).camList, e.2.1 ≠ 3) ∧
    2 < 1024 ∧
    (∀ e ∈ (withRegs [(camReg 0, 2 ^ 36 + 9 * 2 ^ 18 + 4), (camReg 1, 2 ^ 36 + 77 * 2 ^ 18 + 5)] running).camList, e.1 ≠ 2) ∧
    (∀ j : Nat, j < 2 → ∃ e ∈ (withRegs [(camReg 0, 2 ^ 36 + 9 * 2 ^ 18 + 4), (camReg 1, 2 ^ 36 + 77 * 2 ^ 18 + 5)] running).camList, e.1 = j) :=
  by decide +kernel
theorem witness_AliasRequests_11 :
    (0, 4, 9) ∈ (withRegs [(camReg 0, 2 ^ 36 + 9 * 2 ^ 18 + 4), (camReg 1, 2 ^ 36 + 77 * 2 ^ 18 + 5)] running).camList ∧
    (∀ e ∈ (withRegs [(camReg 0, 2 ^ 36 + 9 * 2 ^ 18 + 4), (camReg 1, 2 ^ 36 + 77 * 2 ^ 18 + 5)] running).camList, e.2.1 = 4 → e.1 = 0) :=
  by decide +kernel
theorem witness_AliasRequests_12 :
    ∀ e ∈ (withRegs [(camReg 0, 2 ^ 36 + 9 * 2 ^ 18 + 4), (camReg 1, 2 ^ 36 + 77 * 2 ^ 18 + 5)] running).camList, e.2.1 ≠ 3 :=
  by decide +kernel
theorem witness_PortsStreamsRegions_1 :
    spMeets (heldWith [] (wr 1 (mpBase R.MP_CTL 1) 1)) 1 SpRow.mpCtlFail fun t x => x.addr = mpBase R.MP_CTL 1 ∧
    bit (BitVec.toNat x.data) 1 = false ∧ t.mpPresent 1 = true ∧ t.mpState 1 ≠ 2 ∧ t.strands 1 = false ∧ t.mpState (1 - 1) = 1 ∧
    (t.mp 1).reads = [] ∧ (t.mp 1).copy = none ∧ t.ink = [] :=
  meets_of (by simp) (by decide +kernel)
theorem witness_PortsStreamsRegions_2 :
    spMeets portFailed 1 SpRow.resync fun t x => x.addr = mpBase R.MP_CTL 1 ∧ bit (BitVec.toNat x.data) 0 = false ∧
    t.mpState 1 = 2 ∧ t.chk = false :=
  meets_of (by simp) (by decide +kernel)
theorem witness_PortsStreamsRegions_3 :
    spMeets (heldWith [] (wr 1 (cpReg 63) (2 ^ 63 + 2748 * 2 ^ 41))) 1 SpRow.streamRst fun t x => x.addr = cpReg 63 ∧
    t.streamInfl 63 = 0 :=
  meets_of (by simp) (by decide +kernel)
theorem witness_PortsStreamsRegions_4 :
    spMeets streamBusy 1 SpRow.streamRst fun t x => x.addr = cpReg 63 ∧ t.streamInfl 63 ≠ 0 :=
  meets_of (by simp) (by decide +kernel)
theorem witness_PortsStreamsRegions_5 :
    spMeets (heldWith [(R.SEC_REGIONB + 16 * 63, 5 * 2 ^ 27 + 3)] (wr 1 (R.SEC_REGIONA + 16 * 63) (2 ^ 46 + 2 ^ 20))) 1 SpRow.regionEnable fun t x => x.addr = R.SEC_REGIONA + 16 * 63 ∧
    t.regionFixed 63 = false ∧ t.regionCause 63 (getBits x.data 0 44) (bit (BitVec.toNat x.data) 44) = 0 :=
  meets_of (by simp) (by decide +kernel)
theorem witness_PortsStreamsRegions_6 :
    spMeets (heldWith [] (wr 1 (R.SEC_REGIONA + 16 * 63) (2 ^ 46 + 2 ^ 20))) 1 SpRow.regionEnable fun t x => x.addr = R.SEC_REGIONA + 16 * 63 ∧
    t.regionFixed 63 = false ∧ t.regionCause 63 (getBits x.data 0 44) (bit (BitVec.toNat x.data) 44) ≠ 0 :=
  meets_of (by simp) (by decide +kernel)
theorem witness_PortsStreamsRegions_7 :
    spMeets (heldWith [] (wr 1 R.SEC_REGIONA (2 ^ 46 + 2 ^ 20))) 1 SpRow.regionEnable fun t x => x.addr = R.SEC_REGIONA + 16 * 0 ∧
    t.regionFixed 0 = true :=
  meets_of (by simp) (by decide +kernel)
theorem witness_FenceCommands_1 :
    spMeets (heldWith [(fenceReg 0, 2 ^ 18 + 9)] (wr 1 R.GLB_FENCECMD (2 ^ 63 + 1))) 1 SpRow.fenceSuspect fun t x => 1 = BitVec.ofNat 18 (getBits x.data 0 18) ∧
    t.fenceIdx 1 = none ∧ t.fenceFree = some 1 ∧ t.rcv.req = none ∧ t.rcv.asks = [] ∧ t.faults = [] :=
  meets_of (by simp) (by decide +kernel)
theorem witness_FenceCommands_2 :
    spMeets (fc 0 (some 2)) 1 SpRow.fenceSuspect fun t x => 1 = BitVec.ofNat 18 (getBits x.data 0 18) ∧ t.fenceIdx 1 = some 1 :=
  meets_of (by simp) (by decide +kernel)
theorem witness_FenceCommands_3 :
    spMeets (heldWith (List.map (fun k => (fenceReg k, 2 ^ 18 + 100 + k)) (List.range 16)) (wr 1 R.GLB_FENCECMD (2 ^ 63 + 1))) 1 SpRow.fenceSuspect fun t x => 1 = BitVec.ofNat 18 (getBits x.data 0 18) ∧
    t.fenceIdx 1 = none ∧ t.fenceFree = none ∧ t.chk = false :=
  meets_of (by simp) (by decide +kernel)
theorem witness_FenceCommands_4 :
    spMeets (fc 1 (some 1)) 1 SpRow.fenceFlushed fun t x => 1 = BitVec.ofNat 18 (getBits x.data 0 18) ∧ t.fenceIdx 1 = some 1 ∧
    t.fld (fenceReg 1) 18 2 = 1 ∧ t.rcv.purge.length < 16 ∧ t.stalls = [] :=
  meets_of (by simp) (by decide +kernel)
theorem witness_FenceCommands_5 :
    spMeets (fc 1 none) 1 SpRow.fenceFlushed fun t x => 1 = BitVec.ofNat 18 (getBits x.data 0 18) ∧ t.fenceIdx 1 = none ∧
    t.fenceFree = some 0 ∧ t.rcv.purge.length < 16 :=
  meets_of (by simp) (by decide +kernel)
theorem witness_FenceCommands_6 :
    spMeets (fc 1 (some 3)) 1 SpRow.fenceFlushed fun t x => 1 = BitVec.ofNat 18 (getBits x.data 0 18) ∧ t.fenceIdx 1 = some 1 ∧
    t.fld (fenceReg 1) 18 2 ≠ 1 :=
  meets_of (by simp) (by decide +kernel)
theorem witness_FenceCommands_7 :
    spMeets (fc 2 (some 1)) 1 SpRow.fenceNoflush fun t x => 1 = BitVec.ofNat 18 (getBits x.data 0 18) ∧ t.fenceIdx 1 = some 1 ∧
    t.fld (fenceReg 1) 18 2 = 1 ∧ t.rcv.purge.length < 16 ∧ t.stalls = [] :=
  meets_of (by simp) (by decide +kernel)
theorem witness_FenceCommands_8 :
    spMeets (fc 2 none) 1 SpRow.fenceNoflush fun t x => 1 = BitVec.ofNat 18 (getBits x.data 0 18) ∧ t.fenceIdx 1 = none ∧
    t.fenceFree = some 0 ∧ t.rcv.purge.length < 16 :=
  meets_of (by simp) (by decide +kernel)
theorem witness_FenceCommands_9 :
    spMeets (fc 2 (some 3)) 1 SpRow.fenceNoflush fun t x => 1 = BitVec.ofNat 18 (getBits x.data 0 18) ∧ t.fenceIdx 1 = some 1 ∧
    t.fld (fenceReg 1) 18 2 ≠ 1 :=
  meets_of (by simp) (by decide +kernel)
theorem witness_FenceCommands_10 :
    spMeets (fc 3 (some 3)) 1 SpRow.fenceRelease fun t x => 1 = BitVec.ofNat 18 (getBits x.data 0 18) ∧ t.fenceIdx 1 = some 1 ∧
    t.fld (fenceReg 1) 18 2 = 3 :=
  meets_of (by simp) (by decide +kernel)
theorem witness_FenceCommands_11 :
    spMeets (fc 3 (some 2)) 1 SpRow.fenceRelease fun t x => 1 = BitVec.ofNat 18 (getBits x.data 0 18) ∧ t.fenceIdx 1 = some 1 ∧
    t.fld (fenceReg 1) 18 2 ≠ 3 :=
  meets_of (by simp) (by decide +kernel)
theorem witness_FenceCommands_12 :
    spMeets (fc 3 none) 1 SpRow.fenceRelease fun t x => 1 = BitVec.ofNat 18 (getBits x.data 0 18) ∧ t.fenceIdx 1 = none :=
  meets_of (by simp) (by decide +kernel)
theorem witness_CheckstopDeclared_1 :
    spMeets (stopped 9) 1 SpRow.chkcmd fun t x => t.chk = false :=
  meets_of (by simp) (by decide +kernel)
theorem witness_CheckstopDeclared_2 :
    spMeets (stopped 10) 1 SpRow.chkcmd fun t x => t.chk = false :=
  meets_of (by simp) (by decide +kernel)
theorem witness_CheckstopDeclared_3 :
    spMeets (heldWith [(R.GLB_CHKSTOP, 255 * 2 ^ 29 + 772)] (wr 1 R.GLB_CHKCMD (2 ^ 63 + 10))) 1 SpRow.chkcmd fun t x => t.chk = true :=
  meets_of (by simp) (by decide +kernel)
theorem witness_CheckstopDeclared_4 :
    running.chk = false ∧ running.canonical = true :=
  by decide +kernel
theorem witness_CheckstopDeclared_5 :
    (withRegs [(R.GLB_CHKSTOP, 254 * 2 ^ 29 + 772)] running).chk = true ∧
    (withRegs [(R.GLB_CHKSTOP, 254 * 2 ^ 29 + 772)] running).canonical = true :=
  by decide +kernel
theorem witness_Sparing_1 :
    spMeets (heldWith [(R.GLB_BCAST, 1)] (wr 1 R.GLB_SPARECMD (2 ^ 63 + 2 ^ 36 + 9 * 2 ^ 18 + 3))) 1 SpRow.spareSet fun t x => t.flag R.GLB_BCAST 0 = true :=
  meets_of (by simp) (by decide +kernel)
theorem witness_Sparing_2 :
    spMeets (heldWith [] (wr 1 R.GLB_SPARECMD (2 ^ 63 + 2 ^ 36 + 9 * 2 ^ 18 + 3))) 1 SpRow.spareSet fun t x => t.flag R.GLB_BCAST 0 = false ∧
    t.chk = false ∧ t.faults = [] ∧ t.otherHomes = [] ∧ (t.aliasResult (getBits x.data 0 18) (getBits x.data 18 18) true).1 = 0 :=
  meets_of (by simp) (by decide +kernel)
theorem witness_Sparing_3 :
    spMeets (heldWith [(R.GLB_HOMESET, 64 * 2 ^ 9 + 6)] (wr 1 R.GLB_SPARECMD (2 ^ 63 + 2 ^ 36 + 9 * 2 ^ 18 + 3))) 1 SpRow.spareSet fun t x => t.flag R.GLB_BCAST 0 = false ∧
    t.chk = false ∧ t.faults = [] ∧ 1 ≤ t.otherHomes.length ∧ t.otherHomes.length ≤ 64 ∧
    (t.aliasResult (getBits x.data 0 18) (getBits x.data 18 18) true).1 = 0 :=
  meets_of (by simp) (by decide +kernel)
theorem witness_Sparing_4 :
    spMeets (heldWith [(R.GLB_HOMESET, 64 * 2 ^ 9 + 6)] (wr 1 R.GLB_SPARECMD (2 ^ 63 + 2 ^ 36 + 3 * 2 ^ 18 + 3))) 1 SpRow.spareSet fun t x => t.flag R.GLB_BCAST 0 = false ∧
    t.chk = false ∧ t.faults = [] ∧ (t.aliasResult (getBits x.data 0 18) (getBits x.data 18 18) true).1 ≠ 0 :=
  meets_of (by simp) (by decide +kernel)
theorem witness_Sparing_5 :
    spMeets (heldWith [(R.GLB_BCAST, 1)] (wr 1 R.GLB_SPARECMD (2 ^ 63 + 9 * 2 ^ 18 + 3))) 1 SpRow.spareRemove fun t x => t.flag R.GLB_BCAST 0 = true :=
  meets_of (by simp) (by decide +kernel)
theorem witness_Sparing_6 :
    spMeets (heldWith [(camReg 1023, 2 ^ 36 + 9 * 2 ^ 18 + 3)] (wr 1 R.GLB_SPARECMD (2 ^ 63 + 9 * 2 ^ 18 + 3))) 1 SpRow.spareRemove fun t x => t.flag R.GLB_BCAST 0 = false ∧
    t.chk = false ∧ t.faults = [] ∧ t.otherHomes = [] ∧ (t.aliasResult (getBits x.data 0 18) (getBits x.data 18 18) false).1 = 0 :=
  meets_of (by simp) (by decide +kernel)
theorem witness_Sparing_7 :
    spMeets (heldWith [(camReg 1023, 2 ^ 36 + 9 * 2 ^ 18 + 3), (R.GLB_HOMESET, 2 * 2 ^ 9 + 4)] (wr 1 R.GLB_SPARECMD (2 ^ 63 + 9 * 2 ^ 18 + 3))) 1 SpRow.spareRemove fun t x => t.flag R.GLB_BCAST 0 = false ∧
    t.chk = false ∧ t.faults = [] ∧ 1 ≤ t.otherHomes.length ∧ t.otherHomes.length ≤ 64 ∧
    (t.aliasResult (getBits x.data 0 18) (getBits x.data 18 18) false).1 = 0 :=
  meets_of (by simp) (by decide +kernel)
theorem witness_Sparing_8 :
    spMeets (heldWith [(R.GLB_HOMESET, 64 * 2 ^ 9 + 6)] (wr 1 R.GLB_SPARECMD (2 ^ 63 + 3 * 2 ^ 18 + 3))) 1 SpRow.spareRemove fun t x => t.flag R.GLB_BCAST 0 = false ∧
    t.chk = false ∧ t.faults = [] ∧ (t.aliasResult (getBits x.data 0 18) (getBits x.data 18 18) false).1 ≠ 0 :=
  meets_of (by simp) (by decide +kernel)
theorem witness_Sparing_9 :
    bcasting.mgt.bOut = [(9, 4096)] ∧ bcasting.mgt.bTargets = [] ∧ bcasting.mgt.bMsg.isSome = true ∧
    bcasting.ackTmo ≤ elapsed 4096 bcasting.tod ∧ bcasting.canonical = true :=
  by decide +kernel
theorem witness_HomeIdAndOstler_1 :
    spMeets (heldWith [(R.BOOT_STATUS, 5)] (wr 1023 R.GLB_HOMEID (2 ^ 30 - 1))) 1023 SpRow.homeid fun t x => t.fromReady = false ∧
    t.flag R.GLB_CTL 63 = false :=
  meets_of (by simp) (by decide +kernel)
theorem witness_HomeIdAndOstler_2 :
    spMeets (heldWith [] (wr 1 R.GLB_HOMEID (2 ^ 30 - 1))) 1 SpRow.homeid fun t x => t.fromReady = true :=
  meets_of (by simp) (by decide +kernel)
theorem witness_HomeIdAndOstler_3 :
    spMeets (ostler []) 1023 SpRow.ostready fun t x => x.master = 1023 ∧ t.boot.ostRun = true ∧ t.phase = 5 ∧
    t.flag R.DIR_STATUS 0 = true ∧ t.flag R.BOOT_MUSTER 16 = true ∧ bit (BitVec.toNat x.data) 1 = false ∧
    bit (BitVec.toNat x.data) 63 = false :=
  meets_of (by simp) (by decide +kernel)
theorem witness_HomeIdAndOstler_4 :
    spMeets (ostler [(R.DIR_STATUS, 0)]) 1023 SpRow.ostready fun t x => x.master = 1023 ∧ t.boot.ostRun = true ∧
    t.flag R.DIR_STATUS 0 = false ∧ bit (BitVec.toNat x.data) 1 = false ∧ bit (BitVec.toNat x.data) 63 = false :=
  meets_of (by simp) (by decide +kernel)
theorem witness_HomeIdAndOstler_5 :
    spMeets (heldWith [] (wr 1 R.BOOT_CTL 1)) 1 SpRow.ostready fun t x => x.master ≠ 1023 ∧ bit (BitVec.toNat x.data) 1 = false ∧
    bit (BitVec.toNat x.data) 63 = false :=
  meets_of (by simp) (by decide +kernel)
theorem witness_IslandRequests_1 :
    spMeets (fr 0) 1 SpRow.rstFunc fun t x => 0 = getBits x.data 1 4 ∧ t.powered 0 = true ∧ t.flag R.ISL_RSTSTAT (1 + 0) = false :=
  meets_of (by simp) (by decide +kernel)
theorem witness_IslandRequests_2 :
    spMeets (fr 3) 1 SpRow.rstFunc fun t x => 3 = getBits x.data 1 4 ∧ t.powered 3 = true ∧ t.flag R.ISL_RSTSTAT (1 + 3) = false :=
  meets_of (by simp) (by decide +kernel)
theorem witness_IslandRequests_3 :
    spMeets (fr 5) 1 SpRow.rstFunc fun t x => 5 = getBits x.data 1 4 ∧ t.powered 5 = true ∧ t.flag R.ISL_RSTSTAT (1 + 5) = false ∧
    (t.mpState (5 - 4) = 1 ∨ t.mpState (5 - 4) = 3) ∧ (t.mp (5 - 4)).reads = [] ∧ (t.mp (5 - 4)).writes = [] :=
  meets_of (by simp) (by decide +kernel)
theorem witness_IslandRequests_4 :
    spMeets (fr 6) 1 SpRow.rstFunc fun t x => 6 = getBits x.data 1 4 ∧ t.powered 6 = true ∧ t.flag R.ISL_RSTSTAT (1 + 6) = false :=
  meets_of (by simp) (by decide +kernel)
theorem witness_IslandRequests_5 :
    spMeets (fr 7) 1 SpRow.rstFunc fun t x => 7 = getBits x.data 1 4 ∧
    (6 < 7 ∨ t.powered 7 = false ∨ t.flag R.ISL_RSTSTAT (1 + 7) = true) :=
  meets_of (by simp) (by decide +kernel)
theorem witness_IslandRequests_6 :
    spMeets (fr 15) 1 SpRow.rstFunc fun t x => 15 = getBits x.data 1 4 ∧
    (6 < 15 ∨ t.powered 15 = false ∨ t.flag R.ISL_RSTSTAT (1 + 15) = true) :=
  meets_of (by simp) (by decide +kernel)
theorem witness_IslandRequests_7 :
    spMeets (fr 0 [(R.ISL_RSTSTAT, 2)]) 1 SpRow.rstFunc fun t x => 0 = getBits x.data 1 4 ∧
    (6 < 0 ∨ t.powered 0 = false ∨ t.flag R.ISL_RSTSTAT (1 + 0) = true) :=
  meets_of (by simp) (by decide +kernel)
theorem witness_IslandRequests_8 :
    spMeets (fr 5 [(R.ISL_PWRSTAT, 3 * 2 ^ 15)]) 1 SpRow.rstFunc fun t x => 5 = getBits x.data 1 4 ∧
    (6 < 5 ∨ t.powered 5 = false ∨ t.flag R.ISL_RSTSTAT (1 + 5) = true) :=
  meets_of (by simp) (by decide +kernel)
theorem witness_IslandRequests_9 :
    spMeets (pw 239) 1 SpRow.powerDown fun t x => (∀ i : Nat, i < 8 → i ≠ 4 → bit (BitVec.toNat x.data) i = true ∧ t.isl i ≤ 1) ∧
    bit (BitVec.toNat x.data) 4 = false ∧ t.isl 4 ≤ 1 ∧ t.downCause 4 = 3 :=
  meets_of (by simp) (by decide +kernel)
theorem witness_IslandRequests_10 :
    spMeets cpBusy 1 SpRow.powerDown fun t x => (∀ i : Nat, i < 8 → i ≠ 6 → bit (BitVec.toNat x.data) i = true ∧ t.isl i ≤ 1) ∧
    bit (BitVec.toNat x.data) 6 = false ∧ t.isl 6 ≤ 1 ∧ t.downCause 6 = 2 :=
  meets_of (by simp) (by decide +kernel)
theorem witness_IslandRequests_11 :
    spMeets (pw 127 [(R.BOOT_STATUS, 6)]) 1 SpRow.powerDown fun t x => (∀ i : Nat, i < 8 → i ≠ 7 → bit (BitVec.toNat x.data) i = true ∧
    t.isl i ≤ 1) ∧ bit (BitVec.toNat x.data) 7 = false ∧ t.isl 7 ≤ 1 ∧ t.downCause 7 = 4 :=
  meets_of (by simp) (by decide +kernel)
theorem witness_IslandRequests_12 :
    spMeets (pw 127) 1 SpRow.powerDown fun t x => (∀ i : Nat, i < 8 → i ≠ 7 → bit (BitVec.toNat x.data) i = true ∧ t.isl i ≤ 1) ∧
    bit (BitVec.toNat x.data) 7 = false ∧ t.isl 7 ≤ 1 ∧ t.downCause 7 = 0 :=
  meets_of (by simp) (by decide +kernel)
theorem witness_IslandRequests_13 :
    spMeets (pw 254) 1 SpRow.powerDown fun t x => (∀ i : Nat, i < 8 → i ≠ 0 → bit (BitVec.toNat x.data) i = true ∧ t.isl i ≤ 1) ∧
    bit (BitVec.toNat x.data) 0 = false ∧ t.isl 0 ≤ 1 ∧ t.downCause 0 = 0 :=
  meets_of (by simp) (by decide +kernel)
theorem witness_IslandRequests_14 :
    spMeets (pw 191) 1 SpRow.powerDown fun t x => (∀ i : Nat, i < 8 → i ≠ 6 → bit (BitVec.toNat x.data) i = true ∧ t.isl i ≤ 1) ∧
    bit (BitVec.toNat x.data) 6 = false ∧ t.isl 6 ≤ 1 ∧ t.downCause 6 = 0 :=
  meets_of (by simp) (by decide +kernel)
theorem witness_IslandRequests_15 :
    spMeets (pw 223 [(mpBase R.MP_STATUS 1, 2)]) 1 SpRow.powerDown fun t x => (∀ i : Nat, i < 8 → i ≠ 5 → bit (BitVec.toNat x.data) i = true ∧
    t.isl i ≤ 1) ∧ bit (BitVec.toNat x.data) 5 = false ∧ t.isl 5 ≤ 1 ∧ t.downCause 5 = 0 :=
  meets_of (by simp) (by decide +kernel)
theorem witness_IslandRequests_16 :
    spMeets (pw 255 [(R.ISL_PWRSTAT, 3 * 2 ^ 21)]) 1 SpRow.powerUp fun t x => (∀ i : Nat, i < 8 → i ≠ 7 → bit (BitVec.toNat x.data) i = true ∧
    t.isl i ≤ 1) ∧ bit (BitVec.toNat x.data) 7 = true ∧ t.isl 7 = 3 :=
  meets_of (by simp) (by decide +kernel)
theorem witness_IslandRequests_17 :
    spMeets (pw 255 [(R.ISL_PWRSTAT, 3)]) 1 SpRow.powerUp fun t x => (∀ i : Nat, i < 8 → i ≠ 0 → bit (BitVec.toNat x.data) i = true ∧
    t.isl i ≤ 1) ∧ bit (BitVec.toNat x.data) 0 = true ∧ t.isl 0 = 3 :=
  meets_of (by simp) (by decide +kernel)
theorem witness_IslandRequests_18 :
    spMeets (pw 255 [(R.ISL_PWRSTAT, 2), (R.NP_STATUS, 2)]) 1 SpRow.powerUp fun t x => (∀ i : Nat, i < 8 → i ≠ 0 → bit (BitVec.toNat x.data) i = true ∧
    t.isl i ≤ 1) ∧ bit (BitVec.toNat x.data) 0 = true ∧ t.isl 0 = 2 :=
  meets_of (by simp) (by decide +kernel)
theorem witness_IslandRequests_19 :
    spMeets (pw 255 [(R.ISL_PWRSTAT, 2 * 2 ^ 18), (R.CP_STATUS, 2)]) 1 SpRow.powerUp fun t x => (∀ i : Nat, i < 8 → i ≠ 6 → bit (BitVec.toNat x.data) i = true ∧
    t.isl i ≤ 1) ∧ bit (BitVec.toNat x.data) 6 = true ∧ t.isl 6 = 2 :=
  meets_of (by simp) (by decide +kernel)
theorem witness_IslandRequests_20 :
    spMeets (pw 255 [(R.ISL_PWRSTAT, 2 * 2 ^ 21)]) 1 SpRow.powerUp fun t x => (∀ i : Nat, i < 8 → i ≠ 7 → bit (BitVec.toNat x.data) i = true ∧
    t.isl i ≤ 1) ∧ bit (BitVec.toNat x.data) 7 = true ∧ t.isl 7 = 2 :=
  meets_of (by simp) (by decide +kernel)
theorem witness_DomainResets_1 :
    spMeets dr 1 SpRow.rstDomain fun t x => t.inDomainReset = false ∧ (t.chk = true ∨ t.inkClear = true) ∧ t.isl 7 ≤ 2 :=
  meets_of (by simp) (by decide +kernel)
theorem witness_DomainResets_2 :
    spMeets (drInk [(R.GLB_CHKSTOP, 772), (railReg 3, 2 ^ 13)]) 1 SpRow.rstDomain fun t x => t.inDomainReset = false ∧
    (t.chk = true ∨ t.inkClear = true) ∧ t.isl 7 ≤ 2 :=
  meets_of (by simp) (by decide +kernel)
theorem witness_DomainResets_3 :
    spMeets (drInk []) 1 SpRow.rstDomain fun t x => t.inDomainReset = false ∧ t.chk = false ∧ t.inkClear = false :=
  meets_of (by simp) (by decide +kernel)
theorem witness_DomainResets_4 :
    spMeets (heldWith [(R.BOOT_STATUS, 5)] (wr 1023 R.ISL_RSTCMD (2 ^ 63 + 1))) 1023 SpRow.rstDomain fun t x => t.inDomainReset = true :=
  meets_of (by simp) (by decide +kernel)
theorem witness_DomainResets_5 :
    running.canonical = true ∧ running.inDomainReset = false ∧ (running.chk = true ∨ running.inkClear = true) ∧ running.isl 7 ≤ 2 :=
  ⟨by simp, by decide +kernel⟩
theorem witness_DomainResets_6 :
    runInk.canonical = true ∧ runInk.inDomainReset = false ∧ runInk.chk = false ∧ runInk.inkClear = false :=
  ⟨by simp, by decide +kernel⟩
theorem witness_DomainResets_7 :
    State.reset.inDomainReset = true :=
  by decide +kernel
theorem witness_DomainResets_8 :
    spMeets (heldWith [(R.BOOT_STATUS, 89)] (wr 1023 R.BOOT_CTL 2)) 1023 SpRow.bootRetry fun t x => t.phase = 9 ∧ t.isl 7 ≤ 2 ∧
    bit (BitVec.toNat x.data) 0 = false :=
  meets_of (by simp) (by decide +kernel)
theorem witness_DomainResets_9 :
    spMeets (heldWith [] (wr 1 R.BOOT_CTL 2)) 1 SpRow.bootRetry fun t x => t.phase ≠ 9 ∧ bit (BitVec.toNat x.data) 0 = false ∧
    bit (BitVec.toNat x.data) 63 = false :=
  meets_of (by simp) (by decide +kernel)
theorem witness_Mailboxes_1 :
    spMeets (heldWith [] (wr 1 (mbxReg R.MBX_BIND 31) bind31)) 1 SpRow.mbxBind fun t x => x.addr = mbxReg R.MBX_BIND 31 ∧
    t.mbxV 31 = false ∧ getBits x.data 0 10 ≠ getBits x.data 10 10 :=
  meets_of (by simp) (by decide +kernel)
theorem witness_Mailboxes_2 :
    spMeets (heldWith [] (wr 1 (mbxReg R.MBX_BIND 31) (2 ^ 63 + 2 ^ 10 + 1))) 1 SpRow.mbxBind fun t x => x.addr = mbxReg R.MBX_BIND 31 ∧
    t.mbxV 31 = false ∧ getBits x.data 0 10 = getBits x.data 10 10 :=
  meets_of (by simp) (by decide +kernel)
theorem witness_Mailboxes_3 :
    spMeets (heldWith [(mbxReg R.MBX_BIND 31, bind31)] (wr 1 (mbxReg R.MBX_BIND 31) (2 ^ 63 + 5 * 2 ^ 10 + 1))) 1 SpRow.mbxBind fun t x => x.addr = mbxReg R.MBX_BIND 31 ∧
    t.mbxV 31 = true :=
  meets_of (by simp) (by decide +kernel)
theorem witness_Mailboxes_4 :
    spMeets (mbx bind31 0 (wr 1 (mbxReg R.MBX_DATA3 31) 13)) 1 SpRow.mbxPost fun t x => x.addr = mbxReg R.MBX_DATA3 31 ∧
    t.mbxV 31 = true ∧ t.mbxSender 31 = BitVec.toNat x.master ∧ t.mbxFull 31 = false :=
  meets_of (by simp) (by decide +kernel)
theorem witness_Mailboxes_5 :
    spMeets (mbx bind31 1 (wr 1 (mbxReg R.MBX_DATA3 31) 13) [1, 2, 3, 4]) 1 SpRow.mbxPost fun t x => x.addr = mbxReg R.MBX_DATA3 31 ∧
    t.mbxV 31 = true ∧ t.mbxSender 31 = BitVec.toNat x.master ∧ t.mbxFull 31 = true :=
  meets_of (by simp) (by decide +kernel)
theorem witness_Mailboxes_6 :
    spMeets (mbx bind31 1 (rd 2 (mbxReg R.MBX_DATA3 31)) [1, 2, 3, 4]) 2 SpRow.mbxTake fun t x => x.addr = mbxReg R.MBX_DATA3 31 ∧
    t.mbxV 31 = true ∧ t.mbxReceiver 31 = BitVec.toNat x.master ∧ t.mbxFull 31 = true :=
  meets_of (by simp) (by decide +kernel)
theorem witness_Mailboxes_7 :
    spMeets (mbx bind31 1 (rd 3 (mbxReg R.MBX_DATA3 31)) [1, 2, 3, 4]) 3 SpRow.mbxTake fun t x => x.addr = mbxReg R.MBX_DATA3 31 ∧
    (t.mbxV 31 = false ∨ t.mbxReceiver 31 ≠ BitVec.toNat x.master ∧ t.mbxSender 31 ≠ BitVec.toNat x.master) :=
  meets_of (by simp) (by decide +kernel)
theorem witness_Mailboxes_8 :
    spMeets (mbx 0 0 (rd 3 (mbxReg R.MBX_DATA3 31))) 3 SpRow.mbxTake fun t x => x.addr = mbxReg R.MBX_DATA3 31 ∧
    (t.mbxV 31 = false ∨ t.mbxReceiver 31 ≠ BitVec.toNat x.master ∧ t.mbxSender 31 ≠ BitVec.toNat x.master) :=
  meets_of (by simp) (by decide +kernel)
theorem witness_RailAcquires_1 :
    spMeets (heldWith [] (rd 1 (railReg 63))) 1 SpRow.railAcquire fun t x => x.addr = railReg 63 ∧ t.railHeld 63 = false :=
  meets_of (by simp) (by decide +kernel)
theorem witness_RailAcquires_2 :
    spMeets (heldWith [(railReg 63, heldBy 1)] (rd 1 (railReg 63))) 1 SpRow.railAcquire fun t x => x.addr = railReg 63 ∧
    t.railHeld 63 = true ∧ t.railHolder 63 = BitVec.toNat x.master :=
  meets_of (by simp) (by decide +kernel)
theorem witness_RailAcquires_3 :
    spMeets (heldWith [(railReg 63, heldBy 2)] (rd 1 (railReg 63))) 1 SpRow.railAcquire fun t x => x.addr = railReg 63 ∧
    t.railHeld 63 = true ∧ t.railHolder 63 ≠ BitVec.toNat x.master :=
  meets_of (by simp) (by decide +kernel)
theorem witness_RailAcquires_4 :
    1 ≠ 1023 ∧ awayRead.spNext 1 = some (heldX awayRead, heldT awayRead) ∧ (heldX awayRead).write = false ∧
    (heldX awayRead).addr = railReg 63 ∧ (heldT awayRead).railSecure 63 = true ∧ (heldX awayRead).world = false ∧
    (heldT awayRead).spAway (heldX awayRead) = false :=
  by decide +kernel
theorem witness_RailReleases_1 :
    spMeets (heldWith [(railReg 63, heldBy 1)] (wr 1 (railReg 63) (2 ^ 63))) 1 SpRow.railRelease fun t x => x.addr = railReg 63 ∧
    t.railHeld 63 = true ∧ t.railHolder 63 = BitVec.toNat x.master :=
  meets_of (by simp) (by decide +kernel)
theorem witness_RailReleases_2 :
    spMeets (heldWith [(railReg 63, heldBy 2)] (wr 1 (railReg 63) (2 ^ 63))) 1 SpRow.railRelease fun t x => x.addr = railReg 63 ∧
    (t.railHeld 63 = false ∨ t.railHolder 63 ≠ BitVec.toNat x.master) :=
  meets_of (by simp) (by decide +kernel)
theorem witness_RailReleases_3 :
    spMeets (heldWith [] (wr 1 (railReg 63) (2 ^ 63))) 1 SpRow.railRelease fun t x => x.addr = railReg 63 ∧
    (t.railHeld 63 = false ∨ t.railHolder 63 ≠ BitVec.toNat x.master) :=
  meets_of (by simp) (by decide +kernel)
theorem witness_RailReleases_4 :
    spMeets (heldWith [(railReg 63, heldBy 1)] (wr 1 (railReg 63) 1)) 1 SpRow.write fun t x => x.addr = railReg 63 ∧
    x.write = true ∧ x.wrong = false ∧ bit (BitVec.toNat x.data) 63 = false :=
  meets_of (by simp) (by decide +kernel)
theorem witness_ForcedReleases_1 :
    spMeets (heldWith [(railReg 63, heldBy 2)] (wr 1 R.RAIL_FORCE (2 ^ 63 + 63))) 1 SpRow.railForce fun t x => 63 = getBits x.data 0 6 ∧
    t.railHeld 63 = true :=
  meets_of (by simp) (by decide +kernel)
theorem witness_ForcedReleases_2 :
    spMeets (heldWith [] (wr 1 R.RAIL_FORCE (2 ^ 63 + 63))) 1 SpRow.railForce fun t x => 63 = getBits x.data 0 6 ∧
    t.railHeld 63 = false :=
  meets_of (by simp) (by decide +kernel)
theorem witness_ForcedReleases_3 :
    1 ≠ 1023 ∧ twoLocks.canonical = true :=
  by decide +kernel
theorem witness_NoticeRecords_1 :
    spMeets (heldWith [] (wr 1023 R.NQ_POST (64 * 4))) 1023 SpRow.nqPost fun t x => x.addr = R.NQ_POST + 8 * 0 ∧ x.master = 1023 ∧
    0 = (t.setReg x.addr x.data).fld R.NQ_POST 0 2 ∧ 64 ≤ (t.setReg x.addr x.data).fld R.NQ_POST 2 8 ∧
    (t.setReg x.addr x.data).fld R.NQ_POST 2 8 ≤ 127 :=
  meets_of (by simp) (by decide +kernel)
theorem witness_NoticeRecords_2 :
    spMeets (heldWith [(R.NQ_POST, 127 * 4 + 3), (R.NQ_POST + 8, 5)] (wr 1023 (R.NQ_POST + 24) 77)) 1023 SpRow.nqPost fun t x => x.addr = R.NQ_POST + 8 * 3 ∧
    x.master = 1023 ∧ 3 = (t.setReg x.addr x.data).fld R.NQ_POST 0 2 ∧ 64 ≤ (t.setReg x.addr x.data).fld R.NQ_POST 2 8 ∧
    (t.setReg x.addr x.data).fld R.NQ_POST 2 8 ≤ 127 :=
  meets_of (by simp) (by decide +kernel)
theorem witness_NoticeRecords_3 :
    let s : State := nqIn [(R.NQ_PTR, 1023 + 1000 * 2 ^ 16 + 1000 * 2 ^ 32)] [[2, 3, 4, 5], [8]]
    s.canonical = true ∧ s.svc.nqIn = [[2, 3, 4, 5], [8]] ∧ 1 ≤ [2, 3, 4, 5].length ∧ [2, 3, 4, 5].length ≤ 4 ∧
    (s.flag R.NQ_STATUS 23 = false ∨ s.nqFree = 0) :=
  ⟨by simp, by decide +kernel⟩
theorem witness_NoticeRecords_4 :
    let s : State := nqIn [(R.NQ_PTR, 1021)] [[2, 3, 4, 5], [8]]
    s.canonical = true ∧ s.svc.nqIn = [[2, 3, 4, 5], [8]] ∧ 1 ≤ [2, 3, 4, 5].length ∧ [2, 3, 4, 5].length ≤ 4 ∧
    (s.flag R.NQ_STATUS 23 = false ∨ s.nqFree = 0) :=
  ⟨by simp, by decide +kernel⟩
theorem witness_NoticeRecords_5 :
    let s : State := nqIn [(R.NQ_PTR, 1023), (R.NQ_STATUS, 2 ^ 23)] [[2, 3, 4, 5], [8]] 9
    s.canonical = true ∧ s.flag R.NQ_STATUS 23 = true ∧ 1 ≤ s.nqFree :=
  ⟨by simp, by decide +kernel⟩
theorem witness_NoticeReader_1 :
    spMeets (nqr [(R.NQ_PTR, 8 + 7 * 2 ^ 16)]) 5 SpRow.nqRead fun t x => t.nqReader x.master = true ∧ t.nqAvail ≠ 0 :=
  meets_of (by simp) (by decide +kernel)
theorem witness_NoticeReader_2 :
    spMeets (nqr [(R.NQ_PTR, 7 + 7 * 2 ^ 16)]) 5 SpRow.nqRead fun t x => t.nqReader x.master = true ∧ t.nqAvail = 0 :=
  meets_of (by simp) (by decide +kernel)
theorem witness_NoticeReader_3 :
    spMeets (nqr [(R.NQ_PTR, 8 + 7 * 2 ^ 16)] 6) 6 SpRow.nqRead fun t x => t.nqReader x.master = false :=
  meets_of (by simp) (by decide +kernel)
theorem witness_NoticeReader_4 :
    spMeets (nq 1 [(R.NQ_PTR, 8 + 7 * 2 ^ 16)]) 5 SpRow.nqMark fun t x => t.nqReader x.master = true :=
  meets_of (by simp) (by decide +kernel)
theorem witness_NoticeReader_5 :
    spMeets (nq 2 [(R.NQ_PTR, 8 + 7 * 2 ^ 16 + 3 * 2 ^ 48), (R.NQ_STATUS, 2 ^ 22)]) 5 SpRow.nqRewind fun t x => t.nqReader x.master = true ∧
    t.flag R.NQ_STATUS 22 = true :=
  meets_of (by simp) (by decide +kernel)
theorem witness_NoticeReader_6 :
    spMeets (nq 2 [(R.NQ_PTR, 8 + 7 * 2 ^ 16 + 3 * 2 ^ 48)]) 5 SpRow.nqRewind fun t x => t.nqReader x.master = true ∧
    t.flag R.NQ_STATUS 22 = false :=
  meets_of (by simp) (by decide +kernel)
theorem witness_NoticeReader_7 :
    spMeets (nq 3 [(R.NQ_PTR, 8 + 7 * 2 ^ 16 + 3 * 2 ^ 48), (R.NQ_STATUS, 2 ^ 22)]) 5 SpRow.nqRelease fun t x => t.nqReader x.master = true :=
  meets_of (by simp) (by decide +kernel)
theorem witness_NoticeReader_8 :
    spMeets (nq 3 [(R.NQ_PTR, 8 + 7 * 2 ^ 16 + 7 * 2 ^ 48), (R.NQ_STATUS, 2 ^ 22)]) 5 SpRow.nqRelease fun t x => t.nqReader x.master = true :=
  meets_of (by simp) (by decide +kernel)
theorem witness_NoticeReader_9 :
    spMeets (nq 1 [(R.NQ_PTR, 8 + 7 * 2 ^ 16 + 7 * 2 ^ 48), (R.NQ_STATUS, 2 ^ 22)] 6) 6 SpRow.nqMark fun t x => x.addr = R.NQ_CMD ∧
    x.write = true ∧ x.wrong = false ∧ bit (BitVec.toNat x.data) 63 = true ∧ t.nqReader x.master = false :=
  meets_of (by simp) (by decide +kernel)
theorem witness_NoticeReader_10 :
    spMeets (nq 2 [(R.NQ_PTR, 8 + 7 * 2 ^ 16 + 7 * 2 ^ 48), (R.NQ_STATUS, 2 ^ 22)] 6) 6 SpRow.nqRewind fun t x => x.addr = R.NQ_CMD ∧
    x.write = true ∧ x.wrong = false ∧ bit (BitVec.toNat x.data) 63 = true ∧ t.nqReader x.master = false :=
  meets_of (by simp) (by decide +kernel)
theorem witness_NoticeReader_11 :
    spMeets (nq 3 [(R.NQ_PTR, 8 + 7 * 2 ^ 16 + 7 * 2 ^ 48), (R.NQ_STATUS, 2 ^ 22)] 6) 6 SpRow.nqRelease fun t x => x.addr = R.NQ_CMD ∧
    x.write = true ∧ x.wrong = false ∧ bit (BitVec.toNat x.data) 63 = true ∧ t.nqReader x.master = false :=
  meets_of (by simp) (by decide +kernel)
theorem witness_NoticeReader_12 :
    spMeets (nq 0 [(R.NQ_PTR, 8 + 7 * 2 ^ 16 + 7 * 2 ^ 48), (R.NQ_STATUS, 2 ^ 22)] 6) 6 SpRow.write fun t x => x.addr = R.NQ_CMD ∧
    x.write = true ∧ x.wrong = false ∧ bit (BitVec.toNat x.data) 63 = true ∧ t.nqReader x.master = false :=
  meets_of (by simp) (by decide +kernel)
theorem witness_NoticeReader_13 :
    spMeets (nq 0 [(R.NQ_PTR, 8 + 7 * 2 ^ 16 + 7 * 2 ^ 48), (R.NQ_STATUS, 2 ^ 22)]) 5 SpRow.write fun t x => x.addr = R.NQ_CMD ∧
    x.write = true ∧ x.wrong = false ∧ bit (BitVec.toNat x.data) 63 = true ∧ getBits x.data 0 2 = 0 ∧ t.nqReader x.master = true :=
  meets_of (by simp) (by decide +kernel)
theorem witness_Dumps_1 :
    spMeets (heldWith [(R.PMC_CTL, 2001)] (wr 1 R.PMC_CTL (2 ^ 21 + 1))) 1 SpRow.dumpNow fun t x => t.flag R.PMC_CTL 0 = true ∧
    bit (BitVec.toNat x.data) 0 = true :=
  meets_of (by simp) (by decide +kernel)
theorem witness_Dumps_2 :
    spMeets (heldWith dumpRegs (wr 1 R.PMC_CTL 2513)) 1 SpRow.dumpEnable fun t x => t.dumpOk = true ∧
    bit (BitVec.toNat x.data) 21 = false :=
  meets_of (by simp) (by decide +kernel)
theorem witness_Dumps_3 :
    spMeets (heldWith [] (wr 1 R.PMC_CTL 2513)) 1 SpRow.dumpEnable fun t x => t.dumpOk = false :=
  meets_of (by simp) (by decide +kernel)
theorem witness_Dumps_4 :
    spMeets (heldWith [(R.PMC_DUMPSEQ, 5), (R.PMC_DUMPHEAD, 3)] (wr 1 R.PMC_DUMPHEAD 5)) 1 SpRow.dumphead fun t x => True :=
  meets_of (by simp) (by decide +kernel)
theorem witness_Dumps_5 :
    spMeets (heldWith [(R.PMC_DUMPSEQ, 5), (R.PMC_DUMPHEAD, 3)] (wr 1 R.PMC_DUMPHEAD 6)) 1 SpRow.dumphead fun t x => True :=
  meets_of (by simp) (by decide +kernel)
theorem witness_Dumps_6 :
    dumpIsDue.canonical = true ∧ dumpIsDue.pmc.due = true ∧ dumpIsDue.flag R.PMC_CTL 0 = true ∧ dumpIsDue.pmc.dump = none ∧
    dumpIsDue.dumpFull = false ∧ dumpIsDue.chk = false :=
  ⟨by simp, by decide +kernel⟩
theorem witness_Dumps_7 :
    let s : State := dumpFullDue
    s.canonical = true ∧ s.pmc.due = true ∧ s.flag R.PMC_CTL 0 = true ∧
    (s.pmc.dump.isSome = true ∨ s.dumpFull = true ∨ s.chk = true) :=
  ⟨by simp, by decide +kernel⟩
theorem witness_Dumps_8 :
    dumpAgain.canonical = true ∧ dumpAgain.pmc.due = true ∧ dumpAgain.flag R.PMC_CTL 0 = true ∧
    (dumpAgain.pmc.dump.isSome = true ∨ dumpAgain.dumpFull = true ∨ dumpAgain.chk = true) :=
  ⟨by simp, by decide +kernel⟩
theorem witness_Dumps_9 :
    dumpRuns.calm ∧ dumpRuns.pmc.dump = some (aDump [1, 0]) ∧ (aDump [1, 0]).left = [1, 0] ∧ 1 ∉ [0] ∧
    (1 = 0 → (aDump [1, 0]).open_ = []) ∧ 10 = dumpRuns.dumpLine (aDump [1, 0]).seq 1 ∧ dumpRuns.hIdx 10 = some 10 ∧
    dumpRuns.denies (dumpRuns.flag R.SEC_WORLDCFG 5) 10 = false ∧ dumpRuns.quietLine 10 ∧ dumpRuns.claimed 10 none = false ∧
    dumpRuns.mayTake 5 1 none = true ∧ dumpRuns.aStall 0 = some 0 ∧ 0 ∉ (aDump [1, 0]).open_ ∧ dumpRuns.awaitsCommit 0 = false ∧
    1 ≤ dumpRuns.inkRoom ∧ dumpRuns.inkFree = some 0 :=
  ⟨calm_of (by simp) (by decide +kernel), by decide +kernel⟩
theorem witness_Dumps_10 :
    dumpEnds.calm ∧ dumpEnds.pmc.dump = some (aDump [0]) ∧ (aDump [0]).left = [0] ∧ 0 ∉ [] ∧ (0 = 0 → (aDump [0]).open_ = []) ∧
    9 = dumpEnds.dumpLine (aDump [0]).seq 0 ∧ dumpEnds.hIdx 9 = some 9 ∧
    dumpEnds.denies (dumpEnds.flag R.SEC_WORLDCFG 5) 9 = false ∧ dumpEnds.quietLine 9 ∧ dumpEnds.claimed 9 none = false ∧
    dumpEnds.mayTake 5 1 none = true ∧ dumpEnds.aStall 0 = some 0 ∧ 0 ∉ (aDump [0]).open_ ∧ dumpEnds.awaitsCommit 0 = false ∧
    1 ≤ dumpEnds.inkRoom ∧ dumpEnds.inkFree = some 0 :=
  ⟨calm_of (by simp) (by decide +kernel), by decide +kernel⟩
theorem witness_FilterSelects_1 :
    spMeets (heldWith [] (wr 1 (R.PMC_FSEL + 120) 8526495040805286416)) 1 SpRow.fsel fun t x => x.addr = R.PMC_FSEL + 8 * 15 ∧
    x.world = true :=
  meets_of (by simp) (by decide +kernel)
theorem witness_FilterSelects_2 :
    spMeets (heldWith [(R.SEC_REGW, 0), (R.PMC_FSCTL + 32, 32767), (R.PMC_FSEL + 120, 528)] (wr 1 (R.PMC_FSEL + 120) 8526495040805286416 false)) 1 SpRow.fsel fun t x => x.addr = R.PMC_FSEL + 8 * 15 ∧
    x.world = false :=
  meets_of (by simp) (by decide +kernel)
theorem witness_Blotter_1 :
    spMeets blotHeld 1 SpRow.blotSel fun t x => True :=
  meets_of (by simp) (by decide +kernel)
theorem witness_Blotter_2 :
    spMeets (heldWith [] (wr 1 R.BLOT_SEL 4095)) 1 SpRow.blotSel fun t x => True :=
  meets_of (by simp) (by decide +kernel)
theorem witness_Blotter_3 :
    spMeets (heldWith [(R.BLOT_PTR, 5 + 6 * 2 ^ 12 + 7 * 2 ^ 25), (R.BLOT_FF, 2 ^ 12 + 3), (R.BLOT_STATUS, 1)] (wr 1 R.BLOT_CTL (2 ^ 63))) 1 SpRow.blotClear fun t x => True :=
  meets_of (by simp) (by decide +kernel)
theorem witness_Blotter_4 :
    spMeets (heldWith [(R.BLOT_FF, 2 ^ 12 + 3), (R.BLOT_STATUS, 1)] (wr 1 R.BLOT_FF (2 ^ 12))) 1 SpRow.blotRearm fun t x => True :=
  meets_of (by simp) (by decide +kernel)
theorem witness_Blotter_5 :
    let s : State := blotQ [(R.BLOT_PTR, 4095 + 4096 * 2 ^ 12 + (2 ^ 32 - 1) * 2 ^ 25)] (aRec 3)
    s.canonical = true ∧ s.svc.blotQ = [(2, [aRec 3])] ∧ s.flag R.BLOT_STATUS 0 = false :=
  ⟨by simp, by decide +kernel⟩
theorem witness_Blotter_6 :
    let s : State := blotQ [(R.BLOT_PTR, 5 + 6 * 2 ^ 12 + 8 * 2 ^ 25), (R.BLOT_CTL, 4351)] (aRec 2)
    s.canonical = true ∧ s.svc.blotQ = [(2, [aRec 2])] ∧ s.flag R.BLOT_STATUS 0 = false :=
  ⟨by simp, by decide +kernel⟩
theorem witness_Blotter_7 :
    let s : State := blotQ [(R.BLOT_PTR, 5 + 6 * 2 ^ 12 + 8 * 2 ^ 25)] (aRec 2)
    s.canonical = true ∧ s.svc.blotQ = [(2, [aRec 2])] ∧ s.flag R.BLOT_STATUS 0 = false :=
  ⟨by simp, by decide +kernel⟩
theorem witness_Blotter_8 :
    let s : State := blotQ [(R.BLOT_STATUS, 1)] (aRec 2)
    s.canonical = true ∧ s.svc.blotQ = [(2, [aRec 2])] ∧ s.flag R.BLOT_STATUS 0 = true :=
  ⟨by simp, by decide +kernel⟩
theorem witness_TestAccess_1 :
    testing.boot.testMode = true ∧ bit (65535) 0 = true :=
  by decide +kernel
theorem witness_TestAccess_2 :
    State.reset.boot.testMode = false :=
  by decide +kernel
theorem witness_TestAccess_3 :
    bistOn.svc.bistRun = true :=
  by decide +kernel
theorem witness_TestAccess_4 :
    State.reset.phase = 0 ∧ State.reset.boot.domWait = false :=
  by decide +kernel
theorem witness_PacketsArrive_1 :
    running.canonical = true ∧ running.faults = [] ∧ running.link 0 = 1 ∧ (rq Op.rdOnce).syn = 0 ∧
    (rq Op.rdOnce).hopcnt = (rq Op.rdOnce).nhop ∧ (rq Op.rdOnce).nhop.toNat ≤ 12 ∧ running.isOpen 0 = true ∧
    (rq Op.rdOnce).dst = running.homeId ∧ running.ruId ≠ some running.homeId ∧
    legalHome (rq Op.rdOnce).opcode (running.senderOf (running.toLog (rq Op.rdOnce).src)) = true ∧
    toHome (rq Op.rdOnce).opcode = true ∧ classOf (rq Op.rdOnce).opcode = (rq Op.rdOnce).cls.toNat ∧
    flitsOk (rq Op.rdOnce).opcode (rq Op.rdOnce).nflit.toNat = true ∧ running.impostor (rq Op.rdOnce).src = false ∧
    (rq Op.rdOnce).domain = running.domain ∧ (running.np 0).bufOf (poolOf (rq Op.rdOnce).cls.toNat) = [] ∧
    ((running.np 0).inqOf (rq Op.rdOnce).cls.toNat).length < ingressDepth (rq Op.rdOnce).cls.toNat :=
  ⟨by simp, by decide +kernel⟩
theorem witness_PacketsArrive_2 :
    closed.canonical = true ∧ closed.faults = [] ∧ closed.link 0 = 1 ∧ (rq Op.rdOnce).syn = 0 ∧
    (rq Op.rdOnce).hopcnt = (rq Op.rdOnce).nhop ∧ (rq Op.rdOnce).nhop.toNat ≤ 12 ∧ closed.isOpen 0 = false ∧
    (rq Op.rdOnce).cls.toNat ≤ 1 ∧ (rq Op.rdOnce).opcode ≠ Op.evictNote ∧ (closed.np 0).buf = [] :=
  ⟨by simp, by decide +kernel⟩
theorem witness_PacketsArrive_3 :
    running.canonical = true ∧ running.faults = [] ∧ running.link 0 = 1 ∧ badPkt.hdrBad = true ∧ (running.np 0).buf = [] :=
  ⟨by simp, by decide +kernel⟩
theorem witness_PacketsArrive_4 :
    running.canonical = true ∧ running.faults = [] ∧ running.link 0 = 1 ∧ strayPkt.syn = 0 ∧ strayPkt.hopcnt ≠ strayPkt.nhop ∧
    (running.np 0).buf = [] :=
  ⟨by simp, by decide +kernel⟩
theorem witness_PacketsArrive_5 :
    let s : State := withRegs [(R.NP_STATUS, 3)] running
    s.canonical = true ∧ s.faults = [] ∧ s.link 0 = 3 :=
  ⟨by simp, by decide +kernel⟩
theorem witness_ReadsAskMemory_1 :
    let s : State := queued (rq Op.rdShared)
    s.calm ∧ s.nextReq (0) Op.rdShared = some (item (rq Op.rdShared)) ∧ s.admits ((item (rq Op.rdShared)).req 0) ∧
    s.hIdx (item (rq Op.rdShared)).p.line = some 7 ∧ s.quietLine 7 ∧ s.claimed (item (rq Op.rdShared)).p.line none = false ∧
    s.stallFor ((item (rq Op.rdShared)).req 0) none = some 0 ∧ s.awaitsCommit 0 = false ∧ s.seated (item (rq Op.rdShared)).p.src ∧
    s.chooseWay 7 = some (k7, false, false) ∧ 1 ≤ s.inkRoom ∧ s.inkFree = some 0 ∧ Op.rdShared = Op.rdShared :=
  ⟨calm_of (by simp) (by decide +kernel), by decide +kernel⟩
theorem witness_ReadsAskMemory_2 :
    let s : State := queued (rq Op.rdUnique)
    s.calm ∧ s.nextReq (0) Op.rdUnique = some (item (rq Op.rdUnique)) ∧ s.admits ((item (rq Op.rdUnique)).req 0) ∧
    s.hIdx (item (rq Op.rdUnique)).p.line = some 7 ∧ s.quietLine 7 ∧ s.claimed (item (rq Op.rdUnique)).p.line none = false ∧
    s.stallFor ((item (rq Op.rdUnique)).req 0) none = some 0 ∧ s.awaitsCommit 0 = false ∧ s.seated (item (rq Op.rdUnique)).p.src ∧
    s.chooseWay 7 = some (k7, false, false) ∧ 1 ≤ s.inkRoom ∧ s.inkFree = some 0 ∧ Op.rdUnique = Op.rdUnique :=
  ⟨calm_of (by simp) (by decide +kernel), by decide +kernel⟩
theorem witness_ReadsAskMemory_3 :
    let s : State := queued (rq Op.upgrade)
    s.calm ∧ s.nextReq (0) Op.upgrade = some (item (rq Op.upgrade)) ∧ s.admits ((item (rq Op.upgrade)).req 0) ∧
    s.hIdx (item (rq Op.upgrade)).p.line = some 7 ∧ s.quietLine 7 ∧ s.claimed (item (rq Op.upgrade)).p.line none = false ∧
    s.stallFor ((item (rq Op.upgrade)).req 0) none = some 0 ∧ s.awaitsCommit 0 = false ∧ s.seated (item (rq Op.upgrade)).p.src ∧
    s.chooseWay 7 = some (k7, false, false) ∧ 1 ≤ s.inkRoom ∧ s.inkFree = some 0 ∧ Op.upgrade = Op.upgrade :=
  ⟨calm_of (by simp) (by decide +kernel), by decide +kernel⟩
theorem witness_ReadsAskMemory_4 :
    let s : State := queued (rq Op.rdOnce)
    s.calm ∧ s.nextReq (0) Op.rdOnce = some (item (rq Op.rdOnce)) ∧ s.admits ((item (rq Op.rdOnce)).req 0) ∧
    s.hIdx (item (rq Op.rdOnce)).p.line = some 7 ∧ s.quietLine 7 ∧ s.claimed (item (rq Op.rdOnce)).p.line none = false ∧
    s.stallFor ((item (rq Op.rdOnce)).req 0) none = some 0 ∧ s.awaitsCommit 0 = false ∧ s.seated (item (rq Op.rdOnce)).p.src ∧
    Op.rdOnce = Op.rdOnce :=
  ⟨calm_of (by simp) (by decide +kernel), by decide +kernel⟩
theorem witness_WritesTakeSlots_1 :
    let s : State := queued (rq Op.claimZero)
    s.calm ∧ s.nextReq (0) Op.claimZero = some (item (rq Op.claimZero)) ∧ s.admits ((item (rq Op.claimZero)).req 0) ∧
    s.hIdx (item (rq Op.claimZero)).p.line = some 7 ∧ s.quietLine 7 ∧ s.claimed (item (rq Op.claimZero)).p.line none = false ∧
    s.stallFor ((item (rq Op.claimZero)).req 0) none = some 0 ∧ s.awaitsCommit 0 = false ∧ 1 ≤ s.inkRoom ∧ s.inkFree = some 0 ∧
    Op.claimZero = Op.claimZero ∧ s.chooseWay 7 = some (k7, false, false) :=
  ⟨calm_of (by simp) (by decide +kernel), by decide +kernel⟩
theorem witness_WritesTakeSlots_2 :
    let s : State := queued (rq Op.wrFull (lineOf 9))
    s.calm ∧ s.nextReq (0) Op.wrFull = some (item (rq Op.wrFull (lineOf 9))) ∧ s.admits ((item (rq Op.wrFull (lineOf 9))).req 0) ∧
    s.hIdx (item (rq Op.wrFull (lineOf 9))).p.line = some 7 ∧ s.quietLine 7 ∧
    s.claimed (item (rq Op.wrFull (lineOf 9))).p.line none = false ∧
    s.stallFor ((item (rq Op.wrFull (lineOf 9))).req 0) none = some 0 ∧ s.awaitsCommit 0 = false ∧ 1 ≤ s.inkRoom ∧
    s.inkFree = some 0 ∧ Op.wrFull = Op.wrFull ∧ ((item (rq Op.wrFull (lineOf 9))).req 0).dur = false :=
  ⟨calm_of (by simp) (by decide +kernel), by decide +kernel⟩
theorem witness_WritesTakeSlots_3 :
    let s : State := queued (rq Op.wrPart (lineOf 9) 1)
    s.calm ∧ s.nextReq (0) Op.wrPart = some (item (rq Op.wrPart (lineOf 9) 1)) ∧
    s.admits ((item (rq Op.wrPart (lineOf 9) 1)).req 0) ∧ s.hIdx (item (rq Op.wrPart (lineOf 9) 1)).p.line = some 7 ∧
    s.quietLine 7 ∧ s.claimed (item (rq Op.wrPart (lineOf 9) 1)).p.line none = false ∧
    s.stallFor ((item (rq Op.wrPart (lineOf 9) 1)).req 0) none = some 0 ∧ s.awaitsCommit 0 = false ∧ 1 ≤ s.inkRoom ∧
    s.inkFree = some 0 ∧ Op.wrPart = Op.wrPart :=
  ⟨calm_of (by simp) (by decide +kernel), by decide +kernel⟩
theorem witness_WritesTakeSlots_4 :
    let s : State := queued strokePkt
    s.calm ∧ s.nextReq (0) Op.stroke = some (item strokePkt) ∧ s.admits ((item strokePkt).req 0) ∧
    s.hIdx (item strokePkt).p.line = some 7 ∧ s.quietLine 7 ∧ s.claimed (item strokePkt).p.line none = false ∧
    s.stallFor ((item strokePkt).req 0) none = some 0 ∧ s.awaitsCommit 0 = false ∧ 1 ≤ s.inkRoom ∧ s.inkFree = some 0 ∧
    Op.stroke = Op.stroke ∧ s.bypass = true ∧ strokeFormat ((item strokePkt).req 0) = none ∧ s.seated (item strokePkt).p.src :=
  ⟨calm_of (by simp) (by decide +kernel), by decide +kernel⟩
theorem witness_LigaturesAndSyncs_1 :
    ligSt.calm ∧ ligSt.nextReq (0) Op.ligature = some (item ligPkt) ∧ ligSt.admits ((item ligPkt).req 0) ∧
    ligSt.ligFormat ((item ligPkt).req 0) = none ∧ ligSt.bypass = true ∧ dataLines (opFlits (item ligPkt).p.data) = [9] ∧
    ligSt.journalLine (ligRing (item ligPkt).p.detail) = 512 ∧ ligSt.hIdx 9 = some 9 ∧ ligSt.hIdx 512 = some 512 ∧ 9 ≠ 512 ∧
    ligSt.quietLine 9 ∧ ligSt.quietLine 512 ∧ ligSt.claimed 9 none = false ∧ ligSt.claimed 512 none = false ∧
    ligSt.seated (item ligPkt).p.src ∧ ligSt.penFree = some 0 ∧ ligSt.ligs.firstFree 0 Config.ligSlots = some 0 ∧
    ligSt.mayTake (0) 2 none = true ∧ (ligSt.pickStalls [] 2).length = 2 ∧ 2 ≤ ligSt.inkRoom ∧ ligSt.inkFree.isSome = true ∧
    (∀ j ∈ ligSt.inkFree, (ligSt.inkReserve j 9).inkFree.isSome = true) :=
  ⟨calm_of (by simp) (by decide +kernel), by decide +kernel⟩
theorem witness_LigaturesAndSyncs_2 :
    ligWaits.calm ∧ ligWaits.pen.find 0 = some ligPen ∧ ligWaits.penTurn (0) ligPen = true ∧
    ligWaits.stalls.find ligPen.stall = some ligPens ∧ ligPens.role = Role.lig 0 false ∧ ligWaits.ligs.find 0 = some ligHalf ∧
    ligHalf.penned = some 0 ∧ ligHalf.bypass = true ∧ ligHalf.nextStall = ligPen.stall ∧
    ligWaits.ligNext ligHalf = some (512, true) ∧ ligWaits.hIdx 512 = some 512 ∧ ligWaits.dirHits 512 = [] ∧
    ligWaits.alcHit 512 = none ∧ ligWaits.ligReason ligHalf 512 512 ligPen.seq = none :=
  ⟨calm_of (by simp) (by decide +kernel), by decide +kernel⟩
theorem witness_LigaturesAndSyncs_3 :
    let s : State := syncSt [2]
    s.calm ∧ s.nextReq (0) Op.sync = some (item (rq Op.sync)) ∧ s.admits ((item (rq Op.sync)).req 0) ∧
    s.stallFor ((item (rq Op.sync)).req 0) none = some 0 ∧ s.awaitsCommit 0 = false ∧
    (∀ e ∈ s.ink, (item (rq Op.sync)).p.src ∉ e.2.ids) :=
  ⟨calm_of (by simp) (by decide +kernel), by decide +kernel⟩
theorem witness_LigaturesAndSyncs_4 :
    let s : State := syncSt [1]
    s.calm ∧ s.nextReq (0) Op.sync = some (item (rq Op.sync)) ∧ s.admits ((item (rq Op.sync)).req 0) ∧
    s.stallFor ((item (rq Op.sync)).req 0) none = some 0 ∧ s.awaitsCommit 0 = false ∧
    (∃ e ∈ s.ink, (item (rq Op.sync)).p.src ∈ e.2.ids) :=
  ⟨calm_of (by simp) (by decide +kernel), by decide +kernel⟩
theorem witness_WriteBacksAndNotes_1 :
    wbSt.calm ∧ (wbSt.np 0).inqOf 1 = [item (rq Op.wbDirty (lineOf 4))] ∧ (item (rq Op.wbDirty (lineOf 4))).p.opcode = Op.wbDirty ∧
    wbSt.fence (item (rq Op.wbDirty (lineOf 4))).p.src = 0 ∧ wbSt.hIdx (item (rq Op.wbDirty (lineOf 4))).p.line = some 7 ∧
    wbSt.dirHits 7 = [k7] ∧ wbSt.dirs.find k7 = some (owned 1) ∧ (owned 1).world = wbSt.worldOfH 7 ∧ (owned 1).st = DState.x ∧
    (owned 1).sh = Sharers.ptr (some (item (rq Op.wbDirty (lineOf 4))).p.src) none ∧ wbSt.blocker 7 = none ∧
    wbSt.inkNewest 7 = none ∧ wbSt.inkFree = some 0 ∧ wbSt.aStall 1 = some Config.baseWb :=
  ⟨calm_of (by simp) (by decide +kernel), by decide +kernel⟩
theorem witness_WriteBacksAndNotes_2 :
    wbFull.calm ∧ (wbFull.np 0).inqOf 1 = [item (rq Op.wbDirty (lineOf 4))] ∧
    (item (rq Op.wbDirty (lineOf 4))).p.opcode = Op.wbDirty ∧ wbFull.fence (item (rq Op.wbDirty (lineOf 4))).p.src = 0 ∧
    wbFull.hIdx (item (rq Op.wbDirty (lineOf 4))).p.line = some 7 ∧ wbFull.dirHits 7 = [k7] ∧
    wbFull.dirs.find k7 = some (owned 1) ∧ (owned 1).world = wbFull.worldOfH 7 ∧ (owned 1).st = DState.x ∧
    (owned 1).sh = Sharers.ptr (some (item (rq Op.wbDirty (lineOf 4))).p.src) none ∧ wbFull.blocker 7 = none ∧
    wbFull.inkNewest 7 = none ∧ wbFull.inkFree = some 0 ∧ wbFull.aStall 1 = none :=
  ⟨calm_of (by simp) (by decide +kernel), by decide +kernel⟩
theorem witness_WriteBacksAndNotes_3 :
    let s : State := noteSt [owned 1]
    s.calm ∧ (s.np 0).inqOf 1 = [item (rq Op.evictNote)] ∧ (item (rq Op.evictNote)).p.opcode = Op.evictNote ∧
    s.fence (item (rq Op.evictNote)).p.src = 0 ∧ s.hIdx (item (rq Op.evictNote)).p.line = some 7 ∧ s.blocked 7 = false ∧
    s.dirHits 7 = [k7] ∧ s.dirs.find k7 = some (owned 1) ∧ (owned 1).world = s.worldOfH 7 ∧ (owned 1).st = DState.x ∧
    (owned 1).sh = Sharers.ptr (some (item (rq Op.evictNote)).p.src) none :=
  ⟨calm_of (by simp) (by decide +kernel), by decide +kernel⟩
theorem witness_WriteBacksAndNotes_4 :
    let s : State := noteSt [shared2 1 2]
    s.calm ∧ (s.np 0).inqOf 1 = [item (rq Op.evictNote)] ∧ (item (rq Op.evictNote)).p.opcode = Op.evictNote ∧
    s.fence (item (rq Op.evictNote)).p.src = 0 ∧ s.hIdx (item (rq Op.evictNote)).p.line = some 7 ∧ s.blocked 7 = false ∧
    s.dirHits 7 = [k7] ∧ s.dirs.find k7 = some (shared2 1 2) ∧ (shared2 1 2).world = s.worldOfH 7 ∧
    2 ≠ (item (rq Op.evictNote)).p.src ∧ (shared2 1 2).st = DState.s ∧
    (shared2 1 2).sh = Sharers.ptr (some (item (rq Op.evictNote)).p.src) (some 2) :=
  ⟨calm_of (by simp) (by decide +kernel), by decide +kernel⟩
theorem witness_WriteBacksAndNotes_5 :
    let s : State := noteSt []
    s.calm ∧ (s.np 0).inqOf 1 = [item (rq Op.evictNote)] ∧ (item (rq Op.evictNote)).p.opcode = Op.evictNote ∧
    s.fence (item (rq Op.evictNote)).p.src = 0 ∧ s.hIdx (item (rq Op.evictNote)).p.line = some 7 ∧ s.blocked 7 = false ∧
    s.dirHits 7 = [] :=
  ⟨calm_of (by simp) (by decide +kernel), by decide +kernel⟩
theorem witness_PenAndTickets_1 :
    penned.calm ∧ penned.pen.find 511 = some aPen ∧ penned.penTurn (511) aPen = true ∧ aPen.reason ≠ 1 ∧
    penned.stalls.find aPen.stall = some pennedStall ∧ pennedStall.role = Role.req ∧ pennedStall.req.op = Op.rdOnce ∧
    pennedStall.req.src < 4 ∧ pennedStall.h = aPen.h ∧ penned.dirHits aPen.h = [] ∧ penned.alcHit aPen.h = none ∧
    penned.inkNewest aPen.h = none ∧ penned.claimed pennedStall.req.line aPen.tkt = false ∧ pennedStall.waits = [] ∧
    pennedStall.relay = none ∧ pennedStall.wbWait = none ∧ pennedStall.evict = none ∧ pennedStall.final = false ∧
    pennedStall.ready = false ∧ pennedStall.got = none ∧ pennedStall.rd = RdSt.no ∧ penned.awaitsCommit aPen.stall = false ∧
    penned.seated pennedStall.req.q :=
  ⟨calm_of (by simp) (by decide +kernel), by decide +kernel⟩
theorem witness_PenAndTickets_2 :
    pennedLong.calm ∧ pennedLong.pen.find 511 = some aPen ∧ pennedLong.stalls.find aPen.stall = some pennedLate ∧
    pennedLate.role = Role.req ∧ pennedLate.req.src < 4 ∧ pennedLate.req.cp = none ∧ aPen.reason < 3 ∧
    pennedLong.deadline ≤ elapsed pennedLate.acc pennedLong.tod ∧ pennedLong.tickets.firstFree 0 Config.tickets = some 0 :=
  ⟨calm_of (by simp) (by decide +kernel), by decide +kernel⟩
theorem witness_PenAndTickets_3 :
    ticketed.calm ∧ ticketed.tickets.find 255 = some tkt ∧
    usec (max 1 (ticketed.fld R.YARD_TKTCTL 24 6)) ≤ elapsed tkt.issued ticketed.tod :=
  ⟨calm_of (by simp) (by decide +kernel), by decide +kernel⟩
theorem witness_SnoopAnswers_1 :
    let s : State := snoopSt Op.rdUnique [hw Op.snpUnique true, ow] (ans Op.snpAckI)
    s.calm ∧ ((s.arrival 0 fun o => o == Op.snpAckI) = some (item (ans Op.snpAckI))) ∧
    s.awaited (item (ans Op.snpAckI)).p = some (5, hw Op.snpUnique true) ∧
    s.stalls.find 5 = some (snooping Op.rdUnique [hw Op.snpUnique true, ow]) ∧
    (snooping Op.rdUnique [hw Op.snpUnique true, ow]).role = Role.req ∧ (hw Op.snpUnique true).holder = true ∧
    (snooping Op.rdUnique [hw Op.snpUnique true, ow]).absorbed = none ∧
    (snooping Op.rdUnique [hw Op.snpUnique true, ow]).waits.erase (hw Op.snpUnique true) ≠ [] ∧ Op.snpAckI = Op.snpAckI ∧
    permitted (hw Op.snpUnique true) (s.ownsIn (snooping Op.rdUnique [hw Op.snpUnique true, ow]).h (hw Op.snpUnique true).who) Ans.ackI = true :=
  ⟨calm_of (by simp) (by decide +kernel), by decide +kernel⟩
theorem witness_SnoopAnswers_2 :
    let s : State := snoopSt Op.rdShared [hw Op.snpShare true, ow] (ans Op.snpAckS)
    s.calm ∧ ((s.arrival 0 fun o => o == Op.snpAckS) = some (item (ans Op.snpAckS))) ∧
    s.awaited (item (ans Op.snpAckS)).p = some (5, hw Op.snpShare true) ∧
    s.stalls.find 5 = some (snooping Op.rdShared [hw Op.snpShare true, ow]) ∧
    (snooping Op.rdShared [hw Op.snpShare true, ow]).role = Role.req ∧ (hw Op.snpShare true).holder = true ∧
    (snooping Op.rdShared [hw Op.snpShare true, ow]).absorbed = none ∧
    (snooping Op.rdShared [hw Op.snpShare true, ow]).waits.erase (hw Op.snpShare true) ≠ [] ∧ Op.snpAckS = Op.snpAckS ∧
    permitted (hw Op.snpShare true) (s.ownsIn (snooping Op.rdShared [hw Op.snpShare true, ow]).h (hw Op.snpShare true).who) Ans.ackS = true :=
  ⟨calm_of (by simp) (by decide +kernel), by decide +kernel⟩
theorem witness_SnoopAnswers_3 :
    let s : State := snoopSt Op.rdUnique [hw Op.snpUnique true, ow] (ans Op.snpFwdI)
    s.calm ∧ ((s.arrival 0 fun o => o == Op.snpFwdI) = some (item (ans Op.snpFwdI))) ∧
    s.awaited (item (ans Op.snpFwdI)).p = some (5, hw Op.snpUnique true) ∧
    s.stalls.find 5 = some (snooping Op.rdUnique [hw Op.snpUnique true, ow]) ∧
    (snooping Op.rdUnique [hw Op.snpUnique true, ow]).role = Role.req ∧ (hw Op.snpUnique true).holder = true ∧
    (snooping Op.rdUnique [hw Op.snpUnique true, ow]).absorbed = none ∧
    (snooping Op.rdUnique [hw Op.snpUnique true, ow]).waits.erase (hw Op.snpUnique true) ≠ [] ∧ Op.snpFwdI = Op.snpFwdI ∧
    permitted (hw Op.snpUnique true) (s.ownsIn (snooping Op.rdUnique [hw Op.snpUnique true, ow]).h (hw Op.snpUnique true).who) Ans.fwdI = true :=
  ⟨calm_of (by simp) (by decide +kernel), by decide +kernel⟩
theorem witness_SnoopAnswers_4 :
    let s : State := snoopSt Op.rdShared [hw Op.snpShare true, ow] (ans Op.snpFwdO)
    s.calm ∧ ((s.arrival 0 fun o => o == Op.snpFwdO) = some (item (ans Op.snpFwdO))) ∧
    s.awaited (item (ans Op.snpFwdO)).p = some (5, hw Op.snpShare true) ∧
    s.stalls.find 5 = some (snooping Op.rdShared [hw Op.snpShare true, ow]) ∧
    (snooping Op.rdShared [hw Op.snpShare true, ow]).role = Role.req ∧ (hw Op.snpShare true).holder = true ∧
    (snooping Op.rdShared [hw Op.snpShare true, ow]).absorbed = none ∧
    (snooping Op.rdShared [hw Op.snpShare true, ow]).waits.erase (hw Op.snpShare true) ≠ [] ∧ Op.snpFwdO = Op.snpFwdO ∧
    permitted (hw Op.snpShare true) (s.ownsIn (snooping Op.rdShared [hw Op.snpShare true, ow]).h (hw Op.snpShare true).who) Ans.fwdO = true :=
  ⟨calm_of (by simp) (by decide +kernel), by decide +kernel⟩
theorem witness_SnoopAnswers_5 :
    let s : State := snoopSt Op.rdUnique [hw Op.snpUnique true, ow] (ans Op.snpWbPend)
    s.calm ∧ ((s.arrival 0 fun o => o == Op.snpWbPend) = some (item (ans Op.snpWbPend))) ∧
    s.awaited (item (ans Op.snpWbPend)).p = some (5, hw Op.snpUnique true) ∧
    s.stalls.find 5 = some (snooping Op.rdUnique [hw Op.snpUnique true, ow]) ∧
    (snooping Op.rdUnique [hw Op.snpUnique true, ow]).role = Role.req ∧ (hw Op.snpUnique true).holder = true ∧
    (snooping Op.rdUnique [hw Op.snpUnique true, ow]).absorbed = none ∧
    (snooping Op.rdUnique [hw Op.snpUnique true, ow]).waits.erase (hw Op.snpUnique true) ≠ [] ∧ Op.snpWbPend = Op.snpWbPend ∧
    permitted (hw Op.snpUnique true) (s.ownsIn (snooping Op.rdUnique [hw Op.snpUnique true, ow]).h (hw Op.snpUnique true).who) Ans.wbPend = true :=
  ⟨calm_of (by simp) (by decide +kernel), by decide +kernel⟩
theorem witness_SnoopAnswers_6 :
    let s : State := snoopSt Op.rdUnique [hw Op.snpUnique false, ow] (ans Op.snpDataI (lineOf 6))
    s.calm ∧ ((s.arrival 0 fun o => o == Op.snpDataI) = some (item (ans Op.snpDataI (lineOf 6)))) ∧
    s.awaited (item (ans Op.snpDataI (lineOf 6))).p = some (5, hw Op.snpUnique false) ∧
    s.stalls.find 5 = some (snooping Op.rdUnique [hw Op.snpUnique false, ow]) ∧
    (snooping Op.rdUnique [hw Op.snpUnique false, ow]).role = Role.req ∧ (hw Op.snpUnique false).holder = true ∧
    (snooping Op.rdUnique [hw Op.snpUnique false, ow]).absorbed = none ∧
    (snooping Op.rdUnique [hw Op.snpUnique false, ow]).waits.erase (hw Op.snpUnique false) ≠ [] ∧ Op.snpDataI = Op.snpDataI ∧
    permitted (hw Op.snpUnique false) (s.ownsIn (snooping Op.rdUnique [hw Op.snpUnique false, ow]).h (hw Op.snpUnique false).who) (Ans.dataI (item (ans Op.snpDataI (lineOf 6))).p.data) = true :=
  ⟨calm_of (by simp) (by decide +kernel), by decide +kernel⟩
theorem witness_SnoopAnswers_7 :
    let s : State := snoopSt Op.rdShared [hw Op.snpShare false, ow] (ans Op.snpDataO (lineOf 6))
    s.calm ∧ ((s.arrival 0 fun o => o == Op.snpDataO) = some (item (ans Op.snpDataO (lineOf 6)))) ∧
    s.awaited (item (ans Op.snpDataO (lineOf 6))).p = some (5, hw Op.snpShare false) ∧
    s.stalls.find 5 = some (snooping Op.rdShared [hw Op.snpShare false, ow]) ∧
    (snooping Op.rdShared [hw Op.snpShare false, ow]).role = Role.req ∧ (hw Op.snpShare false).holder = true ∧
    (snooping Op.rdShared [hw Op.snpShare false, ow]).absorbed = none ∧
    (snooping Op.rdShared [hw Op.snpShare false, ow]).waits.erase (hw Op.snpShare false) ≠ [] ∧ Op.snpDataO = Op.snpDataO ∧
    permitted (hw Op.snpShare false) (s.ownsIn (snooping Op.rdShared [hw Op.snpShare false, ow]).h (hw Op.snpShare false).who) (Ans.dataO (item (ans Op.snpDataO (lineOf 6))).p.data) = true :=
  ⟨calm_of (by simp) (by decide +kernel), by decide +kernel⟩
theorem witness_SnoopAnswers_8 :
    let s : State := snoopSt Op.rdUnique [hw Op.snpUnique true] (ans Op.snpFwdI)
    s.calm ∧ ((s.arrival 0 fun o => o == Op.snpFwdI) = some (item (ans Op.snpFwdI))) ∧
    s.awaited (item (ans Op.snpFwdI)).p = some (5, hw Op.snpUnique true) ∧
    s.stalls.find 5 = some (snooping Op.rdUnique [hw Op.snpUnique true]) ∧
    (snooping Op.rdUnique [hw Op.snpUnique true]).role = Role.req ∧ (hw Op.snpUnique true).holder = true ∧
    (hw Op.snpUnique true).fmode = true ∧ (snooping Op.rdUnique [hw Op.snpUnique true]).absorbed = none ∧
    (snooping Op.rdUnique [hw Op.snpUnique true]).waits = [hw Op.snpUnique true] ∧
    (snooping Op.rdUnique [hw Op.snpUnique true]).relay = none ∧ (snooping Op.rdUnique [hw Op.snpUnique true]).wbWait = none ∧
    (snooping Op.rdUnique [hw Op.snpUnique true]).evict = none ∧ (snooping Op.rdUnique [hw Op.snpUnique true]).hold = none ∧
    (snooping Op.rdUnique [hw Op.snpUnique true]).final = false ∧ (snooping Op.rdUnique [hw Op.snpUnique true]).ready = false ∧
    (snooping Op.rdUnique [hw Op.snpUnique true]).ackGot = false ∧ (snooping Op.rdUnique [hw Op.snpUnique true]).displ = false ∧
    (snooping Op.rdUnique [hw Op.snpUnique true]).code ≠ 1 ∧ (snooping Op.rdUnique [hw Op.snpUnique true]).req.src < 4 ∧
    s.awaitsCommit 5 = false ∧ s.dirHits (snooping Op.rdUnique [hw Op.snpUnique true]).h = [k7] ∧ s.dirs.find k7 = some (owned 2) ∧
    (owned 2).st = DState.x ∧ (owned 2).sh = Sharers.ptr (some (hw Op.snpUnique true).who) none ∧
    (snooping Op.rdUnique [hw Op.snpUnique true]).req.q ≠ (hw Op.snpUnique true).who ∧ Op.snpFwdI = Op.snpFwdI ∧
    (snooping Op.rdUnique [hw Op.snpUnique true]).req.op = Op.rdUnique ∧ (hw Op.snpUnique true).op = Op.snpUnique :=
  ⟨calm_of (by simp) (by decide +kernel), by decide +kernel⟩
theorem witness_SnoopAnswers_9 :
    let s : State := snoopSt Op.rdShared [hw Op.snpShare true] (ans Op.snpFwdO)
    s.calm ∧ ((s.arrival 0 fun o => o == Op.snpFwdO) = some (item (ans Op.snpFwdO))) ∧
    s.awaited (item (ans Op.snpFwdO)).p = some (5, hw Op.snpShare true) ∧
    s.stalls.find 5 = some (snooping Op.rdShared [hw Op.snpShare true]) ∧
    (snooping Op.rdShared [hw Op.snpShare true]).role = Role.req ∧ (hw Op.snpShare true).holder = true ∧
    (hw Op.snpShare true).fmode = true ∧ (snooping Op.rdShared [hw Op.snpShare true]).absorbed = none ∧
    (snooping Op.rdShared [hw Op.snpShare true]).waits = [hw Op.snpShare true] ∧
    (snooping Op.rdShared [hw Op.snpShare true]).relay = none ∧ (snooping Op.rdShared [hw Op.snpShare true]).wbWait = none ∧
    (snooping Op.rdShared [hw Op.snpShare true]).evict = none ∧ (snooping Op.rdShared [hw Op.snpShare true]).hold = none ∧
    (snooping Op.rdShared [hw Op.snpShare true]).final = false ∧ (snooping Op.rdShared [hw Op.snpShare true]).ready = false ∧
    (snooping Op.rdShared [hw Op.snpShare true]).ackGot = false ∧ (snooping Op.rdShared [hw Op.snpShare true]).displ = false ∧
    (snooping Op.rdShared [hw Op.snpShare true]).code ≠ 1 ∧ (snooping Op.rdShared [hw Op.snpShare true]).req.src < 4 ∧
    s.awaitsCommit 5 = false ∧ s.dirHits (snooping Op.rdShared [hw Op.snpShare true]).h = [k7] ∧ s.dirs.find k7 = some (owned 2) ∧
    (owned 2).st = DState.x ∧ (owned 2).sh = Sharers.ptr (some (hw Op.snpShare true).who) none ∧
    (snooping Op.rdShared [hw Op.snpShare true]).req.q ≠ (hw Op.snpShare true).who ∧ Op.snpFwdO = Op.snpFwdO ∧
    (snooping Op.rdShared [hw Op.snpShare true]).req.op = Op.rdShared ∧ (hw Op.snpShare true).op = Op.snpShare :=
  ⟨calm_of (by simp) (by decide +kernel), by decide +kernel⟩
theorem witness_AcksClose_1 :
    let s : State := S [(5, waitsAck)] (queued ackP)
    s.calm ∧ ((s.arrival 0 fun o => o == Op.cmpAck) = some (item ackP)) ∧ s.ackStall (item ackP).p.src (item ackP).p.tag = some 5 ∧
    s.stalls.find 5 = some waitsAck ∧ waitsAck.waits = [] ∧ waitsAck.relay = none ∧ waitsAck.evict = none ∧
    waitsAck.wbWait = none ∧ waitsAck.recorded = true ∧ waitsAck.final = true ∧ waitsAck.ink = none ∧ waitsAck.req.cp = none ∧
    s.awaitsCommit 5 = false ∧ s.rcv.purge = [] :=
  ⟨calm_of (by simp) (by decide +kernel), by decide +kernel⟩
theorem witness_AcksClose_2 :
    let s : State := S [(5, ackEarly)] (queued ackP)
    s.calm ∧ ((s.arrival 0 fun o => o == Op.cmpAck) = some (item ackP)) ∧ s.ackStall (item ackP).p.src (item ackP).p.tag = some 5 ∧
    s.stalls.find 5 = some ackEarly ∧ ackEarly.waits ≠ [] ∧ ((ackEarly.waits.all fun w => !w.holder || w.asked) = true) :=
  ⟨calm_of (by simp) (by decide +kernel), by decide +kernel⟩
theorem witness_AcksClose_3 :
    let s : State := ackWindowSt
    s.calm ∧ ((s.arrival 0 fun o => o == Op.cmpAck) = some (item ackP)) ∧ s.ackStall (item ackP).p.src (item ackP).p.tag = some 5 ∧
    s.stalls.find 5 = some ackWindow ∧ ackWindow.waits = [ackW] ∧ ackW.holder = true ∧ ackW.st = WaitSt.window 4096 ∧
    ackW.op = Op.snpUnique ∧ ackWindow.req.op = Op.rdUnique ∧ ackWindow.relay = none ∧ ackWindow.evict = none ∧
    ackWindow.wbWait = none ∧ ackWindow.hold = none ∧ ackWindow.absorbed = none ∧ ackWindow.final = false ∧
    ackWindow.ready = false ∧ ackWindow.displ = false ∧ ackWindow.code ≠ 1 ∧ ackWindow.req.cp = none ∧ s.awaitsCommit 5 = false ∧
    s.rcv.purge = [] ∧ s.dirHits ackWindow.h = [k7] ∧ s.dirs.find k7 = some (owned 2) ∧ (owned 2).st = DState.x ∧
    (owned 2).sh = Sharers.ptr (some ackW.who) none ∧ ackWindow.req.q ≠ ackW.who :=
  ⟨calm_of (by simp) (by decide +kernel), by decide +kernel⟩
theorem witness_AcksClose_4 :
    let s : State := queued ackP
    s.calm ∧ ((s.arrival 0 fun o => o == Op.cmpAck) = some (item ackP)) ∧ s.ackStall (item ackP).p.src (item ackP).p.tag = none :=
  ⟨calm_of (by simp) (by decide +kernel), by decide +kernel⟩
theorem witness_AcksClose_5 :
    rlySt.calm ∧ (0 < 4 → Option.map (fun x => x.p) (rlySt.arrival 0 fun o => o == Op.rlyAck) = some rlyAckP) ∧
    (0 = 4 → Option.map (fun x => x.p) rlySt.ruBack.head? = some rlyAckP) ∧ BitVec.toNat rlyAckP.tag = Config.baseRly ∧
    rlySt.stalls.find Config.baseRly = some rlyStall ∧ rlyStall.role = Role.relay 5 ∧ rlyStall.req.line = rlyAckP.line ∧
    List.find? (fun v => v.who == rlyAckP.src && v.asked) rlyStall.waits = some rlyW ∧ bit rlyAckP.detail.toNat 22 = false ∧
    rlyStall.waits.erase rlyW = [] ∧ 5 ≠ Config.baseRly ∧ rlySt.stalls.find 5 = some parentSt ∧ parentSt.role = Role.req ∧
    parentSt.relay = some Config.baseRly ∧ parentSt.waits ≠ [] :=
  ⟨calm_of (by simp) (by decide +kernel), by decide +kernel⟩
theorem witness_AcksClose_6 :
    rlySelf.calm ∧ (4 < 4 → Option.map (fun x => x.p) (rlySelf.arrival 4 fun o => o == Op.rlyAck) = some rlyAckP) ∧
    (4 = 4 → Option.map (fun x => x.p) rlySelf.ruBack.head? = some rlyAckP) ∧ BitVec.toNat rlyAckP.tag = Config.baseRly ∧
    rlySelf.stalls.find Config.baseRly = some rlyStall ∧ rlyStall.role = Role.relay 5 ∧ rlyStall.req.line = rlyAckP.line ∧
    List.find? (fun v => v.who == rlyAckP.src && v.asked) rlyStall.waits = some rlyW ∧ bit rlyAckP.detail.toNat 22 = false ∧
    rlyStall.waits.erase rlyW = [] ∧ 5 ≠ Config.baseRly ∧ rlySelf.stalls.find 5 = some parentSt ∧ parentSt.role = Role.req ∧
    parentSt.relay = some Config.baseRly ∧ parentSt.waits ≠ [] :=
  ⟨calm_of (by simp) (by decide +kernel), by decide +kernel⟩
theorem witness_AcksClose_7 :
    rlyTwoSt.calm ∧ (0 < 4 → Option.map (fun x => x.p) (rlyTwoSt.arrival 0 fun o => o == Op.rlyAck) = some rlyAckP) ∧
    (0 = 4 → Option.map (fun x => x.p) rlyTwoSt.ruBack.head? = some rlyAckP) ∧ BitVec.toNat rlyAckP.tag = Config.baseRly ∧
    rlyTwoSt.stalls.find Config.baseRly = some rlyTwo ∧ rlyTwo.role = Role.relay 5 ∧ rlyTwo.req.line = rlyAckP.line ∧
    List.find? (fun v => v.who == rlyAckP.src && v.asked) rlyTwo.waits = some rlyW ∧ bit rlyAckP.detail.toNat 22 = false ∧
    rlyTwo.waits.erase rlyW ≠ [] ∧ 5 ≠ Config.baseRly ∧ rlyTwoSt.stalls.find 5 = some parentSt ∧ parentSt.role = Role.req :=
  ⟨calm_of (by simp) (by decide +kernel), by decide +kernel⟩
theorem witness_AcksClose_8 :
    rlyErrSt.calm ∧ (0 < 4 → Option.map (fun x => x.p) (rlyErrSt.arrival 0 fun o => o == Op.rlyAck) = some rlyErrP) ∧
    (0 = 4 → Option.map (fun x => x.p) rlyErrSt.ruBack.head? = some rlyErrP) ∧ BitVec.toNat rlyErrP.tag = Config.baseRly ∧
    rlyErrSt.stalls.find Config.baseRly = some rlyStall ∧ rlyStall.role = Role.relay 5 ∧ rlyStall.req.line = rlyErrP.line ∧
    List.find? (fun v => v.who == rlyErrP.src && v.asked) rlyStall.waits = some rlyW ∧ bit rlyErrP.detail.toNat 22 = true ∧
    rlyStall.waits = [rlyW] ∧ rlyW.resends < rlyErrSt.fld R.GLB_RCVCTL 8 2 :=
  ⟨calm_of (by simp) (by decide +kernel), by decide +kernel⟩
theorem witness_AcksClose_9 :
    let s : State := queued rlyAckP
    s.calm ∧ (0 < 4 → Option.map (fun x => x.p) (s.arrival 0 fun o => o == Op.rlyAck) = some rlyAckP) ∧
    (0 = 4 → Option.map (fun x => x.p) s.ruBack.head? = some rlyAckP) ∧ s.stalls.find (BitVec.toNat rlyAckP.tag) = none :=
  ⟨calm_of (by simp) (by decide +kernel), by decide +kernel⟩
theorem witness_AcksClose_10 :
    rlyLone.calm ∧ (4 < 4 → Option.map (fun x => x.p) (rlyLone.arrival 4 fun o => o == Op.rlyAck) = some rlyAckP) ∧
    (4 = 4 → Option.map (fun x => x.p) rlyLone.ruBack.head? = some rlyAckP) ∧
    rlyLone.stalls.find (BitVec.toNat rlyAckP.tag) = none :=
  ⟨calm_of (by simp) (by decide +kernel), by decide +kernel⟩
theorem witness_RelayUnit_1 :
    let s : State := ruSt (2 ^ 36 + 1)
    s.calm ∧ s.nextRly 0 = some (item (rlyInvP (2 ^ 36 + 1))) ∧ s.rlys.firstFree 0 Config.relaySlots = some 0 ∧
    s.ruDom (item (rlyInvP (2 ^ 36 + 1))).p.domain = some 0 ∧ rlyKind (item (rlyInvP (2 ^ 36 + 1))).p.detail < 3 ∧
    s.fanOut 0 (item (rlyInvP (2 ^ 36 + 1))).p.detail = [2] ∧ s.fence 2 = 0 ∧ (item (rlyInvP (2 ^ 36 + 1))).p.domain = s.domain ∧
    (s.route (s.toPhys 2)).isSome = true :=
  ⟨calm_of (by simp) (by decide +kernel), by decide +kernel⟩
theorem witness_RelayUnit_2 :
    memSt.calm ∧ memSt.nextMember 0 = some (item memP) ∧ BitVec.toNat (item memP).p.tag = 2048 + 0 ∧
    memSt.rlys.find 0 = some rlyOpen ∧ rlyOpen.port = 4 ∧
    rlyOpen.waits = [{ who := 2, op := Op.snpInv, fmode := false, holder := false, st := WaitSt.sent 1048576, resends := 0 }] ∧
    rlyOpen.inv.p.domain = memSt.domain ∧
    ({ who := 2, op := Op.snpInv, fmode := false, holder := false, st := WaitSt.sent 1048576, resends := 0 } : Wait).who = (item memP).p.src ∧
    rlyOpen.inv.p.line = (item memP).p.line ∧ (item memP).p.opcode = Op.snpAckI :=
  ⟨calm_of (by simp) (by decide +kernel), by decide +kernel⟩
theorem witness_ManagementMessages_1 :
    let s : State := queued (mgt Op.domainStop 9)
    s.calm ∧ s.nextMgt (0) Op.domainStop = some (item (mgt Op.domainStop 9)) ∧ (item (mgt Op.domainStop 9)).p.world = true ∧
    (item (mgt Op.domainStop 9)).p.domain = s.domain :=
  ⟨calm_of (by simp) (by decide +kernel), by decide +kernel⟩
theorem witness_ManagementMessages_2 :
    let s : State := queued (mgt Op.domainStop 9 false)
    s.calm ∧ s.nextMgt (0) Op.domainStop = some (item (mgt Op.domainStop 9 false)) ∧
    (item (mgt Op.domainStop 9 false)).p.world = false :=
  ⟨calm_of (by simp) (by decide +kernel), by decide +kernel⟩
theorem witness_ManagementMessages_3 :
    let s : State := queued (mgt Op.aliasSet (2 ^ 36 + 9 * 2 ^ 18 + 3))
    s.calm ∧ s.nextMgt (0) Op.aliasSet = some (item (mgt Op.aliasSet (2 ^ 36 + 9 * 2 ^ 18 + 3))) ∧
    (item (mgt Op.aliasSet (2 ^ 36 + 9 * 2 ^ 18 + 3))).p.world = true ∧
    (item (mgt Op.aliasSet (2 ^ 36 + 9 * 2 ^ 18 + 3))).p.domain = s.domain ∧
    3 = (item (mgt Op.aliasSet (2 ^ 36 + 9 * 2 ^ 18 + 3))).p.detail.toNat % 2 ^ 18 ∧
    9 = (item (mgt Op.aliasSet (2 ^ 36 + 9 * 2 ^ 18 + 3))).p.detail.toNat / 2 ^ 18 % 2 ^ 18 ∧
    true = bit (item (mgt Op.aliasSet (2 ^ 36 + 9 * 2 ^ 18 + 3))).p.detail.toNat 36 ∧ s.fenceIdx 3#18 = none :=
  ⟨calm_of (by simp) (by decide +kernel), by decide +kernel⟩
theorem witness_ManagementMessages_4 :
    let s : State := queued (mgt Op.aliasSet (2 ^ 36 + 3 * 2 ^ 18 + 3))
    s.calm ∧ s.nextMgt (0) Op.aliasSet = some (item (mgt Op.aliasSet (2 ^ 36 + 3 * 2 ^ 18 + 3))) ∧
    (item (mgt Op.aliasSet (2 ^ 36 + 3 * 2 ^ 18 + 3))).p.world = true ∧
    (item (mgt Op.aliasSet (2 ^ 36 + 3 * 2 ^ 18 + 3))).p.domain = s.domain ∧
    3 = (item (mgt Op.aliasSet (2 ^ 36 + 3 * 2 ^ 18 + 3))).p.detail.toNat % 2 ^ 18 ∧
    3 = (item (mgt Op.aliasSet (2 ^ 36 + 3 * 2 ^ 18 + 3))).p.detail.toNat / 2 ^ 18 % 2 ^ 18 ∧
    true = bit (item (mgt Op.aliasSet (2 ^ 36 + 3 * 2 ^ 18 + 3))).p.detail.toNat 36 ∧ s.fenceIdx 3#18 = none :=
  ⟨calm_of (by simp) (by decide +kernel), by decide +kernel⟩
theorem witness_ManagementMessages_5 :
    let s : State := queued (mgt Op.epochSwap 1) (withRegs [(R.RTE_EPOCHCTL, 2 ^ 7)] running)
    s.calm ∧ s.nextMgt (0) Op.epochSwap = some (item (mgt Op.epochSwap 1)) ∧ (item (mgt Op.epochSwap 1)).p.world = true ∧
    (item (mgt Op.epochSwap 1)).p.dst = s.homeId ∧ (item (mgt Op.epochSwap 1)).p.detail.toNat % 2 ≠ s.curEpoch ∧
    s.flag R.RTE_EPOCHCTL 7 = true ∧ s.swapState = 0 :=
  ⟨calm_of (by simp) (by decide +kernel), by decide +kernel⟩
theorem witness_ManagementMessages_6 :
    let s : State := queued (mgt Op.epochSwap 1)
    s.calm ∧ s.nextMgt (0) Op.epochSwap = some (item (mgt Op.epochSwap 1)) ∧ (item (mgt Op.epochSwap 1)).p.world = true ∧
    (item (mgt Op.epochSwap 1)).p.dst = s.homeId ∧ (item (mgt Op.epochSwap 1)).p.detail.toNat % 2 ≠ s.curEpoch ∧
    s.flag R.RTE_EPOCHCTL 7 = false :=
  ⟨calm_of (by simp) (by decide +kernel), by decide +kernel⟩
theorem witness_ManagementMessages_7 :
    swapAck.calm ∧ swapAck.nextMgt (0) Op.mgtAck = some (item (mgt Op.mgtAck 0)) ∧
    BitVec.toNat (item (mgt Op.mgtAck 0)).p.tag = 7 ∧ 7 < 64 ∧ swapAck.mgt.swapOut = [(7, 4096)] ∧ swapAck.mgt.swapNext = 64 ∧
    swapAck.mgt.swapFail = none ∧ swapAck.swapState = 1 :=
  ⟨calm_of (by simp) (by decide +kernel), by decide +kernel⟩
theorem witness_ManagementMessages_8 :
    let s : State := queued (mgt Op.mgtAck 0)
    s.calm ∧ s.nextMgt (0) Op.mgtAck = some (item (mgt Op.mgtAck 0)) ∧
    s.mgt.swapOut.find (BitVec.toNat (item (mgt Op.mgtAck 0)).p.tag) = none ∧ (item (mgt Op.mgtAck 0)).p.tag ≠ bcastTag :=
  ⟨calm_of (by simp) (by decide +kernel), by decide +kernel⟩
theorem witness_Timers_1 :
    let s : State := oneSt lateW
    s.calm ∧ 5 < 2048 ∧ s.stalls.find (5) = some (oneWait lateW) ∧ (oneWait lateW).waits = [lateW] ∧ lateW.op ≠ Op.rlyInv ∧
    lateW.fmode = true ∧ lateW.st = WaitSt.sent 4096 ∧ s.snpTmo ≤ elapsed 4096 s.tod ∧ s.fenceIdx lateW.who = none ∧
    s.fenceFree = some 0 ∧ (oneWait lateW).ackGot = false :=
  ⟨calm_of (by simp) (by decide +kernel), by decide +kernel⟩
theorem witness_Timers_2 :
    let s : State := S [(5, lateAck)]
    s.calm ∧ s.stalls.find 5 = some lateAck ∧ lateAck.role = Role.req ∧ lateAck.respAt = some 4096 ∧ lateAck.final = true ∧
    lateAck.req.acks = true ∧ lateAck.ackGot = false ∧ s.snpTmo ≤ elapsed 4096 s.tod ∧ s.fenceIdx lateAck.req.q = none ∧
    s.fenceFree = some 0 ∧ lateAck.waits = [] ∧ lateAck.relay = none ∧ lateAck.evict = none ∧ lateAck.wbWait = none ∧
    lateAck.recorded = true ∧ lateAck.ink = none ∧ lateAck.req.cp = none ∧ s.awaitsCommit 5 = false ∧ s.rcv.purge = [] :=
  ⟨calm_of (by simp) (by decide +kernel), by decide +kernel⟩
theorem witness_Timers_3 :
    let s : State := rlyLateSt 0
    s.calm ∧ s.stalls.find relayIdx.val = some (rlyLateStall 0) ∧ (rlyLateStall 0).waits = [rlyLate 0] ∧
    (rlyLate 0).op = Op.rlyInv ∧ (rlyLate 0).st = WaitSt.sent 4096 ∧ s.rlyTmo ≤ elapsed 4096 s.tod ∧
    (rlyLate 0).resends < s.fld R.GLB_RCVCTL 8 2 :=
  ⟨calm_of (by simp) (by decide +kernel), by decide +kernel⟩
theorem witness_Timers_4 :
    let s : State := rlyLateSt 3
    s.calm ∧ s.stalls.find relayIdx.val = some (rlyLateStall 3) ∧ (rlyLateStall 3).waits = [rlyLate 3] ∧
    (rlyLate 3).op = Op.rlyInv ∧ (rlyLate 3).st = WaitSt.sent 4096 ∧ s.rlyTmo ≤ elapsed 4096 s.tod ∧
    s.fld R.GLB_RCVCTL 8 2 ≤ (rlyLate 3).resends :=
  ⟨calm_of (by simp) (by decide +kernel), by decide +kernel⟩
theorem witness_Timers_5 :
    let s : State := oneSt resendW
    s.calm ∧ s.stalls.find 5 = some (oneWait resendW) ∧ (oneWait resendW).waits = [resendW] ∧ resendW.op ≠ Op.rlyInv ∧
    resendW.st = WaitSt.resend 4096 ∧ s.due 4096 = true ∧ s.fence resendW.who = 0 ∧ resendW.resends < s.fld R.GLB_RCVCTL 8 2 :=
  ⟨calm_of (by simp) (by decide +kernel), by decide +kernel⟩
theorem witness_Timers_6 :
    windowSt.calm ∧ windowSt.stalls.find 5 = some (oneWait windowW) ∧ (oneWait windowW).waits = [windowW] ∧
    windowW.st = WaitSt.window 4096 ∧ windowSt.snpTmo ≤ elapsed 4096 windowSt.tod ∧ windowW.holder = true ∧
    windowW.op ≠ Op.snpInv ∧ (oneWait windowW).absorbed = none ∧ windowSt.fence windowW.who = 1 :=
  ⟨calm_of (by simp) (by decide +kernel), by decide +kernel⟩
theorem witness_Flushes_1 :
    askedHigh.rcv.req = some 2 ∧ askedHigh.rcv.reqHigh = true ∧ askedHigh.fenceIdx 2 = some 3 ∧
    askedHigh.fld (fenceReg 3) 18 2 = 1 :=
  by decide +kernel
theorem witness_Flushes_2 :
    asked.rcv.req = some 2 ∧ asked.rcv.reqHigh = false ∧ asked.rcv.asks = [] :=
  by decide +kernel
theorem witness_Flushes_3 :
    askedMore.rcv.req = some 2 ∧ askedMore.rcv.reqHigh = false ∧ askedMore.rcv.asks = [4, 5] ∧ askedMore.faults = [] :=
  by decide +kernel
theorem witness_Flushes_4 :
    suspect15.canonical = true ∧ suspect15.faults = [] ∧ suspect15.rcv.rspAck = false ∧
    suspect15.fenceIdx (suspect15.toLog 2) = some 15 ∧ suspect15.fld (fenceReg 15) 18 2 = 1 ∧ suspect15.rcv.purge.length < 16 ∧
    suspect15.stalls = [] :=
  ⟨by simp, by decide +kernel⟩
theorem witness_Flushes_5 :
    running.canonical = true ∧ running.faults = [] ∧ running.rcv.rspAck = false ∧ running.fence (running.toLog 2) ≠ 1 :=
  ⟨by simp, by decide +kernel⟩
theorem witness_Flushes_6 :
    rspHigh.canonical = true ∧ rspHigh.faults = [] :=
  ⟨by simp, by decide +kernel⟩
theorem witness_Flushes_7 :
    flushLate.canonical = true ∧ flushLate.rcv.ackAt.find 15 = some 0 ∧ flushLate.fld (fenceReg 15) 18 2 = 1 ∧
    flushLate.fenceIdx (BitVec.ofNat 18 (flushLate.fld (fenceReg 15) 0 18)) = some 15 ∧
    usec (max 1 (flushLate.fld R.GLB_RCVCTL 0 8)) ≤ elapsed 0 flushLate.tod ∧ flushLate.rcv.purge.length < 16 ∧
    flushLate.stalls = [] :=
  ⟨by simp, by decide +kernel⟩
theorem witness_SlowWalks_1 :
    let s : State := purging [(2, 100, true)] [(fenceReg 0, 2 * 2 ^ 18 + 2), (R.DIR_PURGE_STATUS, 131071 * 2 ^ 6)] [(dirKey 131071 15, purgedEntry)]
    s.calm ∧ 131071 = s.fld R.DIR_PURGE_STATUS 6 17 ∧ 15 < s.lookupWays ∧ s.rcv.purge = [(2, 100, true)] ∧
    (true = true → 100 ≠ 131071) ∧ s.rcv.purgeWait = [] ∧ s.dirs = [(dirKey 131071 15, purgedEntry)] ∧ purgedEntry.st = DState.s ∧
    purgedEntry.sh = Sharers.ptr (some 2) none ∧ s.pinned (dirKey 131071 15) = false :=
  ⟨calm_of (by simp) (by decide +kernel), by decide +kernel⟩
theorem witness_SlowWalks_2 :
    let s : State := purging [(2, 131071, true)] [(fenceReg 0, 2 * 2 ^ 18 + 2), (R.DIR_PURGE_STATUS, 131071 * 2 ^ 6)] []
    s.calm ∧ s.rcv.purge = [(2, s.fld R.DIR_PURGE_STATUS 6 17, true)] ∧ s.rcv.purgeWait = [] ∧ s.fenceIdx 2 = some 0 ∧
    s.fld (fenceReg 0) 18 2 = 2 :=
  ⟨calm_of (by simp) (by decide +kernel), by decide +kernel⟩
theorem witness_SlowWalks_3 :
    let s : State := cleaning []
    s.calm ∧ s.wayState = 1 ∧ (∀ w : Nat, w < 8 → s.dirs.find (dirKey s.rcv.cleanPos (8 + w)) = none) :=
  ⟨calm_of (by simp) (by decide +kernel), by decide +kernel⟩
theorem witness_SlowWalks_4 :
    let s : State := cleaning [(dirKey 131071 15, cleanedEntry)]
    s.calm ∧ s.wayState = 1 ∧ 7 < 8 ∧ s.dirs = [(dirKey s.rcv.cleanPos (8 + 7), cleanedEntry)] ∧ cleanedEntry.st = DState.x ∧
    cleanedEntry.sh = Sharers.ptr (some 2) none ∧ s.fence 2 = 0 ∧ s.pinned (dirKey s.rcv.cleanPos (8 + 7)) = false ∧
    s.cleanOpen = 0 ∧ s.evicting (dirKey s.rcv.cleanPos (8 + 7)) = false ∧ (s.aStall 2).isSome = true ∧ s.inkFree.isSome = true :=
  ⟨calm_of (by simp) (by decide +kernel), by decide +kernel⟩
theorem witness_SlowWalks_5 :
    scrubbing.canonical = true ∧ scrubbing.flag R.DIR_STATUS 0 = true ∧ scrubbing.fld R.DIR_SCRUB 0 16 ≠ 0 ∧ 3 < 8 ∧
    2 < scrubbing.lookupWays ∧ nsec (32 * scrubbing.fld R.DIR_SCRUB 0 16) ≤ elapsed scrubbing.rcv.scrubAt scrubbing.tod ∧
    scrubbing.faults = [(0, dirKey (scrubbing.rcv.scrubSet * 8 + 3) 2, Chk.ce)] :=
  ⟨by simp, by decide +kernel⟩
theorem witness_SlowWalks_6 :
    let s : State := clearing 1
    s.canonical = true ∧ s.wayState = 3 :=
  ⟨by simp, by decide +kernel⟩
theorem witness_SlowWalks_7 :
    let s : State := clearing 0
    s.canonical = true ∧ s.wayState = 3 :=
  ⟨by simp, by decide +kernel⟩
theorem witness_MemoryCommandsAndCommits_1 :
    issueSt.calm ∧ issueSt.canRead 0 = true ∧ (issueSt.writeFirst 0 && issueSt.canWrite 0) = false ∧
    (issueSt.mp 0).reads = [rdW, rdT 0] ∧ rdW.tag = none ∧
    (List.find? (fun t => (issueSt.mp 0).reads.all fun r => r.tag != some t) (List.range 64) = some 1) :=
  ⟨calm_of (by simp) (by decide +kernel), by decide +kernel⟩
theorem witness_MemoryCommandsAndCommits_2 :
    copying.calm ∧ 0 + 1 = 1 ∧ copying.canRead 0 = false ∧ (copying.writeFirst 0 && copying.canWrite 0) = false ∧
    (copying.mp 1).copy = some copyStart ∧ copying.mpState 1 = 4 ∧ copying.copyLine (1) copyStart = some 0 ∧
    (List.find? (fun t => (copying.mp 0).reads.all fun r => r.tag != some t) (List.range 64) = some 0) ∧
    copying.mpPowered 0 = true ∧ copying.mpPresent 0 = true ∧ copying.mpState 0 = 1 ∧ 1 ≤ (copying.mp 0).rdCred ∧
    List.countP (fun r => r.copy) (copying.mp 0).reads < halfOf (copying.mp 0).rdCred (List.countP (fun r => r.tag.isSome) (copying.mp 0).reads) :=
  ⟨calm_of (by simp) (by decide +kernel), by decide +kernel⟩
theorem witness_MemoryCommandsAndCommits_3 :
    running.canRead 0 = false ∧ (running.mp (1 - 0)).copy = none ∨ (running.writeFirst 0 && running.canWrite 0) = true :=
  by decide +kernel
theorem witness_MemoryCommandsAndCommits_4 :
    writeSt.calm ∧ writeSt.canWrite 0 = true ∧ (writeSt.writeFirst 0 = true ∨ writeSt.canRead 0 = false) ∧
    writeSt.nextWrite 0 = some (511, slotF) ∧ (writeSt.mp 0).writes.firstFree 64 32 = some 64 :=
  ⟨calm_of (by simp) (by decide +kernel), by decide +kernel⟩
theorem witness_MemoryCommandsAndCommits_5 :
    copyRead.calm ∧ copyRead.canRead 1 = false ∧ copyRead.canWrite 1 = false ∧ (copyRead.mp 1).copy = some copyHas ∧
    copyHas.data = [(0, lineOf 3)] ∧ (copyRead.mp 1).writes.firstFree 64 32 = some 64 ∧ copyRead.mpState 1 = 4 ∧
    copyRead.mpPowered 1 = true ∧ copyRead.mpPresent 1 = true ∧ 1 ≤ (copyRead.mp 1).wrCred ∧
    List.countP (fun e => e.2.1 == Config.inkSlots) (copyRead.mp 1).writes < halfOf (copyRead.mp 1).wrCred (List.length (copyRead.mp 1).writes) :=
  ⟨calm_of (by simp) (by decide +kernel), by decide +kernel⟩
theorem witness_MemoryCommandsAndCommits_6 :
    running.canWrite 0 = false ∧ (running.mp 0).copy = none ∨ (running.writeFirst 0 && running.canWrite 0) = false ∧
    running.canRead 0 = true :=
  by decide +kernel
theorem witness_MemoryCommandsAndCommits_7 :
    let s : State := wrOut running (slotI [0] [0])
    s.calm ∧ (s.mp 0).writes.wf = true ∧ (s.mp 0).writes.find (95) = some (511, (slotI [0] [0]).seq, 4096) ∧
    511 ≠ Config.inkSlots ∧ s.ink.find 511 = some (slotI [0] [0]) ∧ List.filter (fun m => m != 0) (slotI [0] [0]).need = [] ∧
    (slotI [0] [0]).waiters = [] ∧ (slotI [0] [0]).cps = [] :=
  ⟨calm_of (by simp) (by decide +kernel), by decide +kernel⟩
theorem witness_MemoryCommandsAndCommits_8 :
    let s : State := wrOut running (slotI [0, 1] [0, 1])
    s.calm ∧ (s.mp 0).writes.wf = true ∧ (s.mp 0).writes.find (95) = some (511, (slotI [0, 1] [0, 1]).seq, 4096) ∧
    511 ≠ Config.inkSlots ∧ s.ink.find 511 = some (slotI [0, 1] [0, 1]) ∧
    List.filter (fun m => m != 0) (slotI [0, 1] [0, 1]).need ≠ [] :=
  ⟨calm_of (by simp) (by decide +kernel), by decide +kernel⟩
theorem witness_MemoryCommandsAndCommits_9 :
    let s : State := copyWritten
    s.calm ∧ (s.mp 1).writes.wf = true ∧ (s.mp 1).writes.find (95) = some (Config.inkSlots, 0, 4096) ∧
    (s.mp 1).copy = some copyBusy :=
  ⟨calm_of (by simp) (by decide +kernel), by decide +kernel⟩
theorem witness_MemoryCommandsAndCommits_10 :
    let s : State := creditAbsent
    s.canonical = true ∧ s.mpPresent 0 = true ∧ s.mpState 0 = 0 ∧ s.mpPowered 0 = true ∧
    (if true = true then (s.mp 0).seenRd else (s.mp 0).seenWr) = true :=
  ⟨by simp, by decide +kernel⟩
theorem witness_MemoryCommandsAndCommits_11 :
    running.canonical = true ∧ running.mpPresent 1 = true ∧ running.mpState 1 = 1 :=
  ⟨by simp, by decide +kernel⟩
theorem witness_MemoryCommandsAndCommits_12 :
    creditSt.canonical = true ∧ creditSt.mpPresent 0 = true ∧ creditSt.mpState 0 = 3 ∧
    (if true = true then (creditSt.mp 0).seenRd else (creditSt.mp 0).seenWr) = true ∧ (creditSt.mp 0).driven = false :=
  ⟨by simp, by decide +kernel⟩
theorem witness_MemoryData_1 :
    let s : State := dataSt shareSnoop
    s.calm ∧ List.find? (fun r => r.tag == some (63)) (s.mp 0).reads = some (rdT 63) ∧ (rdT 63).again = none ∧
    (rdT 63).copy = false ∧ (lineOf 8).ceCount = 0 ∧ (lineOf 8).ueCount = 0 ∧ s.stalls.find (rdT 63).stall = some shareSnoop ∧
    shareSnoop.role = Role.req ∧ shareSnoop.rd = RdSt.asked ∧ shareSnoop.h = (rdT 63).h ∧ shareSnoop.hold = none ∧
    shareSnoop.got = none ∧ shareSnoop.waits = [ow] :=
  ⟨calm_of (by simp) (by decide +kernel), by decide +kernel⟩
theorem witness_MemoryData_2 :
    let s : State := dataSt shareWait
    s.calm ∧ List.find? (fun r => r.tag == some (63)) (s.mp 0).reads = some (rdT 63) ∧ (rdT 63).again = none ∧
    (rdT 63).copy = false ∧ (lineOf 8).ceCount = 0 ∧ (lineOf 8).ueCount = 0 ∧ s.stalls.find (rdT 63).stall = some shareWait ∧
    shareWait.role = Role.req ∧ shareWait.rd = RdSt.asked ∧ shareWait.h = (rdT 63).h ∧ shareWait.hold = none ∧
    shareWait.got = none ∧ shareWait.waits = [] ∧ shareWait.relay = none ∧ shareWait.wbWait = none ∧ shareWait.evict = none ∧
    shareWait.out = some Out.direct ∧ shareWait.final = false ∧ shareWait.ready = false ∧ shareWait.ackGot = false ∧
    shareWait.code ≠ 1 ∧ shareWait.req.op = Op.rdShared ∧ shareWait.req.src < 4 ∧ shareWait.req.cp = none ∧
    shareWait.way = some k7 ∧ s.dirHits shareWait.h = [] ∧ s.awaitsCommit (rdT 63).stall = false ∧ s.reaches shareWait.req.q :=
  ⟨calm_of (by simp) (by decide +kernel), by decide +kernel⟩
theorem witness_MemoryPortStates_1 :
    let s : State := failSt mirrored
    s.calm ∧ s.mpPresent 0 = true ∧ s.mpState 0 = 1 ∧ s.strands 0 = false ∧ s.mpState (1 - 0) = 1 ∧ (s.mp 0).copy = none ∧
    (∀ e ∈ s.ink, e.2.ports.contains 0 = false) :=
  ⟨calm_of (by simp) (by decide +kernel), by decide +kernel⟩
theorem witness_MemoryPortStates_2 :
    let s : State := failSt running
    s.calm ∧ s.mpPresent 0 = true ∧ s.mpState 0 = 1 ∧ (s.strands 0 = true ∨ s.mpState (1 - 0) ≠ 1) :=
  ⟨calm_of (by simp) (by decide +kernel), by decide +kernel⟩
theorem witness_MemoryPortStates_3 :
    let s : State := failSt mirrored
    s.calm ∧ s.mpPresent 0 = true ∧ s.mpState 0 = 1 ∧ (∃ r ∈ (s.mp 0).reads, r.tag.isSome = true ∧
    s.mpTmo (0) 27 ≤ elapsed r.since s.tod) ∧ s.strands 0 = false ∧ s.mpState (1 - 0) = 1 ∧ (s.mp 0).copy = none ∧
    (∀ e ∈ s.ink, e.2.ports.contains 0 = false) :=
  ⟨calm_of (by simp) (by decide +kernel), by decide +kernel⟩
theorem witness_MemoryPortStates_4 :
    let s : State := failSt running
    s.calm ∧ s.mpPresent 0 = true ∧ s.mpState 0 = 1 ∧ (∃ r ∈ (s.mp 0).reads, r.tag.isSome = true ∧
    s.mpTmo (0) 27 ≤ elapsed r.since s.tod) ∧ (s.strands 0 = true ∨ s.mpState (1 - 0) ≠ 1) :=
  ⟨calm_of (by simp) (by decide +kernel), by decide +kernel⟩
theorem witness_MemoryPortStates_5 :
    let s : State := failSt mirrored
    s.calm ∧ s.mpPresent 0 = true ∧ s.mpState 0 = 1 ∧ (∃ e ∈ (s.mp 0).writes, s.mpTmo (0) 35 ≤ elapsed e.2.2.2 s.tod) ∧
    s.strands 0 = false ∧ s.mpState (1 - 0) = 1 ∧ (s.mp 0).copy = none ∧ (∀ e ∈ s.ink, e.2.ports.contains 0 = false) :=
  ⟨calm_of (by simp) (by decide +kernel), by decide +kernel⟩
theorem witness_MemoryPortStates_6 :
    let s : State := failSt running
    s.calm ∧ s.mpPresent 0 = true ∧ s.mpState 0 = 1 ∧ (∃ e ∈ (s.mp 0).writes, s.mpTmo (0) 35 ≤ elapsed e.2.2.2 s.tod) ∧
    (s.strands 0 = true ∨ s.mpState (1 - 0) ≠ 1) :=
  ⟨calm_of (by simp) (by decide +kernel), by decide +kernel⟩
theorem witness_MemoryPortStates_7 :
    let s : State := failSt mirrored
    s.calm ∧ s.mpPresent 0 = true ∧ s.mpState 0 = 1 ∧ ((s.mp 0).writes.find (95)).isSome = true ∧ s.strands 0 = false ∧
    s.mpState (1 - 0) = 1 ∧ (s.mp 0).copy = none ∧ (∀ e ∈ s.ink, e.2.ports.contains 0 = false) :=
  ⟨calm_of (by simp) (by decide +kernel), by decide +kernel⟩
theorem witness_MemoryPortStates_8 :
    let s : State := failSt running
    s.calm ∧ s.mpPresent 0 = true ∧ s.mpState 0 = 1 ∧ ((s.mp 0).writes.find (95)).isSome = true ∧
    (s.strands 0 = true ∨ s.mpState (1 - 0) ≠ 1) :=
  ⟨calm_of (by simp) (by decide +kernel), by decide +kernel⟩
theorem witness_MemoryPortStates_9 :
    oneFailed.calm ∧ (oneFailed.mpState 0 = 1 ∨ oneFailed.mpState 0 = 3) ∧ oneFailed.mpState (1 - 0) ≠ 1 ∧
    (oneFailed.mp 0).writes = [] :=
  ⟨calm_of (by simp) (by decide +kernel), by decide +kernel⟩
theorem witness_MemoryPortStates_10 :
    resetPort.calm ∧ (resetPort.mpState 0 = 1 ∨ resetPort.mpState 0 = 3) ∧ resetPort.mpState (1 - 0) ≠ 1 ∧
    (resetPort.mp 0).writes = [] :=
  ⟨calm_of (by simp) (by decide +kernel), by decide +kernel⟩
theorem witness_MemoryPortStates_11 :
    let s : State := mirroredReads
    s.calm ∧ s.mpState 0 = 1 ∧ s.mpState (1 - 0) = 1 ∧ (s.mp 0).writes = [] ∧ (∀ r ∈ (s.mp 0).reads, (s.portsOf r.h).length = 2) :=
  ⟨calm_of (by simp) (by decide +kernel), by decide +kernel⟩
theorem witness_MemoryPortStates_12 :
    resetWr.calm ∧ resetWr.mpState 0 = 1 ∧ (resetWr.mp 0).reads = [] ∧
    (resetWr.mp 0).writes = [(95, 511, (slotI [0] [0]).seq, 4096)] ∧ resetWr.ink.find 511 = some (slotI [0] [0]) ∧
    (∀ e ∈ resetWr.ink, e.1 ≠ 511 → e.2.h ≠ (slotI [0] [0]).h) :=
  ⟨calm_of (by simp) (by decide +kernel), by decide +kernel⟩
theorem witness_MemoryPortStates_13 :
    resyncing.calm ∧ resyncing.mpState 0 = 4 ∧ (∀ e ∈ resyncing.ink, e.2.ports.contains 0 = false) :=
  ⟨calm_of (by simp) (by decide +kernel), by decide +kernel⟩
theorem witness_MemoryPortStates_14 :
    absentPort.calm ∧ (absentPort.mpState 1 = 0 ∨ absentPort.mpState 1 = 2) :=
  ⟨calm_of (by simp) (by decide +kernel), by decide +kernel⟩
theorem witness_MemoryPortStates_15 :
    oneFailed.calm ∧ (oneFailed.mpState 1 = 0 ∨ oneFailed.mpState 1 = 2) :=
  ⟨calm_of (by simp) (by decide +kernel), by decide +kernel⟩
theorem witness_MemoryPortStates_16 :
    copyEnds.canonical = true ∧ copyEnds.chk = false ∧ copyEnds.mpState 1 = 4 ∧ copyEnds.copyOver 1 = true :=
  ⟨by simp, by decide +kernel⟩
theorem witness_MemoryPortStates_17 :
    copying.canonical = true ∧ copying.chk = false ∧ copying.mpState 1 = 4 ∧ copying.copyOver 1 = false :=
  ⟨by simp, by decide +kernel⟩
theorem witness_ChannelCommands_1 :
    cpSt.calm ∧ cpSt.cp.opened = true ∧ cpSt.link 4 = 1 ∧ cpSt.cpClass (cmd 1) = CpClass.fresh ∧
    cpSt.cp.opens.find (cmd 1).stream.val = none ∧ cpSt.cpHeld (cmd 1).stream = false ∧ cpSt.cp.opens.wf = true ∧
    [] = (cmd 1).data.fix ∧ cpBadWord (cmd 1) = none ∧ cpSt.aStall 0 = some 0 ∧ 1 ≤ cpSt.freeStalls 0 ∧
    cpSt.awaitsCommit 0 = false ∧ cpSt.hIdx (cmd 1).line = some 7 ∧ cpSt.denies (cpSt.flag R.SEC_WORLDCFG 4) (cmd 1).line = false ∧
    cpSt.quietLine 7 ∧ cpSt.claimed (cmd 1).line none = false ∧ 1 ≤ cpSt.inkRoom ∧ cpSt.inkFree = some 0 ∧ (cmd 1).op = 1 :=
  ⟨calm_of (by simp) (by decide +kernel), by decide +kernel⟩
theorem witness_ChannelCommands_2 :
    cpSt.calm ∧ cpSt.cp.opened = true ∧ cpSt.link 4 = 1 ∧ cpSt.cpClass (cmd 2 5 (lineOf 9)) = CpClass.fresh ∧
    cpSt.cp.opens.find (cmd 2 5 (lineOf 9)).stream.val = none ∧ cpSt.cpHeld (cmd 2 5 (lineOf 9)).stream = false ∧
    cpSt.cp.opens.wf = true ∧ lineOf 9 = (cmd 2 5 (lineOf 9)).data.fix ∧ cpBadWord (cmd 2 5 (lineOf 9)) = none ∧
    cpSt.aStall 0 = some 0 ∧ 1 ≤ cpSt.freeStalls 0 ∧ cpSt.awaitsCommit 0 = false ∧ cpSt.hIdx (cmd 2 5 (lineOf 9)).line = some 7 ∧
    cpSt.denies (cpSt.flag R.SEC_WORLDCFG 4) (cmd 2 5 (lineOf 9)).line = false ∧ cpSt.quietLine 7 ∧
    cpSt.claimed (cmd 2 5 (lineOf 9)).line none = false ∧ 1 ≤ cpSt.inkRoom ∧ cpSt.inkFree = some 0 ∧ (cmd 2 5 (lineOf 9)).op = 2 :=
  ⟨calm_of (by simp) (by decide +kernel), by decide +kernel⟩
theorem witness_ChannelCommands_3 :
    cpSt.calm ∧ cpSt.cp.opened = true ∧ cpSt.link 4 = 1 ∧ cpSt.cpClass (cmd 3 5 (lineOf 9) 1) = CpClass.fresh ∧
    cpSt.cp.opens.find (cmd 3 5 (lineOf 9) 1).stream.val = none ∧ cpSt.cpHeld (cmd 3 5 (lineOf 9) 1).stream = false ∧
    cpSt.cp.opens.wf = true ∧ lineOf 9 = (cmd 3 5 (lineOf 9) 1).data.fix ∧ cpBadWord (cmd 3 5 (lineOf 9) 1) = none ∧
    cpSt.aStall 0 = some 0 ∧ 1 ≤ cpSt.freeStalls 0 ∧ cpSt.awaitsCommit 0 = false ∧ cpSt.hIdx (cmd 3 5 (lineOf 9) 1).line = some 7 ∧
    cpSt.denies (cpSt.flag R.SEC_WORLDCFG 4) (cmd 3 5 (lineOf 9) 1).line = false ∧ cpSt.quietLine 7 ∧
    cpSt.claimed (cmd 3 5 (lineOf 9) 1).line none = false ∧ 1 ≤ cpSt.inkRoom ∧ cpSt.inkFree = some 0 ∧
    (cmd 3 5 (lineOf 9) 1).op = 3 :=
  ⟨calm_of (by simp) (by decide +kernel), by decide +kernel⟩
theorem witness_ChannelCommands_4 :
    cpSt.calm ∧ cpSt.cp.opened = true ∧ cpSt.link 4 = 1 ∧ cpSt.cpClass (cmd 4) = CpClass.fresh ∧
    cpSt.cp.opens.find (cmd 4).stream.val = none ∧ cpSt.cpHeld (cmd 4).stream = false ∧ cpSt.cp.opens.wf = true ∧
    cpSt.aStall 0 = some 0 ∧ 1 ≤ cpSt.freeStalls 0 ∧ cpSt.awaitsCommit 0 = false ∧ (cmd 4).op = 4 ∧ (cmd 4).data = [] ∧
    (∀ e ∈ cpSt.ink, ∀ p ∈ e.2.cps, p.1 ≠ (cmd 4).stream.val) :=
  ⟨calm_of (by simp) (by decide +kernel), by decide +kernel⟩
theorem witness_ChannelCommands_5 :
    (cpInk 4).calm ∧ (cpInk 4).cp.opened = true ∧ (cpInk 4).link 4 = 1 ∧ (cpInk 4).cpClass (cmd 4) = CpClass.fresh ∧
    (cpInk 4).cp.opens.find (cmd 4).stream.val = none ∧ (cpInk 4).cpHeld (cmd 4).stream = false ∧ (cpInk 4).cp.opens.wf = true ∧
    (cpInk 4).aStall 0 = some 0 ∧ 1 ≤ (cpInk 4).freeStalls 0 ∧ (cpInk 4).awaitsCommit 0 = false ∧ (cmd 4).op = 4 ∧
    (cmd 4).data = [] ∧ (∃ e ∈ (cpInk 4).ink, ((cmd 4).stream.val, (cmd 4).seq - 1) ∈ e.2.cps) :=
  ⟨calm_of (by simp) (by decide +kernel), by decide +kernel⟩
theorem witness_ChannelAnswersAndReset_1 :
    let s : State := withRegs [(cpReg 63, 5 + 65284 * 2 ^ 16)] running
    s.calm ∧ s.cp.opened = true ∧ s.link 4 = 1 ∧
    (Instr.cpRead (cmd 1) = Instr.cpRead (cmd 1) ∨ Instr.cpRead (cmd 1) = Instr.cpWrfull (cmd 1) ∨ Instr.cpRead (cmd 1) = Instr.cpWrpart (cmd 1) ∨ Instr.cpRead (cmd 1) = Instr.cpSync (cmd 1)) ∧
    (cpOpcode (cmd 1).op).isSome = true ∧ s.cpClass (cmd 1) = CpClass.window :=
  ⟨calm_of (by simp) (by decide +kernel), by decide +kernel⟩
theorem witness_ChannelAnswersAndReset_2 :
    cpSt.calm ∧ cpSt.cp.opened = true ∧ cpSt.link 4 = 1 ∧
    (Instr.cpWrfull (cmd 2 261) = Instr.cpRead (cmd 2 261) ∨ Instr.cpWrfull (cmd 2 261) = Instr.cpWrfull (cmd 2 261) ∨ Instr.cpWrfull (cmd 2 261) = Instr.cpWrpart (cmd 2 261) ∨ Instr.cpWrfull (cmd 2 261) = Instr.cpSync (cmd 2 261)) ∧
    (cpOpcode (cmd 2 261).op).isSome = true ∧ cpSt.cpClass (cmd 2 261) = CpClass.gap :=
  ⟨calm_of (by simp) (by decide +kernel), by decide +kernel⟩
theorem witness_ChannelAnswersAndReset_3 :
    cpSt.calm ∧ cpSt.cp.opened = true ∧ cpSt.link 4 = 1 ∧
    (Instr.cpWrpart (cmd 3 262) = Instr.cpRead (cmd 3 262) ∨ Instr.cpWrpart (cmd 3 262) = Instr.cpWrfull (cmd 3 262) ∨ Instr.cpWrpart (cmd 3 262) = Instr.cpWrpart (cmd 3 262) ∨ Instr.cpWrpart (cmd 3 262) = Instr.cpSync (cmd 3 262)) ∧
    (cpOpcode (cmd 3 262).op).isSome = true ∧ cpSt.cpClass (cmd 3 262) = CpClass.stale :=
  ⟨calm_of (by simp) (by decide +kernel), by decide +kernel⟩
theorem witness_ChannelAnswersAndReset_4 :
    cpSt.calm ∧ cpSt.cp.opened = true ∧ cpSt.link 4 = 1 ∧
    (Instr.cpSync (cmd 15) = Instr.cpRead (cmd 15) ∨ Instr.cpSync (cmd 15) = Instr.cpWrfull (cmd 15) ∨ Instr.cpSync (cmd 15) = Instr.cpWrpart (cmd 15) ∨ Instr.cpSync (cmd 15) = Instr.cpSync (cmd 15)) ∧
    cpOpcode (cmd 15).op = none :=
  ⟨calm_of (by simp) (by decide +kernel), by decide +kernel⟩
theorem witness_ChannelAnswersAndReset_5 :
    cpSt.calm ∧ cpSt.cp.opened = true ∧ cpSt.link 4 = 1 ∧
    (Instr.cpWrfull (cmd 2 4 (lineOf 1)) = Instr.cpRead (cmd 2 4 (lineOf 1)) ∨ Instr.cpWrfull (cmd 2 4 (lineOf 1)) = Instr.cpWrfull (cmd 2 4 (lineOf 1)) ∨ Instr.cpWrfull (cmd 2 4 (lineOf 1)) = Instr.cpWrpart (cmd 2 4 (lineOf 1)) ∨ Instr.cpWrfull (cmd 2 4 (lineOf 1)) = Instr.cpSync (cmd 2 4 (lineOf 1))) ∧
    ((cmd 2 4 (lineOf 1)).op = 2 ∨ (cmd 2 4 (lineOf 1)).op = 3) ∧ cpSt.cpClass (cmd 2 4 (lineOf 1)) = CpClass.dup ∧
    cpSt.cp.opens.find (cmd 2 4 (lineOf 1)).stream.val = none ∧ cpSt.cp.opens.wf = true :=
  ⟨calm_of (by simp) (by decide +kernel), by decide +kernel⟩
theorem witness_ChannelAnswersAndReset_6 :
    heldCp.calm ∧ heldCp.cp.retry = [(cmd 1 4, 0, false)] ∧
    heldCp.cp.opens.find (cmd 1 4).stream.val = some [{ seq := (cmd 1 4).seq, dup := false, stall := none, ans := none, acc := none }] ∧
    (cmd 1 4).op = 1 ∧ heldCp.aStall 0 = some 0 ∧ 1 ≤ heldCp.freeStalls 0 ∧ heldCp.awaitsCommit 0 = false ∧
    heldCp.hIdx (cmd 1 4).line = some 7 ∧ heldCp.denies (heldCp.flag R.SEC_WORLDCFG 4) (cmd 1 4).line = false ∧
    heldCp.quietLine 7 ∧ heldCp.claimed (cmd 1 4).line none = false :=
  ⟨calm_of (by simp) (by decide +kernel), by decide +kernel⟩
theorem witness_ChannelAnswersAndReset_7 :
    cpSt.canonical = true ∧ cpSt.isl 6 ≠ 3 ∧ cpSt.isl 6 ≠ 4 :=
  ⟨by simp, by decide +kernel⟩
theorem witness_StrokesExecute_1 :
    let s : State := strokeAlc (strk 0 0)
    s.calm ∧ s.rcv.purge = [] ∧ s.readyStrk = [5] ∧ s.stalls.find 5 = some (strkAlc (strk 0 0)) ∧
    (strkAlc (strk 0 0)).role = Role.req ∧ (strkAlc (strk 0 0)).req.src < 4 ∧
    opFlit (strk 0 0).data 0 = opFlit (strkAlc (strk 0 0)).req.data 0 ∧ s.reaches (strkAlc (strk 0 0)).req.q ∧
    (strkAlc (strk 0 0)).alc = some 63 ∧ (strkAlc (strk 0 0)).ink = none ∧ s.alc.find 63 = some alcE ∧
    (opFlit (strk 0 0).data 0).apply (alcE.data.word (opFlit (strk 0 0).data 0).word).fix = (0, DWord.gen 7) ∧
    (opFlit (strk 0 0).data 0).op ≠ 0 :=
  ⟨calm_of (by simp) (by decide +kernel), by decide +kernel⟩
theorem witness_StrokesExecute_2 :
    let s : State := strokeInk (strk 0 0)
    s.calm ∧ s.rcv.purge = [] ∧ s.readyStrk = [5, 6] ∧ s.stalls.find 5 = some (strkInk (strk 0 0)) ∧
    (strkInk (strk 0 0)).role = Role.req ∧ (strkInk (strk 0 0)).req.src < 4 ∧
    opFlit (strk 0 0).data 0 = opFlit (strkInk (strk 0 0)).req.data 0 ∧ s.reaches (strkInk (strk 0 0)).req.q ∧
    (strkInk (strk 0 0)).alc = none ∧ (strkInk (strk 0 0)).ink = some 511 ∧ (strkInk (strk 0 0)).got = some (lineOf 2) ∧
    s.ink.find 511 = some (slotR 7) ∧ s.inkOlder 511 (slotR 7).h = [] ∧
    (opFlit (strk 0 0).data 0).apply ((lineOf 2).word (opFlit (strk 0 0).data 0).word).fix = (0, DWord.gen 7) ∧
    (opFlit (strk 0 0).data 0).op ≠ 0 :=
  ⟨calm_of (by simp) (by decide +kernel), by decide +kernel⟩
theorem witness_StrokesExecute_3 :
    let s : State := strokeInk (strk 1 9)
    s.calm ∧ s.rcv.purge = [] ∧ s.readyStrk = [5, 6] ∧ s.stalls.find 5 = some (strkInk (strk 1 9)) ∧
    (strkInk (strk 1 9)).role = Role.req ∧ (strkInk (strk 1 9)).req.src < 4 ∧
    opFlit (strk 1 9).data 0 = opFlit (strkInk (strk 1 9)).req.data 0 ∧ s.reaches (strkInk (strk 1 9)).req.q ∧
    (strkInk (strk 1 9)).alc = none ∧ (strkInk (strk 1 9)).ink = some 511 ∧ (strkInk (strk 1 9)).got = some (lineOf 2) ∧
    s.ink.find 511 = some (slotR 7) ∧ s.inkOlder 511 (slotR 7).h = [] ∧
    (opFlit (strk 1 9).data 0).apply ((lineOf 2).word (opFlit (strk 1 9).data 0).word).fix = (1, DWord.gen 2) ∧
    (strkInk (strk 1 9)).out = some Out.direct :=
  ⟨calm_of (by simp) (by decide +kernel), by decide +kernel⟩
theorem witness_LigaturesExecute_1 :
    let s : State := ligRun (ligP 0 0) (2 ^ 48 - 1)
    s.calm ∧ s.rcv.purge = [] ∧ s.readyLig = [0] ∧ s.ligs.find 0 = some (aLig (ligP 0 0)) ∧ (aLig (ligP 0 0)).dead = false ∧
    (aLig (ligP 0 0)).bypass = true ∧ (aLig (ligP 0 0)).lines = [9] ∧ (aLig (ligP 0 0)).held = [(9, 5)] ∧
    (aLig (ligP 0 0)).jline = some (512, 6) ∧ (aLig (ligP 0 0)).inks = [] ∧ (aLig (ligP 0 0)).stalls = [5, 6] ∧ 5 ≠ 6 ∧ 0 ≠ 511 ∧
    opFlits (aLig (ligP 0 0)).req.data = [opFlit (ligP 0 0).data 0] ∧ (opFlit (ligP 0 0).data 0).isNote = false ∧
    (opFlit (ligP 0 0).data 0).line = 9 ∧ s.ringEn (ligRing (aLig (ligP 0 0)).req.detail) = true ∧
    s.ringFull (ligRing (aLig (ligP 0 0)).req.detail) = false ∧ s.stalls.find 5 = some (ligD (ligP 0 0) false) ∧
    s.stalls.find 6 = some (ligD (ligP 0 0) true) ∧ (ligD (ligP 0 0) false).alc = none ∧ (ligD (ligP 0 0) true).alc = none ∧
    (ligD (ligP 0 0) false).ink = some 0 ∧ (ligD (ligP 0 0) true).ink = some 511 ∧ (ligD (ligP 0 0) false).got = some (lineOf 2) ∧
    (ligD (ligP 0 0) true).got = some (lineOf 2) ∧ (ligD (ligP 0 0) false).out = some Out.direct ∧
    (ligD (ligP 0 0) true).out = some Out.direct ∧ (ligD (ligP 0 0) false).role = Role.lig 0 false ∧
    (ligD (ligP 0 0) true).role = Role.lig 0 true ∧ (ligD (ligP 0 0) false).evict = none ∧ s.ink.find 0 = some (slotR 9) ∧
    s.ink.find 511 = some (slotR 512) ∧ (slotR 9).h ≠ (slotR 512).h ∧ s.inkOlder 0 (slotR 9).h = [] ∧
    s.inkOlder 511 (slotR 512).h = [] ∧ (aLig (ligP 0 0)).req.src < 4 ∧ s.reaches (aLig (ligP 0 0)).req.q ∧
    (opFlit (ligP 0 0).data 0).apply ((lineOf 2).word (opFlit (ligP 0 0).data 0).word).fix = (0, DWord.gen 7) ∧
    (opFlit (ligP 0 0).data 0).op ≠ 0 :=
  ⟨calm_of (by simp) (by decide +kernel), by decide +kernel⟩
theorem witness_LigaturesExecute_2 :
    let s : State := ligRun (ligP 1 9) 4
    s.calm ∧ s.rcv.purge = [] ∧ s.readyLig = [0] ∧ s.ligs.find 0 = some (aLig (ligP 1 9)) ∧ (aLig (ligP 1 9)).dead = false ∧
    (aLig (ligP 1 9)).bypass = true ∧ (aLig (ligP 1 9)).lines = [9] ∧ (aLig (ligP 1 9)).held = [(9, 5)] ∧
    (aLig (ligP 1 9)).jline = some (512, 6) ∧ (aLig (ligP 1 9)).inks = [] ∧ (aLig (ligP 1 9)).stalls = [5, 6] ∧ 5 ≠ 6 ∧ 0 ≠ 511 ∧
    opFlits (aLig (ligP 1 9)).req.data = [opFlit (ligP 1 9).data 0] ∧ (opFlit (ligP 1 9).data 0).isNote = false ∧
    (opFlit (ligP 1 9).data 0).line = 9 ∧ s.ringEn (ligRing (aLig (ligP 1 9)).req.detail) = true ∧
    s.ringFull (ligRing (aLig (ligP 1 9)).req.detail) = false ∧ s.stalls.find 5 = some (ligD (ligP 1 9) false) ∧
    s.stalls.find 6 = some (ligD (ligP 1 9) true) ∧ (ligD (ligP 1 9) false).alc = none ∧ (ligD (ligP 1 9) true).alc = none ∧
    (ligD (ligP 1 9) false).ink = some 0 ∧ (ligD (ligP 1 9) true).ink = some 511 ∧ (ligD (ligP 1 9) false).got = some (lineOf 2) ∧
    (ligD (ligP 1 9) true).got = some (lineOf 2) ∧ (ligD (ligP 1 9) false).out = some Out.direct ∧
    (ligD (ligP 1 9) true).out = some Out.direct ∧ (ligD (ligP 1 9) false).role = Role.lig 0 false ∧
    (ligD (ligP 1 9) true).role = Role.lig 0 true ∧ (ligD (ligP 1 9) false).evict = none ∧ s.ink.find 0 = some (slotR 9) ∧
    s.ink.find 511 = some (slotR 512) ∧ (slotR 9).h ≠ (slotR 512).h ∧ s.inkOlder 0 (slotR 9).h = [] ∧
    s.inkOlder 511 (slotR 512).h = [] ∧ (aLig (ligP 1 9)).req.src < 4 ∧ s.reaches (aLig (ligP 1 9)).req.q ∧
    (opFlit (ligP 1 9).data 0).apply ((lineOf 2).word (opFlit (ligP 1 9).data 0).word).fix = (1, DWord.gen 2) :=
  ⟨calm_of (by simp) (by decide +kernel), by decide +kernel⟩
theorem witness_AlcWork_1 :
    moving.calm ∧ moving.moves = [aMove] ∧ moving.alc.find aMove.entry = some alcDirty ∧
    moving.ink.find aMove.slot = some (slotR 7) ∧ moving.inkOlder aMove.slot (slotR 7).h = [] ∧
    (∀ y ∈ moving.stalls, y.2.alc ≠ some aMove.entry) :=
  ⟨calm_of (by simp) (by decide +kernel), by decide +kernel⟩
theorem witness_AlcWork_2 :
    draining.calm ∧ draining.alcState = 2 ∧ draining.drainFree = some (63, alcE) :=
  ⟨calm_of (by simp) (by decide +kernel), by decide +kernel⟩
theorem witness_AlcWork_3 :
    let s : State := withRegs [(R.ALC_CTL, 6)] running
    s.canonical = true ∧ s.alcState = 3 :=
  ⟨by simp, by decide +kernel⟩
theorem witness_AlcWork_4 :
    let s : State := withRegs [(R.ALC_BANKPWR, 12583167)] running
    s.canonical = true ∧ s.bank 7 = 3 :=
  ⟨by simp, by decide +kernel⟩
theorem witness_AlcWork_5 :
    let s : State := withRegs [(R.ALC_BANKPWR, 12583039)] running
    s.canonical = true ∧ s.bank 7 = 3 :=
  ⟨by simp, by decide +kernel⟩
theorem witness_IslandPower_1 :
    (pst 0 2).canonical = true ∧ (pst 0 2).isl 0 = 2 ∧ (pst 0 2).drained 0 = true :=
  ⟨by simp, by decide +kernel⟩
theorem witness_IslandPower_2 :
    (pst 3 2).canonical = true ∧ (pst 3 2).isl 3 = 2 ∧ (pst 3 2).drained 3 = true :=
  ⟨by simp, by decide +kernel⟩
theorem witness_IslandPower_3 :
    (pst 5 2).canonical = true ∧ (pst 5 2).isl 5 = 2 ∧ (pst 5 2).drained 5 = true :=
  ⟨by simp, by decide +kernel⟩
theorem witness_IslandPower_4 :
    (pst 6 2).canonical = true ∧ (pst 6 2).isl 6 = 2 ∧ (pst 6 2).drained 6 = true :=
  ⟨by simp, by decide +kernel⟩
theorem witness_IslandPower_5 :
    (pst 7 2).canonical = true ∧ (pst 7 2).isl 7 = 2 ∧ (pst 7 2).drained 7 = true :=
  ⟨by simp, by decide +kernel⟩
theorem witness_IslandPower_6 :
    (pst 0 4).canonical = true ∧ (pst 0 4).isl 0 = 4 ∧
    (∀ (n : Fin 2), 4 + ↑n = 0 → (pst 0 4).mpState ↑n = 4 → ∀ e ∈ (pst 0 4).ink, e.2.ports.contains ↑n = false) :=
  ⟨by simp, by decide +kernel⟩
theorem witness_IslandPower_7 :
    let s : State := pst 0 4 [] unm
    s.canonical = true ∧ s.isl 0 = 4 ∧
    (∀ (n : Fin 2), 4 + ↑n = 0 → s.mpState ↑n = 4 → ∀ e ∈ s.ink, e.2.ports.contains ↑n = false) :=
  ⟨by simp, by decide +kernel⟩
theorem witness_IslandPower_8 :
    (pst 4 4).canonical = true ∧ (pst 4 4).isl 4 = 4 ∧
    (∀ (n : Fin 2), 4 + ↑n = 4 → (pst 4 4).mpState ↑n = 4 → ∀ e ∈ (pst 4 4).ink, e.2.ports.contains ↑n = false) :=
  ⟨by simp, by decide +kernel⟩
theorem witness_IslandPower_9 :
    let s : State := pst 5 4 [(mpBase R.MP_STATUS 1, 2)]
    s.canonical = true ∧ s.isl 5 = 4 ∧
    (∀ (n : Fin 2), 4 + ↑n = 5 → s.mpState ↑n = 4 → ∀ e ∈ s.ink, e.2.ports.contains ↑n = false) :=
  ⟨by simp, by decide +kernel⟩
theorem witness_IslandPower_10 :
    (pst 6 4).canonical = true ∧ (pst 6 4).isl 6 = 4 ∧
    (∀ (n : Fin 2), 4 + ↑n = 6 → (pst 6 4).mpState ↑n = 4 → ∀ e ∈ (pst 6 4).ink, e.2.ports.contains ↑n = false) :=
  ⟨by simp, by decide +kernel⟩
theorem witness_IslandPower_11 :
    let s : State := pst 7 4 [(R.BOOT_STATUS, 10)]
    s.canonical = true ∧ s.isl 7 = 4 ∧
    (∀ (n : Fin 2), 4 + ↑n = 7 → s.mpState ↑n = 4 → ∀ e ∈ s.ink, e.2.ports.contains ↑n = false) :=
  ⟨by simp, by decide +kernel⟩
theorem witness_IslandPower_12 :
    let s : State := withRegs [(R.ISL_CTL, 1039)] running
    s.canonical = true ∧ s.flag R.ISL_CTL 0 = true ∧ s.isl 0 = 0 ∧ s.islIdle 0 = true :=
  ⟨by simp, by decide +kernel⟩
theorem witness_IslandPower_13 :
    let s : State := withRegs [(R.ISL_CTL, 1024)] running
    s.canonical = true ∧ s.flag R.ISL_CTL 10 = true ∧ s.isl 10 = 0 ∧ s.islIdle 10 = true :=
  ⟨by simp, by decide +kernel⟩
theorem witness_IslandPower_14 :
    (pst 10 1).canonical = true ∧ (pst 10 1).isl 10 = 1 :=
  ⟨by simp, by decide +kernel⟩
theorem witness_ResetsLinksTime_1 :
    let s : State := withRegs [(R.ISL_RSTSTAT, 2 ^ 4)] running
    s.canonical = true ∧ s.flag R.ISL_RSTSTAT (1 + 3) = true ∧ s.link 3 ≠ 2 :=
  ⟨by simp, by decide +kernel⟩
theorem witness_ResetsLinksTime_2 :
    let s : State := withRegs [(R.ISL_RSTSTAT, 2 ^ 4), (R.NP_STATUS + 3072, 2)] running
    s.canonical = true ∧ s.flag R.ISL_RSTSTAT (1 + 3) = true ∧ s.link 3 = 2 :=
  ⟨by simp, by decide +kernel⟩
theorem witness_ResetsLinksTime_3 :
    let s : State := withRegs [(R.ISL_RSTSTAT, 2 ^ 6), (mpBase R.MP_STATUS 1, 3)] running
    s.canonical = true ∧ s.flag R.ISL_RSTSTAT (5 + 1) = true ∧ s.mpState 1 = 3 :=
  ⟨by simp, by decide +kernel⟩
theorem witness_ResetsLinksTime_4 :
    (withRegs [(R.ISL_RSTSTAT, 2 ^ 7)] running).flag R.ISL_RSTSTAT 7 = true :=
  by decide +kernel
theorem witness_ResetsLinksTime_5 :
    running.canonical = true ∧ running.isl 0 ≠ 3 ∧ running.isl 0 ≠ 4 :=
  ⟨by simp, by decide +kernel⟩
theorem witness_ResetsLinksTime_6 :
    let s : State := withRegs [(R.NP_STATUS + 3072, 3)] running
    s.canonical = true ∧ s.mayRun 3 = true :=
  ⟨by simp, by decide +kernel⟩
theorem witness_ResetsLinksTime_7 :
    dropCp.canonical = true ∧ dropCp.mayRun 4 = true :=
  ⟨by simp, by decide +kernel⟩
theorem witness_ResetsLinksTime_8 :
    let s : State := withRegs [(R.CP_STATUS, 0)] running
    s.canonical = true ∧ s.mayRun 4 = true :=
  ⟨by simp, by decide +kernel⟩
theorem witness_ResetsLinksTime_9 :
    running.link 0 = 1 ∧ (running.np 0).ans = [] ∧ (running.np 0).eg = [] :=
  by decide +kernel
theorem witness_ResetsLinksTime_10 :
    running.link 4 = 1 ∧ running.cp.eg = [] :=
  by decide +kernel
theorem witness_StartUp_1 :
    let s : State := State.reset
    s.canonical = true ∧ s.phase = 0 ∧ s.boot.domWait = false ∧ s.boot.testMode = false :=
  ⟨by simp, by decide +kernel⟩
theorem witness_StartUp_2 :
    let s : State := bootAt 1 id
    s.canonical = true ∧ s.phase = 1 ∧ (0 = 0 ∨ 0 = 16777215) :=
  ⟨by simp, by decide +kernel⟩
theorem witness_StartUp_3 :
    let s : State := bootAt 1 id
    s.canonical = true ∧ s.phase = 1 ∧ (16777215 = 0 ∨ 16777215 = 16777215) :=
  ⟨by simp, by decide +kernel⟩
theorem witness_StartUp_4 :
    let s : State := bootAt 1 id
    s.canonical = true ∧ s.phase = 1 ∧ 1193046 ≠ 0 ∧ 1193046 ≠ 16777215 :=
  ⟨by simp, by decide +kernel⟩
theorem witness_StartUp_5 :
    imgSt.canonical = true ∧ imgSt.phase = 2 ∧ imgSt.flag R.BOOT_STATUS 12 = false ∧ headerOk [] imgSt.boot.readable = false ∧
    imgSt.boot.altOff = none :=
  ⟨by simp, by decide +kernel⟩
theorem witness_StartUp_6 :
    imgAlt.canonical = true ∧ imgAlt.phase = 2 ∧ imgAlt.flag R.BOOT_STATUS 12 = false ∧ headerOk [] imgAlt.boot.readable = false ∧
    imgAlt.boot.altOff.isSome = true :=
  ⟨by simp, by decide +kernel⟩
theorem witness_StartUp_7 :
    imgSt.canonical = true ∧ imgSt.phase = 2 ∧ imgSt.flag R.BOOT_STATUS 12 = false ∧ headerOk image imgSt.boot.readable = true ∧
    tableOk image = true ∧ checkSections [] (List.foldr insertSection [] (imgSections image)) image = Except.ok image :=
  ⟨by simp, by decide +kernel⟩
theorem witness_StartUp_8 :
    let s : State := bootAt 3 id
    s.canonical = true ∧ s.phase = 3 ∧ 1 ≠ s.boot.digest ∧ s.boot.altOff = none :=
  ⟨by simp, by decide +kernel⟩
theorem witness_StartUp_9 :
    digestSt.canonical = true ∧ digestSt.phase = 3 ∧ 1 = digestSt.boot.digest ∧ imgWrites digestSt.boot.img = [] ∧
    digestSt.applyRefused = false :=
  ⟨by simp, by decide +kernel⟩
theorem witness_StartUp_10 :
    let s : State := bootAt 5 id [(R.BOOT_MUSTER, 1902816419 + 2 ^ 30)]
    s.canonical = true ∧ s.phase = 5 ∧ s.flag R.BOOT_CTL 0 = false ∧
    usec (100 * max 1 (s.fld R.BOOT_MUSTER 30 8)) ≤ elapsed s.boot.ostAt s.tod :=
  ⟨by simp, by decide +kernel⟩
theorem witness_StartUp_11 :
    ostWait.canonical = true ∧ ostWait.boot.ostRun = true ∧ ostWait.flag R.DIR_STATUS 0 = false ∧ ostWait.wayState = 0 ∧
    ostWait.flag R.BOOT_MUSTER 16 = true :=
  ⟨by simp, by decide +kernel⟩
theorem witness_MusterAndWarning_1 :
    let s : State := must id 6
    s.canonical = true ∧ s.phase = 6 ∧ s.flag R.BOOT_MUSTER 16 = true ∧ s.warn = false ∧ s.musterSkip 0 = false ∧
    s.powered 6 = true :=
  ⟨by simp, by decide +kernel⟩
theorem witness_MusterAndWarning_2 :
    musterNp.canonical = true ∧ musterNp.phase = 7 ∧ musterNp.warn = false ∧
    musterNp.musterDue musterNp.boot.nextPort ≤ elapsed musterNp.boot.musterAt musterNp.tod ∧ musterNp.boot.nextPort = 0 + 1 ∧
    musterNp.musterSkip (0 + 1) = false ∧ musterNp.powered 0 = true :=
  ⟨by simp, by decide +kernel⟩
theorem witness_MusterAndWarning_3 :
    musterEnd.canonical = true ∧ musterEnd.phase = 7 ∧ musterEnd.warn = false ∧
    musterEnd.musterDue musterEnd.boot.nextPort ≤ elapsed musterEnd.boot.musterAt musterEnd.tod ∧ musterEnd.boot.nextPort = 6 :=
  ⟨by simp, by decide +kernel⟩
theorem witness_MusterAndWarning_4 :
    lateRun.canonical = true ∧ lateRun.isOpen 0 = true ∧
    lateRun.rampDue (lateRun.np 0).openAt (lateRun.credStart 0 0) (lateRun.credMax 0 0) (lateRun.credNow 0 0) = true :=
  ⟨by simp, by decide +kernel⟩
theorem witness_MusterAndWarning_5 :
    lateRun.cp.opened = true ∧ lateRun.rampDue lateRun.cp.openAt 9 144 lateRun.cp.limit = true :=
  by decide +kernel
theorem witness_MusterAndWarning_6 :
    lateRun.phase = 8 ∧ usec (lateRun.fld R.BOOT_MUSTER 22 8) ≤ elapsed lateRun.boot.runAt lateRun.tod :=
  by decide +kernel
theorem witness_MusterAndWarning_7 :
    let s : State := withRegs [(R.ALC_CTL, 3)] running
    s.canonical = true ∧ s.warn = false :=
  ⟨by simp, by decide +kernel⟩
theorem witness_MusterAndWarning_8 :
    let s : State := withRegs [(R.ISL_PWRWARN, 1)] running
    s.canonical = true ∧ s.warn = true ∧ s.phase ≠ 7 :=
  ⟨by simp, by decide +kernel⟩
-- IndexAndRoute: no hypotheses logged
theorem witness_MusterAndWarning_9 :
    let s : State := withRegs [(R.ISL_PWRWARN, 1)] running
    s.warn = true ∧ s.chk = false ∧ s.cp.opened = true ∧ s.link 4 = 1 ∧ cpOpcode (cmd 0).op = none :=
  by decide +kernel
theorem witness_DamagedWords_1 :
    let s : State := damagedStall
    s.canonical = true ∧ s.chk = false ∧ ((s.arrival 0 fun o => o == Op.snpAckI) = some (item (ans Op.snpAckI))) ∧
    s.damage 4 (BitVec.toNat (item (ans Op.snpAckI)).p.tag) = some Chk.ue :=
  ⟨by simp, by decide +kernel⟩
theorem witness_DamagedWords_2 :
    damagedCam.canonical = true ∧ damagedCam.chk = false ∧ damagedCam.faults = [(6, 1023, Chk.ue)] ∧ damagedCam.link 0 = 1 ∧
    (rq Op.rdOnce).syn = 0 ∧ (rq Op.rdOnce).hopcnt = (rq Op.rdOnce).nhop ∧ (rq Op.rdOnce).nhop.toNat ≤ 12 ∧
    damagedCam.isOpen 0 = true ∧ (rq Op.rdOnce).dst = damagedCam.homeId :=
  ⟨by simp, by decide +kernel⟩
theorem witness_DamagedWords_3 :
    let s : State := damagedStore
    s.canonical = true ∧ s.chk = false ∧ s.faults = [(7, 0, Chk.ue)] ∧ (∀ x ∈ s.svc.stage, x.master = 1023) :=
  ⟨by simp, by decide +kernel⟩
theorem witness_DamagedWords_4 :
    let s : State := damagedTicket
    s.canonical = true ∧ s.damage 4 (tktSram 255) = some Chk.ce ∧ s.tickets.find 255 = none :=
  ⟨by simp, by decide +kernel⟩

end Sys2Proof.Tests
end

section
/-! SUPPORT. Every command but the two that set the time keeps what `Keeps` names: a lemma for each command whose effect is more
than one named operation, and from them the statements about commands and steps. -/

-- As in the tests: the compile of the one text stays within the threads of the sandbox.
set_option Elab.async false

namespace Sys2Proof.Machine

/-- Whatever next state an outcome answers, it keeps what `Keeps` names. -/
def NextKeeps (s : State) (o : Host.Outcome State Fault Refusal) : Prop := ∀ t, o = .next t → Keeps s t

theorem nextKeeps_next {s u : State} (h : Keeps s u) : NextKeeps s (.next u) := by
  rintro t ⟨⟩
  exact h

/-- What follows a command's own effect keeps what the effect has kept. -/
theorem nextKeeps_finish {s z u : State} (h : Keeps s u) : NextKeeps s (.next (finish z u)) := nextKeeps_next (finish_keeps h)

/-- A state that agrees with another in the fields that `Keeps` names keeps as much. -/
theorem Keeps.same {s0 s t : State} (h : Keeps s0 s) (win : t.win = s.win := by with_reducible rfl)
    (pending : t.pending = s.pending := by with_reducible rfl) (tod : t.tod = s.tod := by with_reducible rfl)
    (tx : t.tx = s.tx := by with_reducible rfl) (mpTx : t.mpTx = s.mpTx := by with_reducible rfl)
    (cpTx : t.cpTx = s.cpTx := by with_reducible rfl) (rcvTx : t.rcvTx = s.rcvTx := by with_reducible rfl) : Keeps s0 t where
  pending := pending.trans h.pending
  tod := tod.trans h.tod
  canonical hc := by simpa [State.canonical, win] using h.canonical hc
  tx := tx ▸ h.tx
  mpTx := mpTx ▸ h.mpTx
  cpTx := cpTx ▸ h.cpTx
  rcvTx := rcvTx ▸ h.rcvTx

/-! ### The service port -/

/-- A command of the service port keeps what the actions of its row keep. -/
theorem spCommand_keeps (s : State) (m : MasterId) (row : SpRow) :
    NextKeeps s (.next (finish s (s.spTake m row (fun t x => t.spDo x row)))) :=
  nextKeeps_finish (State.spTake_keeps (.refl s) m row fun _ x ht => State.spDo_keeps ht x row)

theorem execSpRequestAccept_keeps (a : SpAcc) (s : State) : NextKeeps s (execSpRequestAccept a s) := by
  have hr : Keeps s (s.ostRead a.master) := State.ostRead_keeps (.refl s) _
  exact nextKeeps_finish (keeps_ite hr (keeps_ite (State.spIdle_keeps hr.same) hr))

theorem execSpMasterReset_keeps (m : MasterId) (s : State) : NextKeeps s (execSpMasterReset m s) :=
  nextKeeps_next (keeps_ite (.refl s) (State.spIdle_keeps (State.masterReset_keeps (.refl s) m)))

/-! ### Snoops, relays and their timers -/

theorem execRlyInv_keeps (n : Fin 5) (s : State) : NextKeeps s (execRlyInv n s) := by
  refine nextKeeps_finish ?_
  split
  · exact State.rlyOpen_keeps (keeps_ite (Keeps.refl s).same (State.dropIn_keeps (.refl s) _ _ _)) _ _ _
  · exact .refl s

theorem execRelayMemberAnswer_keeps (n : Fin 4) (s : State) : NextKeeps s (execRelayMemberAnswer n s) := by
  refine nextKeeps_finish ?_
  split
  · exact State.memberAnswer_keeps (State.dropIn_keeps (.refl s) _ _ _) _ _
  · exact .refl s

/-- Taking the answer of a snooped agent from its port keeps what is named. -/
theorem snoopAnswer_arrival_keeps (s : State) (n : Nat) (op : BitVec 6) (f : Packet → Ans) :
    NextKeeps s (.next (finish s (s.onArrival n op (fun t p => t.snoopAnswer n p (f p))))) :=
  nextKeeps_finish (State.onArrival_keeps (.refl s) n op fun _ p ht => State.snoopAnswer_keeps ht n p _)

theorem execRlyAck_keeps (n : Fin 5) (s : State) : NextKeeps s (execRlyAck n s) := by
  refine nextKeeps_finish (keeps_ite ?_ (State.onArrival_keeps (.refl s) _ _ fun _ p ht => State.takeRlyAck_keeps ht _ p))
  split
  · exact State.takeRlyAck_keeps (Keeps.refl s).same _ _
  · exact .refl s

theorem execSnoopTimeout_keeps (tag : Tag) (who : EpId) (s : State) : NextKeeps s (execSnoopTimeout tag who s) := by
  refine nextKeeps_finish (keeps_ite (State.memberTimeout_keeps (.refl s) _ _)
    (State.reading_keeps (.refl s) _ _ fun t ht => ?_))
  split
  · split
    · split
      · exact keeps_ite (State.snoopLate_keeps ht _ _ _) ht
      · exact ht
    · exact ht
  · exact ht

theorem execCmpackTimeout_keeps (i : Fin 2048) (s : State) : NextKeeps s (execCmpackTimeout i s) := by
  refine nextKeeps_finish (State.reading_keeps (.refl s) _ _ fun t ht => ?_)
  split
  · split
    · exact keeps_ite (State.closeReq_keeps (State.updStall_keeps (State.suspect_keeps (State.addLate_keeps
        (State.note_keeps ht ..) ..) ..) ..) _) ht
    · exact ht
  · exact ht

theorem execRlyinvTimeout_keeps (i : Fin 2048) (relay : EpId) (s : State) : NextKeeps s (execRlyinvTimeout i relay s) := by
  refine nextKeeps_finish (State.reading_keeps (.refl s) _ _ fun t ht => ?_)
  split
  · split
    · split
      · exact keeps_ite (State.relayFail_keeps (State.addLate_keeps (State.ev_keeps ht ..) ..) ..) ht
      · exact ht
    · exact ht
  · exact ht

theorem execResendTimer_keeps (i : Fin 2048) (who : EpId) (s : State) : NextKeeps s (execResendTimer i who s) := by
  refine nextKeeps_finish (State.reading_keeps (.refl s) _ _ fun t ht => ?_)
  split
  · split
    · split
      · exact keeps_ite (keeps_ite (State.rlySend_keeps (State.redo_keeps (State.resent_keeps ht _) _) ..)
          (State.resendSnoop_keeps ht ..)) ht
      · exact ht
    · exact ht
  · exact ht

theorem execFwdWindowExpiry_keeps (i : Fin 2048) (s : State) : NextKeeps s (execFwdWindowExpiry i s) := by
  refine nextKeeps_finish (State.reading_keeps (.refl s) _ _ fun t ht => ?_)
  split
  · split
    · split
      · exact keeps_ite (State.onBehalf_keeps ht ..) ht
      · exact ht
    · exact ht
  · exact ht

/-! ### Requests, pen and tickets -/

theorem execEvictNote_keeps (n : Fin 4) (s : State) : NextKeeps s (execEvictNote n s) := by
  refine nextKeeps_finish ?_
  split
  · exact keeps_ite (State.takeNote_keeps (State.taken_keeps (State.dropIn_keeps (.refl s) ..) ..) ..) (.refl s)
  · exact .refl s

theorem execPenRedispatch_keeps (k : Fin 512) (s : State) : NextKeeps s (execPenRedispatch k s) := by
  refine nextKeeps_finish ?_
  split
  · exact keeps_ite (State.reading_keeps (.refl s) _ _ fun t ht => State.reading_keeps ht _ _ fun u hu =>
      State.redispatch_keeps hu ..) (.refl s)
  · exact .refl s

theorem execPenDeadline_keeps (k : Fin 512) (s : State) : NextKeeps s (execPenDeadline k s) := by
  refine nextKeeps_finish ?_
  split
  · exact State.reading_keeps (.refl s) _ _ fun t ht => State.reading_keeps ht _ _ fun u hu => State.expirePen_keeps hu ..
  · exact .refl s

theorem execTicketExpiry_keeps (k : Fin 256) (s : State) : NextKeeps s (execTicketExpiry k s) := by
  refine nextKeeps_finish (State.reading_keeps (.refl s) _ _ fun t ht => ?_)
  split
  · exact keeps_ite (keeps_foldl (State.ev_keeps (State.addFld_keeps ht.same ..) ..) fun _ _ hu => State.giveBack_keeps hu _) ht
  · exact ht

/-! ### Channel port and memory ports -/

theorem execMpRdTimeout_keeps (n : Fin 2) (s : State) : NextKeeps s (execMpRdTimeout n s) :=
  nextKeeps_finish (keeps_ite (State.failPort_keeps (State.addFld_keeps (.refl s) ..) ..) (.refl s))

theorem execMpWrTimeout_keeps (n : Fin 2) (s : State) : NextKeeps s (execMpWrTimeout n s) :=
  nextKeeps_finish (keeps_ite (State.failPort_keeps (State.addFld_keeps (.refl s) ..) ..) (.refl s))

theorem execMpWrDone_keeps (n : Fin 2) (tag : BitVec 7) (err : Bool) (s : State) : NextKeeps s (execMpWrDone n tag err s) := by
  refine nextKeeps_finish ?_
  dsimp only
  split
  · exact .refl s
  · have hm := fun p => State.setMp_keeps (.refl s) n.val p
    refine keeps_ite (State.failPort_keeps (hm _) ..) (keeps_ite (State.copyPut_keeps (State.ev_keeps (hm _) ..) ..) ?_)
    split
    · exact keeps_ite (State.portDone_keeps (State.ev_keeps (hm _) ..) ..) (hm _)
    · exact hm _

theorem execMpReadData_keeps (n : Fin 2) (tag : BitVec 7) (d : LineData) (err : Bool) (s : State) :
    NextKeeps s (execMpReadData n tag d err s) := by
  refine nextKeeps_finish ?_
  dsimp only
  split
  · exact .refl s
  · have hm := fun p a lo w x => State.maxFld_keeps (State.setMp_keeps (.refl s) n.val p) a lo w x
    exact State.returned_keeps (keeps_ite (State.ev_keeps (State.addFld_keeps (hm ..) ..) ..) (hm ..)) ..

theorem execResyncCopyDone_keeps (n : Fin 2) (s : State) : NextKeeps s (execResyncCopyDone n s) :=
  nextKeeps_finish (keeps_ite (State.setFlag_keeps (State.setFld_keeps (State.setMpState_keeps (State.setMp_keeps (.refl s) ..) ..)
    ..) ..) (.refl s))

/-! ### Management messages -/

theorem execEpochAckTimeout_keeps (k : Fin 64) (s : State) : NextKeeps s (execEpochAckTimeout k s) := by
  refine nextKeeps_finish ?_
  split
  · refine keeps_ite ?_ (.refl s)
    extract_lets -lift id _ u
    have hu : Keeps s u := by
      unfold u
      split
      · exact .refl s
      · exact State.note_keeps (Keeps.refl s).same ..
    exact State.swapGo_keeps hu.same
  · exact .refl s

theorem execEpochRetire_keeps (s : State) : NextKeeps s (execEpochRetire s) :=
  nextKeeps_finish (keeps_ite (State.ev_keeps (State.setFld_keeps (State.setFld_keeps (.refl s) ..) ..) ..) (.refl s))

theorem execBcastAckTimeout_keeps (who : EpId) (s : State) : NextKeeps s (execBcastAckTimeout who s) := by
  refine nextKeeps_finish ?_
  split
  · exact keeps_ite (State.bcastEnd_keeps (State.bcastPump_keeps (State.addFld_keeps (Keeps.refl s).same ..) _)) (.refl s)
  · exact .refl s

/-! ### Islands, links and resets -/

theorem execIslandPowerOff_keeps (i : Fin 8) (s : State) : NextKeeps s (execIslandPowerOff i s) := by
  have hi : Keeps s (s.islDone i.val 3) := State.islDone_keeps (.refl s) ..
  exact nextKeeps_finish (keeps_ite (keeps_ite (State.setNp_keeps (State.setFlag_keeps (State.setReg_keeps
    (State.setLink_keeps hi ..) ..) ..) ..) (keeps_ite (State.setLink_keeps hi ..) hi)) (.refl s))

theorem execFuncResetEnd_keeps (i : Fin 7) (s : State) : NextKeeps s (execFuncResetEnd i s) :=
  nextKeeps_finish (keeps_ite (keeps_ite (State.npResetEnd_keeps (.refl s) _) (keeps_ite (State.mpResetEnd_keeps (.refl s) _)
    (Keeps.refl s).same)) (.refl s))

theorem execLinkRun_keeps (n : Fin 5) (s : State) : NextKeeps s (execLinkRun n s) := by
  have hl : Keeps s (s.setLink n.val 1) := State.setLink_keeps (.refl s) ..
  have hc := fun b v => State.setFlag_keeps (s := { s.setLink n.val 1 with cp := { (s.setLink n.val 1).cp with cred := 0, spent := 0 } })
    hl.same R.ISL_RSTSTAT b v
  exact nextKeeps_finish (keeps_ite (keeps_ite (keeps_ite (State.cpAckAll_keeps (hc ..)) (hc ..))
    (State.settleIn_keeps (State.loseCredits_keeps hl _) _)) (.refl s))

theorem execLinkPartnerReset_keeps (n : Fin 4) (s : State) : NextKeeps s (execLinkPartnerReset n s) :=
  nextKeeps_finish (keeps_ite (.refl s) (State.note_keeps (State.loseCredits_keeps (State.setLink_keeps (.refl s) ..) _) ..))

theorem execLinkCreditReturn_keeps (n : Fin 5) (k : Fin 6) (s : State) : NextKeeps s (execLinkCreditReturn n k s) :=
  nextKeeps_finish (keeps_ite (keeps_ite (State.cpPump_keeps (Keeps.refl s).same)
    (State.pump_keeps (State.setNp_keeps (.refl s) ..) _)) (.refl s))

theorem execWakeLate_keeps (i : Fin 11) (s : State) : NextKeeps s (execWakeLate i s) :=
  nextKeeps_finish (keeps_ite (State.note_keeps (State.setFld_keeps (State.addFld_keeps (.refl s) ..) ..) ..) (.refl s))

/-! ### Ledger and ALC -/

theorem execStrokeExecute_keeps (s : State) : NextKeeps s (execStrokeExecute s) := by
  refine nextKeeps_finish ?_
  split
  · exact keeps_ite (.refl s) (State.strokeRun_keeps (Keeps.refl s).same _)
  · exact .refl s

theorem execLigatureExecute_keeps (s : State) : NextKeeps s (execLigatureExecute s) := by
  refine nextKeeps_finish ?_
  split
  · exact keeps_ite (.refl s) (State.ligRun_keeps (Keeps.refl s).same _)
  · exact .refl s

theorem execAlcMoveDone_keeps (s : State) : NextKeeps s (execAlcMoveDone s) := by
  refine nextKeeps_finish ?_
  split
  · exact keeps_ite (.refl s) (State.moveDone_keeps (.refl s) _)
  · exact .refl s

theorem execAlcDrainFree_keeps (s : State) : NextKeeps s (execAlcDrainFree s) := by
  refine nextKeeps_finish (keeps_ite ?_ (.refl s))
  split
  · exact State.alcFree_keeps (.refl s) _
  · exact .refl s

theorem execAlcInvalidateDone_keeps (s : State) : NextKeeps s (execAlcInvalidateDone s) :=
  nextKeeps_finish (keeps_ite (State.setFlag_keeps (State.setFld_keeps (State.tagsWritten_keeps (Keeps.refl s).same _) ..) ..)
    (.refl s))

theorem execBankClearDone_keeps (b : Fin 8) (s : State) : NextKeeps s (execBankClearDone b s) := by
  refine nextKeeps_finish (keeps_ite ?_ (.refl s))
  extract_lets -lift t u
  have hu : Keeps s u := State.setFlag_keeps (State.setBank_keeps (State.tagsWritten_keeps (Keeps.refl s).same _) ..) ..
  exact keeps_ite hu (State.setBank_keeps hu ..)

/-! ### Muster, power warning and start-up -/

theorem execCreditRampStep_keeps (n : Fin 5) (k : Fin 6) (s : State) : NextKeeps s (execCreditRampStep n k s) :=
  nextKeeps_finish (keeps_ite (keeps_ite (Keeps.refl s).same (.refl s))
    (keeps_ite (State.settleIn_keeps (State.setCredNow_keeps (.refl s) ..) _) (.refl s)))

theorem execPwrWarnAssert_keeps (s : State) : NextKeeps s (execPwrWarnAssert s) :=
  nextKeeps_finish (keeps_ite (.refl s)
    (State.alcDrain_keeps (State.setFld_keeps (State.setFlag_keeps (.refl s) R.ISL_PWRWARN 0 true) R.ISL_PWRWARN 18 24 0).same))

theorem execPwrWarnDeassert_keeps (s : State) : NextKeeps s (execPwrWarnDeassert s) := by
  refine nextKeeps_finish (keeps_ite ?_ (.refl s))
  extract_lets -lift _ t held _ u w
  have ht : Keeps s t := State.addFld_keeps (State.setFlag_keeps (Keeps.refl s).same ..) ..
  have hw : Keeps s w := keeps_foldl ht.same fun _ _ hv => keeps_ite (State.setNp_keeps hv ..) hv
  exact keeps_ite (keeps_ite (State.openCp_keeps hw) (keeps_ite hw.same hw)) ht

theorem execPowerOnRelease_keeps (cfg : BitVec 3) (test : Bool) (s : State) : NextKeeps s (execPowerOnRelease cfg test s) :=
  nextKeeps_finish (keeps_ite (keeps_ite (Keeps.refl s).same (State.setPhase_keeps (Keeps.refl s).same _)) (.refl s))

theorem execFlashDiscoveryDone_keeps (j : BitVec 24) (p : Option Sfdp) (s : State) :
    NextKeeps s (execFlashDiscoveryDone j p s) := by
  have hj := fun v => State.setReg_keeps (.refl s) R.BOOT_FPINFO v
  exact nextKeeps_finish (keeps_ite (keeps_ite (State.bootFail_keeps (hj _) _) (State.setPhase_keeps (hj _).same _)) (.refl s))

theorem execImageLoadDone_keeps (img again : List Byte) (req : Bool) (s : State) :
    NextKeeps s (execImageLoadDone img again req s) := by
  refine nextKeeps_finish (keeps_ite (keeps_ite (State.imageFail_keeps (.refl s) ..)
    (keeps_ite (State.imageFail_keeps (.refl s) ..) ?_)) (.refl s))
  split
  · exact State.imageGood_keeps (.refl s) ..
  · exact State.imageFail_keeps (keeps_ite (State.setReg_keeps (.refl s) ..) (.refl s)) ..

theorem execDigestCompare_keeps (d : BitVec 256) (s : State) : NextKeeps s (execDigestCompare d s) :=
  nextKeeps_finish (keeps_ite (keeps_ite (State.apply_keeps (State.setFlag_keeps (.refl s) ..)) (State.imageFail_keeps (.refl s) ..))
    (.refl s))

theorem execDirectoryClearDone_keeps (s : State) : NextKeeps s (execDirectoryClearDone s) :=
  nextKeeps_finish (keeps_ite (State.readyCheck_keeps (State.setFlag_keeps (Keeps.refl s).same ..)) (.refl s))

/-! ### Recovery -/

theorem execFlushRequestAck_keeps (level : Bool) (s : State) : NextKeeps s (execFlushRequestAck level s) := by
  refine nextKeeps_finish ?_
  split
  · exact keeps_ite (Keeps.refl s).same (keeps_ite (State.flushPump_keeps (Keeps.refl s).same) (.refl s))
  · exact .refl s

theorem execFlushOutcome_keeps (id : EpId) (code : Option (BitVec 2)) (s : State) : NextKeeps s (execFlushOutcome id code s) := by
  refine nextKeeps_finish ?_
  split
  · exact keeps_ite (.refl s) (State.flushTold_keeps (Keeps.refl s).same ..)
  · exact (Keeps.refl s).same

theorem execFlushTimeout_keeps (k : Fin 16) (s : State) : NextKeeps s (execFlushTimeout k s) := by
  refine nextKeeps_finish ?_
  split
  · exact keeps_ite (State.outcome_keeps (.refl s) ..) (.refl s)
  · exact .refl s

theorem execWayClearDone_keeps (s : State) : NextKeeps s (execWayClearDone s) := by
  refine nextKeeps_finish (keeps_ite ?_ (.refl s))
  extract_lets -lift t u
  have hu : Keeps s u := State.setFlag_keeps (State.setFld_keeps (Keeps.refl s).same ..) ..
  exact keeps_ite hu (State.setFld_keeps hu ..)

/-! ### Notice queue, dumps and test access -/

theorem execNqRecordWrite_keeps (s : State) : NextKeeps s (execNqRecordWrite s) := by
  refine nextKeeps_next ?_
  split
  · exact .refl s
  · exact keeps_ite (.refl s) (keeps_ite (State.nqPut_keeps (Keeps.refl s).same _) (State.nqDrop_keeps (Keeps.refl s).same))

theorem execGapRecordWrite_keeps (s : State) : NextKeeps s (execGapRecordWrite s) :=
  nextKeeps_next (keeps_ite (State.setFlag_keeps (State.nqPut_keeps (.refl s)
    [BitVec.ofNat 64 (min s.svc.gap 0x1FFFFF * 1024)]) R.NQ_STATUS 23 false).same (.refl s))

theorem execDumpDue_keeps (s : State) : NextKeeps s (execDumpDue s) := by
  refine nextKeeps_next (keeps_ite ?_ (.refl s))
  extract_lets -lift _ _ t
  have ht : Keeps s t := keeps_ite (.refl s) (keeps_ite (State.addFld_keeps (.refl s) R.PMC_STATUS 3 16 1).same
    (State.snapshot_keeps (.refl s)))
  exact ht.same

theorem execDumpLineWrite_keeps (s : State) : NextKeeps s (execDumpLineWrite s) := by
  refine nextKeeps_finish ?_
  split
  · split
    · refine keeps_ite (.refl s) ?_
      exact keeps_ite (State.viol_keeps (.refl s) _ 6 0 _ _ 0 0 0).same (State.dispatch_keeps (.refl s) ..)
    · exact .refl s
  · exact .refl s

theorem execBistStart_keeps (ctl : BitVec 16) (s : State) : NextKeeps s (execBistStart ctl s) :=
  nextKeeps_next (keeps_ite (Keeps.refl s).same (.refl s))

theorem execBistDone_keeps (fail : Bool) (k : BitVec 12) (a : BitVec 50) (s : State) : NextKeeps s (execBistDone fail k a s) :=
  nextKeeps_next (keeps_ite (Keeps.refl s).same (.refl s))

end Sys2Proof.Machine
end

section
/-! What every command and every step keeps: the cases of the commands put together, and the statements O3 and O4. -/

-- As in the tests: the compile of the one text stays within the threads of the sandbox.
set_option Elab.async false

namespace Sys2Proof.Machine

/-- A command that does not set the time keeps what `Keeps` names (R18). -/
theorem exec_keeps (c : Instr) (s : State) (hr : c ≠ .powerOnReset) (hd : ∀ d, c ≠ .todPublish d) : NextKeeps s (exec c s) := by
  have h : Keeps s s := .refl s
  cases c with
  | powerOnReset => exact absurd rfl hr
  | todPublish d => exact absurd rfl (hd d)
  -- network ports
  | niIngress n p => exact nextKeeps_finish (State.receive_keeps h _ _)
  | rdShared n | rdUnique n | upgrade n | claimZero n | rdOnce n | wrFull n | wrPart n | stroke n | ligature n | sync n =>
    exact nextKeeps_finish (State.request_keeps h _ _)
  | wbDirty n | wbRetryOffer n => exact nextKeeps_finish (State.offerWb_keeps h _)
  | evictNote n => exact execEvictNote_keeps n s
  | snpAckI n | snpAckS n | snpFwdI n | snpFwdO n | snpWbPend n | snpDataI n | snpDataO n =>
    exact snoopAnswer_arrival_keeps s n.val _ _
  | rlyAck n => exact execRlyAck_keeps n s
  | cmpAck n => exact nextKeeps_finish (State.onArrival_keeps h _ _ fun _ _ ht => State.takeAck_keeps ht _ _)
  | rlyInv n => exact execRlyInv_keeps n s
  | relayMemberAnswer n => exact execRelayMemberAnswer_keeps n s
  | domainStopReceived n => exact nextKeeps_finish (State.onMgt_keeps h _ _ fun _ _ ht => State.takeStop_keeps ht _ _)
  | aliasSetReceived n => exact nextKeeps_finish (State.onMgt_keeps h _ _ fun _ _ ht => State.takeAlias_keeps ht _ _)
  | epochSwapReceived n => exact nextKeeps_finish (State.onMgt_keeps h _ _ fun _ _ ht => State.takeSwap_keeps ht _ _)
  | mgtAck n => exact nextKeeps_finish (State.onMgt_keeps h _ _ fun _ _ ht => State.takeMgtAck_keeps ht _)
  -- pen, tickets and timers
  | penRedispatch k => exact execPenRedispatch_keeps k s
  | penDeadline k => exact execPenDeadline_keeps k s
  | ticketExpiry k => exact execTicketExpiry_keeps k s
  | snoopTimeout tag who => exact execSnoopTimeout_keeps tag who s
  | cmpackTimeout i => exact execCmpackTimeout_keeps i s
  | rlyinvTimeout i who => exact execRlyinvTimeout_keeps i who s
  | resendTimer i who => exact execResendTimer_keeps i who s
  | fwdWindowExpiry i => exact execFwdWindowExpiry_keeps i s
  -- recovery and upkeep of the directory
  | flushRequestAck level => exact execFlushRequestAck_keeps level s
  | flushOutcome id code => exact execFlushOutcome_keeps id code s
  | flushTimeout k => exact execFlushTimeout_keeps k s
  | purgeWalkVisit => exact nextKeeps_finish (State.purgeVisit_keeps h)
  | cleanerVisit => exact nextKeeps_finish (State.cleanVisit_keeps h)
  | scrubRead => exact nextKeeps_finish (keeps_ite (State.scrub_keeps h) h)
  | wayClearDone => exact execWayClearDone_keeps s
  -- memory ports
  | mpReadIssue n => exact nextKeeps_finish (keeps_ite h (keeps_ite (State.issueRead_keeps h _) (State.copyRead_keeps h _)))
  | inkWriteIssue n => exact nextKeeps_finish (keeps_ite h (keeps_ite (State.issueWrite_keeps h _) (State.copyWrite_keeps h _)))
  | mpReadData n tag d err => exact execMpReadData_keeps n tag d err s
  | mpWrDone n tag err => exact execMpWrDone_keeps n tag err s
  | mpCmdCredit n write => exact nextKeeps_finish (State.mpBack_keeps (State.setMp_keeps h _ _) _)
  | mpFail n => exact nextKeeps_finish (State.failPort_keeps h _ _)
  | mpRdTimeout n => exact execMpRdTimeout_keeps n s
  | mpWrTimeout n => exact execMpWrTimeout_keeps n s
  | mpCtrlRst n => exact nextKeeps_finish (State.mpReset_keeps h _ _)
  | resyncCopyDone n => exact execResyncCopyDone_keeps n s
  -- channel port
  | cpRead c | cpWrfull c | cpWrpart c | cpSync c => exact nextKeeps_finish (State.cpCommand_keeps h _)
  | cpCommandRetry st => exact nextKeeps_finish (keeps_ite h (State.cpAgain_keeps h _))
  | cpLinkRst => exact nextKeeps_finish (keeps_ite h (State.cpReset_keeps h _))
  -- ledger and ALC
  | strokeExecute => exact execStrokeExecute_keeps s
  | ligatureExecute => exact execLigatureExecute_keeps s
  | alcMoveDone => exact execAlcMoveDone_keeps s
  | alcDrainFree => exact execAlcDrainFree_keeps s
  | alcInvalidateDone => exact execAlcInvalidateDone_keeps s
  | bankClearDone b => exact execBankClearDone_keeps b s
  -- the service port
  | waypwrReq m | inspSel m | alcInspSel m | jheadWrite m | ringEnable m | alcInv m | alcEnable m | alcDisable m | bankpwrReq m
  | preload m | preloadZero m | preloadAndLock m | flush m | epochSwapGo m | aliasSet m | aliasRemove m | routeEntryWrite m
  | mpCtlFail m | resync m | streamRst m | regionEnable m | fenceSuspect m | fenceFlushed m | fenceNoflush m | fenceRelease m
  | chkcmdGo m | spareSet m | spareRemove m | homeidWrite m | powerDownReq m | powerUpReq m | rstcmdFunc m | rstcmdDomain m
  | ostready m | bootRetry m | mbxBind m | mbxPost m | mbxTake m | railAcquire m | railRelease m | railForce m | nqPost m | nqRead m
  | nqMark m | nqRewind m | nqRelease m | dumpNow m | dumpEnable m | dumpheadWrite m | fselWrite m | blotSel m | blotClear m
  | blotFfRearm m | registerWrite m | registerReadClear m => exact spCommand_keeps s m _
  | spRequestAccept a => exact execSpRequestAccept_keeps a s
  | spMasterReset m => exact execSpMasterReset_keeps m s
  | railAbortPulseEnd k => exact nextKeeps_next h.same
  -- management messages
  | epochAckTimeout k => exact execEpochAckTimeout_keeps k s
  | epochRetire => exact execEpochRetire_keeps s
  | bcastAckTimeout who => exact execBcastAckTimeout_keeps who s
  -- islands, links and resets
  | islandPowerOff i => exact execIslandPowerOff_keeps i s
  | islandWakeDone i => exact nextKeeps_finish (keeps_ite (State.awake_keeps (State.islDone_keeps h _ _) _) h)
  | funcResetEnd i => exact execFuncResetEnd_keeps i s
  | domrstReq => exact nextKeeps_finish (State.domainRequest_keeps h _ _)
  | linkPartnerReset n => exact execLinkPartnerReset_keeps n s
  | linkRun n => exact execLinkRun_keeps n s
  | linkCreditReturn n k => exact execLinkCreditReturn_keeps n k s
  | islandClockGate i => exact nextKeeps_finish (keeps_ite (State.setIsl_keeps h _ _) h)
  | islandWake i => exact nextKeeps_finish (keeps_ite (State.setIsl_keeps h _ _) h)
  | wakeLate i => exact execWakeLate_keeps i s
  | chkstopIn => exact nextKeeps_finish (State.declare_keeps h ..)
  -- start-up, muster and power warning
  | powerOnRelease cfg test => exact execPowerOnRelease_keeps cfg test s
  | flashDiscoveryDone j p => exact execFlashDiscoveryDone_keeps j p s
  | imageLoadDone img again req => exact execImageLoadDone_keeps img again req s
  | digestCompare d => exact execDigestCompare_keeps d s
  | ostreadyTimeout => exact nextKeeps_finish (keeps_ite (State.bootFail_keeps h _) h)
  | directoryClearDone => exact execDirectoryClearDone_keeps s
  | musterGo => exact nextKeeps_finish (keeps_ite (State.musterStart_keeps h) h)
  | portOpen => exact nextKeeps_finish (keeps_ite (State.musterNext_keeps h) h)
  | creditRampStep n k => exact execCreditRampStep_keeps n k s
  | rlyholdEnd => exact nextKeeps_finish (keeps_ite h.same h)
  | pwrWarnAssert => exact execPwrWarnAssert_keeps s
  | pwrWarnDeassert => exact execPwrWarnDeassert_keeps s
  -- notice queue, dumps, blotter and test access
  | nqRecordWrite => exact execNqRecordWrite_keeps s
  | gapRecordWrite => exact execGapRecordWrite_keeps s
  | dumpDue => exact execDumpDue_keeps s
  | dumpLineWrite => exact execDumpLineWrite_keeps s
  | blotterWrite => exact nextKeeps_next (State.blotWrite_keeps h)
  | bistStart ctl => exact execBistStart_keeps ctl s
  | bistDone fail k a => exact execBistDone_keeps fail k a s
  | tapBlotffCapture => exact nextKeeps_next h.same
  | tapRepairLoad l => exact nextKeeps_next (keeps_ite h.same h)

/-- Settles O3: a case for each command, from what its named operations keep (logs 1, 6 and 17 are the model's choice of what
that is). -/
theorem commandsKeep : Obligations.CommandsKeep := fun c s t hr hd e => exec_keeps c s hr hd t e

/-- Every command keeps the window canonical: POWER_ON_RESET empties it (R23), and TOD_PUBLISH leaves it to what follows. -/
theorem exec_canonical {c : Instr} {s t : State} (h : s.canonical = true) (e : exec c s = .next t) : t.canonical = true := by
  by_cases hr : c = .powerOnReset
  · subst hr
    cases e
    rfl
  by_cases hd : ∃ d, c = .todPublish d
  · obtain ⟨d, rfl⟩ := hd
    cases e
    exact (finish_keeps (.refl { s with tod := d })).canonical h
  · exact (exec_keeps c s hr (fun d hc => hd ⟨d, hc⟩) t e).canonical h

/-- Settles O4: an idle step changes nothing, and every command keeps the window canonical. -/
theorem stepKeepsCanonical : Obligations.StepKeepsCanonical := by
  intro s t h e
  unfold step at e
  split at e
  · cases e
    exact h
  · next c r _ =>
    have hr : ({ s with pending := r } : State).canonical = true := h
    exact exec_canonical hr e

end Sys2Proof.Machine
end

section
/-! SUPPORT. The fields of one register changed one after the other: what each of them then reads as, and that no other register
changes. A write by access codes and a clearing read are both of this kind (R18). -/

-- As in the tests: the compile of the one text stays within the threads of the sandbox.
set_option Elab.async false

namespace Sys2Proof.Machine

theorem State.onlyRegs_refl (s : State) (as : List RegAddr) : s.onlyRegs s as := ⟨rfl, fun _ _ => rfl⟩

theorem State.onlyRegs.trans {s t u : State} {as : List RegAddr} (h : s.onlyRegs t as) (g : t.onlyRegs u as) :
    s.onlyRegs u as := by
  obtain ⟨ht, hr⟩ := h
  obtain ⟨hu, gr⟩ := g
  refine ⟨?_, fun b hb => (gr b hb).trans (hr b hb)⟩
  rw [hu, ht]

theorem State.onlyRegs_setReg {s : State} (hc : s.canonical = true) (a : Nat) (v : Word) : s.onlyRegs (s.setReg a v) [a] := by
  refine ⟨rfl, fun b hb => State.reg_setReg_ne hc (fun e => ?_) v⟩
  simp [e] at hb

theorem getBits_lt (v : Word) (lo w : Nat) : getBits v lo w < 2 ^ w := Nat.mod_lt _ (by positivity)

/-- The whole of a register is its field of 64 bits at bit 0. -/
theorem getBits_all (v : Word) : getBits v 0 64 = v.toNat := by
  rw [getBits, pow_zero, Nat.div_one, Nat.mod_eq_of_lt v.isLt]

/-- Two fields apart from each other: the one lies wholly below the other (R17). -/
def Fld.apart (f g : Fld) : Prop := f.lo + f.width ≤ g.lo ∨ g.lo + g.width ≤ f.lo

theorem fieldsApart_cons {f : Fld} {r : List Fld} : fieldsApart (f :: r) = true ↔
    f.lo + f.width ≤ 64 ∧ (∀ g ∈ r, f.apart g) ∧ fieldsApart r = true := by
  simp [fieldsApart, Fld.apart, and_assoc]

/-- A write of a field leaves a field apart from it alone. -/
theorem State.fld_setFld_apart {s : State} (hc : s.canonical = true) (a v : Nat) {f g : Fld} (hf : f.lo + f.width ≤ 64)
    (h : f.apart g) : (s.setFld a f.lo f.width v).fld a g.lo g.width = s.fld a g.lo g.width := by
  rcases h with h | h
  · exact State.fld_setFld_above hc a v _ hf h
  · exact State.fld_setFld_below hc a v hf h

/-- A field set to what `w` gives for its present value; none: it stays. -/
def State.changeFld (w : Fld → Nat → Option Nat) (a : Nat) (s : State) (f : Fld) : State :=
  match w f (s.fld a f.lo f.width) with
  | some x => s.setFld a f.lo f.width x
  | none => s

section
variable {w : Fld → Nat → Option Nat} {a : Nat} {s : State} {f g : Fld} {fs : List Fld}

theorem State.canonical_changeFld (hc : s.canonical = true) : (s.changeFld w a f).canonical = true := by
  unfold State.changeFld
  split
  · exact State.canonical_setReg _ _ hc
  · exact hc

theorem State.onlyRegs_changeFld (hc : s.canonical = true) : s.onlyRegs (s.changeFld w a f) [a] := by
  unfold State.changeFld
  split
  · exact State.onlyRegs_setReg hc _ _
  · exact s.onlyRegs_refl _

theorem State.fld_changeFld_self (hc : s.canonical = true) (hf : f.lo + f.width ≤ 64) :
    (s.changeFld w a f).fld a f.lo f.width =
      ((w f (s.fld a f.lo f.width)).map (· % 2 ^ f.width)).getD (s.fld a f.lo f.width) := by
  unfold State.changeFld
  split
  · next h => simp [h, State.fld_setFld_self hc a _ hf]
  · next h => simp [h]

theorem State.fld_changeFld_apart (hc : s.canonical = true) (hf : f.lo + f.width ≤ 64) (h : f.apart g) :
    (s.changeFld w a f).fld a g.lo g.width = s.fld a g.lo g.width := by
  unfold State.changeFld
  split
  · exact State.fld_setFld_apart hc a _ hf h
  · rfl

theorem State.onlyRegs_changeFlds (hc : s.canonical = true) : s.onlyRegs (fs.foldl (State.changeFld w a) s) [a] := by
  induction fs generalizing s with
  | nil => exact s.onlyRegs_refl _
  | cons f r ih => exact (State.onlyRegs_changeFld hc).trans (ih (State.canonical_changeFld hc))

/-- A field apart from all that change stays. -/
theorem State.fld_changeFlds_apart (hc : s.canonical = true) (ha : fieldsApart fs = true) (h : ∀ f ∈ fs, f.apart g) :
    (fs.foldl (State.changeFld w a) s).fld a g.lo g.width = s.fld a g.lo g.width := by
  induction fs generalizing s with
  | nil => rfl
  | cons f r ih =>
    obtain ⟨hf, -, hr⟩ := fieldsApart_cons.1 ha
    rw [List.foldl_cons, ih (State.canonical_changeFld hc) hr fun g hg => h g (List.mem_cons_of_mem _ hg)]
    exact State.fld_changeFld_apart hc hf (h f List.mem_cons_self)

/-- Each of the fields changes from its value before all the changes. -/
theorem State.fld_changeFlds (hc : s.canonical = true) (ha : fieldsApart fs = true) (hm : f ∈ fs) :
    (fs.foldl (State.changeFld w a) s).fld a f.lo f.width =
      ((w f (s.fld a f.lo f.width)).map (· % 2 ^ f.width)).getD (s.fld a f.lo f.width) := by
  induction fs generalizing s with
  | nil => cases hm
  | cons g r ih =>
    obtain ⟨hg, hgr, hr⟩ := fieldsApart_cons.1 ha
    have hc' := State.canonical_changeFld (w := w) (a := a) (f := g) hc
    rw [List.foldl_cons]
    rcases List.mem_cons.1 hm with rfl | hm
    · rw [State.fld_changeFlds_apart hc' hr fun h hh => (hgr h hh).symm, State.fld_changeFld_self hc hg]
    · rw [ih hc' hr hm, State.fld_changeFld_apart hc hg (hgr f hm)]

end

/-! ### Writes by access code -/

/-- What a write of `v` makes of a field by its access code (R18); `locked`: the lock of the register's RWL fields is set. -/
def storedFld (locked : Bool) (v : Word) (f : Fld) (old : Nat) : Option Nat :=
  match f.acc with
  | .rw => some (getBits v f.lo f.width)
  | .rwl => if locked then none else some (getBits v f.lo f.width)
  | .w1c => some (old - (old &&& getBits v f.lo f.width))
  | .w1s => some (old ||| getBits v f.lo f.width)
  | .ro | .rc | .wo => none

theorem State.storeFld_eq (s : State) (a : Nat) (locked : Bool) (v : Word) (f : Fld) :
    s.storeFld a locked v f = s.changeFld (storedFld locked v) a f := by
  unfold State.storeFld State.changeFld storedFld
  cases f.acc <;> cases locked <;> rfl

theorem State.storeReg_eq (s : State) {a : Nat} {r : RegRow} (v : Word) (h : regRow a = some r) :
    s.storeReg a v = r.fields.foldl (State.changeFld (storedFld (s.lockedReg r) v) a) s := by
  simp only [State.storeReg, h, State.storeFld_eq]

/-- A write of a register changes no other one, nor anything but the window. -/
theorem State.onlyRegs_storeReg {s : State} (hc : s.canonical = true) (a : Nat) (v : Word) : s.onlyRegs (s.storeReg a v) [a] := by
  cases h : regRow a with
  | none => simpa [State.storeReg, h] using s.onlyRegs_refl [a]
  | some r => exact s.storeReg_eq v h ▸ State.onlyRegs_changeFlds hc

end Sys2Proof.Machine
end

section
/-! Registers as the service port reaches them: a write by access codes (O7), a plain write and a clearing read (O8), and what
they hold after reset (O5). -/

-- As in the tests: the compile of the one text stays within the threads of the sandbox.
set_option Elab.async false

namespace Sys2Proof.Machine

/-- The fields of every register of the map lie within its bits and apart from each other (R17). -/
theorem regRows_fieldsApart : ∀ r ∈ regRows, fieldsApart r.fields = true :=
  List.all_eq_true.1 (by decide +kernel : regRows.all (fun r => fieldsApart r.fields) = true)

/-- Settles O7: the fields of a register are written one after the other, each apart from the others. -/
theorem writeActsByAccessCode : Obligations.WriteActsByAccessCode := by
  refine ⟨regRows_fieldsApart, fun s a v r f hc hr hf ha => ⟨?_, State.onlyRegs_storeReg hc a v⟩⟩
  rw [s.storeReg_eq v hr, State.fld_changeFlds hc ha hf]
  have hv : getBits v f.lo f.width % 2 ^ f.width = getBits v f.lo f.width := Nat.mod_eq_of_lt (getBits_lt _ _ _)
  have ho : s.fld a f.lo f.width < 2 ^ f.width := getBits_lt _ _ _
  unfold storedFld
  cases f.acc with
  | rw => exact hv
  | rwl => cases s.lockedReg r <;> simp [hv]
  | w1c => exact Nat.mod_eq_of_lt (Nat.lt_of_le_of_lt (Nat.sub_le _ _) ho)
  | w1s => exact Nat.mod_eq_of_lt (Nat.or_lt_two_pow ho (getBits_lt _ _ _))
  | ro | rc | wo => rfl

/-! ### A plain write -/

/-- A register that is one RW field of 64 bits reads as written. -/
theorem State.reg_storeReg_whole {s : State} (hc : s.canonical = true) {a : Nat} {r : RegRow} (v : Word) (hr : regRow a = some r)
    (hf : r.fields = [⟨0, 64, .rw⟩]) : (s.storeReg a v).reg a = v := by
  have h := State.fld_changeFlds (w := storedFld (s.lockedReg r) v) (a := a) (f := ⟨0, 64, .rw⟩) hc
    (fs := r.fields) (by rw [hf]; decide) (by simp [hf])
  rw [← s.storeReg_eq v hr] at h
  simp only [State.fld, storedFld, getBits_all, Option.map_some, Option.getD_some] at h
  exact BitVec.eq_of_toNat_eq (h.trans (Nat.mod_eq_of_lt v.isLt))

theorem within_of_lt {a r n d : Nat} (h : a < r) : within a r n d = false := by
  simp [within, Nat.not_le.2 h]

/-- A plain write to block GLB, which has no register with a further effect of its own, stores its value. -/
theorem State.plainWrite_glb (s : State) {x : SpAcc} (h : x.addr < 0x1000) : s.plainWrite x = s.storeReg x.addr x.data := by
  have hw : ∀ r n d, 0x1000 ≤ r → within x.addr r n d = false := fun r n d hr => within_of_lt (by omega)
  have hn : ∀ r, 0x1000 ≤ r → x.addr ≠ r := fun r hr => by omega
  have hm : mbxChan x.addr = none := if_neg (by omega)
  have hl : ¬ 0x10100 ≤ x.addr := by omega
  simp (disch := decide) [State.plainWrite, hw, hn, hm, hl]

/-- A scratch register is one RW field of 64 bits (R340). -/
theorem regRow_scratch {k : Nat} (hk : k < 8) : ∃ r, regRow (R.GLB_SCRATCH + 8 * k) = some r ∧ r.fields = [⟨0, 64, .rw⟩] := by
  have h : ∀ k < 8, (regRow (R.GLB_SCRATCH + 8 * k)).map RegRow.fields = some [⟨0, 64, .rw⟩] := by decide +kernel
  simpa using h k hk

/-! ### A clearing read -/

/-- A clearing read sets the RC fields to zero (R18). -/
def clearedFld (f : Fld) (_ : Nat) : Option Nat := if f.acc = .rc then some 0 else none

theorem State.readClear_eq (s : State) {a : Nat} {r : RegRow} (h : regRow a = some r) :
    s.readClear a = r.fields.foldl (State.changeFld clearedFld a) s := by
  simp only [State.readClear, rcFields, h, List.foldl_filter]
  congr 1
  funext t f
  by_cases hf : f.acc = .rc <;> simp [State.changeFld, clearedFld, hf]

theorem State.onlyRegs_readClear {s : State} (hc : s.canonical = true) (a : Nat) : s.onlyRegs (s.readClear a) [a] := by
  cases h : regRow a with
  | none => simpa [State.readClear, rcFields, h] using s.onlyRegs_refl [a]
  | some r => exact s.readClear_eq h ▸ State.onlyRegs_changeFlds hc

theorem State.fld_readClear {s : State} (hc : s.canonical = true) {a : Nat} {r : RegRow} {f : Fld} (hr : regRow a = some r)
    (ha : fieldsApart r.fields = true) (hf : f ∈ r.fields) :
    (s.readClear a).fld a f.lo f.width = if f.acc = .rc then 0 else s.fld a f.lo f.width := by
  rw [s.readClear_eq hr, State.fld_changeFlds hc ha hf, clearedFld]
  split <;> simp

theorem ite_ne_of_ne {α : Type} {c : Prop} [Decidable c] {a b r : α} (ha : a ≠ r) (hb : b ≠ r) : (if c then a else b) ≠ r := by
  split <;> assumption

/-- No write is a clearing read. -/
theorem State.spRow_write_ne_of_ne {s : State} {x : SpAcc} (hw : x.write = true) : s.spRow x ≠ .readClear := by
  simp only [State.spRow, hw, if_true]
  refine ite_ne_of_ne nofun (ite_ne_of_ne ?system (ite_ne_of_ne ?core (ite_ne_of_ne ?ports ?service)))
  case system => unfold State.rowSystem; (repeat' apply ite_ne_of_ne) <;> nofun
  case core => unfold State.rowCore; (repeat' apply ite_ne_of_ne) <;> nofun
  case ports => unfold State.rowPorts; (repeat' apply ite_ne_of_ne) <;> nofun
  case service => unfold State.rowService; (repeat' apply ite_ne_of_ne) <;> nofun

/-- A clearing read reads a register with RC fields. -/
theorem State.hasRc_of_spRow {s : State} {x : SpAcc} (h : s.spRow x = .readClear) : hasRc x.addr = true := by
  by_cases hw : x.write = true
  · exact absurd h (State.spRow_write_ne_of_ne hw)
  · by_contra hrc
    simp only [State.spRow, hw, hrc, Bool.false_eq_true, if_false] at h
    split_ifs at h

/-- A secure read of a register with RC fields that is no mailbox channel's returns the register's value and does nothing else. -/
theorem State.plainRead_rc (s : State) {x : SpAcc} (hw : x.world = true) (hm : mbxChan x.addr = none)
    (hrc : hasRc x.addr = true) : s.plainRead x = (s, s.value x.addr) := by
  have hn : ∀ a, hasRc a = false → 8 * x.slot.toNat ≠ a := fun a ha e => by simp [SpAcc.addr, e, ha] at hrc
  simp only [SpAcc.addr] at hm
  simp (disch := decide +kernel) [State.plainRead, hn, hm, hw, SpAcc.addr]

/-! ### The commands -/

/-- An access that the arbiter chooses for a row is of that row. -/
theorem State.spRow_of_oldest {s t : State} {m : MasterId} {row : SpRow} {x : SpAcc} (h : s.oldest m row = some (x, t)) :
    s.spRow x = row := by
  unfold State.oldest at h
  split at h
  · cases h
  split at h
  · split at h
    · next hc =>
      cases h
      simp only [Bool.and_eq_true, decide_eq_true_eq] at hc
      obtain ⟨⟨hrow, -⟩, -⟩ := hc
      exact hrow
    · cases h
  · cases h

/-- What a command of the service port does is what the action of its row does with the access chosen. -/
theorem spDoes_of_spDo {c : MasterId → Instr} {row : SpRow} {pre : State → SpAcc → Prop}
    {post : State → SpAcc → State → Word → Prop}
    (he : ∀ m s, exec (c m) s = .next (finish s (s.spTake m row (fun t x => t.spDo x row))))
    (h : ∀ (s t : State) (x : SpAcc), s.spRow x = row → t.canonical = true → pre t x → post t x (t.spDo x row).1 (t.spDo x row).2) :
    spDoes c row pre post := fun s t m x ho hc hp =>
  ⟨(t.spDo x row).1, (t.spDo x row).2, by rw [he, State.spTake_oldest ho], h s t x (State.spRow_of_oldest ho) hc hp⟩

theorem registerWrite_scratch {k : Nat} (hk : k < 8) :
    spDoes .registerWrite .write (fun _ x => x.addr = R.GLB_SCRATCH + 8 * k)
      (fun t x u v => v = 0 ∧ u.reg x.addr = x.data ∧ t.onlyRegs u [x.addr]) := by
  refine spDoes_of_spDo (fun _ _ => rfl) fun _ t x _ hc hx => ⟨rfl, ?_⟩
  obtain ⟨r, hr, hf⟩ := regRow_scratch hk
  have hlt : x.addr < 0x1000 := by simp only [hx, R.GLB_SCRATCH]; omega
  simp only [State.spDo, t.plainWrite_glb hlt]
  exact ⟨State.reg_storeReg_whole hc _ (hx ▸ hr) hf, State.onlyRegs_storeReg hc _ _⟩

theorem registerReadClear_clears :
    spDoes .registerReadClear .readClear (fun _ x => x.world = true ∧ mbxChan x.addr = none)
      (fun t x u v => v = t.value x.addr ∧ t.onlyRegs u [x.addr] ∧
        (∀ r, regRow x.addr = some r → fieldsApart r.fields = true → ∀ f ∈ r.fields,
          u.fld x.addr f.lo f.width = if f.acc = .rc then 0 else t.fld x.addr f.lo f.width)) := by
  refine spDoes_of_spDo (fun _ _ => rfl) fun s t x hrow hc hx => ?_
  obtain ⟨hw, hm⟩ := hx
  simp only [State.spDo, State.readThenClear, t.plainRead_rc hw hm (State.hasRc_of_spRow hrow)]
  exact ⟨trivial, State.onlyRegs_readClear hc _, fun r hr ha f hf => State.fld_readClear hc hr ha hf⟩

/-- Settles O8: a scratch register is one RW field of 64 bits, and a clearing read folds over the RC fields. -/
theorem registersWrittenAndCleared : Obligations.RegistersWrittenAndCleared :=
  ⟨fun _ hk => registerWrite_scratch hk, registerReadClear_clears⟩

/-! ### After reset -/

/-- After reset every register reads the value of its row (R23). -/
theorem State.reg_reset (a : Nat) : State.reset.reg (8 * a) = regReset (8 * a) := by
  simp [State.reg, State.reset, SMap.find, slotReset]

/-- Settles O5: the window lists no slot after reset, so every register has its reset value. -/
theorem resetState : Obligations.ResetState := by
  have hchk : State.reset.chk = false := by decide +kernel
  have hphase : State.reset.phase = 0 := by decide +kernel
  exact ⟨rfl, State.reg_reset, rfl, rfl, rfl, rfl, rfl, rfl, rfl, rfl, rfl, rfl, rfl, rfl, rfl, hchk, hphase⟩

end Sys2Proof.Machine
end

section
/-! SUPPORT. O34 does not hold as it stands: its first clause asks that the link buffer of the packet's own order group is empty and
says nothing of the others, and a state may list a packet of the same class in the buffer of another group. No arrival puts one
there (`State.queueIn` files a packet by `poolOf`), so the clause fails outside the states that the block reaches. -/

-- As in the tests: the compile of the one text stays within the threads of the sandbox.
set_option Elab.async false

namespace Sys2Proof.Machine

/-- A `RdOnce` from endpoint 1 to home 0 for line 7. -/
def readPacket : Packet :=
  { dst := 0, src := 1, domain := 0, opcode := Op.rdOnce, world := false, cls := 0, nflit := 0, line := 7, tag := 5, route := 0,
    hopcnt := 2, nhop := 2, epoch := false, detail := 0, seq := 0, stream := 0, syn := 0, data := [] }

/-- NP0 in RUN and open, the domain in checkstop, and a request in the link buffer of pool 3, that of the answers. -/
def misfiled : State :=
  { State.reset with
    win := [(R.GLB_CHKSTOP / 8, 0x100), (R.NP_CTL / 8, 0x100), (R.NP_STATUS / 8, 1)]
    nps := [(0, { NpSt.reset with buf := [(3, [⟨readPacket, 1, false, 0⟩])] })] }

/-- In checkstop, with no bank in CLEANING, the ALC not draining and no function reset of a network port pending, no slow path
runs (R121, R225, R226, R257, R337). -/
theorem State.slow_of_checkstop {u : State} (hchk : u.chk = true) (halc : u.alcState ≠ 2) (hbank : u.cleaningBank = false)
    (hrst : ∀ n < 4, u.flag R.ISL_RSTSTAT (1 + n) = false) : u.slow = u := by
  have h1 : u.alcWork = u := by simp [State.alcWork, halc, hbank]
  have h2 : u.preWork = u := by unfold State.preWork; split <;> simp [hchk]
  have h3 : u.wayWork = u := by simp [State.wayWork, hchk]
  have h4 : ∀ n < 4, u.npWork n = u := fun n hn => by simp [State.npWork, hrst n hn]
  simp [State.slow, h1, h2, h3, h4, List.range_succ]

theorem State.nps_safeStep (s : State) : s.safeStep.nps = s.nps := by
  unfold State.safeStep
  split
  · -- Generalized: the kernel would else evaluate the reset value of the register to compare the two states.
    have h := s.setFld_nps R.ISL_PWRWARN 18 24 (min (elapsed s.boot.warnAt s.tod) 0xFFFFFF)
    generalize s.setFld R.ISL_PWRWARN 18 24 (min (elapsed s.boot.warnAt s.tod) 0xFFFFFF) = t at h ⊢
    exact h
  · rfl

theorem State.nps_edges (s : State) (was : Bool) : (s.edges was).nps = s.nps := by
  unfold State.edges; split
  · rfl
  · split <;> simp

theorem State.nps_domainReset (s : State) (d : Bool) : (s.domainReset d).nps = State.reset.nps := by
  simp [State.domainReset]

/-- The ports stand after a command as the slow paths and a waiting domain reset leave them. -/
theorem nps_finish (s0 s : State) :
    (finish s0 s).nps = ((s.swept s0).slow.swept (s.swept s0)).resetWork.nps := by
  have hend : ∀ v : State, (if v.restarted s0 then v else v.edges s0.recovering).nps = v.nps := fun v => by
    split
    · rfl
    · exact v.nps_edges _
  exact (hend _).trans (State.nps_safeStep _)

/-- Where no slow path runs in checkstop, the ports stand after a command as its own effect left them, unless a waiting domain
reset comes. -/
theorem nps_finish_of_checkstop {s u : State} (hs : s.chk = true) (hu : u.chk = true) (hslow : u.slow = u) :
    (finish s u).nps = u.nps ∨ (finish s u).nps = State.reset.nps := by
  have hsw : ∀ t : State, t.chk = true → u.swept t = u := fun t ht => by simp [State.swept, ht]
  rw [nps_finish, hsw s hs, hslow, hsw u hu]
  unfold State.resetWork
  split
  · exact .inr (State.nps_domainReset u false)
  · exact .inl rfl

/-- Refutes O34: at `misfiled` the packet in the wrong link buffer follows `readPacket` into the REQ queue, which then holds one
packet more than the first clause says. -/
theorem not_packetsArrive : ¬ Obligations.PacketsArrive := by
  intro h
  have hc : misfiled.canonical = true := by decide +kernel
  obtain ⟨harrive, -⟩ := h misfiled 0 readPacket hc rfl
  obtain ⟨u, hu, x, hq, -, -, -, -, -, hreg⟩ := harrive (by decide +kernel) rfl rfl (by decide) (by decide +kernel) (by decide +kernel)
    (by decide +kernel) (by decide +kernel) (by decide) (by decide) (by decide) (by decide +kernel) (by decide +kernel) rfl (by decide)
  have hkept : ∀ a lo w, ([R.SEC_VIOL, R.SEC_LASTVIOL, R.BLOT_STATUS] ++ perfRegs).all (fun b => b / 8 != a / 8) = true →
      u.fld a lo w = misfiled.fld a lo w := fun a lo w ha => by simp only [State.fld, hreg a ha]
  have hchk : u.chk = true := by
    simp only [State.chk]; rw [hkept _ _ _ (by decide +kernel)]; decide +kernel
  have hslow : u.slow = u := by
    refine State.slow_of_checkstop hchk ?_ ?_ ?_
    · simp only [State.alcState]; rw [hkept _ _ _ (by decide +kernel)]; decide +kernel
    · simp only [State.cleaningBank, State.bank, hkept R.ALC_BANKPWR _ _ (by decide +kernel)]; decide +kernel
    · simp only [State.flag, hkept R.ISL_RSTSTAT _ _ (by decide +kernel)]; decide +kernel
  have htwo : (((finish misfiled (misfiled.receive 0 readPacket)).np 0).inqOf 0).length = 2 := by decide +kernel
  have hfin : finish misfiled (misfiled.receive 0 readPacket) = finish misfiled u := Host.Outcome.next.inj hu
  rw [hfin, State.np] at htwo
  rcases nps_finish_of_checkstop (s := misfiled) (by decide +kernel) hchk hslow with hn | hn <;> rw [hn] at htwo
  · have hone : (((u.np 0).inqOf 0)).length = 1 := by
      have hempty : (misfiled.np 0).inqOf readPacket.cls.toNat = [] := by decide +kernel
      exact (congrArg List.length hq).trans (by rw [show ((0 : Fin 4) : Nat) = 0 from rfl, hempty]; rfl)
    exact absurd (hone.symm.trans htwo) (by decide)
  · exact absurd htwo (by decide +kernel)

end Sys2Proof.Machine
end

section
/-! SUPPORT. A request on its way through the core writes few registers: the performance counters, two peaks and, with its answer,
the measure of a first response and the records of a missing route. `State.Tracks` says of a state that it is another one but for
these, and for what stands in ports and records; what a dispatch decides by then reads the same in both. -/

-- As in the tests: the compile of the one text stays within the threads of the sandbox.
set_option Elab.async false

namespace Sys2Proof.Machine

/-! ### Registers that a request leaves alone -/

/-- The registers that a request may change before it is answered (R20, R437). -/
def askRegs : List RegAddr := [R.YARD_PEAK, R.INK_PEAK] ++ perfRegs
/-- The registers that a request and its answer may change (R159, R243). -/
def answerRegs : List RegAddr := [R.YARD_PEAK, R.INK_PEAK] ++ sendRegs

theorem askRegs_subset_answerRegs : askRegs ⊆ answerRegs := by
  intro a ha
  simp only [askRegs, answerRegs, sendRegs, List.mem_append] at ha ⊢
  tauto

/-- The slots of the window that a request and its answer may write. -/
abbrev answerSlot (k : Nat) : Prop :=
  k = 0x402 ∨ k = 0x407 ∨ k = 0xC22 ∨ (0x2008 ≤ k ∧ k < 0x200C) ∨ (0x2100 ≤ k ∧ k < 0x2200) ∨ k = 0x3001 ∨ k = 0x6405

theorem answerSlot_of_mem {a : Nat} (h : a ∈ answerRegs) : answerSlot (a / 8) := by
  simp only [answerRegs, sendRegs, perfRegs, List.mem_append, List.mem_cons, List.mem_map, List.mem_range, List.not_mem_nil,
    or_false] at h
  rcases h with (rfl | rfl) | (⟨k, hk, rfl⟩ | ⟨k, hk, rfl⟩) | rfl | rfl | rfl
  case inr.inl.inl =>
    have : answerSlot ((0x10800 + 8 * k) / 8) := by omega
    exact this
  case inr.inl.inr =>
    have : answerSlot ((0x10040 + 8 * k) / 8) := by omega
    exact this
  all_goals simp [answerSlot, R.YARD_PEAK, R.INK_PEAK, R.YARD_RESP, R.RTE_ERRCNT, R.BLOT_STATUS]

/-- A register that neither a request nor its answer writes. -/
abbrev quietReg (b : Nat) : Prop := ¬ answerSlot (b / 8)

theorem State.regsKept.reg_eq {s u : State} {as : List RegAddr} (h : s.regsKept u as) (hsub : as ⊆ answerRegs) {b : Nat}
    (hb : quietReg b) : u.reg b = s.reg b :=
  h b (List.all_eq_true.2 fun a ha => by
    have hne : a / 8 ≠ b / 8 := fun e => hb (e ▸ answerSlot_of_mem (hsub ha))
    simpa using hne)

theorem State.regsKept.mono {s u : State} {as bs : List RegAddr} (h : s.regsKept u as) (hsub : as ⊆ bs) : s.regsKept u bs :=
  fun b hb => h b (List.all_eq_true.2 fun a ha => List.all_eq_true.1 hb a (hsub ha))

theorem State.onlyRegs.mono {s u : State} {as bs : List RegAddr} (h : s.onlyRegs u as) (hsub : as ⊆ bs) : s.onlyRegs u bs :=
  ⟨h.1, State.regsKept.mono h.2 hsub⟩

/-! ### Tables -/

/-- What a canonical table lists is what it finds. -/
theorem SMap.mem_iff_find {α : Type} {m : SMap α} {lo : Nat} (h : SMap.risesFrom lo m = true) {k : Nat} {a : α} :
    (k, a) ∈ m ↔ SMap.find m k = some a := by
  induction m generalizing lo with
  | nil => simp [SMap.find]
  | cons e r ih =>
    obtain ⟨j, b⟩ := e
    simp only [SMap.risesFrom, Bool.and_eq_true, decide_eq_true_eq] at h
    obtain ⟨-, hr⟩ := h
    have hlow : k ≤ j → (k, a) ∉ r := fun hk hm => by
      have hn := SMap.find_lt hr (k := k) (by omega)
      rw [(ih hr).1 hm] at hn
      cases hn
    simp only [SMap.find, List.mem_cons, Prod.mk.injEq]
    split
    · next hj =>
      subst hj
      simp [hlow le_rfl, eq_comm]
    · next hj =>
      have hhead : ¬ (k = j ∧ a = b) := fun e => hj e.1.symm
      split
      · next hlt => simp [hhead, hlow hlt.le]
      · rw [← ih hr, or_iff_right hhead]

/-- The indices of a canonical table rise. -/
theorem SMap.pairwise_of_rises {α : Type} {m : SMap α} {lo : Nat} (h : SMap.risesFrom lo m = true) :
    m.Pairwise (fun a b => a.1 < b.1) ∧ ∀ e ∈ m, lo ≤ e.1 := by
  induction m generalizing lo with
  | nil => simp
  | cons e r ih =>
    obtain ⟨j, b⟩ := e
    simp only [SMap.risesFrom, Bool.and_eq_true, decide_eq_true_eq] at h
    obtain ⟨hj, hr⟩ := h
    obtain ⟨hp, hlo⟩ := ih hr
    refine ⟨List.pairwise_cons.2 ⟨fun e he => hlo e he, hp⟩, fun e he => ?_⟩
    rcases List.mem_cons.1 he with rfl | he
    · exact hj
    · have := hlo e he
      omega

/-- Two canonical tables that find the same in a range of indices list the same there. -/
theorem SMap.filter_congr {α : Type} {m n : SMap α} (hm : SMap.wf m = true) (hn : SMap.wf n = true) (p : Nat → Bool)
    (h : ∀ k, p k = true → SMap.find m k = SMap.find n k) : m.filter (fun e => p e.1) = n.filter (fun e => p e.1) := by
  have hanti : ∀ a b : Nat × α, a.1 < b.1 → b.1 < a.1 → a = b := fun a b _ _ => by omega
  have hsort := fun {l : SMap α} (hl : SMap.wf l = true) => (SMap.pairwise_of_rises hl).1.filter (fun e => p e.1)
  have hnodup := fun {l : SMap α} (hl : SMap.wf l = true) => (hsort hl).imp (S := (· ≠ ·)) (fun hab e => by subst e; omega)
  refine List.Perm.eq_of_pairwise (fun a b _ _ => hanti a b) (hsort hm) (hsort hn)
    ((List.perm_ext_iff_of_nodup (hnodup hm) (hnodup hn)).2 fun e => ?_)
  obtain ⟨k, a⟩ := e
  simp only [List.mem_filter]
  constructor <;> rintro ⟨hmem, hp⟩ <;> refine ⟨?_, hp⟩
  · exact (SMap.mem_iff_find hn).2 (h k hp ▸ (SMap.mem_iff_find hm).1 hmem)
  · exact (SMap.mem_iff_find hm).2 ((h k hp).symm ▸ (SMap.mem_iff_find hn).1 hmem)

/-- In a canonical window a register's value says what the window lists for it. -/
theorem State.find_win_of_reg {s t : State} (hs : s.canonical = true) (ht : t.canonical = true) {k : Nat}
    (h : s.reg (8 * k) = t.reg (8 * k)) : SMap.find s.win k = SMap.find t.win k := by
  have hval : ∀ {z : State}, z.canonical = true → ∀ v, SMap.find z.win k = some v ↔ z.reg (8 * k) = v ∧ v ≠ slotReset k := by
    intro z hz v
    obtain ⟨hwf, hne⟩ := (State.canonical_iff z).1 hz
    have hk : 8 * k / 8 = k := by omega
    simp only [State.reg, hk]
    cases hf : SMap.find z.win k with
    | none => simpa using fun e => e.symm
    | some w =>
      have hw := hne _ ((SMap.mem_iff_find hwf).2 hf)
      simp only [Option.some.injEq, Option.getD_some]
      exact ⟨fun e => ⟨e, e ▸ hw⟩, fun e => e.1⟩
  exact Option.ext fun v => by rw [hval hs, hval ht, h]

/-! ### A state that is another one but for what a request leaves behind -/

/-- `u` is `v` but for registers of `as`, the queues of the ports, and the model's own counters and records. `as` lies between what a
request may change and what its answer may. -/
structure State.Tracks (as : List RegAddr) (v u : State) : Prop where
  least : askRegs ⊆ as
  most : as ⊆ answerRegs
  base : v.canonical = true
  canonical : u.canonical = true
  regs : v.regsKept u as
  rest : u = { v with win := u.win, nps := u.nps, lanePtr := u.lanePtr, lates := u.lates, freeCtr := u.freeCtr, rlys := u.rlys,
                      svc := u.svc }

section
variable {as : List RegAddr} {v u : State}

theorem State.Tracks.dirs (t : v.Tracks as u) : u.dirs = v.dirs := (congrArg State.dirs t.rest :)
theorem State.Tracks.stalls (t : v.Tracks as u) : u.stalls = v.stalls := (congrArg State.stalls t.rest :)
theorem State.Tracks.pen (t : v.Tracks as u) : u.pen = v.pen := (congrArg State.pen t.rest :)
theorem State.Tracks.tickets (t : v.Tracks as u) : u.tickets = v.tickets := (congrArg State.tickets t.rest :)
theorem State.Tracks.ink (t : v.Tracks as u) : u.ink = v.ink := (congrArg State.ink t.rest :)
theorem State.Tracks.alc (t : v.Tracks as u) : u.alc = v.alc := (congrArg State.alc t.rest :)
theorem State.Tracks.moves (t : v.Tracks as u) : u.moves = v.moves := (congrArg State.moves t.rest :)
theorem State.Tracks.mps (t : v.Tracks as u) : u.mps = v.mps := (congrArg State.mps t.rest :)
theorem State.Tracks.faults (t : v.Tracks as u) : u.faults = v.faults := (congrArg State.faults t.rest :)
theorem State.Tracks.tod (t : v.Tracks as u) : u.tod = v.tod := (congrArg State.tod t.rest :)
theorem State.Tracks.tx (t : v.Tracks as u) : u.tx = v.tx := (congrArg State.tx t.rest :)

/-! ### Registers that read the same -/

theorem State.Tracks.reg (t : v.Tracks as u) {b : Nat} (hb : quietReg b) : u.reg b = v.reg b := State.regsKept.reg_eq t.regs t.most hb
theorem State.Tracks.fld (t : v.Tracks as u) {b : Nat} (hb : quietReg b) (lo w : Nat) : u.fld b lo w = v.fld b lo w := by
  simp only [State.fld, t.reg hb]
theorem State.Tracks.flag (t : v.Tracks as u) {b : Nat} (hb : quietReg b) (k : Nat) : u.flag b k = v.flag b k := by
  simp only [State.flag, t.fld hb]

theorem State.Tracks.chk (t : v.Tracks as u) : u.chk = v.chk := by simp only [State.chk, t.fld (b := R.GLB_CHKSTOP) (by decide)]
theorem State.Tracks.wayState (t : v.Tracks as u) : u.wayState = v.wayState := t.fld (b := R.DIR_WAYPWR) (by decide) 1 2
theorem State.Tracks.alcState (t : v.Tracks as u) : u.alcState = v.alcState := t.fld (b := R.ALC_CTL) (by decide) 1 2

theorem State.Tracks.mpState (t : v.Tracks as u) {n : Nat} (hn : n < 2) : u.mpState n = v.mpState n := by
  refine t.fld ?_ 0 3
  have : quietReg (0x6010 + 0x80 * n) := by omega
  exact this

theorem State.Tracks.link (t : v.Tracks as u) {n : Nat} (hn : n < 4) : u.link n = v.link n := by
  have hq : quietReg (0x5008 + 0x400 * n) := by omega
  simp only [State.link, if_neg (show n ≠ 4 by omega)]
  exact t.fld hq 0 2

theorem State.Tracks.isOpen (t : v.Tracks as u) {n : Nat} (hn : n < 4) : u.isOpen n = v.isOpen n := by
  have hq : quietReg (0x5000 + 0x400 * n) := by omega
  exact t.flag hq 8

/-! ### Regions and memory ports -/

theorem State.Tracks.regionA (t : v.Tracks as u) {n : Nat} (hn : n < 64) : u.reg (R.SEC_REGIONA + 16 * n) = v.reg (R.SEC_REGIONA + 16 * n) := by
  have hq : quietReg (0x8100 + 16 * n) := by omega
  exact t.reg hq

theorem State.Tracks.regionB (t : v.Tracks as u) {n : Nat} (hn : n < 64) : u.reg (R.SEC_REGIONB + 16 * n) = v.reg (R.SEC_REGIONB + 16 * n) := by
  have hq : quietReg (0x8108 + 16 * n) := by omega
  exact t.reg hq

theorem State.Tracks.regionOfH (t : v.Tracks as u) (h : HIdx) : u.regionOfH h = v.regionOfH h :=
  List.find?_congr fun n hn => by
    have hn : n < 64 := List.mem_range.1 hn
    simp only [State.regionV, State.regionOff, State.regionSize, State.flag, State.fld, t.regionA hn, t.regionB hn]
    rfl

theorem State.regionOfH_lt {s : State} {h : HIdx} {n : Nat} (e : s.regionOfH h = some n) : n < 64 :=
  List.mem_range.1 (List.mem_of_find?_eq_some e)

theorem State.Tracks.worldOfH (t : v.Tracks as u) (h : HIdx) : u.worldOfH h = v.worldOfH h := by
  unfold State.worldOfH
  rw [t.regionOfH]
  split
  · next n e => simp only [State.regionWorld, State.flag, State.fld, t.regionA (State.regionOfH_lt e)]
  · rfl

theorem State.Tracks.portsOf (t : v.Tracks as u) (h : HIdx) : u.portsOf h = v.portsOf h := by
  unfold State.portsOf
  rw [t.regionOfH]
  split
  · next n e =>
    simp only [State.regionMirror, State.flag, State.fld, t.regionA (State.regionOfH_lt e)]
    rfl
  · rfl

theorem State.Tracks.readPort (t : v.Tracks as u) (h : HIdx) : u.readPort h = v.readPort h := by
  have hlt : h.toNat % 2 < 2 := Nat.mod_lt _ (by decide)
  unfold State.readPort
  rw [t.portsOf]
  split
  · rfl
  · simp only [t.mpState (show 0 < 2 by decide), t.mpState (show 1 < 2 by decide), t.mpState (show 1 - h.toNat % 2 < 2 by omega)]

/-- The ports of a line are the two memory ports or one of them (R262). -/
theorem State.portsOf_lt {s : State} {h : HIdx} {n : Nat} (hn : n ∈ s.portsOf h) : n < 2 := by
  have hone : h.toNat / 2 ^ 33 < 2 := Nat.div_lt_of_lt_mul h.isLt
  have hboth : ∀ m ∈ [0, 1], m < 2 := by decide
  unfold State.portsOf at hn
  split at hn
  · split at hn
    · exact hboth n hn
    · exact List.mem_singleton.1 hn ▸ hone
  · exact List.mem_singleton.1 hn ▸ hone

theorem State.Tracks.needPorts (t : v.Tracks as u) (h : HIdx) : u.needPorts h = v.needPorts h := by
  have hf : (v.portsOf h).filter (fun n => u.mpState n != 2) = (v.portsOf h).filter (fun n => v.mpState n != 2) :=
    List.filter_congr fun n hn => by rw [t.mpState (State.portsOf_lt hn)]
  simp only [State.needPorts, t.portsOf, hf]

/-! ### Routes -/

theorem State.Tracks.camFind (t : v.Tracks as u) (p : Word → Bool) : u.camFind p = v.camFind p := by
  have hw := ((State.canonical_iff u).1 t.canonical).1
  have hv := ((State.canonical_iff v).1 t.base).1
  have hcam : u.win.filter (fun e => decide (0x6000 ≤ e.1 ∧ e.1 < 0x6400)) = v.win.filter (fun e => decide (0x6000 ≤ e.1 ∧ e.1 < 0x6400)) :=
    SMap.filter_congr hw hv (fun k => decide (0x6000 ≤ k ∧ k < 0x6400)) fun k hk => by
      have hk : 0x6000 ≤ k ∧ k < 0x6400 := of_decide_eq_true hk
      exact State.find_win_of_reg t.canonical t.base (t.reg (by omega))
  have hpre : ∀ z : State, z.win.find? (fun e => decide (0x6000 ≤ e.1) && decide (e.1 < 0x6400) && bit e.2.toNat 36 && p e.2) =
      (z.win.filter (fun e => decide (0x6000 ≤ e.1 ∧ e.1 < 0x6400))).find? (fun e => bit e.2.toNat 36 && p e.2) := fun z => by
    rw [List.find?_filter]
    refine List.find?_congr fun e _ => ?_
    simp [Bool.and_assoc, Bool.decide_and]
  simp only [State.camFind, hpre, hcam]

theorem State.Tracks.toPhys (t : v.Tracks as u) (d : EpId) : u.toPhys d = v.toPhys d := by simp only [State.toPhys, t.camFind]

/-- A route entry is no register that a request writes. -/
theorem quietReg_routeAddr {n e i : Nat} (hn : n < 4) (he : e < 2) (hi : i < 1024) : quietReg (routeAddr n e i) := by
  unfold routeAddr
  omega

theorem quietReg_routeAddr_local {n e i : Nat} (hi : i < 512) : quietReg (routeAddr n e i + 0x1000) := by
  unfold routeAddr
  omega

theorem clusterOf_lt (d : EpId) : clusterOf d < 512 := by have := d.isLt; unfold clusterOf; omega
theorem localOf_lt (d : EpId) : localOf d < 512 := Nat.mod_lt _ (by decide)

theorem State.Tracks.routeEntry (t : v.Tracks as u) {a : Nat} (ha : quietReg a) : u.routeEntry a = v.routeEntry a := by
  simp only [State.routeEntry, t.reg ha, t.faults]

theorem State.Tracks.epoch (t : v.Tracks as u) : u.fld R.RTE_EPOCHCTL 0 1 = v.fld R.RTE_EPOCHCTL 0 1 :=
  t.fld (b := R.RTE_EPOCHCTL) (by decide) 0 1

theorem State.epoch_lt (s : State) : s.fld R.RTE_EPOCHCTL 0 1 < 2 := getBits_lt _ 0 1

theorem State.Tracks.routeBest (t : v.Tracks as u) (d : EpId) : u.routeBest d = v.routeBest d := by
  simp only [State.routeBest, t.epoch]
  refine List.foldl_ext _ _ _ fun b n hn => ?_
  have hn : n < 4 := List.mem_range.1 hn
  rw [t.link hn, t.isOpen hn, t.routeEntry (quietReg_routeAddr hn v.epoch_lt ((clusterOf_lt d).trans (by decide)))]

/-- The port that a route lookup chooses is a network port. -/
theorem State.routeBest_lt {s : State} {d : EpId} {n : Nat} {r : Nat × Nat × Nat} (e : s.routeBest d = some (n, r)) : n < 4 := by
  have hport : ∀ x, s.routeBest d = some x → x.1 < 4 := by
    unfold State.routeBest
    refine List.foldlRecOn (motive := fun b : Option (Nat × Nat × Nat × Nat) => ∀ x, b = some x → x.1 < 4) _ _
      (fun x hx => by cases hx) fun b hb n hn x hx => ?_
    have hn : n < 4 := List.mem_range.1 hn
    split at hx
    · split at hx
      · cases hx; exact hn
      · split at hx
        · cases hx; exact hn
        · exact hb x hx
      · exact hb x hx
    · exact hb x hx
  exact hport _ e

theorem State.Tracks.route (t : v.Tracks as u) (d : EpId) : u.route d = v.route d := by
  unfold State.route
  rw [t.routeBest]
  split
  · rfl
  · next n ro nh x e =>
    have ha := quietReg_routeAddr_local (n := n) (e := v.fld R.RTE_EPOCHCTL 0 1) (localOf_lt d)
    rw [t.epoch, t.routeEntry ha]

/-! ### What a dispatch decides by -/

theorem State.Tracks.bypass (t : v.Tracks as u) : u.bypass = v.bypass := by simp only [State.bypass, t.alcState]
theorem State.Tracks.dirHits (t : v.Tracks as u) (h : HIdx) : u.dirHits h = v.dirHits h := by
  simp only [State.dirHits, State.lookupWays, t.wayState, t.dirs]
theorem State.Tracks.dirOf (t : v.Tracks as u) (h : HIdx) : u.dirOf h = v.dirOf h := by simp only [State.dirOf, t.dirHits, t.dirs]
theorem State.Tracks.alcHit (t : v.Tracks as u) (h : HIdx) : u.alcHit h = v.alcHit h := by simp only [State.alcHit, t.alcState, t.alc]
theorem State.Tracks.inkNewest (t : v.Tracks as u) (h : HIdx) : u.inkNewest h = v.inkNewest h :=
  (congrArg (fun z : State => z.inkNewest h) t.rest :)
theorem State.Tracks.inkFree (t : v.Tracks as u) : u.inkFree = v.inkFree := by simp only [State.inkFree, t.ink]
theorem State.Tracks.inkRoom (t : v.Tracks as u) : u.inkRoom = v.inkRoom := by simp only [State.inkRoom, t.ink]
theorem State.Tracks.awaitsCommit (t : v.Tracks as u) (i : Nat) : u.awaitsCommit i = v.awaitsCommit i := by
  simp only [State.awaitsCommit, t.ink]
theorem State.Tracks.penHas (t : v.Tracks as u) (h : HIdx) : u.penHas h = v.penHas h := by simp only [State.penHas, t.pen]
theorem State.Tracks.claimed (t : v.Tracks as u) (l : LineAddr) (o : Option Nat) : u.claimed l o = v.claimed l o := by
  simp only [State.claimed, t.tickets]
theorem State.Tracks.blocker (t : v.Tracks as u) (h : HIdx) : u.blocker h = v.blocker h := by simp only [State.blocker, t.stalls]
theorem State.Tracks.blocked (t : v.Tracks as u) (h : HIdx) : u.blocked h = v.blocked h := by
  simp only [State.blocked, State.moving, State.draining, t.blocker, t.moves, t.alcState, t.alc]
theorem State.Tracks.pinned (t : v.Tracks as u) (k : Nat) : u.pinned k = v.pinned k := by
  simp only [State.pinned, t.blocker, t.stalls, t.dirs]
theorem State.Tracks.chooseWay (t : v.Tracks as u) (h : HIdx) : u.chooseWay h = v.chooseWay h := by
  simp only [State.chooseWay, State.allocWays, t.wayState, t.pinned, t.dirs]
theorem State.Tracks.freeStalls (t : v.Tracks as u) (p : Nat) : u.freeStalls p = v.freeStalls p :=
  (congrArg (fun z : State => z.freeStalls p) t.rest :)
theorem State.Tracks.aStall (t : v.Tracks as u) (p : Nat) : u.aStall p = v.aStall p := by
  have hfrom : ∀ held lo n, u.freeFrom held lo n = v.freeFrom held lo n := fun held lo n => by
    induction n generalizing lo with
    | zero => rfl
    | succ n ih => simp only [State.freeFrom, t.stalls, ih]
  simp only [State.aStall, State.setAside, t.tickets, hfrom]
theorem State.Tracks.mayTake (t : v.Tracks as u) (src n : Nat) (o : Option Nat) : u.mayTake src n o = v.mayTake src n o := by
  have hres : u.cpRes = v.cpRes := by simp only [State.cpRes, t.fld (b := R.YARD_CTL) (by decide), t.stalls]
  have howed : u.owed o = v.owed o := (congrArg (fun z : State => z.owed o) t.rest :)
  simp only [State.mayTake, hres, howed, t.freeStalls]
theorem State.Tracks.stallFor (t : v.Tracks as u) (r : Req) (tk : Option (Nat × Ticket)) : u.stallFor r tk = v.stallFor r tk := by
  simp only [State.stallFor, t.mayTake, t.aStall]
theorem State.Tracks.mp (t : v.Tracks as u) (n : Nat) : u.mp n = v.mp n := by simp only [State.mp, t.mps]

/-! ### Steps that both states take, or that leave only what a request leaves -/

/-- Registers of `as` written. -/
theorem State.Tracks.onlyRegs {w : State} (t : v.Tracks as u) (hc : w.canonical = true) (h : u.onlyRegs w as) : v.Tracks as w := by
  obtain ⟨he, hr⟩ := h
  refine ⟨t.least, t.most, t.base, hc, fun b hb => (hr b hb).trans (t.regs b hb), ?_⟩
  conv_lhs => rw [he, t.rest]
  rw [he]

theorem State.Tracks.setReg (t : v.Tracks as u) {a : Nat} (ha : a ∈ as) (x : Word) : v.Tracks as (u.setReg a x) :=
  t.onlyRegs (State.canonical_setReg _ _ t.canonical)
    ((State.onlyRegs_setReg t.canonical a x).mono (List.cons_subset.2 ⟨ha, List.nil_subset _⟩))

theorem State.Tracks.maxFld (t : v.Tracks as u) {a : Nat} (ha : a ∈ as) (lo w x : Nat) : v.Tracks as (u.maxFld a lo w x) := t.setReg ha _

theorem State.Tracks.evN (t : v.Tracks as u) {k : Nat} (hk : k < 256) (n : Nat) (a : Attr) : v.Tracks as (u.evN k n a) := by
  have ha : R.PMC_CNT + 8 * k ∈ askRegs := by
    simp only [askRegs, perfRegs, List.mem_append, List.mem_map, List.mem_range]
    exact .inr (.inl ⟨k, hk, rfl⟩)
  unfold State.evN
  split
  · exact t.setReg (t.least ha) _
  · exact t

theorem State.Tracks.ev (t : v.Tracks as u) {k : Nat} (hk : k < 256) (a : Attr) : v.Tracks as (u.ev k a) := t.evN hk 1 a

theorem State.Tracks.yardPeak (t : v.Tracks as u) : R.YARD_PEAK ∈ as := t.least (by simp [askRegs])
theorem State.Tracks.inkPeak (t : v.Tracks as u) : R.INK_PEAK ∈ as := t.least (by simp [askRegs])

/-- The events of a first response (R439). -/
theorem State.Tracks.respEv (t : v.Tracks as u) {kind : Nat} (hk : kind < 8) {r : Req} (hr : r.src < 6) : v.Tracks as (u.respEv kind r) := by
  unfold State.respEv
  refine State.Tracks.ev ?_ (by omega) _
  split
  · exact (t.ev (by omega) _).ev (by omega) _
  · exact t.ev (by omega) _

/-- Stalls written in both states alike. -/
theorem State.Tracks.setStalls (t : v.Tracks as u) (m : SMap Stall) : ({ v with stalls := m } : State).Tracks as { u with stalls := m } :=
  ⟨t.least, t.most, t.base, t.canonical, t.regs, congrArg (fun z : State => { z with stalls := m }) t.rest⟩

theorem State.Tracks.updStall (t : v.Tracks as u) (i : Nat) (f : Stall → Stall) : (v.updStall i f).Tracks as (u.updStall i f) := by
  simp only [State.updStall, t.stalls]
  exact t.setStalls _

theorem State.Tracks.setInk (t : v.Tracks as u) (m : SMap InkSlot) : ({ v with ink := m } : State).Tracks as { u with ink := m } :=
  ⟨t.least, t.most, t.base, t.canonical, t.regs, congrArg (fun z : State => { z with ink := m }) t.rest⟩

theorem State.Tracks.setMp (t : v.Tracks as u) (n : Nat) (p : MpSt) : (v.setMp n p).Tracks as (u.setMp n p) := by
  simp only [State.setMp, t.mps]
  exact ⟨t.least, t.most, t.base, t.canonical, t.regs, congrArg (fun z : State => { z with mps := SMap.put v.mps n p }) t.rest⟩

theorem State.Tracks.putEntry (t : v.Tracks as u) (k : Nat) (e : DirEntry) : (v.putEntry k e).Tracks as (u.putEntry k e) := by
  simp only [State.putEntry, t.dirs]
  exact ⟨t.least, t.most, t.base, t.canonical, t.regs, congrArg (fun z : State => { z with dirs := SMap.put v.dirs k e }) t.rest⟩

/-- A memory read is asked for in both states alike (R276). -/
theorem State.Tracks.askRead (t : v.Tracks as u) (i : Nat) (h : HIdx) : (v.askRead i h).Tracks as (u.askRead i h) := by
  simp only [State.askRead, t.readPort, t.mp, t.tod]
  exact (t.setMp _ _).updStall i _

end

end Sys2Proof.Machine
end

section
/-! SUPPORT. The way of a request of a network port for a line in state I, from its queue to the stall in which it waits for memory
or is answered (R34, R78, R135, R182). -/

-- As in the tests: the compile of the one text stays within the threads of the sandbox.
set_option Elab.async false

namespace Sys2Proof.Machine

/-! ### The ingress queue -/

theorem NpSt.eg_fill1 (p : NpSt) (k : Nat) : (p.fill1 k).eg = p.eg := by
  unfold NpSt.fill1
  split
  · dsimp only
    split <;> rfl
  · rfl

theorem NpSt.eg_fillN (p : NpSt) (k f : Nat) : (p.fillN k f).eg = p.eg := by
  induction f generalizing p with
  | zero => rfl
  | succ f ih => rw [NpSt.fillN, ih, NpSt.eg_fill1]

/-- Moving packets from the link buffers leaves the egress queues alone. -/
theorem NpSt.eg_fill (p : NpSt) : p.fill.eg = p.eg := by simp only [NpSt.fill, List.foldl_cons, List.foldl_nil, NpSt.eg_fillN]

/-- What moves into the ingress queues of a port, and the credits that go back, leave everything else alone. -/
theorem State.settleIn_eq (s : State) (n : Nat) : s.settleIn n = { s with nps := (s.settleIn n).nps } := by
  unfold State.settleIn
  dsimp only
  split <;> rfl

theorem State.eg_setNp {s : State} {n : Nat} {p : NpSt} (hp : p.eg = (s.np n).eg) (m : Nat) : ((s.setNp n p).np m).eg = (s.np m).eg := by
  by_cases hm : m = n
  · subst hm; rw [State.np_setNp_self, hp]
  · rw [State.np_setNp_ne _ hm]

theorem State.eg_settleIn (s : State) (n m : Nat) : ((s.settleIn n).np m).eg = (s.np m).eg := by
  have hfill := State.eg_setNp (s := s) (n := n) (NpSt.eg_fill _)
  unfold State.settleIn
  dsimp only
  split
  · exact (State.eg_setNp (p := NpSt.regrant _ _) rfl m).trans (hfill m)
  · exact hfill m

/-- A request that leaves its queue changes only the ports. -/
theorem State.dropIn_eq (s : State) (n c : Nat) (x : InItem) : s.dropIn n c x = { s with nps := (s.dropIn n c x).nps } :=
  State.settleIn_eq _ n

theorem State.eg_dropIn (s : State) (n c : Nat) (x : InItem) (m : Nat) : ((s.dropIn n c x).np m).eg = (s.np m).eg := by
  unfold State.dropIn
  exact (State.eg_settleIn _ n m).trans (State.eg_setNp (by rfl) m)

theorem State.opcode_of_nextReq {s : State} {n : Nat} {op : BitVec 6} {x : InItem} (h : s.nextReq n op = some x) : x.p.opcode = op := by
  have := List.find?_some h
  simp only [Bool.and_eq_true, beq_iff_eq] at this
  exact this.1.1

/-- A request that passes the checks of R103, R181, R321, R347 and R371 is dispatched. -/
theorem State.handle_admitted {s : State} {r : Req} (hchk : s.chk = false) (ha : s.admits r) (hf : s.formatOf r = none)
    (hop : r.op ≠ Op.ligature) : s.handle r = s.dispatch r .req none := by
  obtain ⟨hcl, hfence, hwarn, -, hreg⟩ := ha
  have hb : s.barred r = none := by simp [State.barred, hchk, hcl, hfence]
  simp only [State.handle, hb, hf, hreg, hwarn, hop, if_false, Bool.false_eq_true]

/-- The next request of a port leaves its queue and is dispatched, in a state that differs in its ports and a pointer only. -/
theorem State.request_admitted {s : State} {n : Nat} {op : BitVec 6} {x : InItem} (hchk : s.chk = false) (hx : s.nextReq n op = some x)
    (ha : s.admits (x.req n)) (hf : s.formatOf (x.req n) = none) (hop : op ≠ Op.ligature) :
    ∃ m l, (∀ k, (({ s with nps := m, lanePtr := l } : State).np k).eg = (s.np k).eg) ∧
      s.request n op = ({ s with nps := m, lanePtr := l } : State).dispatch (x.req n) .req none := by
  refine ⟨(s.dropIn n 0 x).nps, ((s.dropIn n 0 x).taken 5 (s.laneOf x.p.line) n).lanePtr, s.eg_dropIn n 0 x, ?_⟩
  have hz : (s.dropIn n 0 x).taken 5 (s.laneOf x.p.line) n =
      { s with nps := (s.dropIn n 0 x).nps, lanePtr := ((s.dropIn n 0 x).taken 5 (s.laneOf x.p.line) n).lanePtr } := by
    conv_lhs => rw [s.dropIn_eq n 0 x]
    conv_rhs => rw [s.dropIn_eq n 0 x]
    rfl
  have hr : (x.req n).op ≠ Op.ligature := by rw [InItem.req, State.opcode_of_nextReq hx]; exact hop
  unfold State.request
  rw [hx]
  dsimp only
  rw [hz]
  exact State.handle_admitted hchk ha hf hr

/-! ### Dispatch -/

theorem State.damage_intact {s : State} (h : s.faults = []) (k i : Nat) : s.damage k i = none := by simp [State.damage, h]

theorem State.dirProbe_intact {s : State} (h : s.faults = []) (src i : Nat) (l : LineAddr) : s.dirProbe src i l = s := by
  simp only [State.dirProbe, State.damage_intact h]

/-- The directory access for a line without an entry, nothing damaged: it is counted (R117, R129). -/
theorem State.dirAccess_miss {s : State} {h : HIdx} (hf : s.faults = []) (hd : ∀ a, (s.ev (0x80 + sliceOf h % 2) a).dirHits h = []) :
    s.dirAccess h = s.ev (0x80 + sliceOf h % 2) { l := some (s.lineOf h).toNat } := by
  have hfold : (List.range s.lookupWays).foldl (fun t w => t.dirProbe 0 (dirKey (posOf h) w) (t.lineOf h)) s = s :=
    List.foldl_fixed' (fun w => State.dirProbe_intact hf _ _ _) _
  simp only [State.dirAccess, hfold, hd]

theorem State.alcLookup_intact {s : State} (h : s.faults = []) : s.alcLookup = s := by
  simp [State.alcLookup, State.alcTags, h]

section
variable {as : List RegAddr} {s v u : State} {r : Req} {h : HIdx} {i : Nat}

/-- A request of an idle line, with no ticket, is not penned. -/
theorem State.penReason_idle (hq : s.quietLine h) (hc : s.claimed r.line none = false) : s.penReason r h none none = none := by
  obtain ⟨-, -, hb, hp, -⟩ := hq
  have hearly : ∀ q : PenEntry → Bool, s.pen.any (fun f => f.2.h == h && q f.2) = false := fun q => by
    simp only [State.penHas, List.any_eq_false] at hp ⊢
    exact fun f hf => by simp [hp f hf]
  simp [State.penReason, hearly (fun f => f.before ⟨0, 0, h, none, s.penSeq⟩), hb, hc]

theorem State.Tracks.quietLine (t : v.Tracks as u) (hq : v.quietLine h) : u.quietLine h := by
  obtain ⟨hd, ha, hb, hp, hi⟩ := hq
  exact ⟨t.dirHits h ▸ hd, t.alcHit h ▸ ha, t.blocked h ▸ hb, t.penHas h ▸ hp, t.inkNewest h ▸ hi⟩

/-- The dispatch of a request of an idle line, with no ticket: after one count it takes what its opcode takes (R135, R140). -/
theorem State.dispatch_idle (t : s.Tracks askRegs u) (hf : s.faults = []) (hchk : s.chk = false) (hq : s.quietLine h)
    (hc : s.claimed r.line none = false) (ht : r.ticket = 0) (hop : r.op ≠ Op.sync) (hh : u.hIdx r.line = some h) :
    ∃ w, s.Tracks askRegs w ∧ w.nps = u.nps ∧ u.dispatch r .req none =
      if r.op = Op.stroke then w.dispatchGather r .req h none none else w.dispatchLine r .req h none none := by
  have hev : ∀ a, s.Tracks askRegs (u.ev (0x80 + sliceOf h % 2) a) := fun a => t.ev (by omega) a
  have hacc := State.dirAccess_miss (t.faults.trans hf) fun a => ((hev a).quietLine hq).1
  have hw := hev { l := some (u.lineOf h).toNat }
  have hpen := State.penReason_idle (r := r) (hw.quietLine hq) ((hw.claimed _ _).trans hc)
  refine ⟨_, hw, State.ev_nps .., ?_⟩
  simp [State.dispatch, State.readTicket, State.redeems, ht, hop, hh, hacc, State.alcLookup_intact (hw.faults.trans hf),
    hw.chk.trans hchk, hpen]

end

end Sys2Proof.Machine
end

section
/-! SUPPORT. The stall that a request opens and the inkwell slot that it takes, written in a state and in one that follows it. -/

-- As in the tests: the compile of the one text stays within the threads of the sandbox.
set_option Elab.async false

namespace Sys2Proof.Machine

/-! ### The stall and the slot of a request -/

theorem SMap.put_put {α : Type} (m : SMap α) (k : Nat) (a b : α) : SMap.put (SMap.put m k a) k b = SMap.put m k b := by
  induction m with
  | nil => simp [SMap.put]
  | cons e r ih =>
    obtain ⟨j, c⟩ := e
    simp only [SMap.put]
    split
    · simp [SMap.put]
    · split
      · simp [SMap.put]
      · simp only [SMap.put]
        rw [if_neg (by assumption), if_neg (by assumption), ih]

theorem SMap.upd_put {α : Type} (m : SMap α) (k : Nat) (a : α) (f : α → α) :
    SMap.upd (SMap.put m k a) k f = SMap.put m k (f a) := by
  simp only [SMap.upd, SMap.find_put_self, SMap.put_put]

/-- A stall written. -/
def State.withStall (s : State) (i : Nat) (t : Stall) : State := { s with stalls := SMap.put s.stalls i t }

/-- A RESERVED slot of a line as it is taken (R274). -/
def InkSlot.reserve (h : HIdx) (world : Bool) : InkSlot := ⟨h, world, .reserved, [], [], [], [], [], [], [], 0, 0, false, false, 0⟩

/-- The inkwell slot that a request takes, if it takes one. -/
def State.withSlot (s : State) (h : HIdx) (slot : Option Nat) : State :=
  match slot with
  | some sl => { s with ink := SMap.put s.ink sl (InkSlot.reserve h (s.worldOfH h)) }
  | none => s

section
variable {s v u : State} {as : List RegAddr} {i : Nat} {x : Stall} {h : HIdx} {slot : Option Nat}

@[simp] theorem State.find_withStall : SMap.find (s.withStall i x).stalls i = some x := SMap.find_put_self _ _ _

theorem State.updStall_withStall (f : Stall → Stall) : (s.withStall i x).updStall i f = s.withStall i (f x) := by
  simp only [State.updStall, State.withStall, SMap.upd_put]

@[simp] theorem State.withSlot_stalls : (s.withSlot h slot).stalls = s.stalls := by cases slot <;> rfl
@[simp] theorem State.withSlot_dirs : (s.withSlot h slot).dirs = s.dirs := by cases slot <;> rfl
@[simp] theorem State.withSlot_pen : (s.withSlot h slot).pen = s.pen := by cases slot <;> rfl
@[simp] theorem State.withSlot_alc : (s.withSlot h slot).alc = s.alc := by cases slot <;> rfl
@[simp] theorem State.withSlot_mps : (s.withSlot h slot).mps = s.mps := by cases slot <;> rfl
@[simp] theorem State.withSlot_tickets : (s.withSlot h slot).tickets = s.tickets := by cases slot <;> rfl
@[simp] theorem State.withSlot_tod : (s.withSlot h slot).tod = s.tod := by cases slot <;> rfl

/-- The stall of the request, in a state that follows the one with that stall. -/
theorem State.Tracks.find (t : (v.withStall i x).Tracks as u) : SMap.find u.stalls i = some x := by rw [t.stalls, State.find_withStall]

theorem State.Tracks.updWith (t : (v.withStall i x).Tracks as u) (f : Stall → Stall) : (v.withStall i (f x)).Tracks as (u.updStall i f) := by
  rw [← State.updStall_withStall f]
  exact t.updStall i f

/-- A slot RESERVED in both states alike. -/
theorem State.Tracks.inkReserve (t : v.Tracks as u) (sl : Nat) (h : HIdx) : (v.withSlot h (some sl)).Tracks as (u.inkReserve sl h) := by
  have hset := t.setInk (SMap.put v.ink sl (InkSlot.reserve h (v.worldOfH h)))
  have := hset.maxFld hset.inkPeak 0 10 (SMap.put v.ink sl (InkSlot.reserve h (v.worldOfH h))).length
  unfold State.inkReserve
  rw [t.worldOfH, t.ink]
  exact this

/-- A stall opened; the peak of its pool follows (R160). -/
theorem State.Tracks.openStall (t : s.Tracks as u) (i : Nat) (x : Stall) : (s.withStall i x).Tracks as (u.openStall i x) := by
  have hput : (s.withStall i x).Tracks as
      { u with stalls := SMap.put u.stalls i x, lates := SMap.del u.lates i, freeCtr := u.freeCtr + 1 } := by
    rw [t.stalls]
    exact ⟨t.least, t.most, t.base, t.canonical, t.regs, congrArg (fun z : State =>
      { z with stalls := SMap.put s.stalls i x, lates := SMap.del u.lates i, freeCtr := u.freeCtr + 1 }) t.rest⟩
  unfold State.openStall
  dsimp only
  split
  · exact hput.maxFld hput.yardPeak ..
  · split
    · exact hput.maxFld hput.yardPeak ..
    · split <;> exact hput.maxFld hput.yardPeak ..

/-- The stall of a request as it is accepted: it blocks no line yet. -/
def Stall.accepted (r : Req) (h : HIdx) (acc : Tod) : Stall := { Stall.new .req r h acc with blocks := false }

/-- A request of a network port without a ticket is accepted (R32, R138). -/
theorem State.Tracks.accept (t : s.Tracks as u) {r : Req} (hcp : r.cp = none) (hr : r.src < 6) (h : HIdx) (i : Nat) :
    (s.withStall i (Stall.accepted r h s.tod)).Tracks as (u.accept r .req h i none) := by
  have hopen : (s.withStall i (Stall.accepted r h s.tod)).Tracks as (u.openStall i (Stall.accepted r h u.tod)) := by
    rw [t.tod]
    exact t.openStall i _
  unfold State.accept
  rw [hcp]
  extract_lets _ _ opened
  have hsame : opened = u.openStall i (Stall.accepted r h u.tod) := rfl
  rw [← hsame] at hopen
  clear_value opened
  exact hopen.respEv (by decide) hr

end

/-! ### A line whose only slot in the inkwell is reserved -/

theorem leastBy_eq_none {f : Nat → Nat} {l : List Nat} : leastBy f l = none ↔ l = [] := by
  cases l with
  | nil => simp [leastBy]
  | cons a r =>
    simp only [leastBy, reduceCtorEq, iff_false]
    split <;> simp

theorem State.inkNewest_eq_none {s : State} {h : HIdx} :
    s.inkNewest h = none ↔ ∀ e ∈ s.ink, e.2.h = h → e.2.phase = .reserved := by
  simp only [State.inkNewest, leastBy_eq_none, List.map_eq_nil_iff, List.filter_eq_nil_iff]
  simp

theorem State.inkNewest_withSlot {s : State} {h g : HIdx} {slot : Option Nat} (hn : s.inkNewest h = none) :
    (s.withSlot g slot).inkNewest h = none := by
  rw [State.inkNewest_eq_none] at hn ⊢
  cases slot with
  | none => exact hn
  | some sl =>
    intro e he hh
    rcases SMap.mem_put he with he | rfl
    · exact hn e he hh
    · rfl

theorem State.awaitsCommit_withSlot {s : State} {h : HIdx} {slot : Option Nat} {i : Nat} (ha : s.awaitsCommit i = false) :
    (s.withSlot h slot).awaitsCommit i = false := by
  simp only [State.awaitsCommit, List.any_eq_false] at ha ⊢
  cases slot with
  | none => exact ha
  | some sl =>
    intro e he
    rcases SMap.mem_put he with he | rfl
    · exact ha e he
    · simp [InkSlot.reserve]

end Sys2Proof.Machine
end

section
/-! SUPPORT. The beginning of a transaction whose line is in state I: nothing is sent, and the line's data are asked for (R78, R276). -/

-- As in the tests: the compile of the one text stays within the threads of the sandbox.
set_option Elab.async false

namespace Sys2Proof.Machine

section
variable {s v u : State} {as : List RegAddr} {r : Req} {i : Nat} {x : Stall} {h : HIdx} {slot : Option Nat}

/-- The stall of a request of a line in state I when its transaction begins: no snoop decides the outcome (R78). -/
def Stall.begun (r : Req) (h : HIdx) (acc : Tod) (way port slot : Option Nat) : Stall :=
  { Stall.new .req r h acc with way := way, datPort := port, ink := slot, out := some .direct }

/-- The plan of a line in state I: nothing is sent (R78). -/
def Plan.direct : Plan := ⟨[], false, none, none, some .direct⟩

/-- A transaction without snoops begins: its memory read is asked for where its reply needs data (R78, R276). -/
theorem State.Tracks.begin_direct (t : (v.withStall i x).Tracks as u) (hgot : x.got = none) (hn : v.inkNewest h = none)
    (relays : List EpId) (ex1 : Option EpId) (data : Bool) :
    ∃ w, (v.withStall i { x with hold := none, out := some .direct }).Tracks as w ∧
      u.begin i h Plan.direct relays ex1 data = (if data then w.askRead i h else w).advance i := by
  have hw := t.updWith (fun y => { y with hold := none, out := some .direct })
  refine ⟨_, hw, ?_⟩
  have hnone : (u.updStall i (fun y => { y with hold := none, out := some .direct })).inkNewest h = none :=
    (hw.inkNewest h).trans hn
  have hfind := hw.find
  unfold State.begin Plan.direct
  simp only [List.foldl_nil, Bool.false_eq_true, if_false]
  cases data
  · rfl
  · simp only [hfind, hgot, hnone, Option.isNone_none, Bool.and_self, if_true]

/-- A request's reply to a line in state I needs the line's data (R78). -/
def Rep.needsData (rep : Rep) (op : BitVec 6) : Bool := match rep with | .data _ => true | .cmpW => op == Op.wrPart | _ => false

/-- What is taken for a request whose line is free: the way of an entry to come, and an inkwell slot; then its transaction begins. -/
theorem State.Tracks.proceed_idle (t : (s.withStall i (Stall.accepted r h s.tod)).Tracks as u) (hkind : kindOf r.op < 8)
    (hd : s.dirOf h = none) (ha : s.alcHit h = none) (hn : s.inkNewest h = none) (key port : Option Nat)
    (hslot : ∀ sl, slot = some sl → s.inkFree = some sl) :
    ∃ w, ((s.withSlot h slot).withStall i (Stall.begun r h s.tod key port slot)).Tracks as w ∧
      u.proceed r i h (key.map (fun k => (k, false, false))) port slot.isSome =
        (if (s.repOf r r.op .direct none).needsData r.op then w.askRead i h else w).advance i := by
  have hdir : u.dirOf h = none := (t.dirOf h).trans hd
  have hhit : u.alcHit h = none := (t.alcHit h).trans ha
  unfold State.proceed
  rw [hdir, hhit]
  extract_lets e hit waited counted p k0 placed free reserved given evicted data relays ex1
  have hcounted : (s.withStall i (Stall.accepted r h s.tod)).Tracks as counted :=
    t.ev (by simp only [classIdx, e]; split <;> omega) _
  have hkey : k0 = key := by cases key <;> rfl
  have hfree : (s.withStall i { Stall.new .req r h s.tod with way := key, datPort := port }).Tracks as free := by
    rw [← hkey]
    exact hcounted.updWith (fun y => { y with code := 2, blocks := true, way := k0, datPort := port })
  have hreserved : ((s.withSlot h slot).withStall i { Stall.new .req r h s.tod with way := key, datPort := port, ink := slot }).Tracks
      as reserved := by
    cases slot with
    | none => exact hfree
    | some sl =>
      have hsl : free.inkFree = some sl := hfree.inkFree.trans (hslot sl rfl)
      have := (hfree.inkReserve sl h).updWith (v := s.withSlot h (some sl)) (fun y => { y with ink := some sl })
      simpa only [reserved, Option.isSome_some, if_true, hsl] using this
  have hevicted : evicted = reserved := by cases key <;> rfl
  have hbegin := (hevicted ▸ hreserved).begin_direct (h := h) rfl (State.inkNewest_withSlot hn) relays ex1 data
  obtain ⟨w, hw, heq⟩ := hbegin
  exact ⟨w, hw, heq⟩

end

end Sys2Proof.Machine
end

section
/-! SUPPORT. The dispatch of a coherence request whose line is in state I and free (R34, R115, R116, R135). -/

-- As in the tests: the compile of the one text stays within the threads of the sandbox.
set_option Elab.async false

namespace Sys2Proof.Machine

section
variable {s v u : State} {as : List RegAddr} {r : Req} {i : Nat} {x : Stall} {h : HIdx} {slot key : Option Nat}

theorem State.Tracks.datSeat (t : s.Tracks as u) (r : Req) : u.datSeat r = s.datSeat r := by
  simp only [State.datSeat, t.toPhys, t.route]

/-- A place for an answer with data is left where the requester is seated (R34, R135). -/
theorem State.Tracks.datRoom (t : s.Tracks as u) (heg : ∀ m, (u.np m).eg = (s.np m).eg) (hs : s.seated r.q) :
    u.datRoom (u.datSeat r) = true := by
  have hused : ∀ n, u.datUsed n = s.datUsed n := fun n => by simp only [State.datUsed, NpSt.egq, heg, t.stalls]
  rw [t.datSeat]
  simp only [State.datSeat, State.datRoom, Option.all_map]
  cases hr : s.route (s.toPhys r.q) with
  | none => rfl
  | some x => simpa [hused] using hs x hr

theorem State.dirOf_miss (hd : s.dirHits h = []) : s.dirOf h = none := by simp only [State.dirOf, hd]

/-- The inkwell slots that a request of a line in state I takes are there (R135). -/
def State.slotReady (s : State) (slot : Option Nat) : Prop := ∀ sl, slot = some sl → 1 ≤ s.inkRoom ∧ s.inkFree = some sl

theorem State.Tracks.room (t : s.Tracks as u) (hslot : s.slotReady slot) : b2n slot.isSome ≤ u.inkRoom := by
  rw [t.inkRoom]
  cases slot with
  | none => exact Nat.zero_le _
  | some sl => exact (hslot sl rfl).1

/-- A coherence request whose line is in state I and free takes what it needs, a way without a victim among it (R116, R135). -/
theorem State.Tracks.dispatchLine_idle (t : s.Tracks as u) (heg : ∀ m, (u.np m).eg = (s.np m).eg) (hq : s.quietLine h)
    (hi : s.stallFor r none = some i) (hkind : kindOf r.op < 8) (hcp : r.cp = none) (hsrc : r.src < 6)
    (hall : r.allocates = key.isSome) (hkey : ∀ k, key = some k → s.chooseWay h = some (k, false, false))
    (hslot : s.slotReady slot) (htakes : (r.op == Op.wrFull || r.op == Op.wrPart || r.mayOwn none) = slot.isSome)
    (hseat : r.reads = true → s.seated r.q) :
    ∃ port w, ((s.withSlot h slot).withStall i (Stall.begun r h s.tod key port slot)).Tracks as w ∧
      u.dispatchLine r .req h none none = (if (s.repOf r r.op .direct none).needsData r.op then w.askRead i h else w).advance i := by
  obtain ⟨hd, ha, -, -, hn⟩ := hq
  have hdir : u.dirOf h = none := (t.dirOf h).trans (State.dirOf_miss hd)
  have hhit : u.alcHit h = none := (t.alcHit h).trans ha
  have hstall : u.stallFor r none = some i := (t.stallFor r none).trans hi
  have hroom := t.room hslot
  have hport : u.datRoom (if r.reads then u.datSeat r else none) = true := by
    split
    · next hr => exact t.datRoom heg (hseat hr)
    · rfl
  have hway : (if r.allocates then u.chooseWay h else none) = key.map (fun k => (k, false, false)) := by
    rw [hall, t.chooseWay]
    cases key with
    | none => rfl
    | some k => exact hkey k rfl
  have hgo : u.dispatchLine r .req h none none =
      (u.accept r .req h i none).proceed r i h (key.map (fun k => (k, false, false))) (if r.reads then u.datSeat r else none) slot.isSome := by
    unfold State.dispatchLine
    rw [hdir, hhit]
    extract_lets e hit wants way p victim takes port inks rly ok
    have hw : way = key.map (fun k => (k, false, false)) := hway
    have htk : takes = slot.isSome := by
      rw [← htakes]
      simp only [takes, hit, e, Option.isNone_none, if_true, Option.any_none, Bool.or_false]
    have hv : victim = none := by simp only [victim, hw]; cases key <;> rfl
    have hzero : b2n false = 0 := rfl
    have hok : ok = true := by
      simp [hzero, ok, inks, rly, p, hv, htk, State.plan, hroom, port, hport, e]
    have hwant : (wants && way.isNone) = false := by
      rw [Bool.and_eq_false_iff]
      cases hal : r.allocates with
      | false => exact .inl hal
      | true => exact .inr (by rw [hw, Option.isNone_map, ← Option.not_isSome, ← hall, hal]; rfl)
    rw [if_neg (by simp [hwant]), hstall, hok, hw, htk]
  obtain ⟨w, hw, heq⟩ := (t.accept hcp hsrc h i).proceed_idle hkind (State.dirOf_miss hd) ha hn key
    (if r.reads then u.datSeat r else none) (slot := slot) (fun sl hsl => (hslot sl hsl).2)
  exact ⟨_, w, hw, hgo.trans heq⟩

end

end Sys2Proof.Machine
end

section
/-! SUPPORT. The dispatch of a stroke in bypass whose line is in state I and free (R34, R135, R182, R206). -/

-- As in the tests: the compile of the one text stays within the threads of the sandbox.
set_option Elab.async false

namespace Sys2Proof.Machine

section
variable {s v u : State} {as : List RegAddr} {r : Req} {i : Nat} {x : Stall} {h : HIdx} {sl : Nat} {acc : Tod} {port : Option Nat}

/-- A gathering in bypass, its line in state I, begins with the inkwell slot that it has been given (R206). -/
theorem State.Tracks.gatherGo_idle (t : ((v.withSlot h (some sl)).withStall i { Stall.accepted r h acc with datPort := port }).Tracks as u)
    (hd : v.dirOf h = none) (hn : v.inkNewest h = none) :
    ∃ w, ((v.withSlot h (some sl)).withStall i (Stall.begun r h acc none port (some sl))).Tracks as w ∧
      u.gatherGo i h r Op.stroke none (some sl) = (w.askRead i h).advance i := by
  have hdir : u.dirOf h = none := (t.dirOf h).trans hd
  have hset := t.updWith (fun y => { y with code := 2, blocks := true, way := none, alc := none, ink := some sl })
  obtain ⟨w, hw, heq⟩ := hset.begin_direct (h := h) rfl (State.inkNewest_withSlot hn) [] none true
  refine ⟨w, hw, ?_⟩
  unfold State.gatherGo
  rw [hdir]
  exact heq

/-- A stroke in bypass whose line is in state I and free takes its stall and an inkwell slot (R34, R182, R206). -/
theorem State.Tracks.dispatchGather_idle (t : s.Tracks as u) (heg : ∀ m, (u.np m).eg = (s.np m).eg) (hq : s.quietLine h)
    (hi : s.stallFor r none = some i) (hop : r.op = Op.stroke) (hcp : r.cp = none) (hsrc : r.src < 6) (hbyp : s.bypass = true)
    (hslot : s.slotReady (some sl)) (hseat : s.seated r.q) :
    ∃ port w, ((s.withSlot h (some sl)).withStall i (Stall.begun r h s.tod none port (some sl))).Tracks as w ∧
      u.dispatchGather r .req h none none = (w.askRead i h).advance i := by
  obtain ⟨hd, ha, -, -, hn⟩ := hq
  have hdir : u.dirOf h = none := (t.dirOf h).trans (State.dirOf_miss hd)
  have hhit : u.alcHit h = none := (t.alcHit h).trans ha
  have hstall : u.stallFor r none = some i := (t.stallFor r none).trans hi
  have hroom := t.room hslot
  have hport := t.datRoom heg hseat
  have hb : u.bypass = true := t.bypass.trans hbyp
  have hacc := t.accept hcp hsrc h i
  obtain ⟨a, hcount⟩ : ∃ a, a = (u.accept r .req h i none).ev (8 * kindOf r.op + 0 + 0) r.attr := ⟨_, rfl⟩
  have hcounted : (s.withStall i (Stall.accepted r h s.tod)).Tracks as a := by
    rw [hcount, hop]
    exact hacc.ev (by decide) _
  have hnoted := hcounted.updWith (fun y => { y with datPort := u.datSeat r })
  have hsl : (a.updStall i (fun y => { y with datPort := u.datSeat r })).inkFree = some sl := hnoted.inkFree.trans (hslot sl rfl).2
  obtain ⟨w, hw, heq⟩ := State.Tracks.gatherGo_idle (v := s) (hnoted.inkReserve sl h) (State.dirOf_miss hd) hn
  refine ⟨_, w, hw, ?_⟩
  rw [← heq]
  have hwaited : (SMap.find (u.accept r .req h i none).stalls i).any (fun y => y.waited) = false := by
    rw [hacc.find]; rfl
  unfold State.dispatchGather
  rw [hdir, hhit, hb]
  extract_lets e byp op p hit pick dirty port ok s1 go
  have hok : ok = true := by
    have hdirty : dirty = false := rfl
    have hz : b2n p.rly = 0 := rfl
    simp only [ok, hdirty, hz, byp, Bool.or_false, Bool.true_or, Bool.and_true, Nat.zero_le, decide_true, Bool.and_eq_true,
      decide_eq_true_eq]
    refine ⟨hroom, ?_⟩
    simpa only [port, hop, if_true] using hport
  have hs1 : s1 = u := rfl
  rw [hs1, hstall, hok]
  dsimp only [go]
  rw [hwaited]
  simp only [hop, if_true, Bool.false_eq_true, if_false, byp, port]
  have he : classIdx e = 0 := rfl
  rw [he]
  rw [hop] at hcount
  rw [← hcount, hsl]
  rfl

end

end Sys2Proof.Machine
end

section
/-! SUPPORT. A request that waits for its line's data: what its turn leaves behind (R78, R276). -/

-- As in the tests: the compile of the one text stays within the threads of the sandbox.
set_option Elab.async false

namespace Sys2Proof.Machine

/-- A stall whose transaction needs no answer of an agent to go on: the outcome is known and the reply is not sent (R78). -/
structure Stall.Due (t : Stall) (h : HIdx) : Prop where
  role : t.role = .req
  code : t.code = 2
  cp : t.req.cp = none
  line : t.h = h
  waits : t.waits = []
  relay : t.relay = none
  evict : t.evict = none
  alc : t.alc = none
  hold : t.hold = none
  out : t.out = some .direct
  wbWait : t.wbWait = none
  got : t.got = none
  ready : t.ready = false
  final : t.final = false
  recorded : t.recorded = false

theorem Stall.begun_due {r : Req} (hcp : r.cp = none) (h : HIdx) (acc : Tod) (way port slot : Option Nat) :
    (Stall.begun r h acc way port slot).Due h := ⟨rfl, rfl, hcp, rfl, rfl, rfl, rfl, rfl, rfl, rfl, rfl, rfl, rfl, rfl, rfl⟩

section
variable {s v u : State} {as : List RegAddr} {r : Req} {i : Nat} {t y : Stall} {h : HIdx} {slot : Option Nat} {o : Out}

theorem State.advance_due (hd : t.Due h) (hf : SMap.find s.stalls i = some t) (hchk : s.chk = false) (hw : s.awaitsCommit i = false) :
    s.advance i = (s.completeStep i t .direct).closeReq i := by
  have hhold : s.holdStep i t = s := by simp [State.holdStep, hd.hold]
  simp only [State.advance, hf, hhold, hchk, hd.code, hd.waits, hd.relay, hd.wbWait, hd.out, Stall.done, hd.final, hd.ready, hw]
  rfl

theorem State.displaces_idle {rep : Rep} (hdir : s.dirOf t.h = none) : s.displaces t rep = none := by
  simp [State.displaces, hdir]

/-- Data that are not at hand, and whose read has been asked for, are waited for. -/
theorem State.need_asked (hg : t.got = none) (hn : s.inkNewest t.h = none) (hrd : t.rd = .asked) : s.need i t = (s, none) := by
  simp [State.need, State.fetch, hg, hn, hrd]

/-- A transaction whose reply needs data still to be read waits for them. -/
theorem State.completeStep_asked (hd : t.Due h) (hf : SMap.find s.stalls i = some t) (hdir : s.dirOf h = none)
    (hn : s.inkNewest h = none) (hrd : t.rd = .asked)
    (hneeds : (s.repOf t.req t.req.op .direct none).needsData t.req.op = true ∨ t.req.op = Op.stroke) :
    s.completeStep i t .direct = s := by
  have hdt : s.dirOf t.h = none := hd.line.symm ▸ hdir
  have hneed := State.need_asked (i := i) hd.got (hd.line.symm ▸ hn) hrd
  unfold State.completeStep
  simp only [hd.role, hdt, State.displaces_idle hdt, ite_self, hf, hd.waits, Option.any_some, List.isEmpty_nil, Bool.not_true,
    Bool.false_eq_true, if_false, hneed, hd.alc, Option.any_none]
  rcases hneeds with h1 | h1
  · generalize s.repOf t.req t.req.op .direct none = rep at h1 ⊢
    cases rep with
    | data d => rfl
    | cmpW =>
      have : t.req.op = Op.wrPart := by simpa [Rep.needsData] using h1
      simp [this, show Op.wrPart ≠ Op.wrFull by decide]
    | fwd => cases h1
    | grant d => cases h1
    | cmpZ => cases h1
    | gather => cases h1
  · rw [h1]
    rfl

/-- A stall that has recorded nothing does not close. -/
theorem State.closeReq_unrecorded (hf : SMap.find s.stalls i = some t) (hr : t.recorded = false) :
    s.closeReq i = s.updStall i (fun x => { x with code := s.codeOf i t }) := by
  simp [State.closeReq, hf, State.canClose, hr]

/-- A memory read of a line queued for a stall (R276). -/
def State.withRead (s : State) (i : Nat) (h : HIdx) : State :=
  s.setMp (s.readPort h) { s.mp (s.readPort h) with reads := (s.mp (s.readPort h)).reads ++ [(s.mp (s.readPort h)).ask h i s.tod] }

theorem State.askRead_withStall (v : State) (i : Nat) (y : Stall) (h : HIdx) :
    (v.withStall i y).askRead i h = (v.withRead i h).withStall i { y with rd := .asked } :=
  State.updStall_withStall (s := v.withRead i h) (i := i) (x := y) _

/-- A request whose data are in memory alone waits for them: its stall and its read are all that its turn leaves (R78, R276). -/
theorem State.Tracks.advance_asked (t : (v.withStall i y).Tracks as u) (hd : y.Due h) (hchk : v.chk = false)
    (hw : v.awaitsCommit i = false) (hdir : v.dirOf h = none) (hn : v.inkNewest h = none)
    (hneeds : (s.repOf y.req y.req.op .direct none).needsData y.req.op = true ∨ y.req.op = Op.stroke) :
    ∃ c, ((v.withRead i h).withStall i { y with rd := .asked, code := c }).Tracks as ((u.askRead i h).advance i) := by
  have hask := t.askRead i h
  rw [State.askRead_withStall] at hask
  have hdue : Stall.Due { y with rd := .asked } h := { hd with }
  have hcode := hask.updWith (fun x => { x with code := (u.askRead i h).codeOf i { y with rd := .asked } })
  rw [State.advance_due hdue hask.find (hask.chk.trans hchk) ((hask.awaitsCommit i).trans hw),
    State.completeStep_asked hdue hask.find ((hask.dirOf h).trans hdir) ((hask.inkNewest h).trans hn) rfl hneeds,
    State.closeReq_unrecorded hask.find hdue.recorded]
  exact ⟨_, hcode⟩

/-- A request has been accepted and waits for a memory read: what a state becomes by it, but for registers of the request and the
queues of its port. -/
def State.Awaits (s : State) (r : Req) (h : HIdx) (i : Nat) (key slot : Option Nat) (u : State) : Prop :=
  ∃ port c, (((s.withSlot h slot).withRead i h).withStall i
    { Stall.begun r h s.tod key port slot with rd := .asked, code := c }).Tracks askRegs u

theorem State.chk_withSlot : (s.withSlot h slot).chk = s.chk := by cases slot <;> rfl
theorem State.dirOf_withSlot (g : HIdx) : (s.withSlot g slot).dirOf h = s.dirOf h := by cases slot <;> rfl
theorem State.readPort_withSlot (g : HIdx) : (s.withSlot g slot).readPort h = s.readPort h := by cases slot <;> rfl
theorem State.mp_withSlot (n : Nat) : (s.withSlot h slot).mp n = s.mp n := by simp only [State.mp, State.withSlot_mps]

/-- What waits for its data after its dispatch. -/
theorem State.Tracks.awaits {key port : Option Nat}
    (t : ((s.withSlot h slot).withStall i (Stall.begun r h s.tod key port slot)).Tracks askRegs u) (hq : s.quietLine h)
    (hcp : r.cp = none) (hchk : s.chk = false) (hw : s.awaitsCommit i = false)
    (hneeds : (s.repOf r r.op .direct none).needsData r.op = true ∨ r.op = Op.stroke) :
    s.Awaits r h i key slot ((u.askRead i h).advance i) := by
  obtain ⟨hd, -, -, -, hn⟩ := hq
  obtain ⟨c, hc⟩ := t.advance_asked (Stall.begun_due hcp h s.tod key port slot) (State.chk_withSlot.trans hchk)
    (State.awaitsCommit_withSlot hw) ((State.dirOf_withSlot h).trans (State.dirOf_miss hd)) (State.inkNewest_withSlot hn) hneeds
  exact ⟨port, c, hc⟩

theorem State.reg_withSlot (b : Nat) : (s.withSlot h slot).reg b = s.reg b := by cases slot <;> rfl

theorem State.reserves_of_ink {sl : Nat} (e : u.ink = (s.withSlot h (some sl)).ink) : s.reserves u sl h := by
  unfold State.reserves
  rw [e]
  exact ⟨⟨_, SMap.find_put_self _ _ _, rfl, rfl⟩, fun _ hj => SMap.find_put_ne _ _ hj⟩

theorem State.readAsked_withRead : s.readAsked ((s.withSlot h slot).withRead i h) h i := by
  unfold State.readAsked State.withRead
  rw [State.readPort_withSlot, State.mp_setMp_self, State.mp_withSlot, State.withSlot_tod]

section
variable {key : Option Nat}

/-- The stall of a waiting request. -/
theorem State.Awaits.stall (a : s.Awaits r h i key slot u) : ∃ y, SMap.find u.stalls i = some y ∧ y.role = .req ∧ y.req = r ∧
    y.h = h ∧ y.way = key ∧ y.ink = slot ∧ y.alc = none ∧ y.blocks = true ∧ y.acc = s.tod ∧ y.out = some .direct ∧ y.rd = .asked ∧
    y.final = false := by
  obtain ⟨port, c, t⟩ := a
  exact ⟨_, t.find, rfl, rfl, rfl, rfl, rfl, rfl, rfl, rfl, rfl, rfl, rfl⟩

theorem State.Awaits.otherStalls (a : s.Awaits r h i key slot u) {j : Nat} (hj : j ≠ i) : SMap.find u.stalls j = SMap.find s.stalls j := by
  obtain ⟨port, c, t⟩ := a
  rw [t.stalls]
  exact (SMap.find_put_ne _ _ hj).trans (congrArg (SMap.find · j) State.withSlot_stalls)

theorem State.Awaits.readAsked (a : s.Awaits r h i key slot u) : s.readAsked u h i := by
  obtain ⟨port, c, t⟩ := a
  exact (congrArg MpSt.reads (t.mp _)).trans (State.readAsked_withRead (slot := slot))

theorem State.Awaits.ink (a : s.Awaits r h i key slot u) : u.ink = (s.withSlot h slot).ink := by
  obtain ⟨port, c, t⟩ := a
  exact t.ink

theorem State.Awaits.reserves {sl : Nat} (a : s.Awaits r h i key (some sl) u) : s.reserves u sl h :=
  State.reserves_of_ink a.ink

theorem State.Awaits.kept (a : s.Awaits r h i key slot u) : u.dirs = s.dirs ∧ u.pen = s.pen ∧ u.alc = s.alc ∧ u.tickets = s.tickets := by
  obtain ⟨port, c, t⟩ := a
  exact ⟨t.dirs.trans State.withSlot_dirs, t.pen.trans State.withSlot_pen, t.alc.trans State.withSlot_alc,
    t.tickets.trans State.withSlot_tickets⟩

theorem State.Awaits.regsKept (a : s.Awaits r h i key slot u) : s.regsKept u askRegs := by
  obtain ⟨port, c, t⟩ := a
  exact fun b hb => (t.regs b hb).trans (State.reg_withSlot b)

/-- What a waiting request leaves behind (R34, R78, R276). -/
theorem State.Awaits.asksMemory (a : s.Awaits r h i key slot u) : Machine.asksMemory s r h i key slot u := by
  obtain ⟨y, hy, hrole, hreq, hh, hway, hink, -, hbl, hacc, hout, hrd, hfin⟩ := a.stall
  obtain ⟨hdirs, hpen, halc, htk⟩ := a.kept
  refine ⟨⟨y, hy, hrole, hreq, hh, hway, hink, hbl, hacc, hout, hrd, hfin⟩, fun _ => a.otherStalls, a.readAsked, ?_, ?_, hdirs, hpen,
    halc, htk, a.regsKept.mono fun b hb => ?_⟩
  · rintro sl rfl
    exact a.reserves
  · rintro rfl
    exact a.ink
  · simp only [askRegs, List.mem_append] at hb ⊢
    exact hb.symm

end

/-- The next request of a port, of an idle line, stands in what its opcode takes (R135). -/
theorem State.request_idle {n : Nat} {op : BitVec 6} {x : InItem} (hcanon : s.canonical = true) (hf : s.faults = [])
    (hchk : s.chk = false) (hx : s.nextReq n op = some x) (ha : s.admits (x.req n)) (hfmt : s.formatOf (x.req n) = none)
    (hop : op ≠ Op.ligature) (hop' : op ≠ Op.sync) (hh : s.hIdx x.p.line = some h) (hq : s.quietLine h)
    (hc : s.claimed x.p.line none = false) :
    ∃ w, s.Tracks askRegs w ∧ (∀ m, (w.np m).eg = (s.np m).eg) ∧ s.request n op =
      if op = Op.stroke then w.dispatchGather (x.req n) .req h none none else w.dispatchLine (x.req n) .req h none none := by
  obtain ⟨m, l, heg, hgo⟩ := State.request_admitted hchk hx ha hfmt hop
  have hreq : (x.req n).op = op := State.opcode_of_nextReq hx
  have ht : s.Tracks askRegs { s with nps := m, lanePtr := l } :=
    ⟨fun _ h => h, askRegs_subset_answerRegs, hcanon, hcanon, fun _ _ => rfl, rfl⟩
  obtain ⟨w, hw, hnps, hdis⟩ := State.dispatch_idle (r := x.req n) ht hf hchk hq hc ha.2.2.2.1 (hreq ▸ hop') hh
  rw [hreq] at hdis
  refine ⟨w, hw, fun k => ?_, hgo.trans hdis⟩
  rw [← heg k]
  simp only [State.np, hnps]

end

end Sys2Proof.Machine
end

section
/-! Requests of a line in state I whose answer needs the line's data. -/

-- As in the tests: the compile of the one text stays within the threads of the sandbox.
set_option Elab.async false

namespace Sys2Proof.Machine

/-- The opcodes of the requests that are dispatched by their line's state alone (R53, R78). -/
def lineOps : List (BitVec 6) := [Op.rdShared, Op.rdUnique, Op.upgrade, Op.claimZero, Op.rdOnce, Op.wrFull, Op.wrPart]
/-- The opcodes of the requests that allocate an entry (R115). -/
def wayOps : List (BitVec 6) := [Op.rdShared, Op.rdUnique, Op.upgrade, Op.claimZero]
/-- The opcodes of the requests of a line in state I that take an inkwell slot (R34). -/
def slotOps : List (BitVec 6) := [Op.wrFull, Op.wrPart] ++ wayOps
/-- The opcodes of the requests that may be answered with data (R34). -/
def dataOps : List (BitVec 6) := [Op.rdShared, Op.rdUnique, Op.upgrade, Op.rdOnce]

theorem Req.allocates_eq (r : Req) : r.allocates = decide (r.op ∈ wayOps) := by
  simp [Req.allocates, wayOps, Bool.beq_eq_decide_eq, Bool.or_assoc]

theorem Req.takesSlot_eq {r : Req} (hr : r.src < 4) :
    (r.op == Op.wrFull || r.op == Op.wrPart || r.mayOwn none) = decide (r.op ∈ slotOps) := by
  simp [Req.mayOwn, Req.acks, hr, slotOps, wayOps, Bool.beq_eq_decide_eq, Bool.or_assoc]

theorem Req.reads_eq {r : Req} (hr : r.src < 4) : r.reads = decide (r.op ∈ dataOps) := by
  simp [Req.reads, hr, dataOps, Bool.beq_eq_decide_eq, Bool.or_assoc]

theorem kindOf_lt_of_mem_lineOps : ∀ op ∈ lineOps, kindOf op < 8 := by decide

/-- The next request of a port is for a line in state I that is free, and a stall is there for it (R135). -/
structure State.Turn (s : State) (n : Fin 4) (op : BitVec 6) (x : InItem) (h : HIdx) (i : Nat) : Prop where
  calm : s.calm
  next : s.nextReq n op = some x
  admits : s.admits (x.req n)
  line : s.hIdx x.p.line = some h
  quiet : s.quietLine h
  free : s.claimed x.p.line none = false
  stall : s.stallFor (x.req n) none = some i
  clear : s.awaitsCommit i = false

section
variable {s : State} {n : Fin 4} {op : BitVec 6} {x : InItem} {h : HIdx} {i : Nat} {key slot : Option Nat}

theorem State.Turn.opcode (c : s.Turn n op x h i) : (x.req n).op = op := State.opcode_of_nextReq c.next

theorem State.Turn.chk (c : s.Turn n op x h i) : s.chk = false := by
  obtain ⟨-, -, -, -, -, -, -, -, -, -, -, -, hchk⟩ := c.calm
  exact hchk

/-- The request has left its queue and is dispatched to its line. -/
theorem State.Turn.dispatched (c : s.Turn n op x h i) (hfmt : s.formatOf (x.req n) = none) (hop : op ≠ Op.ligature)
    (hop' : op ≠ Op.sync) :
    ∃ w, s.Tracks askRegs w ∧ (∀ m, (w.np m).eg = (s.np m).eg) ∧ s.request n op =
      if op = Op.stroke then w.dispatchGather (x.req n) .req h none none else w.dispatchLine (x.req n) .req h none none := by
  obtain ⟨hcanon, -, -, -, -, -, -, -, -, -, -, hf, hchk⟩ := c.calm
  exact State.request_idle hcanon hf hchk c.next c.admits hfmt hop hop' c.line c.quiet c.free

/-- An ordinary request takes its stall, and with it the way and the slot that its opcode needs (R34, R78, R115). -/
theorem State.Turn.begins (c : s.Turn n op x h i) (hop : op ∈ lineOps) (hway : decide (op ∈ wayOps) = key.isSome)
    (hkey : ∀ k, key = some k → s.chooseWay h = some (k, false, false)) (hink : decide (op ∈ slotOps) = slot.isSome)
    (hslot : s.slotReady slot) (hseat : op ∈ dataOps → s.seated x.p.src) :
    ∃ port w, ((s.withSlot h slot).withStall i (Stall.begun (x.req n) h s.tod key port slot)).Tracks askRegs w ∧
      s.request n op = (if (s.repOf (x.req n) op .direct none).needsData op then w.askRead i h else w).advance i := by
  have hreq := c.opcode
  have hfmt : s.formatOf (x.req n) = none := by
    rw [State.formatOf, hreq, if_neg (by rintro rfl; revert hop; decide), if_neg (by rintro rfl; revert hop; decide)]
  obtain ⟨u, hu, heg, hgo⟩ := c.dispatched hfmt (by rintro rfl; revert hop; decide) (by rintro rfl; revert hop; decide)
  have hsrc : (x.req n).src < 4 := n.isLt
  have hkind : kindOf (x.req n).op < 8 := hreq.symm ▸ kindOf_lt_of_mem_lineOps op hop
  obtain ⟨port, w, hw, hline⟩ := hu.dispatchLine_idle heg c.quiet c.stall hkind rfl (by omega)
    (by rw [Req.allocates_eq, hreq, hway]) hkey hslot (by rw [Req.takesSlot_eq hsrc, hreq, hink])
    (fun hr => hseat (by simpa [Req.reads_eq hsrc, hreq] using hr))
  refine ⟨port, w, hw, ?_⟩
  rw [hgo, if_neg (by rintro rfl; revert hop; decide), hline, hreq]

/-- A request of a line in state I whose answer needs the line's data waits for them (R78, R276). -/
theorem State.Turn.awaits (c : s.Turn n op x h i) (hop : op ∈ lineOps) (hway : decide (op ∈ wayOps) = key.isSome)
    (hkey : ∀ k, key = some k → s.chooseWay h = some (k, false, false)) (hink : decide (op ∈ slotOps) = slot.isSome)
    (hslot : s.slotReady slot) (hseat : op ∈ dataOps → s.seated x.p.src)
    (hneeds : (s.repOf (x.req n) op .direct none).needsData op = true) : s.Awaits (x.req n) h i key slot (s.request n op) := by
  obtain ⟨port, w, hw, hgo⟩ := c.begins hop hway hkey hink hslot hseat
  rw [hgo, hneeds]
  exact hw.awaits c.quiet rfl c.chk c.clear (.inl (c.opcode.symm ▸ hneeds))

/-- A stroke in bypass of a line in state I waits for the line's data (R182, R206). -/
theorem State.Turn.strokeAwaits {sl : Nat} (c : s.Turn n Op.stroke x h i) (hfmt : strokeFormat (x.req n) = none) (hbyp : s.bypass = true)
    (hslot : s.slotReady (some sl)) (hseat : s.seated x.p.src) : s.Awaits (x.req n) h i none (some sl) (s.request n Op.stroke) := by
  have hform : s.formatOf (x.req n) = none := by rw [State.formatOf, if_pos c.opcode, hfmt]; rfl
  have hsrc : (x.req n).src < 4 := n.isLt
  obtain ⟨u, hu, heg, hgo⟩ := c.dispatched hform (by decide) (by decide)
  obtain ⟨port, w, hw, hgather⟩ := hu.dispatchGather_idle heg c.quiet c.stall c.opcode rfl (by omega) hbyp hslot hseat
  rw [hgo, if_pos rfl, hgather]
  exact hw.awaits c.quiet rfl c.chk c.clear (.inr c.opcode)

end

/-- Settles O35: the request leaves its queue and is dispatched to its line, takes what its opcode needs there, asks for the line's
data and waits for them. -/
theorem readsAskMemory : Obligations.ReadsAskMemory := by
  intro s n op x h i k hcalm hx ha hline hq hfree hi hclear hseat
  have hturn : s.Turn n op x h i := ⟨hcalm, hx, ha, hline, hq, hfree, hi, hclear⟩
  refine ⟨fun sl hk hroom hsl => ?_, ?_⟩
  · have hasks (hop : op ∈ lineOps) (hway : decide (op ∈ wayOps) = true) (hink : decide (op ∈ slotOps) = true)
        (hneeds : (s.repOf (x.req n) op .direct none).needsData op = true) :
        asksMemory s (x.req n) h i (some k) (some sl) (s.request n op) :=
      (hturn.awaits (key := some k) (slot := some sl) hop hway (by rintro _ ⟨⟩; exact hk) hink (by rintro _ ⟨⟩; exact ⟨hroom, hsl⟩)
        (fun _ => hseat) hneeds).asksMemory
    refine ⟨?_, ?_, ?_⟩ <;> rintro rfl <;> exact ⟨_, rfl, hasks (by decide) rfl rfl rfl⟩
  · rintro rfl
    exact ⟨_, rfl, (hturn.awaits (key := none) (slot := none) (by decide) (by decide) (by simp) (by decide) (fun _ h => by cases h)
      (fun _ => hseat) rfl).asksMemory⟩

end Sys2Proof.Machine
end

section
/-! SUPPORT. What sending a message leaves alone: packets that leave a port start the timers of stalls and measure a first response,
and a message without a route is counted and recorded (R159, R242, R243, R250). -/

-- As in the tests: the compile of the one text stays within the threads of the sandbox.
set_option Elab.async false

namespace Sys2Proof.Machine

/-! ### Registers -/

section
variable {s u v : State} {as : List RegAddr}

/-- Registers of a request and its answer written, and nothing else. -/
structure State.Writes (s u : State) : Prop where
  canonical : u.canonical = true
  only : s.onlyRegs u answerRegs

theorem State.Writes.refl (hc : s.canonical = true) : s.Writes s := ⟨hc, s.onlyRegs_refl _⟩

theorem State.Writes.setReg (w : s.Writes u) {a : Nat} (ha : a ∈ answerRegs) (x : Word) : s.Writes (u.setReg a x) :=
  ⟨State.canonical_setReg _ _ w.canonical,
    w.only.trans ((State.onlyRegs_setReg w.canonical a x).mono (List.cons_subset.2 ⟨ha, List.nil_subset _⟩))⟩

theorem State.Writes.addFld (w : s.Writes u) {a : Nat} (ha : a ∈ answerRegs) (lo n x : Nat) : s.Writes (u.addFld a lo n x) := w.setReg ha _
theorem State.Writes.setFld (w : s.Writes u) {a : Nat} (ha : a ∈ answerRegs) (lo n x : Nat) : s.Writes (u.setFld a lo n x) := w.setReg ha _
theorem State.Writes.maxFld (w : s.Writes u) {a : Nat} (ha : a ∈ answerRegs) (lo n x : Nat) : s.Writes (u.maxFld a lo n x) := w.setReg ha _

theorem count_mem_answerRegs {k : Nat} (hk : k < 256) : R.PMC_CNT + 8 * k ∈ answerRegs := by
  simp only [answerRegs, sendRegs, perfRegs, List.mem_append, List.mem_map, List.mem_range]
  exact .inr (.inl (.inl ⟨k, hk, rfl⟩))

theorem yardResp_mem_answerRegs : R.YARD_RESP ∈ answerRegs := by simp [answerRegs, sendRegs]
theorem rteErrcnt_mem_answerRegs : R.RTE_ERRCNT ∈ answerRegs := by simp [answerRegs, sendRegs]
theorem blotStatus_mem_answerRegs : R.BLOT_STATUS ∈ answerRegs := by simp [answerRegs, sendRegs]

theorem State.Writes.evN (w : s.Writes u) {k : Nat} (n : Nat) (a : Attr) (hk : u.passes (u.filterOf k) a = true → k < 256) :
    s.Writes (u.evN k n a) := by
  unfold State.evN
  split
  · next h => exact w.setReg (count_mem_answerRegs (hk h)) _
  · exact w

theorem State.Writes.ev (w : s.Writes u) {k : Nat} (hk : k < 256) (a : Attr) : s.Writes (u.ev k a) := w.evN 1 a fun _ => hk

/-- An occurrence that a filter set passes has a source that its mask can name (R440). -/
theorem State.src_lt_of_passes {n src : Nat} (h : s.passes n { s := some src } = true) : src < 64 := by
  simp only [State.passes, Bool.and_eq_true, beq_iff_eq] at h
  obtain ⟨⟨⟨⟨-, h⟩, -⟩, -⟩, -⟩ := h
  by_contra hlt
  have hword : (s.reg (R.PMC_FSCTL + 0x20 * n)).toNat < 2 ^ (2 + src) :=
    lt_of_lt_of_le (s.reg (R.PMC_FSCTL + 0x20 * n)).isLt (Nat.pow_le_pow_right (by decide) (by omega))
  simp [State.fld, getBits, Nat.div_eq_of_lt hword] at h

theorem State.Writes.evSrc (w : s.Writes u) {k src : Nat} (hk : k < 0x80) : s.Writes (u.ev (k + src) { s := some src }) :=
  w.evN 1 _ fun h => by have := State.src_lt_of_passes h; omega

/-- The measure of a first response (R159). -/
theorem State.Writes.respMeasured (w : s.Writes u) (src : Nat) (acc : Tod) : s.Writes (u.respMeasured src acc) := by
  have hmax := w.maxFld yardResp_mem_answerRegs 0 24 (elapsed acc u.tod)
  have hlate := (hmax.addFld yardResp_mem_answerRegs 24 24 1).evSrc (k := 0x68) (src := src) (by decide)
  unfold State.respMeasured
  extract_lets d s1 s2 s3
  rw [← show s1 = u.maxFld R.YARD_RESP 0 24 d from rfl] at hlate
  split
  · refine State.Writes.ev ?_ (by decide) _
    have : s.Writes s2 := hlate
    simp only [s3]
    split
    · exact this.ev (by decide) _
    · exact this
  · exact hmax

theorem State.Tracks.writes (t : v.Tracks answerRegs s) (w : s.Writes u) : v.Tracks answerRegs u := t.onlyRegs w.canonical w.only

theorem State.Tracks.widen (t : v.Tracks as u) : v.Tracks answerRegs u :=
  ⟨askRegs_subset_answerRegs, fun _ h => h, t.base, t.canonical, t.regs.mono t.most, t.rest⟩

theorem State.Writes.nps (w : s.Writes u) : u.nps = s.nps := (congrArg State.nps w.only.1 :)
theorem State.Writes.tx (w : s.Writes u) : u.tx = s.tx := (congrArg State.tx w.only.1 :)

end

end Sys2Proof.Machine
end

section
/-! SUPPORT. Packets that leave a port: what that changes in stalls and registers, and that a packet stays in its queue until it has
left (R159, R250, R252). -/

-- As in the tests: the compile of the one text stays within the threads of the sandbox.
set_option Elab.async false

namespace Sys2Proof.Machine

/-! ### A stall whose packets leave -/

/-- A stall after packets have left: the timers of its waits and the time of its response may differ, and no wait comes or goes. -/
def Stall.Sent (a b : Stall) : Prop :=
  ∃ ws at', b = { a with waits := ws, respAt := at' } ∧ (a.waits = [] → ws = [])

theorem Stall.Sent.refl (a : Stall) : a.Sent a := ⟨a.waits, a.respAt, rfl, id⟩

theorem Stall.Sent.trans {a b c : Stall} (h : a.Sent b) (g : b.Sent c) : a.Sent c := by
  obtain ⟨ws, at', rfl, hw⟩ := h
  obtain ⟨ws', at'', rfl, hw'⟩ := g
  exact ⟨ws', at'', rfl, hw' ∘ hw⟩

theorem SMap.find_upd {α : Type} (m : SMap α) (k j : Nat) (f : α → α) :
    SMap.find (SMap.upd m k f) j = if j = k then (SMap.find m k).map f else SMap.find m j := by
  unfold SMap.upd
  split
  · next a ha =>
    split
    · next hj => rw [hj, SMap.find_put_self, ha]; rfl
    · next hj => exact SMap.find_put_ne _ _ hj
  · next ha =>
    split
    · next hj => rw [hj, ha]; rfl
    · rfl

theorem SMap.wf_upd {α : Type} {m : SMap α} (h : SMap.wf m = true) (k : Nat) (f : α → α) : SMap.wf (SMap.upd m k f) = true := by
  unfold SMap.upd
  split
  · exact SMap.risesFrom_put (Nat.zero_le _) h
  · exact h

section
variable {s u v w : State} {as : List RegAddr}

/-! ### A state that follows another one as its packets leave -/

/-- `u` is `v` but for registers of a request and its answer, the queues of the ports, what has left them, and what their leaving
does to stalls. -/
structure State.Sends (v u : State) : Prop where
  tracks : ({ v with stalls := u.stalls, tx := u.tx } : State).Tracks answerRegs u
  stalls : ∀ j, Option.Rel Stall.Sent (SMap.find v.stalls j) (SMap.find u.stalls j)
  wf : SMap.wf v.stalls = true → SMap.wf u.stalls = true
  tx : v.tx <+: u.tx

theorem optionRel_sent_refl (o : Option Stall) : Option.Rel Stall.Sent o o := by
  cases o
  · exact .none
  · exact .some (Stall.Sent.refl _)

theorem State.Tracks.sends (t : v.Tracks answerRegs u) : v.Sends u := by
  refine ⟨?_, fun j => ?_, fun h => ?_, ?_⟩
  · rw [t.stalls, t.tx]; exact t
  · rw [t.stalls]; exact optionRel_sent_refl _
  · rw [t.stalls]; exact h
  · rw [t.tx]

/-- A step that no stall and nothing sent takes part in. -/
theorem State.Sends.quiet (S : v.Sends u) (t : ({ v with stalls := u.stalls, tx := u.tx } : State).Tracks answerRegs w) : v.Sends w := by
  have hs : w.stalls = u.stalls := t.stalls
  have ht : w.tx = u.tx := t.tx
  exact ⟨by rw [hs, ht]; exact t, hs ▸ S.stalls, hs ▸ S.wf, ht ▸ S.tx⟩

theorem State.Sends.writes (S : v.Sends u) (h : u.Writes w) : v.Sends w := S.quiet (S.tracks.writes h)

theorem State.Tracks.setNps (t : v.Tracks as u) (m : SMap NpSt) : v.Tracks as { u with nps := m } :=
  ⟨t.least, t.most, t.base, t.canonical, t.regs, congrArg (fun z : State => { z with nps := m }) t.rest⟩

theorem State.Tracks.setSvc (t : v.Tracks as u) (c : SvcSt) : v.Tracks as { u with svc := c } :=
  ⟨t.least, t.most, t.base, t.canonical, t.regs, congrArg (fun z : State => { z with svc := c }) t.rest⟩

theorem State.Sends.setNp (S : v.Sends u) (n : Nat) (p : NpSt) : v.Sends (u.setNp n p) := S.quiet (S.tracks.setNps _)

theorem State.Sends.settleIn (S : v.Sends u) (n : Nat) : v.Sends (u.settleIn n) := by
  rw [u.settleIn_eq n]
  exact S.quiet (S.tracks.setNps _)

theorem State.Sends.append (S : v.Sends u) (l : List (Nat × Packet)) : v.Sends { u with tx := u.tx ++ l } :=
  ⟨⟨S.tracks.least, S.tracks.most, S.tracks.base, S.tracks.canonical, S.tracks.regs,
    congrArg (fun z : State => { z with tx := u.tx ++ l }) S.tracks.rest⟩, S.stalls, S.wf, S.tx.trans (List.prefix_append _ _)⟩

theorem State.Sends.updRly (S : v.Sends u) (k : Nat) (f : RlyOpen → RlyOpen) : v.Sends (u.updRly k f) :=
  S.quiet ⟨S.tracks.least, S.tracks.most, S.tracks.base, S.tracks.canonical, S.tracks.regs,
    congrArg (fun z : State => { z with rlys := SMap.upd u.rlys k f }) S.tracks.rest⟩

theorem State.Sends.updStall (S : v.Sends u) (i : Nat) {f : Stall → Stall} (hf : ∀ a : Stall, a.Sent (f a)) : v.Sends (u.updStall i f) := by
  refine ⟨S.tracks.updStall i f, fun j => ?_, fun h => SMap.wf_upd (S.wf h) i f, S.tx⟩
  have hj := S.stalls j
  simp only [State.updStall, SMap.find_upd]
  split
  · next e =>
    rw [e] at hj ⊢
    revert hj
    cases SMap.find v.stalls i <;> cases SMap.find u.stalls i <;> rintro ⟨⟩
    · exact .none
    · next h => exact .some (h.trans (hf _))
  · exact hj

theorem State.left_writes (hc : s.canonical = true) {n : Nat} (hn : n < 4) (x : EgItem) : ∃ z, ({ s with tx := s.tx ++ [(n, x.p)] } : State).Writes z ∧
    (s.left n x = z ∨ (∃ i f, s.left n x = z.updStall i f ∧ ∀ a : Stall, a.Sent (f a)) ∨ ∃ k f, s.left n x = z.updRly k f) := by
  have hcount : ({ s with tx := s.tx ++ [(n, x.p)] } : State).Writes
      (({ s with tx := s.tx ++ [(n, x.p)] } : State).evN (0xE4 + n) (1 + x.p.nflit.toNat) { c := some x.p.cls.toNat }) :=
    (State.Writes.refl (s := { s with tx := s.tx ++ [(n, x.p)] }) hc).evN _ _ fun _ => by omega
  unfold State.left
  extract_lets s1 s2 start
  have h1 : ({ s with tx := s.tx ++ [(n, x.p)] } : State).Writes s1 := hcount
  have h2 : ({ s with tx := s.tx ++ [(n, x.p)] } : State).Writes s2 := by
    simp only [s2]
    split
    · exact h1.respMeasured _ _
    · exact h1
  refine ⟨s2, h2, ?_⟩
  split
  · exact .inl rfl
  · split
    · split
      · refine .inr (.inl ⟨_, _, rfl, fun a => ⟨_, _, rfl, fun h => ?_⟩⟩)
        rw [h]; rfl
      · exact .inr (.inr ⟨_, _, rfl⟩)
    · split
      · exact .inr (.inl ⟨_, _, rfl, fun a => ⟨_, _, rfl, id⟩⟩)
      · exact .inl rfl

theorem State.Sends.left (S : v.Sends u) {n : Nat} (hn : n < 4) (x : EgItem) : v.Sends (u.left n x) := by
  obtain ⟨z, hz, h⟩ := State.left_writes S.tracks.canonical hn x
  have hz := (S.append _).writes hz
  rcases h with h | ⟨i, f, h, hf⟩ | ⟨k, f, h⟩ <;> rw [h]
  · exact hz
  · exact hz.updStall i hf
  · exact hz.updRly k f

theorem State.left_nps_tx (hc : s.canonical = true) {n : Nat} (hn : n < 4) (x : EgItem) :
    (s.left n x).nps = s.nps ∧ (s.left n x).tx = s.tx ++ [(n, x.p)] := by
  obtain ⟨z, hz, h⟩ := State.left_writes hc hn x
  rcases h with h | ⟨i, f, h, hf⟩ | ⟨k, f, h⟩ <;> rw [h] <;> exact ⟨hz.nps, hz.tx⟩

/-! ### A packet stays in its queue until it has left -/

/-- A packet stands in the egress queue of pool `k` of port `n`, or is among what has left after the first `L`. -/
def State.Posted (s : State) (L n k : Nat) (x : EgItem) : Prop := x ∈ (s.np n).egq k ∨ (n, x.p) ∈ s.tx.drop L

/-- An entry of a table outlives the deletion of another one, whatever the table's form. -/
theorem SMap.find_del_of_ne {α : Type} {m : SMap α} {k j : Nat} {a : α} (hj : j ≠ k) (h : SMap.find m j = some a) :
    SMap.find (SMap.del m k) j = some a := by
  induction m with
  | nil => cases h
  | cons e r ih =>
    obtain ⟨l, b⟩ := e
    simp only [SMap.find] at h
    simp only [SMap.del]
    split at h
    · next hl =>
      subst hl
      rw [if_neg hj]
      split <;> simp only [SMap.find, if_true, h]
    · next hl =>
      split at h
      · cases h
      · next hlt =>
        split
        · exact h
        · split
          · simp only [SMap.find, if_neg hl, if_neg hlt, h]
          · simp only [SMap.find, if_neg hl, if_neg hlt, ih h]

theorem SMap.find_putQ_self {α : Type} (m : SMap (List α)) (k : Nat) {q : List α} {a : α} (h : a ∈ q) :
    SMap.find (putQ m k q) k = some q := by
  unfold putQ
  rw [if_neg (by cases q <;> simp_all), SMap.find_put_self]

/-- What another pool of the port has queued stays there. -/
theorem SMap.find_putQ_of_ne {α : Type} {m : SMap (List α)} {k j : Nat} {a : List α} (q : List α) (hj : j ≠ k)
    (h : SMap.find m j = some a) : SMap.find (putQ m k q) j = some a := by
  unfold putQ
  split
  · exact SMap.find_del_of_ne hj h
  · rw [SMap.find_put_ne _ _ hj, h]

/-- What a port offers is an answer, or the head of the pool's egress queue (R360). -/
theorem NpSt.head_of_offer {p : NpSt} {k : Nat} {x : EgItem} (h : p.offer k = some (x, false)) : (p.egq k).head? = some x := by
  unfold NpSt.offer at h
  extract_lets q pick at h
  have hpick : pick = some (x, false) := by
    clear_value pick
    cases pick with
    | none => cases h
    | some y =>
      dsimp only at h
      split at h
      · exact h
      · cases h
  simp only [pick] at hpick
  clear h pick
  change q.head? = some x
  clear_value q
  split at hpick
  · generalize p.ans = l at hpick
    rcases l with _ | ⟨a, l⟩ <;> rcases q with _ | ⟨y, q⟩
    · cases hpick
    · cases hpick; rfl
    · cases hpick
    · dsimp only at hpick
      split at hpick
      · cases hpick
      · cases hpick; rfl
  · simpa using hpick

theorem NpSt.mem_egq {p : NpSt} {k : Nat} {y : EgItem} : y ∈ p.egq k ↔ ∃ q, SMap.find p.eg k = some q ∧ y ∈ q := by
  unfold NpSt.egq
  cases SMap.find p.eg k <;> simp

/-- The head of a pool's egress queue taken, every other packet stays where it stands. -/
theorem NpSt.mem_egq_tail {p q : NpSt} {k l : Nat} {x y : EgItem} (hx : (p.egq k).head? = some x)
    (hq : q.eg = putQ p.eg k (p.egq k).tail) (hy : y ∈ p.egq l) : y ∈ q.egq l ∨ y = x := by
  obtain ⟨r, hr⟩ := List.head?_eq_some_iff.1 hx
  by_cases hl : l = k
  · subst hl
    rw [hr, List.mem_cons] at hy
    rcases hy with hy | hy
    · exact .inr hy
    · refine .inl (NpSt.mem_egq.2 ⟨r, ?_, hy⟩)
      rw [hq, hr]
      exact SMap.find_putQ_self _ _ hy
  · obtain ⟨a, ha, hya⟩ := NpSt.mem_egq.1 hy
    refine .inl (NpSt.mem_egq.2 ⟨a, ?_, hya⟩)
    rw [hq]
    exact SMap.find_putQ_of_ne _ hl ha

/-- Packets of a port leave one by one: the port with one packet less, and what has left (R360). -/
theorem State.pump1_eq {t : State} {n : Nat} (h : s.pump1 n = some t) : ∃ p x, t = (s.setNp n p).left n x ∧
    ∀ k, ∀ y ∈ (s.np n).egq k, y ∈ p.egq k ∨ y = x := by
  unfold State.pump1 at h
  extract_lets p order at h
  split at h
  · split at h
    · next x r hr =>
      split at h
      · cases h
        exact ⟨_, x, rfl, fun k y hy => .inl hy⟩
      · cases h
    · cases h
  · split at h
    · split at h
      · cases h
      · next j hj =>
        extract_lets k at h
        split at h
        · cases h
        · next x b hb =>
          cases h
          refine ⟨_, x, rfl, fun l y hy => ?_⟩
          cases b with
          | true => exact .inl hy
          | false =>
            exact NpSt.mem_egq_tail (NpSt.head_of_offer hb) rfl hy
    · cases h

theorem State.Posted.pump1 {L n m k : Nat} {x : EgItem} {t : State} (h : s.Posted L n k x) (hc : s.canonical = true) (hm : m < 4)
    (hL : L ≤ s.tx.length) (e : s.pump1 m = some t) : t.Posted L n k x := by
  obtain ⟨p, y, rfl, hp⟩ := State.pump1_eq e
  obtain ⟨hnps, htx⟩ := State.left_nps_tx (s := s.setNp m p) hc hm y
  have hdrop : ((s.setNp m p).left m y).tx.drop L = s.tx.drop L ++ [(m, y.p)] := by
    rw [htx]
    exact List.drop_append_of_le_length hL
  have hnp : ((s.setNp m p).left m y).np n = (s.setNp m p).np n := by simp only [State.np, hnps]
  unfold State.Posted
  rw [hdrop, hnp, List.mem_append]
  rcases h with h | h
  · by_cases hn : n = m
    · subst hn
      rw [State.np_setNp_self]
      rcases hp k x h with h | rfl
      · exact .inl h
      · exact .inr (.inr List.mem_cons_self)
    · rw [State.np_setNp_ne _ hn]
      exact .inl h
  · exact .inr (.inl h)

theorem State.Posted.of_eq {t : State} {L n k : Nat} {x : EgItem} (h : s.Posted L n k x) (hn : t.nps = s.nps) (ht : t.tx = s.tx) :
    t.Posted L n k x := by
  unfold State.Posted State.np at h ⊢
  rwa [hn, ht]

theorem State.Sends.pump1 {n : Nat} {t : State} (S : v.Sends u) (hn : n < 4) (e : u.pump1 n = some t) : v.Sends t := by
  obtain ⟨p, y, rfl, -⟩ := State.pump1_eq e
  exact (S.setNp n p).left hn y

/-- Packets that leave a port: the state follows as before, and a packet queued is queued still or has left. -/
theorem State.Sends.pumpN {n : Nat} (hn : n < 4) (f : Nat) (S : v.Sends u) :
    v.Sends (u.pumpN n f) ∧ ∀ m k x, u.Posted v.tx.length m k x → (u.pumpN n f).Posted v.tx.length m k x := by
  induction f generalizing u with
  | zero => exact ⟨S, fun _ _ _ => id⟩
  | succ f ih =>
    unfold State.pumpN
    split
    · next t e =>
      obtain ⟨hS, hP⟩ := ih (S.pump1 hn e)
      exact ⟨hS, fun m k x h => hP m k x (h.pump1 S.tracks.canonical hn S.tx.length_le e)⟩
    · exact ⟨S, fun _ _ _ => id⟩

theorem State.Posted.settleIn {L m k : Nat} {x : EgItem} (h : s.Posted L m k x) (n : Nat) : (s.settleIn n).Posted L m k x := by
  have htx : (s.settleIn n).tx = s.tx := (congrArg State.tx (s.settleIn_eq n) :)
  unfold State.Posted NpSt.egq at h ⊢
  rwa [State.eg_settleIn, htx]

/-- A packet placed in an egress queue stands there or has left (R250). -/
theorem State.Sends.enqueue {n : Nat} (S : v.Sends u) (hn : n < 4) (x : EgItem) :
    v.Sends (u.enqueue n x) ∧ (u.enqueue n x).Posted v.tx.length n (poolOf x.p.cls.toNat) x := by
  unfold State.enqueue
  extract_lets p k
  obtain ⟨hS, hP⟩ := (S.setNp n { p with eg := SMap.put p.eg k (p.egq k ++ [x]) }).pumpN hn
    (((u.setNp n { p with eg := SMap.put p.eg k (p.egq k ++ [x]) }).np n).ans.length +
      (((u.setNp n { p with eg := SMap.put p.eg k (p.egq k ++ [x]) }).np n).eg.map (fun e => e.2.length)).sum)
  refine ⟨hS.settleIn n, (hP n k x (.inl ?_)).settleIn n⟩
  rw [State.np_setNp_self]
  exact NpSt.mem_egq.2 ⟨_, SMap.find_put_self _ _ _, List.mem_append_right _ List.mem_cons_self⟩

/-! ### Messages -/

theorem State.routeErr_intact (h : s.faults = []) (d : EpId) : s.routeErr d = s := by
  have hread : ∀ a, s.routeRead a = s := fun a => by simp [State.routeRead, State.probe, State.damage_intact h]
  have hfold : (List.range 4).foldl (fun t n => t.routeRead (routeAddr n (s.fld R.RTE_EPOCHCTL 0 1) (clusterOf d))) s = s :=
    List.foldl_fixed' (f := fun (t : State) (n : Nat) => t.routeRead (routeAddr n (s.fld R.RTE_EPOCHCTL 0 1) (clusterOf d))) (fun n => hread _) _
  simp only [State.routeErr, hfold]
  split
  · exact hread _
  · rfl

theorem State.route_lt {d : EpId} {n : Nat} {r : Nat × Nat} (e : s.route d = some (n, r)) : n < 4 := by
  unfold State.route at e
  split at e
  · cases e
  · next m ro nh w hm =>
    have hlt : m < 4 := State.routeBest_lt hm
    split at e
    · split at e
      · cases e
      · cases e; exact hlt
    · cases e

theorem classOf_lt (op : BitVec 6) : classOf op < 8 := by
  unfold classOf
  dsimp only
  repeat' split
  all_goals decide

/-- A message of the home on a route, as it stands in an egress queue (R230, R233). -/
def State.outItem (s : State) (m : Msg) (k : Meta) (phys : EpId) (rt nh : Nat) : EgItem :=
  ⟨s.packet m s.homeId s.domain phys rt nh, k.stall, m.dst, k.first, k.final, none⟩

theorem State.send_of_route (hf : s.faults = []) {m : Msg} {n rt nh : Nat} (hr : s.route (s.toPhys m.dst) = some (n, rt, nh)) (k : Meta) :
    s.send m k = (s.enqueue n (s.outItem m k (s.toPhys m.dst) rt nh), true) := by
  simp only [State.send, State.sendFrom, if_true, State.readAll_intact hf, State.routeErr_intact hf, hr, State.outItem]

theorem State.send_of_no_route (hf : s.faults = []) {m : Msg} (hr : s.route (s.toPhys m.dst) = none) (k : Meta) :
    s.send m k = (s.addFld R.RTE_ERRCNT 16 16 1 |>.ev 0xEC { i := some m.dst.toNat }, false) := by
  simp only [State.send, State.sendFrom, if_true, State.readAll_intact hf, State.routeErr_intact hf, hr]

/-- A message sent: it stands in an egress queue or has left where a route is found, and is counted and discarded otherwise
(R242, R243, R250). -/
theorem State.Sends.send (S : v.Sends u) (hf : v.faults = []) (m : Msg) (k : Meta) :
    v.Sends (u.send m k).1 ∧ (u.send m k).2 = (v.route (v.toPhys m.dst)).isSome ∧
    ((v.route (v.toPhys m.dst)).isSome = true → ∃ n x, x.who = m.dst ∧ x.p.opcode = m.op ∧ x.p.tag = m.tag ∧
      (u.send m k).1.Posted v.tx.length n (poolOf (classOf m.op)) x) := by
  have hfu : u.faults = [] := S.tracks.faults.trans hf
  have hroute : u.route (u.toPhys m.dst) = v.route (v.toPhys m.dst) := by
    rw [S.tracks.toPhys, S.tracks.route]
    rfl
  cases hr : v.route (v.toPhys m.dst) with
  | none =>
    have hw := ((State.Writes.refl S.tracks.canonical).addFld rteErrcnt_mem_answerRegs 16 16 1).ev (k := 0xEC) (by decide)
      { i := some m.dst.toNat }
    rw [State.send_of_no_route hfu (hroute.trans hr)]
    exact ⟨S.writes hw, rfl, fun h => by cases h⟩
  | some r =>
    obtain ⟨n, rt, nh⟩ := r
    obtain ⟨hS, hP⟩ := S.enqueue (State.route_lt hr) (u.outItem m k (u.toPhys m.dst) rt nh)
    rw [State.send_of_route hfu (hroute.trans hr)]
    refine ⟨hS, rfl, fun _ => ⟨n, u.outItem m k (u.toPhys m.dst) rt nh, rfl, rfl, rfl, ?_⟩⟩
    have hcls : (BitVec.ofNat 3 (classOf m.op)).toNat = classOf m.op := by
      rw [BitVec.toNat_ofNat]
      exact Nat.mod_eq_of_lt (classOf_lt _)
    simpa only [State.outItem, State.packet, hcls] using hP

/-- The record of a missing route, written or lost (R243, R449). -/
theorem State.Sends.noRouteNote (S : v.Sends u) (m : Msg) : v.Sends (u.noRouteNote m) := by
  unfold State.noRouteNote State.note State.blot
  extract_lets q
  split
  · exact S.quiet (S.tracks.setSvc _)
  · exact S.writes ((((State.Writes.refl S.tracks.canonical).addFld blotStatus_mem_answerRegs 17 16 1).setFld
      blotStatus_mem_answerRegs 33 4 _).ev (by decide) _)

/-- The stall of a request that is answered. -/
def Stall.answered (t : Stall) : Stall := { t with final := true, first := true }

/-- A reply: its stall is answered, and the message stands in an egress queue or has left where a route is found (R55, R83). -/
theorem State.Tracks.reply {i : Nat} {y : Stall} (w : (v.withStall i y).Tracks answerRegs u) (hf : v.faults = []) (t : Stall)
    (op : BitVec 6) (detail n : Nat) (d : LineData) :
    (v.withStall i y.answered).Sends (u.reply i t op detail n d) ∧
    (v.reaches t.req.q → ∃ m x, x.who = t.req.q ∧ x.p.opcode = op ∧ x.p.tag = t.req.tag ∧
      (u.reply i t op detail n d).Posted v.tx.length m (poolOf (classOf op)) x) := by
  have hset : (v.withStall i y.answered).Sends (u.updStall i (fun x => { x with final := true, first := true })) := (w.updWith _).sends
  unfold State.reply
  extract_lets m k s1
  obtain ⟨hS, hfound, hP⟩ := State.Sends.send (u := s1) hset hf m k
  have hreach : (v.reaches t.req.q) ↔ (State.send s1 m k).2 = true := by rw [hfound]; exact Iff.rfl
  have hP : (State.send s1 m k).2 = true → _ := fun h => hP (hfound ▸ h)
  generalize State.send s1 m k = p at hS hreach hP ⊢
  rw [hreach]
  obtain ⟨z, b⟩ := p
  cases b with
  | true => exact ⟨hS, fun _ => hP rfl⟩
  | false => exact ⟨(hS.noRouteNote m).updStall i fun a => ⟨_, _, rfl, id⟩, fun h => by cases h⟩

end

end Sys2Proof.Machine
end

section
/-! SUPPORT. A claim of a line in state I: it is answered at once and the requester recorded as X holder (R78, R95). -/

-- As in the tests: the compile of the one text stays within the threads of the sandbox.
set_option Elab.async false

namespace Sys2Proof.Machine

section
variable {s u v z : State} {r : Req} {i k sl : Nat} {t y : Stall} {h : HIdx} {slot : Option Nat} {port : Option Nat}

theorem State.Sends.stall (S : (v.withStall i y).Sends u) (hw : y.waits = []) :
    ∃ at', SMap.find u.stalls i = some { y with waits := [], respAt := at' } := by
  have hrel := S.stalls i
  rw [State.find_withStall] at hrel
  generalize SMap.find u.stalls i = o at hrel ⊢
  cases hrel with
  | some e =>
    obtain ⟨ws, at', rfl, hws⟩ := e
    exact ⟨at', by rw [hws hw]⟩

/-- The reply to a claim needs nothing: it is sent and the next state recorded. -/
theorem State.completeStep_claim (hd : t.Due h) (hf : SMap.find s.stalls i = some t) (hdir : s.dirOf h = none)
    (hop : t.req.op = Op.claimZero) : s.completeStep i t .direct =
      ((s.reply i t Op.cmpZ 0 0 []).record t .direct .cmpZ false).updStall i (fun x => { x with recorded := true }) := by
  have hdt : s.dirOf t.h = none := hd.line.symm ▸ hdir
  have hrep : s.repOf t.req t.req.op .direct none = .cmpZ := by rw [hop]; rfl
  unfold State.completeStep
  simp only [hd.role, hdt, hrep, State.displaces_idle hdt, ite_self, hf, hd.waits, Option.any_some, List.isEmpty_nil, Bool.not_true,
    Bool.false_eq_true, if_false, hd.evict, Option.isSome_none]

theorem State.holdsRead_idle (hdir : s.dirOf h = none) : s.holdsRead h = s := by simp only [State.holdsRead, hdir]

/-- The entry that a claim records in a free way (R95). -/
def State.claimEntry (s : State) (h : HIdx) (q : EpId) : DirEntry := ⟨tagOf h, true, s.worldOfH h, .x, .ptr (some q) none⟩

theorem State.record_claim {rep : Rep} (hchk : s.chk = false) (hdir : s.dirOf t.h = none) (hway : t.way = some k)
    (hfree : SMap.find s.dirs k = none) (hop : t.req.op = Op.claimZero) :
    s.record t .direct rep false = (s.putEntry k (s.claimEntry t.h t.req.q)).ev 0x82 { l := some t.req.line.toNat } := by
  have hput : s.putX k t.h t.req.q = s.putEntry k (s.claimEntry t.h t.req.q) := by
    simp only [State.putX, State.freeEntry, hfree]
    rfl
  simp [State.record, State.holdsRead_idle hdir, hchk, hdir, hway, hop, hput]

/-- A way that is chosen without a victim is free (R116). -/
theorem State.find_dirs_of_chooseWay (hk : s.chooseWay h = some (k, false, false)) : SMap.find s.dirs k = none := by
  unfold State.chooseWay at hk
  extract_lets keys open_ cost cold at hk
  split at hk
  · next j hj =>
    cases hk
    have := List.find?_some hj
    simp only [Bool.and_eq_true, Option.isNone_iff_eq_none] at this
    exact this.1
  · split at hk
    · cases hk
    · simp at hk

theorem State.canClose_updStall (f : Stall → Stall) (j : Nat) : (s.updStall j f).canClose i t = s.canClose i t := rfl

/-- A stall that does not close yet only shows where it stands (R138). -/
theorem State.closeReq_open (hf : SMap.find s.stalls i = some t) (hc : s.canClose i t = false) :
    s.closeReq i = s.updStall i (fun x => { x with code := s.codeOf i t }) := by
  simp only [State.closeReq, hf, State.canClose_updStall, hc, Bool.false_eq_true, if_false]

theorem Req.acks_claim (hop : r.op = Op.claimZero) (hsrc : r.src < 4) : r.acks = true := by simp [Req.acks, hop, hsrc]

/-- A claim that has been answered waits for its requester's acknowledgement (R85, R138). -/
theorem State.closeReq_claim (hf : SMap.find s.stalls i = some t) (hop : t.req.op = Op.claimZero) (hsrc : t.req.src < 4)
    (hcp : t.req.cp = none) (hfin : t.final = true) (hack : t.ackGot = false) (hc : s.awaitsCommit i = false) :
    s.closeReq i = s.updStall i (fun x => { x with code := 3 }) := by
  have hacks := Req.acks_claim hop hsrc
  have hcode : s.codeOf i t = 3 := by simp [State.codeOf, hc, State.cpSyncWaits, hcp, hacks, hfin, hack]
  rw [State.closeReq_open hf (by simp [State.canClose, hacks, hack]), hcode]

/-- A claim of a line in state I takes its turn: it is answered, its line recorded as held, and its stall waits for the requester's
acknowledgement (R78, R85). -/
theorem State.Tracks.advance_claim (w : (v.withStall i y).Tracks answerRegs u) (hd : y.Due h) (hop : y.req.op = Op.claimZero)
    (hsrc : y.req.src < 4) (hack : y.ackGot = false) (hway : y.way = some k) (hfree : SMap.find v.dirs k = none) (hf : v.faults = [])
    (hchk : v.chk = false) (hc : v.awaitsCommit i = false) (hdir : v.dirOf h = none) :
    ∃ m x at', (({ v with stalls := m, tx := x } : State).putEntry k (v.claimEntry h y.req.q)).Tracks answerRegs (u.advance i) ∧
      SMap.find m i = some { y.answered with waits := [], respAt := at', recorded := true, code := 3 } ∧
      (v.reaches y.req.q → ∃ n x, x.who = y.req.q ∧ x.p.opcode = Op.cmpZ ∧ x.p.tag = y.req.tag ∧
        (u.advance i).Posted v.tx.length n 3 x) := by
  rw [State.advance_due hd w.find (w.chk.trans hchk) ((w.awaitsCommit i).trans hc),
    State.completeStep_claim hd w.find ((w.dirOf h).trans hdir) hop]
  obtain ⟨hS, hP⟩ := w.reply hf y Op.cmpZ 0 0 []
  generalize u.reply i y Op.cmpZ 0 0 [] = z at hS hP ⊢
  obtain ⟨at', hfind⟩ := hS.stall hd.waits
  have hT := hS.tracks
  have hentry : z.claimEntry y.h y.req.q = v.claimEntry h y.req.q := by
    rw [hd.line]
    exact congrArg (fun b => DirEntry.mk (tagOf h) true b .x (.ptr (some y.req.q) none)) (hT.worldOfH h)
  rw [State.record_claim (hT.chk.trans hchk) (by rw [hd.line]; exact (hT.dirOf h).trans hdir) hway (by rw [hT.dirs]; exact hfree) hop, hentry]
  have hT1 := ((hT.putEntry k (v.claimEntry h y.req.q)).ev (k := 0x82) (by decide) { l := some y.req.line.toNat }).updStall i
    (fun x => { x with recorded := true })
  have hfind1 : SMap.find (((z.putEntry k (v.claimEntry h y.req.q)).ev 0x82 { l := some y.req.line.toNat }).updStall i
      (fun x => { x with recorded := true })).stalls i = some { y.answered with waits := [], respAt := at', recorded := true } := by
    simp only [State.updStall, SMap.find_upd, State.ev_stalls, State.putEntry, hfind]
    rfl
  rw [State.closeReq_claim hfind1 hop hsrc hd.cp rfl hack ((hT1.awaitsCommit i).trans hc)]
  refine ⟨((z.updStall i (fun x => { x with recorded := true })).updStall i (fun x => { x with code := 3 })).stalls, z.tx,
    at', hT1.updStall i (fun x => { x with code := 3 }), ?_, fun hr => ?_⟩
  · simp only [State.updStall, SMap.find_upd, hfind, if_true]
    rfl
  · obtain ⟨n, x, hwho, hcode, htag, hpost⟩ := hP hr
    exact ⟨n, x, hwho, hcode, htag, hpost.of_eq (by simp [State.updStall, State.putEntry]) (by simp [State.updStall, State.putEntry])⟩

end

end Sys2Proof.Machine
end

section
/-! SUPPORT. A full write of a line in state I: its line is placed in the inkwell, and it is answered and closes (R78, R83, R84). -/

-- As in the tests: the compile of the one text stays within the threads of the sandbox.
set_option Elab.async false

namespace Sys2Proof.Machine

section
variable {s u v z : State} {as : List RegAddr} {r : Req} {i k sl : Nat} {t y : Stall} {h : HIdx} {x : InkSlot} {port : Option Nat}

/-! ### A slot that becomes FILLED -/

/-- The memory ports when a resync no longer copies a line (R273). -/
def skipCopy (m : SMap MpSt) (h : HIdx) : SMap MpSt :=
  if m.all (fun e => e.2.copy.isNone) then m
  else m.map (fun e => (e.1, { e.2 with copy := e.2.copy.map (fun c =>
    { c with busy := c.busy.filter (fun x => x != h), data := c.data.filter (fun x => x.1 != h) }) }))

theorem State.copySkip_eq (s : State) (h : HIdx) : s.copySkip h = { s with mps := skipCopy s.mps h } := by
  unfold State.copySkip skipCopy
  split <;> rfl

/-- A slot written as FILLED: the count of fills rises, and a resync no longer copies its line (R273, R275). -/
def State.withFilled (s : State) (sl : Nat) (x : InkSlot) : State :=
  { s with inkSeq := s.inkSeq + 1, ink := SMap.put s.ink sl x, mps := skipCopy s.mps x.h }

theorem State.inkFill_only (hx : SMap.find s.ink sl = some x) (ho : s.inkOlder sl x.h = []) (d : LineData) (ids : List EpId)
    (cps : List (Nat × BitVec 16)) :
    s.inkFill sl d ids cps = s.withFilled sl (x.fill d (s.needPorts x.h) ids cps s.inkSeq s.tod) := by
  simp only [State.inkFill, hx, ho, List.foldl_nil, List.isEmpty_nil, if_true, State.copySkip_eq]
  rfl

theorem State.inkOlder_eq_nil (hn : s.inkNewest h = none) : s.inkOlder sl h = [] := by
  rw [State.inkNewest_eq_none] at hn
  unfold State.inkOlder
  split
  · rfl
  · rw [List.filter_eq_nil_iff]
    intro e he hf
    simp only [Bool.and_eq_true, beq_iff_eq] at hf
    obtain ⟨⟨-, hh⟩, hp⟩ := hf
    rw [hn e he hh] at hp
    cases hp

theorem State.Tracks.withFilled (t : v.Tracks as u) (sl : Nat) (x : InkSlot) : (v.withFilled sl x).Tracks as (u.withFilled sl x) := by
  have hseq : u.inkSeq = v.inkSeq := (congrArg State.inkSeq t.rest :)
  unfold State.withFilled
  rw [hseq, t.ink, t.mps]
  exact ⟨t.least, t.most, t.base, t.canonical, t.regs, congrArg (fun z : State =>
    { z with inkSeq := v.inkSeq + 1, ink := SMap.put v.ink sl x, mps := skipCopy v.mps x.h }) t.rest⟩

theorem State.Tracks.inkFill (t : v.Tracks as u) (hx : SMap.find v.ink sl = some x) (hn : v.inkNewest x.h = none) (d : LineData)
    (ids : List EpId) (cps : List (Nat × BitVec 16)) :
    (v.withFilled sl (x.fill d (v.needPorts x.h) ids cps v.inkSeq v.tod)).Tracks as (u.inkFill sl d ids cps) := by
  have hseq : u.inkSeq = v.inkSeq := (congrArg State.inkSeq t.rest :)
  rw [State.inkFill_only (by rw [t.ink]; exact hx) (State.inkOlder_eq_nil ((t.inkNewest _).trans hn)), t.needPorts, hseq, t.tod]
  exact t.withFilled _ _

/-! ### The close of a stall -/

/-- A stall of a line without an entry, that keeps no inkwell slot, returns to its pool (R84). -/
theorem State.doClose_idle (hdir : s.dirOf t.h = none) (hink : t.ink = none) (hrole : t.role = .req) : s.doClose i t = s.freeStall i := by
  unfold State.doClose
  simp only [State.holdsRead_idle hdir, hdir, ite_self, hink, hrole]

theorem State.freeStall_eq (s : State) (i : Nat) :
    s.freeStall i = { s with stalls := SMap.del s.stalls i, tickets := (s.freeStall i).tickets } := by
  unfold State.freeStall State.giveBack
  split
  · split <;> rfl
  · rfl

theorem State.Tracks.freeStall (t : v.Tracks as u) (i : Nat) :
    ({ v with stalls := SMap.del u.stalls i, tickets := (u.freeStall i).tickets } : State).Tracks as (u.freeStall i) := by
  rw [u.freeStall_eq i]
  exact ⟨t.least, t.most, t.base, t.canonical, t.regs, congrArg (fun z : State =>
    { z with stalls := SMap.del u.stalls i, tickets := (u.freeStall i).tickets }) t.rest⟩

theorem State.awaitsCommit_withFilled (ha : s.awaitsCommit i = false) (hx : x.waiters = []) : (s.withFilled sl x).awaitsCommit i = false := by
  simp only [State.awaitsCommit, List.any_eq_false] at ha ⊢
  intro e he
  rcases SMap.mem_put he with he | rfl
  · exact ha e he
  · simp [hx]

/-- A full write that has been answered closes (R84). -/
theorem State.closeReq_written (hf : SMap.find s.stalls i = some t) (hdir : s.dirOf t.h = none) (hop : t.req.op = Op.wrFull)
    (hcp : t.req.cp = none) (hw : t.waits = []) (hrelay : t.relay = none) (hev : t.evict = none) (hwb : t.wbWait = none)
    (hrec : t.recorded = true) (hfin : t.final = true) (hrole : t.role = .req) (hink : t.ink = none) (hc : s.awaitsCommit i = false) :
    ∃ c, s.closeReq i = (s.updStall i (fun x => { x with code := c })).freeStall i := by
  have hcan : s.canClose i t = true := by
    simp [State.canClose, hw, hrelay, hev, hwb, hrec, hfin, hc, State.cpSyncWaits, hcp, Req.acks, hop, Op.wrFull, Op.rdShared, Op.rdUnique,
      Op.upgrade, Op.claimZero]
  simp only [State.closeReq, hf, State.canClose_updStall, hcan, if_true, hcp]
  exact ⟨s.codeOf i t, State.doClose_idle hdir hink hrole⟩

/-! ### The full write -/

/-- The reply to a full write: its line is placed in the slot that it has reserved, and `CmpW` sent (R78, R83). -/
theorem State.completeStep_write (hd : t.Due h) (hf : SMap.find s.stalls i = some t) (hdir : s.dirOf h = none) (hop : t.req.op = Op.wrFull)
    (hsrc : t.req.src < 4) (hdur : t.req.dur = false) (hway : t.way = none) (hink : t.ink = some sl) :
    s.completeStep i t .direct =
      (((s.updStall i (fun x => { x with recorded := true })).inkFill sl t.req.data [t.req.q] []).updStall i
        (fun x => { x with ink := none, got := none })).reply i t Op.cmpW 0 0 [] := by
  have hdt : s.dirOf t.h = none := hd.line.symm ▸ hdir
  have hrep : s.repOf t.req Op.wrFull .direct none = .cmpW := rfl
  have hrec : s.record t .direct .cmpW false = s := by
    simp only [State.record, State.holdsRead_idle hdt, hdt, hway, ite_self]
  unfold State.completeStep
  simp only [hd.role, hdt, hrep, State.displaces_idle hdt, ite_self, hf, hd.waits, Option.any_some, List.isEmpty_nil, Bool.not_true,
    Bool.false_eq_true, if_false, hd.evict, Option.isSome_none, hop, if_true, hrec, hdur, hsrc, hd.cp, hink, Option.getD_some,
    decide_true, Bool.not_false, Bool.and_self]

/-- A full write of a line in state I takes its turn: its line is in the inkwell, it is answered, and its stall is free again (R78, R84). -/
theorem State.Tracks.advance_write (w : (v.withStall i y).Tracks answerRegs u) (hd : y.Due h) (hop : y.req.op = Op.wrFull)
    (hsrc : y.req.src < 4) (hdur : y.req.dur = false) (hway : y.way = none) (hink : y.ink = some sl) (hx : SMap.find v.ink sl = some x)
    (hxh : x.h = h) (hxw : x.waiters = []) (hn : v.inkNewest h = none) (hf : v.faults = []) (hwf : SMap.wf v.stalls = true)
    (hchk : v.chk = false) (hc : v.awaitsCommit i = false) (hdir : v.dirOf h = none) :
    ∃ m q k, ({ v.withFilled sl (x.fill y.req.data (v.needPorts h) [y.req.q] [] v.inkSeq v.tod) with stalls := m, tx := q, tickets := k } :
        State).Tracks answerRegs (u.advance i) ∧ SMap.find m i = none ∧
      (v.reaches y.req.q → ∃ n x, x.who = y.req.q ∧ x.p.opcode = Op.cmpW ∧ x.p.tag = y.req.tag ∧
        (u.advance i).Posted v.tx.length n 3 x) := by
  rw [State.advance_due hd w.find (w.chk.trans hchk) ((w.awaitsCommit i).trans hc),
    State.completeStep_write hd w.find ((w.dirOf h).trans hdir) hop hsrc hdur hway hink]
  have hfill := (w.updWith (fun x => { x with recorded := true })).inkFill (x := x) hx (hxh ▸ hn) y.req.data [y.req.q] []
  have hput := hfill.updWith (v := v.withFilled sl (x.fill y.req.data (v.needPorts x.h) [y.req.q] [] v.inkSeq v.tod))
    (fun x => { x with ink := none, got := none })
  rw [hxh] at hput
  obtain ⟨hS, hP⟩ := hput.reply hf y Op.cmpW 0 0 []
  generalize State.reply _ i y Op.cmpW 0 0 [] = z at hS hP ⊢
  obtain ⟨at', hfind⟩ := hS.stall hd.waits
  have hT := hS.tracks
  have hdz : z.dirOf y.h = none := by rw [hd.line]; exact (hT.dirOf h).trans hdir
  have hcz : z.awaitsCommit i = false := (hT.awaitsCommit i).trans (State.awaitsCommit_withFilled (x := x.fill ..) hc hxw)
  obtain ⟨c, hclose⟩ := State.closeReq_written hfind hdz hop hd.cp rfl hd.relay hd.evict hd.wbWait rfl rfl hd.role rfl hcz
  have hT1 := (hT.updStall i (fun x => { x with code := c })).freeStall i
  rw [hclose]
  refine ⟨_, z.tx, _, hT1, ?_, fun hr => ?_⟩
  · exact SMap.find_del_self (SMap.wf_upd (hS.wf (SMap.risesFrom_put (Nat.zero_le _) hwf)) i _) i
  · obtain ⟨n, x, hwho, hcode, htag, hpost⟩ := hP hr
    refine ⟨n, x, hwho, hcode, htag, hpost.of_eq ?_ ?_⟩
    · rw [State.freeStall_eq]; rfl
    · rw [State.freeStall_eq]; rfl

end

end Sys2Proof.Machine
end

section
/-! Claims, writes and strokes of a line in state I. -/

-- As in the tests: the compile of the one text stays within the threads of the sandbox.
set_option Elab.async false

namespace Sys2Proof.Machine

section
variable {s u : State} {n : Fin 4} {x : InItem} {h : HIdx} {i k sl : Nat}

theorem State.find_ink_withSlot : SMap.find (s.withSlot h (some sl)).ink sl = some (InkSlot.reserve h (s.worldOfH h)) :=
  SMap.find_put_self _ _ _

/-- A message of pool 3 that has been sent (R250). -/
theorem State.posts_of_posted {q : EpId} {op : BitVec 6} {tag : Tag} (hop : poolOf (classOf op) = 3)
    (hp : ∃ m y, EgItem.who y = q ∧ y.p.opcode = op ∧ y.p.tag = tag ∧ u.Posted s.tx.length m 3 y) : s.posts u q op tag := by
  obtain ⟨m, y, hwho, hcode, htag, hpost⟩ := hp
  exact ⟨m, y, hwho, hcode, htag, by rw [hop]; exact hpost⟩

/-- A claim of a line in state I (R34, R78). -/
theorem State.Turn.claims (c : s.Turn n Op.claimZero x h i) (hk : s.chooseWay h = some (k, false, false)) (hslot : s.slotReady (some sl)) :
    SMap.find (s.request n Op.claimZero).dirs k = some ⟨tagOf h, true, s.worldOfH h, .x, .ptr (some x.p.src) none⟩ ∧
    (∃ y, SMap.find (s.request n Op.claimZero).stalls i = some y ∧ y.req = x.req n ∧ y.h = h ∧ y.blocks = true ∧ y.final = true ∧
      y.recorded = true ∧ y.code = 3 ∧ y.ink = some sl) ∧ s.reserves (s.request n Op.claimZero) sl h ∧
    (s.reaches x.p.src → s.posts (s.request n Op.claimZero) x.p.src Op.cmpZ x.p.tag) ∧ (s.request n Op.claimZero).pen = s.pen ∧
    (s.request n Op.claimZero).alc = s.alc ∧ s.regsKept (s.request n Op.claimZero) answerRegs := by
  obtain ⟨-, -, -, -, -, -, -, -, -, -, -, hf, hchk⟩ := c.calm
  obtain ⟨hd, -, -, -, -⟩ := c.quiet
  obtain ⟨port, w, hw, hgo⟩ := c.begins (key := some k) (slot := some sl) (by decide) rfl (by rintro _ ⟨⟩; exact hk) rfl hslot
    (fun hmem => absurd hmem (by decide))
  have hplain : s.request n Op.claimZero = w.advance i := hgo
  obtain ⟨m, q, at', ht, hstall, hpost⟩ := hw.widen.advance_claim (Stall.begun_due rfl ..) c.opcode n.isLt rfl rfl
    (State.find_dirs_of_chooseWay hk) hf (State.chk_withSlot.trans hchk) (State.awaitsCommit_withSlot c.clear)
    ((State.dirOf_withSlot h).trans (State.dirOf_miss hd))
  rw [hplain]
  refine ⟨?_, ⟨_, (congrArg (SMap.find · i) ht.stalls).trans hstall, rfl, rfl, rfl, rfl, rfl, rfl, rfl⟩, ?_, fun hr => ?_, ht.pen, ht.alc,
    ht.regs⟩
  · exact (congrArg (SMap.find · k) ht.dirs).trans (SMap.find_put_self _ _ _)
  · exact State.reserves_of_ink ht.ink
  · exact State.posts_of_posted rfl (hpost hr)

/-- A full write of a line in state I (R34, R78). -/
theorem State.Turn.writes (c : s.Turn n Op.wrFull x h i) (hdur : (x.req n).dur = false) (hslot : s.slotReady (some sl)) :
    (∃ y, SMap.find (s.request n Op.wrFull).ink sl = some y ∧ y.h = h ∧ y.phase = .filled ∧ y.data = LineData.norm x.p.data ∧
      y.ids = [x.p.src] ∧ y.need = s.needPorts h) ∧
    (s.reaches x.p.src → s.posts (s.request n Op.wrFull) x.p.src Op.cmpW x.p.tag) ∧
    SMap.find (s.request n Op.wrFull).stalls i = none ∧ (s.request n Op.wrFull).dirs = s.dirs ∧ (s.request n Op.wrFull).pen = s.pen ∧
    (s.request n Op.wrFull).alc = s.alc ∧ s.regsKept (s.request n Op.wrFull) answerRegs := by
  obtain ⟨-, -, hwf, -, -, -, -, -, -, -, -, hf, hchk⟩ := c.calm
  obtain ⟨hd, -, -, -, hn⟩ := c.quiet
  obtain ⟨port, w, hw, hgo⟩ := c.begins (key := none) (slot := some sl) (by decide) rfl (by rintro _ ⟨⟩) rfl hslot
    (fun hmem => absurd hmem (by decide))
  have hplain : s.request n Op.wrFull = w.advance i := hgo
  obtain ⟨m, q, tk, ht, hstall, hpost⟩ := hw.widen.advance_write (Stall.begun_due rfl ..) c.opcode n.isLt hdur rfl rfl
    State.find_ink_withSlot rfl rfl (State.inkNewest_withSlot hn) hf hwf (State.chk_withSlot.trans hchk)
    (State.awaitsCommit_withSlot c.clear) ((State.dirOf_withSlot h).trans (State.dirOf_miss hd))
  rw [hplain]
  refine ⟨⟨_, (congrArg (SMap.find · sl) ht.ink).trans (SMap.find_put_self _ _ _), rfl, rfl, rfl, rfl, rfl⟩,
    fun hr => State.posts_of_posted rfl (hpost hr), (congrArg (SMap.find · i) ht.stalls).trans hstall, ht.dirs, ht.pen, ht.alc, ht.regs⟩

end

/-- Settles O36: the claim and the full write are answered in their own turn, the partial write and the stroke wait for the line's
data in an inkwell slot that they have reserved. -/
theorem writesTakeSlots : Obligations.WritesTakeSlots := by
  intro s n op x h i k sl hcalm hx ha hline hq hfree hi hclear hroom hsl
  have hturn : s.Turn n op x h i := ⟨hcalm, hx, ha, hline, hq, hfree, hi, hclear⟩
  have hslot : s.slotReady (some sl) := by rintro _ ⟨⟩; exact ⟨hroom, hsl⟩
  refine ⟨?_, ?_, ?_, ?_⟩ <;> rintro rfl
  · exact fun hk => ⟨_, rfl, hturn.claims hk hslot⟩
  · exact fun hdur => ⟨_, rfl, hturn.writes hdur hslot⟩
  · have hwait := hturn.awaits (key := none) (slot := some sl) (by decide) rfl (by rintro _ ⟨⟩) rfl hslot
      (fun hmem => absurd hmem (by decide)) rfl
    obtain ⟨y, hy, -, hreq, hh, -, hink, -, hbl, -, -, hrd, hfin⟩ := hwait.stall
    obtain ⟨hdirs, hpen, halc, -⟩ := hwait.kept
    exact ⟨_, rfl, ⟨y, hy, hreq, hh, hbl, hink, hrd, hfin⟩, hwait.reserves, hwait.readAsked, hdirs, hpen, halc, hwait.regsKept⟩
  · intro hbyp hfmt hseat
    have hwait := hturn.strokeAwaits hfmt hbyp hslot hseat
    obtain ⟨y, hy, -, hreq, hh, -, hink, halc', hbl, -, -, hrd, hfin⟩ := hwait.stall
    obtain ⟨hdirs, hpen, halc, -⟩ := hwait.kept
    exact ⟨_, rfl, ⟨y, hy, hreq, hh, hbl, hink, halc', hrd, hfin⟩, hwait.reserves, hwait.readAsked, hdirs, hpen, halc, hwait.regsKept⟩

end Sys2Proof.Machine
end

section
/-! SUPPORT. An answer or a timer writes few registers: the performance counters and, with a record, those of the blotter.
`State.Drifts` says of a state that it is another one but for registers of a list and for queues and records; what an answer decides
by then reads the same in both. -/

-- As in the tests: the compile of the one text stays within the threads of the sandbox.
set_option Elab.async false

namespace Sys2Proof.Machine

/-! ### Registers that an answer writes -/

theorem perfRegs_subset_answerRegs : perfRegs ⊆ answerRegs := fun a ha => by
  simp only [answerRegs, sendRegs, List.mem_append]
  exact .inr (.inl ha)

theorem count_mem_perfRegs {k : Nat} (hk : k < 256) : R.PMC_CNT + 8 * k ∈ perfRegs := by
  simp only [perfRegs, List.mem_append, List.mem_map, List.mem_range]
  exact .inl ⟨k, hk, rfl⟩

/-- A list with the performance counters and without the register of checkstop. -/
structure EventRegs (as : List RegAddr) : Prop where
  perf : perfRegs ⊆ as
  running : ∀ a ∈ as, a / 8 ≠ R.GLB_CHKSTOP / 8

theorem eventRegs_perfRegs : EventRegs perfRegs :=
  ⟨fun _ h => h, fun a ha he => by
    have := answerSlot_of_mem (perfRegs_subset_answerRegs ha)
    rw [he] at this
    revert this
    decide⟩

theorem EventRegs.cons {as : List RegAddr} (h : EventRegs as) {a : RegAddr} (ha : a / 8 ≠ R.GLB_CHKSTOP / 8) : EventRegs (a :: as) :=
  ⟨fun _ hb => List.mem_cons_of_mem _ (h.perf hb), List.forall_mem_cons.2 ⟨ha, h.running⟩⟩

/-! ### A state that is another one but for what an answer leaves behind -/

/-- `u` is `v` but for registers of `as`, the queues of the ports, and the model's own counters and records. -/
structure State.Drifts (as : List RegAddr) (v u : State) : Prop where
  lists : EventRegs as
  base : v.canonical = true
  canonical : u.canonical = true
  regs : v.regsKept u as
  rest : u = { v with win := u.win, nps := u.nps, lanePtr := u.lanePtr, lates := u.lates, freeCtr := u.freeCtr, rlys := u.rlys,
                      svc := u.svc }

section
variable {as : List RegAddr} {v u w : State}

theorem State.Drifts.refl (hl : EventRegs as) (hc : v.canonical = true) : v.Drifts as v := ⟨hl, hc, hc, fun _ _ => rfl, rfl⟩

theorem State.Drifts.dirs (d : v.Drifts as u) : u.dirs = v.dirs := (congrArg State.dirs d.rest :)
theorem State.Drifts.stalls (d : v.Drifts as u) : u.stalls = v.stalls := (congrArg State.stalls d.rest :)
theorem State.Drifts.ink (d : v.Drifts as u) : u.ink = v.ink := (congrArg State.ink d.rest :)
theorem State.Drifts.rcv (d : v.Drifts as u) : u.rcv = v.rcv := (congrArg State.rcv d.rest :)
theorem State.Drifts.faults (d : v.Drifts as u) : u.faults = v.faults := (congrArg State.faults d.rest :)
theorem State.Drifts.tod (d : v.Drifts as u) : u.tod = v.tod := (congrArg State.tod d.rest :)

theorem State.Drifts.awaitsCommit (d : v.Drifts as u) (i : Nat) : u.awaitsCommit i = v.awaitsCommit i := by
  simp only [State.awaitsCommit, d.ink]

/-- A register outside the list reads the same. -/
theorem State.Drifts.reg (d : v.Drifts as u) {b : Nat} (hb : ∀ a ∈ as, a / 8 ≠ b / 8) : u.reg b = v.reg b :=
  d.regs b (List.all_eq_true.2 fun a ha => by simpa using hb a ha)

theorem State.Drifts.chk (d : v.Drifts as u) : u.chk = v.chk := by simp only [State.chk, State.fld, d.reg d.lists.running]

/-- What a request decides by reads the same. -/
theorem State.Drifts.tracks (d : v.Drifts as u) (h : as ⊆ answerRegs) : v.Tracks answerRegs u :=
  ⟨askRegs_subset_answerRegs, fun _ ha => ha, d.base, d.canonical, State.regsKept.mono d.regs h, d.rest⟩

/-! ### Steps that leave only what an answer leaves -/

theorem State.Drifts.onlyRegs (d : v.Drifts as u) (hc : w.canonical = true) (h : u.onlyRegs w as) : v.Drifts as w := by
  obtain ⟨he, hr⟩ := h
  refine ⟨d.lists, d.base, hc, fun b hb => (hr b hb).trans (d.regs b hb), ?_⟩
  conv_lhs => rw [he, d.rest]
  rw [he]

theorem State.Drifts.setReg (d : v.Drifts as u) {a : Nat} (ha : a ∈ as) (x : Word) : v.Drifts as (u.setReg a x) :=
  d.onlyRegs (State.canonical_setReg _ _ d.canonical)
    ((State.onlyRegs_setReg d.canonical a x).mono (List.cons_subset.2 ⟨ha, List.nil_subset _⟩))

theorem State.Drifts.addFld (d : v.Drifts as u) {a : Nat} (ha : a ∈ as) (lo n x : Nat) : v.Drifts as (u.addFld a lo n x) := d.setReg ha _
theorem State.Drifts.setFld (d : v.Drifts as u) {a : Nat} (ha : a ∈ as) (lo n x : Nat) : v.Drifts as (u.setFld a lo n x) := d.setReg ha _
theorem State.Drifts.setFlag (d : v.Drifts as u) {a : Nat} (ha : a ∈ as) (b : Nat) (x : Bool) : v.Drifts as (u.setFlag a b x) := d.setReg ha _

theorem State.Drifts.ev (d : v.Drifts as u) {k : Nat} (hk : k < 256) (a : Attr) : v.Drifts as (u.ev k a) := by
  unfold State.ev State.evN
  split
  · exact d.setReg (d.lists.perf (count_mem_perfRegs hk)) _
  · exact d

theorem State.Drifts.setSvc (d : v.Drifts as u) (c : SvcSt) : v.Drifts as { u with svc := c } :=
  ⟨d.lists, d.base, d.canonical, d.regs, congrArg (fun z : State => { z with svc := c }) d.rest⟩

theorem State.Drifts.setLates (d : v.Drifts as u) (l : SMap (List Late)) : v.Drifts as { u with lates := l } :=
  ⟨d.lists, d.base, d.canonical, d.regs, congrArg (fun z : State => { z with lates := l }) d.rest⟩

theorem State.Drifts.setQueues (d : v.Drifts as u) (m : SMap NpSt) (l : SMap Nat) : v.Drifts as { u with nps := m, lanePtr := l } :=
  ⟨d.lists, d.base, d.canonical, d.regs, congrArg (fun z : State => { z with nps := m, lanePtr := l }) d.rest⟩

/-- A blotter record is queued, or counted as lost (R449). -/
theorem State.Drifts.blot (d : v.Drifts as u) (hb : R.BLOT_STATUS ∈ as) (r : BlotRec) : v.Drifts as (u.blot r) := by
  unfold State.blot
  extract_lets q
  split
  · exact d.setSvc _
  · exact ((d.addFld hb 17 16 1).setFld hb 33 4 _).ev (by decide) _

theorem State.Drifts.note (d : v.Drifts as u) (hb : R.BLOT_STATUS ∈ as) (src cls det sev : Nat) (world : Bool) (line : LineAddr)
    (tag : Tag) (id : BitVec 18) (op : BitVec 6) (arg : BitVec 40) : v.Drifts as (u.note src cls det sev world line tag id op arg) :=
  d.blot hb _

theorem State.Drifts.notice (d : v.Drifts as u) (kind arg : Nat) (ws : List Word) : v.Drifts as (u.notice kind arg ws) := d.setSvc _

theorem State.Drifts.addLate (d : v.Drifts as u) (i : Nat) (who : EpId) (tag : Tag) (line : LineAddr) (ack : Bool) :
    v.Drifts as (u.addLate i who tag line ack) := d.setLates _

end

/-! ### Arrivals -/

section
variable {s : State} {n c rank : Nat} {x : InItem}

/-- An arrival that has left its queue: the ports and a pointer differ. -/
theorem State.taken_dropIn_eq (s : State) (n c rank lane src : Nat) (x : InItem) : ∃ l,
    (s.dropIn n c x).taken rank lane src = { s with nps := (s.dropIn n c x).nps, lanePtr := l } := by
  refine ⟨((s.dropIn n c x).taken rank lane src).lanePtr, ?_⟩
  conv_lhs => rw [s.dropIn_eq n c x]
  conv_rhs => rw [s.dropIn_eq n c x]
  rfl

/-- An arrival of the home leaves its queue and is handled. -/
theorem State.onArrival_found {op : BitVec 6} (hc : s.canonical = true) (hx : s.arrival n (fun o => o == op) = some x)
    (f : State → Packet → State) : ∃ u, s.Drifts perfRegs u ∧ s.onArrival n op f = f u x.p := by
  obtain ⟨l, hl⟩ := s.taken_dropIn_eq n x.p.cls.toNat 1 (s.laneOf x.p.line) n x
  refine ⟨_, (State.Drifts.refl eventRegs_perfRegs hc).setQueues (s.dropIn n x.p.cls.toNat x).nps l, ?_⟩
  simp only [State.onArrival, hx, hl]

end

/-! ### Stalls written -/

section
variable {s v : State} {i : Nat} {t y : Stall}

theorem State.updStall_of_find (hf : SMap.find s.stalls i = some t) (f : Stall → Stall) : s.updStall i f = s.withStall i (f t) := by
  simp only [State.updStall, SMap.upd, hf, State.withStall]

/-- A stall whose code alone may change is the stall that it was, as long as it waits for an answer (R84, R138). -/
theorem State.closeReq_waiting (hw : y.waits ≠ []) : ∃ c, (v.withStall i y).closeReq i = v.withStall i { y with code := c } := by
  have hopen : (v.withStall i y).canClose i y = false := by simp [State.canClose, hw]
  exact ⟨_, (State.closeReq_open State.find_withStall hopen).trans (State.updStall_withStall _)⟩

/-- A transaction does not move on while its stall waits for an answer (R75, R79). -/
theorem State.advance_waiting (hchk : v.chk = false) (hw : y.waits ≠ []) :
    ∃ c, (v.withStall i y).advance i = v.withStall i { y with code := c } := by
  have hrun : (v.withStall i y).chk = false := hchk
  have hhold : (v.withStall i y).holdStep i y = v.withStall i y := by simp [State.holdStep, hw]
  by_cases hc : y.code = 1
  · have hstay : (v.withStall i y).advance i = v.withStall i y := by simp [State.advance, hc]
    exact ⟨y.code, hstay⟩
  · have hgo : (v.withStall i y).advance i = (v.withStall i y).closeReq i := by
      simp [State.advance, hrun, hc, hhold, hw]
    rw [hgo]
    exact State.closeReq_waiting hw

end

end Sys2Proof.Machine
end

section
/-! SUPPORT. An answer to a snoop: what it decides, and the end of a transaction that a holder's forward answers (R66, R79). -/

-- As in the tests: the compile of the one text stays within the threads of the sandbox.
set_option Elab.async false

namespace Sys2Proof.Machine

section
variable {s v u z : State} {as : List RegAddr} {p : Packet} {i k : Nat} {t y : Stall} {w : Wait} {a : Ans} {h : HIdx} {o : Out}

theorem State.Tracks.lineOf (t : v.Tracks as u) (h : HIdx) : u.lineOf h = v.lineOf h := by
  unfold State.lineOf
  rw [t.regionOfH]
  split
  · next n e =>
    have hn := State.regionOfH_lt e
    simp only [State.regionBase, State.regionOff, State.fld, t.regionA hn, t.regionB hn]
  · rfl

theorem State.Tracks.awaited (t : v.Tracks as u) (p : Packet) : u.awaited p = v.awaited p := by
  have hline : u.lineOf = v.lineOf := funext t.lineOf
  unfold State.awaited
  rw [t.stalls, hline]

theorem State.Tracks.ownsIn (t : v.Tracks as u) (h : HIdx) (who : EpId) : u.ownsIn h who = v.ownsIn h who := by
  simp only [State.ownsIn, t.dirOf]

theorem State.Tracks.claimEntry (t : v.Tracks as u) (h : HIdx) (q : EpId) : u.claimEntry h q = v.claimEntry h q := by
  simp only [State.claimEntry, t.worldOfH]

/-! ### What an answer decides -/

/-- A forward is what R66 lets an X holder answer to a snoop with FMODE = 1. -/
theorem permitted_fwdI (hop : w.op = Op.snpUnique) (hf : w.fmode = true) : permitted w (some .x) .fwdI = true := by
  obtain ⟨who, op, fmode, holder, st, resends⟩ := w
  subst hop hf
  rfl

theorem permitted_fwdO (hop : w.op = Op.snpShare) (hf : w.fmode = true) : permitted w (some .x) .fwdO = true := by
  obtain ⟨who, op, fmode, holder, st, resends⟩ := w
  subst hop hf
  rfl

/-- The outcome that the holder's answer decides (R79). -/
def Ans.out : Ans → Out
  | .ackI => .ackI | .ackS => .ackS | .fwdI => .fwdI | .fwdO => .fwdO | .wbPend => .wbPend | .dataI _ => .dataI | .dataO _ => .dataO

/-- The data that a stall has at hand after an answer (R66). -/
def Ans.got (a : Ans) (old : Option LineData) : Option LineData :=
  match a with | .dataI d => some (LineData.norm d) | .dataO d => some (LineData.norm d) | _ => old

/-- A stall after the holder has answered a snoop (R66, R79, R85). -/
def Stall.answeredBy (t : Stall) (w : Wait) (a : Ans) (now : Tod) : Stall :=
  { t with
    waits := t.waits.erase w
    got := a.got t.got
    wbWait := if a = .wbPend then some w.who else t.wbWait
    out := some a.out
    respAt := if a.out = .fwdI || a.out = .fwdO then some now else t.respAt }

/-- The holder's answer to a request's snoop, no `WbDirty` absorbed, decides the outcome, and the transaction moves on (R79). -/
theorem State.settleAnswer_request (hf : SMap.find s.stalls i = some t) (hrole : t.role = .req) (hh : w.holder = true)
    (ha : t.absorbed = none) : s.settleAnswer i w a = (s.withStall i (t.answeredBy w a s.tod)).advance i := by
  have hrel : ∀ y : Stall, y.absorbed = none → (s.withStall i y).release i w.who = s.withStall i y := fun y hy => by
    simp [State.release, hy]
  cases a <;>
    simp [State.settleAnswer, State.updStall_of_find hf, hrel, ha, hrole, hh, State.updStall_withStall, State.step1, Stall.answeredBy,
      Ans.got, Ans.out] <;> rfl

theorem State.takeAnswer_permitted (hf : SMap.find s.stalls i = some t) (hp : permitted w (s.ownsIn t.h w.who) a = true)
    (op : BitVec 6) : s.takeAnswer i w a op = s.settleAnswer i w a := by
  simp only [State.takeAnswer, hf, hp, if_true]

theorem ansEvent_lt (op : BitVec 6) : ansEvent op < 256 := by
  unfold ansEvent
  repeat' split
  all_goals decide

/-- A permitted answer of the holder arrives for a request (R66, R79). -/
theorem State.Drifts.snoopAnswer (d : s.Drifts perfRegs u) (hfa : s.faults = []) (hchk : s.chk = false)
    (haw : s.awaited p = some (i, w)) (hf : SMap.find s.stalls i = some t) (hrole : t.role = .req) (hh : w.holder = true)
    (ha : t.absorbed = none) (hp : permitted w (s.ownsIn t.h w.who) a = true) (n : Nat) :
    ∃ z, s.Drifts perfRegs z ∧ u.snoopAnswer n p a = (z.withStall i (t.answeredBy w a s.tod)).advance i := by
  have hz := d.ev (ansEvent_lt p.opcode) (pktAttr n p)
  have ht := hz.tracks perfRegs_subset_answerRegs
  have hfz : SMap.find (u.ev (ansEvent p.opcode) (pktAttr n p)).stalls i = some t := by rw [hz.stalls, hf]
  refine ⟨_, hz, ?_⟩
  simp only [State.snoopAnswer, hz.chk, hchk, Bool.false_eq_true, if_false, State.reading_intact (hz.faults.trans hfa), ht.awaited, haw]
  rw [State.takeAnswer_permitted hfz (ht.ownsIn _ _ ▸ hp), State.settleAnswer_request hfz hrole hh ha, hz.tod]

/-- While another answer is awaited, the answer is kept and the outcome stands (R79). -/
theorem State.snoopAnswer_decides {n m : Nat} {op : BitVec 6} {x : InItem} {f : Packet → Ans} (hcalm : s.calm)
    (hx : s.arrival n (fun o => o == op) = some x) (haw : s.awaited x.p = some (i, w)) (hf : SMap.find s.stalls i = some t)
    (hrole : t.role = .req) (hh : w.holder = true) (ha : t.absorbed = none) (hmore : t.waits.erase w ≠ [])
    (hp : permitted w (s.ownsIn t.h w.who) (f x.p) = true) :
    decided i t w (f x.p).out ((f x.p).got t.got) (if f x.p = .wbPend then some w.who else t.wbWait)
      (s.onArrival n op (fun t p => t.snoopAnswer m p (f p))) := by
  obtain ⟨hcanon, -, -, -, -, -, -, -, -, -, -, hfa, hchk⟩ := hcalm
  obtain ⟨u, hu, hgo⟩ := State.onArrival_found hcanon hx (fun t p => t.snoopAnswer m p (f p))
  obtain ⟨z, hz, hadv⟩ := hu.snoopAnswer hfa hchk haw hf hrole hh ha hp m
  obtain ⟨c, hc⟩ := State.advance_waiting (v := z) (i := i) (y := t.answeredBy w (f x.p) s.tod) (hz.chk.trans hchk) hmore
  rw [hgo, hadv, hc]
  exact ⟨_, State.find_withStall, rfl, rfl, rfl, rfl, rfl, rfl⟩

/-! ### The end of a forwarded transaction -/

/-- A stall whose last awaited answer has come, and which has nothing left to wait for but the requester (R75, R84). -/
structure Stall.Ends (t : Stall) : Prop where
  role : t.role = .req
  code : t.code ≠ 1
  waits : t.waits = []
  relay : t.relay = none
  evict : t.evict = none
  hold : t.hold = none
  wbWait : t.wbWait = none
  ready : t.ready = false
  final : t.final = false
  displ : t.displ = false

/-- The stall of a transaction that a forward has ended, its next state recorded (R79, R85). -/
def Stall.forwarded (t : Stall) (now : Tod) : Stall :=
  { t with final := true, respAt := some (t.respAt.getD now), recorded := true }

/-- A transaction whose outcome is a forward records its next state, and needs nothing else (R79, R83). -/
theorem State.advance_forwarded {e : SMap DirEntry} (hy : y.Ends) (hout : y.out = some o) (hchk : v.chk = false)
    (hc : v.awaitsCommit i = false) (hrep : v.repOf y.req y.req.op o (v.dirOf y.h) = .fwd)
    (hdis : ∀ m, ({ v with stalls := m } : State).displaces y .fwd = none)
    (hrec : ∀ m, ({ v with stalls := m } : State).record y o .fwd false = { v with stalls := m, dirs := e }) :
    (v.withStall i y).advance i = (({ v with dirs := e } : State).withStall i (y.forwarded v.tod)).closeReq i := by
  have hrun : (v.withStall i y).chk = false := hchk
  have hcommit : (v.withStall i y).awaitsCommit i = false := hc
  have hrep' : (v.withStall i y).repOf y.req y.req.op o ((v.withStall i y).dirOf y.h) = .fwd := hrep
  have hdis' : (v.withStall i y).displaces y .fwd = none := hdis _
  have hhold : (v.withStall i y).holdStep i y = v.withStall i y := by simp [State.holdStep, hy.hold]
  have hstep : (v.withStall i y).completeStep i y o = ({ v with dirs := e } : State).withStall i (y.forwarded v.tod) := by
    have hw : ∀ x : Stall, (v.withStall i x).record y o .fwd false = ({ v with dirs := e } : State).withStall i x := fun x => hrec _
    simp only [State.completeStep, hy.role, hrep', hdis', ite_self, State.find_withStall, hy.waits, Option.any_some, List.isEmpty_nil,
      Bool.not_true, Bool.false_eq_true, if_false, hy.evict, Option.isSome_none, State.updStall_withStall, hw]
    simp only [Stall.forwarded, hy.role, hy.waits, hy.evict]
    rfl
  simp only [State.advance, State.find_withStall, hrun, hhold, hy.code, decide_false, Bool.or_false, Bool.false_eq_true, if_false,
    hy.waits, hy.relay, hy.wbWait, Stall.done, hy.final, hy.ready, hcommit, hout, List.isEmpty_nil, Option.isNone_none, Bool.not_false,
    Bool.and_self, if_true, hstep]

theorem Req.cpSyncWaits_of_acks (ha : t.req.acks = true) : s.cpSyncWaits t = false := by
  have hop : t.req.op ≠ Op.sync := by
    intro h
    simp only [Req.acks, h] at ha
    revert ha
    simp [Op.sync, Op.rdShared, Op.rdUnique, Op.upgrade, Op.claimZero]
  unfold State.cpSyncWaits
  split
  · simp [hop]
  · rfl

/-- A stall that has answered waits for its requester's acknowledgement (R85, R138). -/
theorem State.closeReq_waitsAck (ha : y.req.acks = true) (hfin : y.final = true) (hack : y.ackGot = false)
    (hc : v.awaitsCommit i = false) : (v.withStall i y).closeReq i = v.withStall i { y with code := 3 } := by
  have hcommit : (v.withStall i y).awaitsCommit i = false := hc
  have hopen : (v.withStall i y).canClose i y = false := by simp [State.canClose, ha, hack]
  have hcode : (v.withStall i y).codeOf i y = 3 := by simp [State.codeOf, hcommit, Req.cpSyncWaits_of_acks ha, ha, hfin, hack]
  rw [State.closeReq_open State.find_withStall hopen, hcode, State.updStall_withStall]

/-! ### The entry of a line held in X -/

/-- The line has one entry, which records one endpoint as its X holder (R95). -/
structure State.HeldX (s : State) (h : HIdx) (k : Nat) (e : DirEntry) (who : EpId) : Prop where
  hits : s.dirHits h = [k]
  find : SMap.find s.dirs k = some e
  st : e.st = .x
  sh : e.sh = .ptr (some who) none

section
variable {e : DirEntry} {who : EpId}

theorem State.HeldX.dirOf (x : s.HeldX h k e who) : s.dirOf h = some (k, e) := by
  simp only [State.dirOf, x.hits, x.find, Option.map_some]

theorem State.HeldX.owner (x : s.HeldX h k e who) : e.owner = some who := by simp only [DirEntry.owner, x.st, x.sh]
theorem State.HeldX.exact (x : s.HeldX h k e who) (z : State) : z.exact e = [] := by simp only [State.exact, x.st]

theorem State.HeldX.ownsIn (x : s.HeldX h k e who) : s.ownsIn h who = some .x := by
  simp only [State.ownsIn, x.dirOf, x.owner, beq_self_eq_true, if_true, x.st]

theorem State.HeldX.of_tracks (t : s.Tracks as u) (x : s.HeldX h k e who) : u.HeldX h k e who :=
  ⟨(t.dirHits h).trans x.hits, (congrArg (SMap.find · k) t.dirs).trans x.find, x.st, x.sh⟩

/-- The entry of a line held in X refers to no further words (R98, R129). -/
theorem State.HeldX.holdsRead (x : s.HeldX h k e who) (hf : s.faults = []) : s.holdsRead h = s := by
  simp only [State.holdsRead, x.dirOf, State.entryRead, State.dirProbe_intact hf, x.find, State.extRead, x.sh, Sharers.xidx]

theorem State.HeldX.freeEntry (x : s.HeldX h k e who) : s.freeEntry k = { s with dirs := SMap.del s.dirs k } := by
  simp only [State.freeEntry, x.find, State.freeExt, x.sh, Sharers.xidx]

/-- A forward of `RdUnique` makes the requester the X holder (R79, R95). -/
theorem State.HeldX.record_fwdI (x : s.HeldX t.h k e who) (hf : s.faults = []) (hchk : s.chk = false) (hop : t.req.op = Op.rdUnique) :
    s.record t .fwdI .fwd false = { s with dirs := SMap.put (SMap.del s.dirs k) k (s.claimEntry t.h t.req.q) } := by
  have hput : s.putX k t.h t.req.q = { s with dirs := SMap.put (SMap.del s.dirs k) k (s.claimEntry t.h t.req.q) } := by
    simp only [State.putX, x.freeEntry]
    rfl
  simp [State.record, x.holdsRead hf, hchk, x.dirOf, hop, hput, Op.rdUnique, Op.rdOnce, Op.rdShared]

/-- The requester of `RdShared` becomes a sharer beside the holder, now the owner in O (R79, R99). -/
theorem State.HeldX.addSharer (x : s.HeldX h k e who) (q : EpId) : s.addSharer k h e .o (some who) q =
    ({ s with dirs := SMap.put s.dirs k { e with st := .o, sh := .ptr (some who) (some q), ref := true } }, none) := by
  simp [State.addSharer, x.sh, x.exact, State.putEntry]

theorem State.HeldX.record_fwdO (x : s.HeldX t.h k e who) (hf : s.faults = []) (hchk : s.chk = false) (hop : t.req.op = Op.rdShared)
    (hq : t.req.q ≠ who) : s.record t .fwdO .fwd false =
      { s with dirs := SMap.put s.dirs k { e with st := .o, sh := .ptr (some who) (some t.req.q), ref := true } } := by
  have hne : who ≠ t.req.q := hq.symm
  simp [State.record, x.holdsRead hf, hchk, x.dirOf, hop, x.exact, x.addSharer, x.owner, hne, Op.rdOnce, Op.rdShared]

/-- An entry of a line held in X is still there after an answer's counts. -/
theorem State.HeldX.of_drifts (x : s.HeldX h k e who) (d : s.Drifts perfRegs z) (m : SMap Stall) :
    ({ z with stalls := m } : State).HeldX h k e who := by
  obtain ⟨hits, find, st, sh⟩ := x.of_tracks (d.tracks perfRegs_subset_answerRegs)
  exact ⟨hits, find, st, sh⟩

theorem State.HeldX.records_fwdI (x : s.HeldX t.h k e who) (d : s.Drifts perfRegs z) (hf : s.faults = []) (hchk : s.chk = false)
    (hop : t.req.op = Op.rdUnique) (m : SMap Stall) : ({ z with stalls := m } : State).record t .fwdI .fwd false =
      { z with stalls := m, dirs := SMap.put (SMap.del s.dirs k) k (s.claimEntry t.h t.req.q) } := by
  have hentry : ({ z with stalls := m } : State).claimEntry t.h t.req.q = s.claimEntry t.h t.req.q :=
    (d.tracks perfRegs_subset_answerRegs).claimEntry t.h t.req.q
  rw [(x.of_drifts d m).record_fwdI (d.faults.trans hf) (d.chk.trans hchk) hop, hentry, ← d.dirs]

theorem State.HeldX.records_fwdO (x : s.HeldX t.h k e who) (d : s.Drifts perfRegs z) (hf : s.faults = []) (hchk : s.chk = false)
    (hop : t.req.op = Op.rdShared) (hq : t.req.q ≠ who) (m : SMap Stall) : ({ z with stalls := m } : State).record t .fwdO .fwd false =
      { z with stalls := m, dirs := SMap.put s.dirs k { e with st := .o, sh := .ptr (some who) (some t.req.q), ref := true } } := by
  rw [(x.of_drifts d m).record_fwdO (d.faults.trans hf) (d.chk.trans hchk) hop hq, ← d.dirs]

theorem State.HeldX.displaces_fwd (x : s.HeldX t.h k e who) (hq : t.req.q ≠ who) : s.displaces t .fwd = none := by
  have hne : who ≠ t.req.q := hq.symm
  unfold State.displaces
  split
  · rfl
  · simp [x.dirOf, x.exact, x.addSharer, x.owner, hne]

end

end

end Sys2Proof.Machine
end

section
/-! Answers to the snoops of a request. -/

-- As in the tests: the compile of the one text stays within the threads of the sandbox.
set_option Elab.async false

namespace Sys2Proof.Machine

section
variable {s z : State} {n : Fin 4} {op : BitVec 6} {x : InItem} {i k : Nat} {t : Stall} {w : Wait} {e : DirEntry} {a : Ans} {h : HIdx}
  {who : EpId} {m : SMap Stall}

/-- The holder's forward is the last answer that the request of a line held in X awaits (R66, R79). -/
structure State.LastForward (s : State) (op : BitVec 6) (n : Fin 4) (x : InItem) (i k : Nat) (t : Stall) (w : Wait) (e : DirEntry) :
    Prop where
  calm : s.calm
  arrival : s.arrival n (fun o => o == op) = some x
  awaited : s.awaited x.p = some (i, w)
  find : SMap.find s.stalls i = some t
  waits : t.waits = [w]
  ends : Stall.Ends { t with waits := [] }
  holder : w.holder = true
  forwards : w.fmode = true
  absorbed : t.absorbed = none
  ack : t.ackGot = false
  src : t.req.src < 4
  commit : s.awaitsCommit i = false
  held : s.HeldX t.h k e w.who
  other : t.req.q ≠ w.who

theorem Stall.Ends.answeredBy (h : Stall.Ends { t with waits := [] }) (hw : t.waits = [w]) (ha : a ≠ .wbPend) (now : Tod) :
    (t.answeredBy w a now).Ends where
  role := h.role
  code := h.code
  waits := by simp [Stall.answeredBy, hw]
  relay := h.relay
  evict := h.evict
  hold := h.hold
  wbWait := (if_neg ha).trans h.wbWait
  ready := h.ready
  final := h.final
  displ := h.displ

/-- The forward is taken, the next state recorded, and the stall waits for the requester's acknowledgement (R79, R85). -/
theorem State.LastForward.recorded (c : s.LastForward op n x i k t w e) {d : SMap DirEntry} (ha : a ≠ .wbPend)
    (hp : permitted w (some .x) a = true) (hacks : t.req.acks = true) (hrep : ∀ (z : State) r, z.repOf t.req t.req.op a.out r = .fwd)
    (hrec : ∀ z, s.Drifts perfRegs z → ∀ m, ({ z with stalls := m } : State).record (t.answeredBy w a s.tod) a.out .fwd false =
      { z with stalls := m, dirs := d }) :
    (s.onArrival n op (fun t p => t.snoopAnswer n p a)).dirs = d ∧
    (∃ y, SMap.find (s.onArrival n op (fun t p => t.snoopAnswer n p a)).stalls i = some y ∧ y.final = true ∧ y.recorded = true ∧
      y.code = 3 ∧ y.waits = []) ∧ s.regsKept (s.onArrival n op (fun t p => t.snoopAnswer n p a)) perfRegs := by
  obtain ⟨hcanon, -, -, -, -, -, -, -, -, -, -, hfa, hchk⟩ := c.calm
  obtain ⟨u, hu, hgo⟩ := State.onArrival_found hcanon c.arrival (fun t p => t.snoopAnswer n p a)
  obtain ⟨z, hz, hadv⟩ := hu.snoopAnswer hfa hchk c.awaited c.find c.ends.role c.holder c.absorbed (c.held.ownsIn ▸ hp) n
  have hends := c.ends.answeredBy c.waits ha s.tod
  have hcommit : z.awaitsCommit i = false := (hz.awaitsCommit i).trans c.commit
  have hdis : ∀ m, ({ z with stalls := m } : State).displaces (t.answeredBy w a s.tod) .fwd = none := fun m =>
    State.HeldX.displaces_fwd (c.held.of_drifts hz m) c.other
  have hclose := State.closeReq_waitsAck (v := { z with dirs := d }) (i := i) (y := (t.answeredBy w a s.tod).forwarded z.tod) hacks rfl
    c.ack hcommit
  rw [hgo, hadv, State.advance_forwarded hends rfl (hz.chk.trans hchk) hcommit (hrep z _) hdis (hrec z hz), hclose]
  exact ⟨rfl, ⟨_, State.find_withStall, rfl, rfl, rfl, hends.waits⟩, hz.regs⟩

theorem Req.acks_of_op {r : Req} (hsrc : r.src < 4) (hop : r.op = Op.rdUnique ∨ r.op = Op.rdShared) : r.acks = true := by
  rcases hop with h | h <;> simp [Req.acks, h, hsrc]

end

/-- Settles O40: an answer is taken and decides its snoop, and a forward that is the last answer is recorded in the directory. -/
theorem snoopAnswers : Obligations.SnoopAnswers := by
  refine ⟨fun s n op x i t w hcalm hx haw hf hrole hh habs hmore => ?_, ?_⟩
  · have hdecides := fun (f : Packet → Ans) hp =>
      State.snoopAnswer_decides (m := n) (f := f) hcalm hx haw hf hrole hh habs hmore hp
    refine ⟨?_, ?_, ?_, ?_, ?_, ?_, ?_⟩ <;> rintro rfl hp
    · exact ⟨_, rfl, hdecides (fun _ => .ackI) hp⟩
    · exact ⟨_, rfl, hdecides (fun _ => .ackS) hp⟩
    · exact ⟨_, rfl, hdecides (fun _ => .fwdI) hp⟩
    · exact ⟨_, rfl, hdecides (fun _ => .fwdO) hp⟩
    · exact ⟨_, rfl, hdecides (fun _ => .wbPend) hp⟩
    · exact ⟨_, rfl, hdecides (fun p => .dataI p.data) hp⟩
    · exact ⟨_, rfl, hdecides (fun p => .dataO p.data) hp⟩
  · intro s n op x i k t w e hcalm hx haw hf hrole hh hfm habs hw hrelay hwb hev hhold hfin hready hack hdis hcode hsrc hcommit
      hits hfind hst hsh hq
    have hlast : s.LastForward op n x i k t w e := ⟨hcalm, hx, haw, hf, hw,
      ⟨hrole, hcode, rfl, hrelay, hev, hhold, hwb, hready, hfin, hdis⟩, hh, hfm, habs, hack, hsrc, hcommit, ⟨hits, hfind, hst, hsh⟩, hq⟩
    obtain ⟨-, -, -, -, -, -, -, -, -, -, -, hfa, hchk⟩ := hcalm
    refine ⟨?_, ?_⟩ <;> rintro rfl hop hwop
    · obtain ⟨hdirs, hstall, hregs⟩ := hlast.recorded (a := .fwdI) (by decide) (permitted_fwdI hwop hfm)
        (Req.acks_of_op hsrc (.inl hop)) (fun _ _ => by rw [hop]; rfl)
        fun z hz m => State.HeldX.records_fwdI (t := t.answeredBy w .fwdI s.tod) hlast.held hz hfa hchk hop m
      exact ⟨_, rfl, (congrArg (SMap.find · k) hdirs).trans (SMap.find_put_self _ _ _), hstall, hregs⟩
    · obtain ⟨hdirs, hstall, hregs⟩ := hlast.recorded (a := .fwdO) (by decide) (permitted_fwdO hwop hfm)
        (Req.acks_of_op hsrc (.inr hop)) (fun _ _ => by rw [hop]; rfl)
        fun z hz m => State.HeldX.records_fwdO (t := t.answeredBy w .fwdO s.tod) hlast.held hz hfa hchk hop hq m
      exact ⟨_, rfl, (congrArg (SMap.find · k) hdirs).trans (SMap.find_put_self _ _ _), hstall, hregs⟩

end Sys2Proof.Machine
end

section
/-! SUPPORT. The close of a stall by its requester's acknowledgement, and acknowledgements that match nothing (R84, R324, R495). -/

-- As in the tests: the compile of the one text stays within the threads of the sandbox.
set_option Elab.async false

namespace Sys2Proof.Machine

/-- The registers that a blotter record may change besides the counters (R449). -/
def recordRegs : List RegAddr := R.BLOT_STATUS :: perfRegs
/-- The registers that an arrival without a match may change (R253, R495). -/
def strayRegs : List RegAddr := R.RTE_ERRCNT :: recordRegs
/-- The registers that a relay's answer may change (R108). -/
def relayRegs : List RegAddr := R.GLB_RCVSTAT :: recordRegs

theorem eventRegs_recordRegs : EventRegs recordRegs := eventRegs_perfRegs.cons (by decide)
theorem eventRegs_strayRegs : EventRegs strayRegs := eventRegs_recordRegs.cons (by decide)
theorem eventRegs_relayRegs : EventRegs relayRegs := eventRegs_recordRegs.cons (by decide)

theorem perfRegs_subset_strayRegs : perfRegs ⊆ strayRegs := fun _ ha => List.mem_cons_of_mem _ (List.mem_cons_of_mem _ ha)
theorem perfRegs_subset_relayRegs : perfRegs ⊆ relayRegs := fun _ ha => List.mem_cons_of_mem _ (List.mem_cons_of_mem _ ha)
theorem blotStatus_mem_relayRegs : R.BLOT_STATUS ∈ relayRegs := List.mem_cons_of_mem _ List.mem_cons_self

section
variable {s v u : State} {as bs : List RegAddr} {p : Packet} {i n : Nat} {t y : Stall} {w : Wait} {q : EpId} {tag : Tag}

theorem State.Drifts.mono (d : v.Drifts as u) (h : as ⊆ bs) (hl : EventRegs bs) : v.Drifts bs u :=
  ⟨hl, d.base, d.canonical, State.regsKept.mono d.regs h, d.rest⟩

/-! ### An arrival without a match -/

/-- An arrival that matches no awaited answer is counted and recorded (R253, R495). -/
theorem State.Drifts.unmatched (d : v.Drifts strayRegs u) (p : Packet) : v.Drifts strayRegs (u.unmatched p) := by
  have hb : R.BLOT_STATUS ∈ strayRegs := by simp [strayRegs, recordRegs]
  unfold State.unmatched State.stray
  split
  · exact ((d.addFld List.mem_cons_self 0 16 1).ev (by decide) _).note hb ..
  · exact (d.ev (by decide) _).note hb ..

/-! ### The stall that an acknowledgement names -/

theorem State.ackStall_named (hwf : SMap.wf s.stalls = true) (hi : s.ackStall q tag = some i) (hf : SMap.find s.stalls i = some t) :
    t.role = .req ∧ t.req.acks = true ∧ t.code ≠ 1 ∧ t.ackGot = false := by
  simp only [State.ackStall, Option.map_eq_some_iff] at hi
  obtain ⟨⟨j, y⟩, hy, rfl⟩ := hi
  have hfind := (SMap.mem_iff_find hwf).1 (List.mem_of_find?_eq_some hy)
  obtain rfl : y = t := Option.some.inj (hfind.symm.trans hf)
  have := List.find?_some hy
  simp only [Bool.and_eq_true, beq_iff_eq, bne_iff_ne, Bool.not_eq_true'] at this
  obtain ⟨⟨⟨⟨⟨hrole, hacks⟩, -⟩, -⟩, hcode⟩, hack⟩ := this
  exact ⟨hrole, hacks, hcode, hack⟩

/-- An acknowledgement is noted in its stall: the stall closes when it can, or a forward is completed on the owner's behalf (R84, R324). -/
theorem State.Drifts.takeAck (d : s.Drifts perfRegs u) (hfa : s.faults = []) (hchk : s.chk = false)
    (hi : s.ackStall p.src p.tag = some i) (hf : SMap.find s.stalls i = some t) (n : Nat) :
    ∃ z, s.Drifts perfRegs z ∧
      (t.waits.all (fun w => !w.holder || w.asked) = true → u.takeAck n p = (z.withStall i { t with ackGot := true }).closeReq i) ∧
      (∀ w tt, t.waits = [w] → w.holder = true → w.st = .window tt →
        u.takeAck n p = (z.withStall i { t with ackGot := true }).asForward i w) := by
  have hz := d.ev (k := 0x9F) (by decide) (pktAttr n p)
  have hfz : SMap.find (u.ev 0x9F (pktAttr n p)).stalls i = some t := by rw [hz.stalls, hf]
  have hiz : (u.ev 0x9F (pktAttr n p)).ackStall p.src p.tag = some i := by simp only [State.ackStall, hz.stalls]; exact hi
  have hgo := State.updStall_of_find hfz (fun t => { t with ackGot := true })
  refine ⟨_, hz, fun hw => ?_, fun w tt hw hh hst => ?_⟩
  · simp only [State.takeAck, hz.chk, hchk, hiz, State.reading_intact (hz.faults.trans hfa), hgo, State.find_withStall, Option.bind_some,
      Bool.false_eq_true, if_false]
    split
    · next x hx =>
      have hall := List.all_eq_true.1 hw x (List.mem_of_find?_eq_some hx)
      have hwin := List.find?_some hx
      cases hst : x.st <;> simp [hst, Wait.asked] at hall hwin
      simp [hwin] at hall
    · rfl
  · simp only [State.takeAck, hz.chk, hchk, hiz, State.reading_intact (hz.faults.trans hfa), hgo, State.find_withStall, Option.bind_some,
      Bool.false_eq_true, if_false, hw, List.find?_cons, hh, hst, Bool.and_self]

/-! ### The close -/

/-- While no ID is being purged, a request's stall that closes leaves the yard, and its inkwell slot with it (R84, R128). -/
theorem State.doClose_unpurged (hp : s.rcv.purge = []) (hrole : t.role = .req) : ∃ ink tk,
    s.doClose i t = { s with stalls := SMap.del s.stalls i, ink := ink, tickets := tk } ∧ (t.ink = none → ink = s.ink) := by
  unfold State.doClose
  simp only [hp, hrole, List.isEmpty_nil, Bool.not_true, Bool.and_false, Bool.false_eq_true, if_false]
  cases t.ink with
  | none => exact ⟨_, _, s.freeStall_eq i, fun _ => rfl⟩
  | some sl =>
    dsimp only
    split
    · split
      · exact ⟨_, _, (s.inkDrop sl).freeStall_eq i, fun h => by cases h⟩
      · exact ⟨_, _, s.freeStall_eq i, fun h => by cases h⟩
    · exact ⟨_, _, s.freeStall_eq i, fun h => by cases h⟩

/-- The yard without a stall. -/
structure Yard.Without (m : SMap Stall) (i : Nat) (m' : SMap Stall) : Prop where
  gone : SMap.find m' i = none
  others : ∀ j, j ≠ i → SMap.find m' j = SMap.find m j

/-- A stall for which every condition of R84 holds closes. -/
theorem State.closeReq_closes (hwf : SMap.wf v.stalls = true) (hc : v.canClose i y = true) (hcp : y.req.cp = none) (hrole : y.role = .req)
    (hp : v.rcv.purge = []) : ∃ m ink tk, (v.withStall i y).closeReq i = { v with stalls := m, ink := ink, tickets := tk } ∧
      Yard.Without v.stalls i m ∧ (y.ink = none → ink = v.ink) := by
  obtain ⟨a, hgo⟩ : ∃ a, (v.withStall i y).closeReq i = (v.withStall i a).doClose i y := by
    have hcan : (v.withStall i { y with code := (v.withStall i y).codeOf i y }).canClose i y = true := hc
    refine ⟨{ y with code := (v.withStall i y).codeOf i y }, ?_⟩
    simp only [State.closeReq, State.find_withStall, State.updStall_withStall, hcan, if_true, hcp]
  have hput : SMap.risesFrom 0 (SMap.put v.stalls i a) = true := SMap.risesFrom_put (Nat.zero_le i) hwf
  obtain ⟨ink, tk, hclose, hink⟩ := State.doClose_unpurged (s := v.withStall i a) (i := i) (t := y) hp hrole
  exact ⟨SMap.del (SMap.put v.stalls i a) i, ink, tk, hgo.trans hclose,
    ⟨SMap.find_del_self hput i, fun j hj => (SMap.find_del_ne hput hj).trans (SMap.find_put_ne _ _ hj)⟩, hink⟩

end

end Sys2Proof.Machine
end

section
/-! SUPPORT. A message sent again: packets that leave a port start timers and change no wait in whom it is on and how often it has been
asked (R108, R252, R319). -/

-- As in the tests: the compile of the one text stays within the threads of the sandbox.
set_option Elab.async false

namespace Sys2Proof.Machine

/-! ### Whom a stall waits for -/

/-- What a wait is for: all of it but where its message stands (R252). -/
def Wait.aim (w : Wait) : Wait := { w with st := .queued }

/-- What the waits of a stall are for. -/
def State.aims (s : State) (i : Nat) : Option (List Wait) := (SMap.find s.stalls i).map (fun t => t.waits.map Wait.aim)

section
variable {s u v z : State} {i j n : Nat} {t y : Stall} {w a b : Wait} {who : EpId} {x : EgItem}

theorem State.aims_of_find (hf : SMap.find s.stalls i = some t) (hw : t.waits = [w]) : s.aims i = some [w.aim] := by
  simp [State.aims, hf, hw]

theorem State.aims_of_stalls (h : u.stalls = s.stalls) (i : Nat) : u.aims i = s.aims i := by simp only [State.aims, h]

/-- A stall with one aim has one wait. -/
theorem State.wait_of_aims (h : s.aims i = some [a]) :
    ∃ t w, SMap.find s.stalls i = some t ∧ t.waits = [w] ∧ w.who = a.who ∧ w.resends = a.resends := by
  simp only [State.aims, Option.map_eq_some_iff, List.map_eq_singleton_iff] at h
  obtain ⟨t, hf, w, hw, rfl⟩ := h
  exact ⟨t, w, hf, hw, rfl, rfl⟩

theorem State.aims_updStall {f : Stall → Stall} (hf : ∀ t, (f t).waits.map Wait.aim = t.waits.map Wait.aim) (j : Nat) :
    (s.updStall i f).aims j = s.aims j := by
  simp only [State.aims, State.updStall, SMap.find_upd]
  split
  · next h => subst h; cases SMap.find s.stalls j <;> simp [hf]
  · rfl

theorem map_aim_updWait (p : Wait → Bool) {f : Wait → Wait} (hf : ∀ w, (f w).aim = w.aim) (ws : List Wait) :
    (updWait ws p f).map Wait.aim = ws.map Wait.aim := by
  induction ws with
  | nil => rfl
  | cons w r ih =>
    simp only [updWait]
    split
    · simp [hf]
    · simp [ih]

/-- The only wait of a stall is written (R319). -/
theorem State.aims_setWait {f : Wait → Wait} (h : s.aims i = some [a]) (hwho : a.who = who) (hf : ∀ w, w.aim = a → (f w).aim = b) :
    (s.setWait i who f).aims i = some [b] := by
  simp only [State.aims, Option.map_eq_some_iff, List.map_eq_singleton_iff] at h
  obtain ⟨t, hfind, w, hw, ha⟩ := h
  have hself : w.who = who := by rw [← hwho, ← ha]; rfl
  simp [State.aims, State.setWait, State.updStall, SMap.find_upd, hfind, hw, updWait, hself, hf w ha]

/-- A wait that is asked once more is for what it was for, and counts the resend (R319). -/
theorem aim_asked (h : w.aim = a) (st : WaitSt) (n : Nat) : Wait.aim { w with st := st, resends := n } = { a with resends := n } := by
  rw [← h]
  rfl

/-! ### Packets that leave -/

theorem State.aims_left (hc : s.canonical = true) (hn : n < 4) (x : EgItem) (j : Nat) : (s.left n x).aims j = s.aims j := by
  have hcount : ({ s with tx := s.tx ++ [(n, x.p)] } : State).Writes
      (({ s with tx := s.tx ++ [(n, x.p)] } : State).evN (0xE4 + n) (1 + x.p.nflit.toNat) { c := some x.p.cls.toNat }) :=
    (State.Writes.refl (s := { s with tx := s.tx ++ [(n, x.p)] }) hc).evN _ _ fun _ => by omega
  unfold State.left
  extract_lets s1 s2 start
  have h1 : ({ s with tx := s.tx ++ [(n, x.p)] } : State).Writes s1 := hcount
  have h2 : ({ s with tx := s.tx ++ [(n, x.p)] } : State).Writes s2 := by
    simp only [s2]
    split
    · exact h1.respMeasured _ _
    · exact h1
  have hkept : s2.aims j = s.aims j := State.aims_of_stalls (congrArg State.stalls h2.only.1 :) j
  split
  · exact hkept
  · split
    · split
      · refine (State.aims_updStall (fun t => ?_) j).trans hkept
        exact map_aim_updWait _ (f := fun w => { w with st := .sent s2.tod }) (fun _ => rfl) _
      · exact hkept
    · split
      · exact (State.aims_updStall (f := fun t => { t with respAt := some s2.tod }) (fun _ => rfl) j).trans hkept
      · exact hkept

theorem State.Sends.aims_pumpN (S : v.Sends u) (hn : n < 4) (f j : Nat) : (u.pumpN n f).aims j = u.aims j := by
  induction f generalizing u with
  | zero => rfl
  | succ f ih =>
    unfold State.pumpN
    split
    · next z e =>
      obtain ⟨p, x, he, -⟩ := State.pump1_eq e
      have hz : z.aims j = u.aims j := he ▸ State.aims_left (s := u.setNp n p) S.tracks.canonical hn x j
      exact (ih (S.pump1 hn e)).trans hz
    · rfl

theorem State.aims_settleIn (s : State) (n j : Nat) : (s.settleIn n).aims j = s.aims j :=
  State.aims_of_stalls (congrArg State.stalls (s.settleIn_eq n) :) j

theorem State.Sends.aims_enqueue (S : v.Sends u) (hn : n < 4) (x : EgItem) (j : Nat) : (u.enqueue n x).aims j = u.aims j := by
  unfold State.enqueue State.pump
  exact (State.aims_settleIn _ n j).trans ((S.setNp n _).aims_pumpN hn _ j)

/-- A message that is sent changes no wait but in where its message stands. -/
theorem State.Sends.aims_send (S : v.Sends u) (hf : v.faults = []) (m : Msg) (k : Meta) (j : Nat) : (u.send m k).1.aims j = u.aims j := by
  have hfu : u.faults = [] := S.tracks.faults.trans hf
  cases hr : u.route (u.toPhys m.dst) with
  | none =>
    rw [State.send_of_no_route hfu hr]
    exact State.aims_of_stalls (by rw [State.ev_stalls, State.addFld_stalls]) j
  | some r =>
    obtain ⟨n, rt, nh⟩ := r
    rw [State.send_of_route hfu hr]
    exact S.aims_enqueue (State.route_lt hr) _ j

/-! ### A relayed invalidation sent again -/

theorem State.note_stalls (s : State) (src cls det sev : Nat) (world : Bool) (line : LineAddr) (tag : Tag) (id : BitVec 18) (op : BitVec 6)
    (arg : BitVec 40) : (s.note src cls det sev world line tag id op arg).stalls = s.stalls := by
  unfold State.note State.blot
  dsimp only
  split
  · rfl
  · rw [State.ev_stalls, State.setFld_stalls, State.addFld_stalls]

/-- What a resend leaves as it was: the directory and GLB.RCVSTAT. -/
structure State.Spares (s u : State) : Prop where
  canonical : u.canonical = true
  dirs : u.dirs = s.dirs
  status : u.reg R.GLB_RCVSTAT = s.reg R.GLB_RCVSTAT

theorem State.Spares.refl (hc : s.canonical = true) : s.Spares s := ⟨hc, rfl, rfl⟩

theorem State.Spares.trans (h : s.Spares u) (g : u.Spares z) : s.Spares z :=
  ⟨g.canonical, g.dirs.trans h.dirs, g.status.trans h.status⟩

theorem State.Spares.notice (h : s.Spares u) (kind arg : Nat) (ws : List Word) : s.Spares (u.notice kind arg ws) :=
  ⟨h.canonical, h.dirs, h.status⟩

/-- A register of no answer, with no record in it, reads the same after records. -/
theorem State.Drifts.reg_of_quiet (d : s.Drifts recordRegs u) {b : Nat} (hb : quietReg b) (hs : b / 8 ≠ R.BLOT_STATUS / 8) :
    u.reg b = s.reg b :=
  d.reg (List.forall_mem_cons.2 ⟨hs.symm, fun _ ha he => hb (he ▸ answerSlot_of_mem (perfRegs_subset_answerRegs ha))⟩)

theorem State.Drifts.spares (d : s.Drifts recordRegs u) : s.Spares u :=
  ⟨d.canonical, d.dirs, d.reg_of_quiet (by decide) (by decide)⟩

theorem State.Sends.spares (S : s.Sends u) : s.Spares u :=
  ⟨S.tracks.canonical, S.tracks.dirs, S.tracks.reg (by decide)⟩

/-- GLB.CHKSTOP as a declaration by hardware writes it (R336). -/
def stopWord (s : State) (cause : Nat) : Word :=
  BitVec.ofNat 64 (cause % 256 + 1 * 2 ^ 8 + 0 * 2 ^ 11 + s.fld R.GLB_CHKSTOP 29 8 * 2 ^ 29 + 0 * 2 ^ 37)

/-- The first declaration by hardware is recorded with its cause, source and time, and noticed (R336). -/
theorem State.declare_first (hc : s.canonical = true) (hchk : s.chk = false) (cause : Nat) : ∃ z a b k, s.Drifts recordRegs z ∧
    a = stopWord z cause ∧ s.declare cause 1 = ((z.setReg R.GLB_CHKSTOP a).setReg R.GLB_CHKTOD b).notice 5 k [] := by
  have hz := (State.Drifts.refl eventRegs_recordRegs hc).note List.mem_cons_self 0 6 cause 3 Config.blotWorld 0 0 Config.blotId 0
    (Config.blotArg (6 * 256 + cause))
  rw [State.declare, if_neg (by simp [hchk]), if_neg (by decide), if_neg (by decide), if_neg (by decide)]
  -- Named: the kernel would else compare register windows by evaluating them.
  generalize s.note 0 6 cause 3 = z at hz ⊢
  exact ⟨z, _, _, _, hz, rfl, rfl⟩

/-- The word of a declaration names its cause and its source (R336). -/
theorem getBits_stopWord (s : State) {cause : Nat} (h : cause < 256) :
    getBits (stopWord s cause) 0 8 = cause ∧ getBits (stopWord s cause) 8 3 = 1 := by
  have hlt : s.fld R.GLB_CHKSTOP 29 8 < 2 ^ 8 := getBits_lt ..
  simp only [getBits, stopWord, BitVec.toNat_ofNat]
  omega

/-- A checkstop declared by hardware stops the domain with its cause (R336). -/
theorem State.declare_stops (hc : s.canonical = true) (hchk : s.chk = false) {cause : Nat} (h : cause < 256) :
    (s.declare cause 1).chk = true ∧ (s.declare cause 1).chkCause = cause := by
  obtain ⟨z, a, b, k, hz, ha, heq⟩ := State.declare_first hc hchk cause
  obtain ⟨hcause, hsrc⟩ := ha ▸ getBits_stopWord z h
  have hreg : (s.declare cause 1).reg R.GLB_CHKSTOP = a := by
    rw [heq]
    exact (State.reg_setReg_ne (State.canonical_setReg _ _ hz.canonical) (by decide) b).trans (State.reg_setReg_self hz.canonical _ a)
  simp only [State.chk, State.chkCause, State.fld, hreg, hcause, hsrc]
  simp

/-- A checkstop declared by hardware leaves the yard and the directory alone (R336). -/
theorem State.declare_spares (hc : s.canonical = true) (cause : Nat) :
    s.Spares (s.declare cause 1) ∧ (s.declare cause 1).stalls = s.stalls := by
  have hset : ∀ {z : State}, z.canonical = true → ∀ {a : RegAddr} (v : Word), R.GLB_RCVSTAT / 8 ≠ a / 8 → z.Spares (z.setReg a v) :=
    fun hz a v ha => ⟨State.canonical_setReg _ _ hz, rfl, State.reg_setReg_ne hz ha v⟩
  by_cases hchk : s.chk = true
  · rw [State.declare, if_pos hchk]
    exact ⟨hset hc _ (by decide), State.addFld_stalls ..⟩
  · obtain ⟨z, a, b, k, hz, -, heq⟩ := State.declare_first hc (Bool.not_eq_true _ ▸ hchk) cause
    rw [heq, State.notice_stalls, State.setReg_stalls, State.setReg_stalls]
    have hstop := hset hz.canonical (a := R.GLB_CHKSTOP) a (by decide)
    exact ⟨((hz.spares.trans hstop).trans (hset hstop.canonical (a := R.GLB_CHKTOD) b (by decide))).notice .., hz.stalls⟩

/-- A step that writes the yard alone. -/
theorem State.Spares.setWait (h : s.Spares u) (i : Nat) (who : EpId) (f : Wait → Wait) : s.Spares (u.setWait i who f) :=
  ⟨h.canonical, h.dirs, h.status⟩

/-- Any state sends from itself. -/
theorem State.Sends.refl (hc : s.canonical = true) : s.Sends s :=
  ((State.Drifts.refl eventRegs_perfRegs hc).tracks perfRegs_subset_answerRegs).sends

/-- A `RlyInv` that finds no route is asked again later, or the domain stops (R319, R333). -/
def State.rlyUnsent (s : State) (ri : Nat) (t : Stall) (who : EpId) (n : Nat) : State :=
  let s := s.relayFailNote ri t who 2
  if n < s.fld R.GLB_RCVCTL 8 2 then s.setWait ri who (fun w => { w with st := .resend (s.tod + BitVec.ofNat 64 (usec 1)), resends := n })
  else s.declare 8 1

theorem State.rlyUnsent_asks (hc : s.canonical = true) (h : s.aims i = some [a]) (hwho : a.who = who) (ha : a.resends = n) (t : Stall) :
    s.Spares (s.rlyUnsent i t who n) ∧ (s.rlyUnsent i t who n).aims i = some [a] := by
  have hz : s.Drifts recordRegs (s.relayFailNote i t who 2) := (State.Drifts.refl eventRegs_recordRegs hc).note List.mem_cons_self ..
  have hza : (s.relayFailNote i t who 2).aims i = some [a] := (State.aims_of_stalls hz.stalls i).trans h
  unfold State.rlyUnsent
  extract_lets z
  split
  · refine ⟨hz.spares.setWait .., State.aims_setWait hza hwho fun y hy => ?_⟩
    rw [aim_asked hy, ← ha]
  · obtain ⟨hs, hst⟩ := State.declare_spares hz.canonical 8
    exact ⟨hz.spares.trans hs, (State.aims_of_stalls hst i).trans hza⟩

/-- A `RlyInv` sent again leaves its wait with the relay it was on, and counts the resend (R108, R319). -/
theorem State.rlySend_asks (hc : s.canonical = true) (hfa : s.faults = []) (h : s.aims i = some [a]) (hwho : a.who = who) (t : Stall)
    (n : Nat) : s.Spares (s.rlySend i t who n) ∧ (s.rlySend i t who n).aims i = some [{ a with resends := n }] := by
  have hev : ∀ x, s.Drifts recordRegs (s.ev 0x96 x) := (State.Drifts.refl eventRegs_recordRegs hc).ev (by decide)
  unfold State.rlySend
  extract_lets m x set z p
  have hz : s.Drifts recordRegs z := hev x
  have hza : z.aims i = some [a] := (State.aims_of_stalls hz.stalls i).trans h
  split
  · have hin : ({ z with ruIn := z.ruIn ++ [⟨p, z.homeId, t.req.world, 0⟩] } : State).aims i = some [a] := hza
    exact ⟨⟨hz.canonical, hz.dirs, hz.spares.status⟩, State.aims_setWait hin hwho fun _ hy => aim_asked hy _ n⟩
  · have hq : s.Spares (set z .queued) := hz.spares.setWait ..
    have hqa : (set z .queued).aims i = some [{ a with resends := n }] := State.aims_setWait hza hwho fun _ hy => aim_asked hy _ n
    have hqf : (set z .queued).faults = [] := hz.faults.trans hfa
    have hsent := ((State.Sends.refl hq.canonical).send hqf m { stall := some i }).1
    have hsenta := ((State.Sends.refl hq.canonical).aims_send hqf m { stall := some i } i).trans hqa
    split
    · next u he =>
      rw [he] at hsent hsenta
      exact ⟨hq.trans hsent.spares, hsenta⟩
    · next u he =>
      rw [he] at hsent hsenta
      obtain ⟨hs, hgo⟩ := State.rlyUnsent_asks hsent.spares.canonical hsenta hwho rfl t
      exact ⟨(hq.trans hsent.spares).trans hs, hgo⟩

end

end Sys2Proof.Machine
end

section
/-! SUPPORT. A relay's answer: the last one closes its stall, an earlier one ends its own wait, and a failed one is asked for again
(R107, R108). -/

-- As in the tests: the compile of the one text stays within the threads of the sandbox.
set_option Elab.async false

namespace Sys2Proof.Machine

section
variable {s v u z : State} {i j k n ri : Nat} {t y : Stall} {w a : Wait} {p : Packet}

/-! ### A failed relay -/

theorem State.Drifts.redo {as : List RegAddr} (d : s.Drifts as u) (hk : k < 256) : s.Drifts as (u.redo k) := by
  have hredo : R.PMC_REDO + 8 * (k / 64) ∈ perfRegs := by
    simp only [perfRegs, List.mem_append, List.mem_map, List.mem_range]
    exact .inr ⟨k / 64, by omega, rfl⟩
  exact d.setFlag (d.lists.perf hredo) _ _

/-- A message that is sent again is flagged in GLB.RCVSTAT, and counted (R319). -/
theorem State.Drifts.resent (d : s.Drifts relayRegs u) (l : LineAddr) (hk : k < 256) :
    s.Drifts relayRegs ((u.resent l).redo k) ∧ (u.setFlag R.GLB_RCVSTAT 20 true).Drifts perfRegs ((u.resent l).redo k) := by
  have hflag := d.setFlag List.mem_cons_self 20 true
  exact ⟨(hflag.ev (by decide) _).redo hk, ((State.Drifts.refl eventRegs_perfRegs hflag.canonical).ev (by decide) _).redo hk⟩

theorem State.resent_flag (hc : s.canonical = true) (l : LineAddr) (hk : k < 256) :
    ((s.resent l).redo k).flag R.GLB_RCVSTAT 20 = true := by
  have hset : (s.setFlag R.GLB_RCVSTAT 20 true).fld R.GLB_RCVSTAT 20 1 = 1 := State.fld_setFld_self hc _ _ (by decide)
  obtain ⟨-, hafter⟩ := (State.Drifts.refl eventRegs_relayRegs hc).resent l hk
  have hreg := (hafter.mono (List.subset_cons_self _ _) eventRegs_recordRegs).spares.status
  simp only [State.flag, State.fld] at hset ⊢
  simp only [hreg, hset, beq_self_eq_true]

/-- Records leave the number of resends that GLB.RCVCTL grants (R319). -/
theorem State.Drifts.resendLimit (d : s.Drifts recordRegs u) : u.fld R.GLB_RCVCTL 8 2 = s.fld R.GLB_RCVCTL 8 2 := by
  simp only [State.fld, d.reg_of_quiet (b := R.GLB_RCVCTL) (by decide) (by decide)]

/-- A relay that failed is asked again while resends are left (R108, R319). -/
theorem State.relayFail_resends (hc : s.canonical = true) (hfa : s.faults = []) (hf : SMap.find s.stalls i = some t) (hw : t.waits = [w])
    (hleft : w.resends < s.fld R.GLB_RCVCTL 8 2) (why : Nat) : (s.relayFail i t w why).flag R.GLB_RCVSTAT 20 = true ∧
      (s.relayFail i t w why).dirs = s.dirs ∧ ∃ y w', SMap.find (s.relayFail i t w why).stalls i = some y ∧ y.waits = [w'] ∧
        w'.who = w.who ∧ w'.resends = w.resends + 1 := by
  have hz : s.Drifts recordRegs (s.relayFailNote i t w.who why) := (State.Drifts.refl eventRegs_recordRegs hc).note List.mem_cons_self ..
  obtain ⟨hd, -⟩ := (hz.mono (List.subset_cons_self _ _) eventRegs_relayRegs).resent t.req.line (k := 0x96) (by decide)
  have hflag := State.resent_flag hz.canonical t.req.line (k := 0x96) (by decide)
  have hgo : s.relayFail i t w why =
      (((s.relayFailNote i t w.who why).resent t.req.line).redo 0x96).rlySend i t w.who (w.resends + 1) :=
    if_pos (hleft.trans_eq hz.resendLimit.symm)
  generalize ((s.relayFailNote i t w.who why).resent t.req.line).redo 0x96 = u at hd hflag hgo
  have haims : u.aims i = some [w.aim] := (State.aims_of_stalls hd.stalls i).trans (State.aims_of_find hf hw)
  obtain ⟨hs, ha⟩ := State.rlySend_asks hd.canonical (hd.faults.trans hfa) haims (who := w.who) rfl t (w.resends + 1)
  obtain ⟨y, w', hy, hw', hwho, hn⟩ := State.wait_of_aims ha
  rw [hgo]
  refine ⟨?_, hs.dirs.trans hd.dirs, y, w', hy, hw', hwho, hn⟩
  simpa only [State.flag, State.fld, hs.status] using hflag

/-- Without a resend left the domain stops (R319, R333). -/
theorem State.relayFail_stops (hc : s.canonical = true) (hchk : s.chk = false) (hleft : s.fld R.GLB_RCVCTL 8 2 ≤ w.resends) (why : Nat) :
    (s.relayFail i t w why).chk = true ∧ (s.relayFail i t w why).chkCause = 8 ∧ (s.relayFail i t w why).dirs = s.dirs := by
  have hz : s.Drifts recordRegs (s.relayFailNote i t w.who why) := (State.Drifts.refl eventRegs_recordRegs hc).note List.mem_cons_self ..
  have hgo : s.relayFail i t w why = (s.relayFailNote i t w.who why).declare 8 1 :=
    if_neg (not_lt.2 (hz.resendLimit.trans_le hleft))
  obtain ⟨hstop, hcause⟩ := State.declare_stops hz.canonical (hz.chk.trans hchk) (cause := 8) (by decide)
  rw [hgo]
  exact ⟨hstop, hcause, (State.declare_spares hz.canonical 8).1.dirs.trans hz.dirs⟩

/-! ### A relay that has answered -/

/-- An answer that a relay stall awaits: a failed relay, or one relay's part done (R107, R108). -/
theorem State.Drifts.takeRlyAck (d : s.Drifts perfRegs u) (hfa : s.faults = []) (hchk : s.chk = false)
    (hf : SMap.find s.stalls p.tag.toNat = some t) (hrole : t.role = .relay i) (hline : t.req.line = p.line)
    (hw : t.waits.find? (fun v => v.who == p.src && v.asked) = some w) (n : Nat) :
    (bit p.detail.toNat 22 = true → ∃ z, s.Drifts perfRegs z ∧ u.takeRlyAck n p = z.relayFail p.tag.toNat t w 1) ∧
    (bit p.detail.toNat 22 = false → ∀ y, SMap.find s.stalls i = some y → y.role = .req →
      ∃ z, s.Drifts relayRegs z ∧ u.takeRlyAck n p = z.relayDone p.tag.toNat t w true) := by
  have hz := d.ev (k := 0x9E) (by decide) (pktAttr n p)
  have hfz : SMap.find (u.ev 0x9E (pktAttr n p)).stalls p.tag.toNat = some t := by rw [hz.stalls, hf]
  -- By the model's own case distinction, which `Wait.asked` unfolds to.
  have hhit := congrArg (Option.map (fun w => (t, w))) hw
  unfold State.takeRlyAck
  generalize u.ev 0x9E (pktAttr n p) = z at hz hfz ⊢
  rw [if_neg (by simp [hz.chk, hchk]), State.reading_intact (hz.faults.trans hfa)]
  dsimp only
  rw [hfz]
  dsimp only
  split
  · next hnone =>
    rw [hrole] at hnone
    dsimp only at hnone
    rw [if_pos hline] at hnone
    cases hhit.symm.trans hnone
  · next t' w' hsome =>
    rw [hrole] at hsome
    dsimp only at hsome
    rw [if_pos hline] at hsome
    cases hhit.symm.trans hsome
    refine ⟨fun hbit => ⟨z, hz, if_pos hbit⟩, fun hbit y hy hreq => ?_⟩
    rw [if_neg (by simp [hbit]), hrole]
    dsimp only
    have hz := hz.mono perfRegs_subset_relayRegs eventRegs_relayRegs
    have hviol : s.Drifts relayRegs (if bit p.detail.toNat 20 = true then z.note 0 2 0 2 p.world p.line p.tag p.src p.opcode else z) := by
      split
      · exact hz.note blotStatus_mem_relayRegs ..
      · exact hz
    generalize (if bit p.detail.toNat 20 = true then z.note 0 2 0 2 p.world p.line p.tag p.src p.opcode else z) = v at hviol ⊢
    have hfail : s.Drifts relayRegs (if bit p.detail.toNat 21 = true then
        (v.setFlag R.GLB_RCVSTAT 21 true).note 0 5 4 2 p.world p.line p.tag p.src p.opcode else v) := by
      split
      · exact (hviol.setFlag List.mem_cons_self 21 true).note blotStatus_mem_relayRegs ..
      · exact hviol
    generalize (if bit p.detail.toNat 21 = true then
        (v.setFlag R.GLB_RCVSTAT 21 true).note 0 5 4 2 p.world p.line p.tag p.src p.opcode else v) = x at hfail ⊢
    refine ⟨x, hfail, ?_⟩
    rw [hfail.stalls, hy, Option.any_some, hreq]
    rfl

/-- An earlier relay's answer ends its own wait (R108). -/
theorem State.relayDone_more (hf : SMap.find z.stalls ri = some t) (hrole : t.role = .relay i) (hmore : t.waits.erase w ≠ []) :
    z.relayDone ri t w true = z.withStall ri { t with waits := t.waits.erase w } := by
  have hopen : (t.waits.erase w).isEmpty = false := List.isEmpty_eq_false_iff.2 hmore
  simp only [State.relayDone, hrole, if_true, State.updStall_of_find hf, State.relayStep, State.find_withStall, hopen, Bool.false_and,
    Bool.false_eq_true, if_false]

/-- The last relay's answer closes the relay stall; the parent goes on, here to wait for its other answers (R108). -/
theorem State.relayDone_last (hwf : SMap.wf z.stalls = true) (hchk : z.chk = false) (hf : SMap.find z.stalls ri = some t)
    (hrole : t.role = .relay i) (hlast : t.waits.erase w = []) (hne : i ≠ ri) (hy : SMap.find z.stalls i = some y) (hreq : y.role = .req)
    (hwaits : y.waits ≠ []) : ∃ c m tk, z.relayDone ri t w true = { z with stalls := m, tickets := tk } ∧ SMap.find m ri = none ∧
      SMap.find m i = some { y with relay := none, code := c } := by
  have hgo : z.relayDone ri t w true = (((z.withStall ri { t with waits := [] }).freeStall ri).updStall i
      (fun x => { x with relay := none })).step1 i := by
    have hrun : ∀ x, (z.withStall ri x).chk = false := fun _ => hchk
    simp only [State.relayDone, hrole, if_true, State.updStall_of_find hf, State.relayStep, State.find_withStall, hlast, List.isEmpty_nil, hrun,
      Bool.not_false, Bool.and_self]
  have hput : SMap.risesFrom 0 (SMap.put z.stalls ri { t with waits := [] }) = true := SMap.risesFrom_put (Nat.zero_le ri) hwf
  obtain ⟨v, tk, hv, hfree⟩ : ∃ v tk, v = { z with stalls := SMap.del (SMap.put z.stalls ri { t with waits := [] }) ri, tickets := tk } ∧
      (z.withStall ri { t with waits := [] }).freeStall ri = v := ⟨_, _, rfl, State.freeStall_eq ..⟩
  have hvs : v.stalls = SMap.del (SMap.put z.stalls ri { t with waits := [] }) ri := by rw [hv]
  have hvy : SMap.find v.stalls i = some y := by rw [hvs, SMap.find_del_ne hput hne, SMap.find_put_ne _ _ hne, hy]
  have hvchk : v.chk = false := by rw [hv]; exact hchk
  obtain ⟨c, hadv⟩ := State.advance_waiting (v := v) (i := i) (y := { y with relay := none }) hvchk hwaits
  have hstep : (v.withStall i { y with relay := none }).step1 i = (v.withStall i { y with relay := none }).advance i := by
    simp only [State.step1, State.find_withStall, hreq]
  refine ⟨c, SMap.put v.stalls i { y with relay := none, code := c }, tk, ?_, ?_, SMap.find_put_self ..⟩
  · rw [hgo, hfree, State.updStall_of_find hvy, hstep, hadv, hv]
    rfl
  · rw [SMap.find_put_ne _ _ (Ne.symm hne), hvs, SMap.find_del_self hput]

/-- An answer that no stall awaits is counted and recorded (R253). -/
theorem State.Drifts.takeRlyAck_stray (d : s.Drifts perfRegs u) (hfa : s.faults = []) (hchk : s.chk = false)
    (hf : SMap.find s.stalls p.tag.toNat = none) (n : Nat) : s.Drifts strayRegs (u.takeRlyAck n p) := by
  have hz := d.ev (k := 0x9E) (by decide) (pktAttr n p)
  have hfz : SMap.find (u.ev 0x9E (pktAttr n p)).stalls p.tag.toNat = none := by rw [hz.stalls, hf]
  have hgo : u.takeRlyAck n p = (u.ev 0x9E (pktAttr n p)).unmatched p := by
    unfold State.takeRlyAck
    rw [if_neg (by simp [hz.chk, hchk]), State.reading_intact (hz.faults.trans hfa)]
    dsimp only
    rw [hfz]
  rw [hgo]
  exact (hz.mono perfRegs_subset_strayRegs eventRegs_strayRegs).unmatched p

end

end Sys2Proof.Machine
end

section
/-! Acknowledgements: of a requester, which closes its stall, and of a relay. -/

-- As in the tests: the compile of the one text stays within the threads of the sandbox.
set_option Elab.async false

namespace Sys2Proof.Machine

section
variable {s v u z : State} {as : List RegAddr} {n : Fin 4} {x : InItem} {i k : Nat} {t y : Stall} {w : Wait} {e : DirEntry} {p : Packet}

/-! ### A requester's acknowledgement -/

/-- A stall that waits for its requester's acknowledgement alone (R84). -/
structure Stall.AwaitsAck (t : Stall) : Prop where
  waits : t.waits = []
  relay : t.relay = none
  evict : t.evict = none
  wbWait : t.wbWait = none
  recorded : t.recorded = true
  final : t.final = true
  acks : t.req.acks = true

theorem Stall.AwaitsAck.canClose (h : t.AwaitsAck) (hack : t.ackGot = true) (hc : v.awaitsCommit i = false) : v.canClose i t = true := by
  simp [State.canClose, h.waits, h.relay, h.evict, h.wbWait, h.recorded, h.final, hack, hc, Req.cpSyncWaits_of_acks h.acks]

/-- A forward that has been recorded leaves its stall with the requester's acknowledgement alone (R79, R85). -/
theorem Stall.Ends.forwarded (h : t.Ends) (ha : t.req.acks = true) (now : Tod) : (t.forwarded now).AwaitsAck :=
  ⟨h.waits, h.relay, h.evict, h.wbWait, rfl, rfl, ha⟩

theorem State.Drifts.withStall (d : s.Drifts as u) (i : Nat) (t : Stall) : (s.withStall i t).Drifts as (u.withStall i t) :=
  ⟨d.lists, d.base, d.canonical, d.regs, by
    conv_lhs => rw [d.rest]
    rfl⟩

/-- In the forward window the acknowledgement stands for the forward of a line held in X, which is recorded (R324). -/
theorem State.HeldX.asForward (x : v.HeldX t.h k e w.who) (d : v.Drifts perfRegs u) (hfa : v.faults = []) (hchk : v.chk = false)
    (hf : SMap.find v.stalls i = some t) (hends : Stall.Ends { t with waits := [] }) (hw : t.waits = [w]) (hh : w.holder = true)
    (habs : t.absorbed = none) (hwop : w.op = Op.snpUnique) (hop : t.req.op = Op.rdUnique) (hq : t.req.q ≠ w.who)
    (hcommit : v.awaitsCommit i = false) : ∃ z, v.Drifts perfRegs z ∧ u.asForward i w =
      (({ z with dirs := SMap.put (SMap.del v.dirs k) k (v.claimEntry t.h t.req.q) } : State).withStall i
        ((t.answeredBy w .fwdI v.tod).forwarded v.tod)).closeReq i := by
  have hz := d.ev (k := 0xA3) (by decide) { i := some w.who.toNat }
  have hfz : SMap.find (u.ev 0xA3 { i := some w.who.toNat }).stalls i = some t := by rw [hz.stalls, hf]
  have hgo : u.asForward i w = (u.ev 0xA3 { i := some w.who.toNat }).settleAnswer i w .fwdI := by rw [State.asForward, if_pos hwop]
  refine ⟨_, hz, ?_⟩
  rw [hgo, State.settleAnswer_request hfz hends.role hh habs, ← hz.tod]
  exact State.advance_forwarded (hends.answeredBy hw (by decide) _) rfl (hz.chk.trans hchk) ((hz.awaitsCommit i).trans hcommit)
    (by rw [show (t.answeredBy w .fwdI _).req.op = Op.rdUnique from hop]; rfl)
    (fun m => State.HeldX.displaces_fwd (t := t.answeredBy w .fwdI _) (x.of_drifts hz m) hq)
    (fun m => State.HeldX.records_fwdI (t := t.answeredBy w .fwdI _) x hz hfa hchk hop m)

theorem State.wf_stalls_of_calm (h : s.calm) : SMap.wf s.stalls = true := by
  obtain ⟨-, -, hwf, -⟩ := h
  exact hwf

/-- A requester's acknowledgement for which a stall waits alone closes the stall (R84). -/
theorem State.cmpAck_closes (hcalm : s.calm) (hx : s.arrival n (fun o => o == Op.cmpAck) = some x)
    (hi : s.ackStall x.p.src x.p.tag = some i) (hf : SMap.find s.stalls i = some t) (ht : t.AwaitsAck) (hink : t.ink = none)
    (hcp : t.req.cp = none) (hcommit : s.awaitsCommit i = false) (hp : s.rcv.purge = []) :
    does (.cmpAck n) s (fun u => SMap.find u.stalls i = none ∧ (∀ j, j ≠ i → SMap.find u.stalls j = SMap.find s.stalls j) ∧
      u.dirs = s.dirs ∧ u.ink = s.ink ∧ s.regsKept u perfRegs) := by
  obtain ⟨hcanon, -, hwf, -, -, -, -, -, -, -, -, hfa, hchk⟩ := hcalm
  obtain ⟨hrole, -, -, -⟩ := State.ackStall_named hwf hi hf
  obtain ⟨u, hu, hgo⟩ := State.onArrival_found hcanon hx (fun t p => t.takeAck n p)
  obtain ⟨z, hz, hclose, -⟩ := hu.takeAck hfa hchk hi hf n
  have hy : Stall.AwaitsAck { t with ackGot := true } :=
    ⟨ht.waits, ht.relay, ht.evict, ht.wbWait, ht.recorded, ht.final, ht.acks⟩
  obtain ⟨m, ink, tk, hdone, hm, hinkOf⟩ := State.closeReq_closes (v := z) (hz.stalls ▸ hwf)
    (hy.canClose rfl ((hz.awaitsCommit i).trans hcommit)) hcp hrole (hz.rcv ▸ hp)
  refine ⟨_, rfl, ?_⟩
  rw [hgo, hclose (by simp [ht.waits]), hdone]
  exact ⟨hm.gone, fun j hj => (hm.others j hj).trans (by rw [hz.stalls]), hz.dirs, (hinkOf hink).trans hz.ink, hz.regs⟩

/-- While a stall waits for an answer, its requester's acknowledgement is kept (R84). -/
theorem State.cmpAck_kept (hcalm : s.calm) (hx : s.arrival n (fun o => o == Op.cmpAck) = some x)
    (hi : s.ackStall x.p.src x.p.tag = some i) (hf : SMap.find s.stalls i = some t) (hw : t.waits ≠ [])
    (hasked : t.waits.all (fun w => !w.holder || w.asked) = true) :
    does (.cmpAck n) s (fun u => (∃ y, SMap.find u.stalls i = some y ∧ y.ackGot = true ∧ y.waits = t.waits ∧ y.req = t.req ∧
        y.final = t.final) ∧
      (∀ j, j ≠ i → SMap.find u.stalls j = SMap.find s.stalls j) ∧ u.dirs = s.dirs ∧ u.ink = s.ink ∧ s.regsKept u perfRegs) := by
  obtain ⟨hcanon, -, -, -, -, -, -, -, -, -, -, hfa, hchk⟩ := hcalm
  obtain ⟨u, hu, hgo⟩ := State.onArrival_found hcanon hx (fun t p => t.takeAck n p)
  obtain ⟨z, hz, hkeep, -⟩ := hu.takeAck hfa hchk hi hf n
  obtain ⟨c, hc⟩ := State.closeReq_waiting (v := z) (i := i) (y := { t with ackGot := true }) hw
  refine ⟨_, rfl, ?_⟩
  rw [hgo, hkeep hasked, hc]
  exact ⟨⟨_, State.find_withStall, rfl, rfl, rfl, rfl⟩, fun j hj => (SMap.find_put_ne _ _ hj).trans (by rw [hz.stalls]), hz.dirs, hz.ink,
    hz.regs⟩

/-- In the forward window of the last snoop of `RdUnique` the acknowledgement completes the forward and closes the stall (R324). -/
theorem State.cmpAck_forwards {tt : Tod} (hcalm : s.calm) (hx : s.arrival n (fun o => o == Op.cmpAck) = some x)
    (hi : s.ackStall x.p.src x.p.tag = some i) (hf : SMap.find s.stalls i = some t) (hends : Stall.Ends { t with waits := [] })
    (hw : t.waits = [w]) (hh : w.holder = true) (hst : w.st = .window tt) (habs : t.absorbed = none) (hwop : w.op = Op.snpUnique)
    (hop : t.req.op = Op.rdUnique) (hcp : t.req.cp = none) (hcommit : s.awaitsCommit i = false) (hp : s.rcv.purge = [])
    (held : s.HeldX t.h k e w.who) (hq : t.req.q ≠ w.who) :
    does (.cmpAck n) s (fun u => SMap.find u.stalls i = none ∧ SMap.find u.dirs k = some (s.claimEntry t.h t.req.q) ∧
      s.regsKept u perfRegs) := by
  obtain ⟨hcanon, -, hwf, -, -, -, -, -, -, -, -, hfa, hchk⟩ := hcalm
  obtain ⟨-, hacks, -, -⟩ := State.ackStall_named hwf hi hf
  obtain ⟨u, hu, hgo⟩ := State.onArrival_found hcanon hx (fun t p => t.takeAck n p)
  obtain ⟨z, hz, -, hforward⟩ := hu.takeAck hfa hchk hi hf n
  have held' : (s.withStall i { t with ackGot := true }).HeldX t.h k e w.who := ⟨held.hits, held.find, held.st, held.sh⟩
  have hends' : Stall.Ends { { t with ackGot := true } with waits := [] } :=
    ⟨hends.role, hends.code, rfl, hends.relay, hends.evict, hends.hold, hends.wbWait, hends.ready, hends.final, hends.displ⟩
  obtain ⟨b, hb, hclose⟩ := State.HeldX.asForward (t := { t with ackGot := true }) held' (hz.withStall i _) hfa hchk State.find_withStall
    hends' hw hh habs hwop hop hq hcommit
  have hy := (hends'.answeredBy (a := .fwdI) hw (by decide) s.tod).forwarded hacks s.tod
  have hwfb : SMap.wf b.stalls = true := by
    rw [hb.stalls]
    exact SMap.risesFrom_put (Nat.zero_le i) hwf
  have hpb : b.rcv.purge = [] := by rw [hb.rcv]; exact hp
  obtain ⟨m, ink, tk, hdone, hm, -⟩ := State.closeReq_closes
    (v := { b with dirs := SMap.put (SMap.del s.dirs k) k (s.claimEntry t.h t.req.q) }) (i := i) hwfb
    (hy.canClose rfl ((hb.awaitsCommit i).trans hcommit)) hcp hends.role hpb
  refine ⟨_, rfl, ?_⟩
  rw [hgo, hforward w tt hw hh hst, hclose]
  exact hdone ▸ ⟨hm.gone, SMap.find_put_self _ _ _, hb.regs⟩

/-- An acknowledgement that names no stall changes none (R495). -/
theorem State.cmpAck_stray (hcalm : s.calm) (hx : s.arrival n (fun o => o == Op.cmpAck) = some x)
    (hi : s.ackStall x.p.src x.p.tag = none) : does (.cmpAck n) s (fun u => s.Drifts strayRegs u) := by
  obtain ⟨hcanon, -, -, -, -, -, -, -, -, -, -, hfa, hchk⟩ := hcalm
  obtain ⟨u, hu, hgo⟩ := State.onArrival_found hcanon hx (fun t p => t.takeAck n p)
  have hz := hu.ev (k := 0x9F) (by decide) (pktAttr n x.p)
  have hiz : (u.ev 0x9F (pktAttr n x.p)).ackStall x.p.src x.p.tag = none := by simp only [State.ackStall, hz.stalls]; exact hi
  have htake : u.takeAck n x.p = (u.ev 0x9F (pktAttr n x.p)).unmatched x.p := by
    simp only [State.takeAck, hz.chk, hchk, Bool.false_eq_true, if_false, hiz]
  refine ⟨_, rfl, ?_⟩
  rw [hgo, htake]
  exact (hz.mono perfRegs_subset_strayRegs eventRegs_strayRegs).unmatched x.p

/-! ### A relay's answer -/

/-- A relay's answer arrives from the network, or from the own relay unit, whose queue it leaves (R112). -/
theorem State.rlyAck_arrives {n : Fin 5} (hc : s.canonical = true)
    (hnet : n.val < 4 → (s.arrival n (fun o => o == Op.rlyAck)).map (fun x => x.p) = some p)
    (hown : n.val = 4 → s.ruBack.head?.map (fun x => x.p) = some p) : ∃ r m u, ({ s with ruBack := r } : State).Drifts perfRegs u ∧
      exec (.rlyAck n) s = .next (finish s (u.takeRlyAck m p)) := by
  by_cases h4 : n.val = 4
  · obtain ⟨x, hx, rfl⟩ := Option.map_eq_some_iff.1 (hown h4)
    obtain ⟨r, hr⟩ := List.head?_eq_some_iff.1 hx
    refine ⟨r, 5, { s with ruBack := r }, State.Drifts.refl eventRegs_perfRegs hc, ?_⟩
    simp only [exec, execRlyAck, h4, if_true, hr]
  · obtain ⟨x, hx, rfl⟩ := Option.map_eq_some_iff.1 (hnet (by omega))
    obtain ⟨u, hu, hgo⟩ := State.onArrival_found hc hx (fun t p => t.takeRlyAck n p)
    refine ⟨s.ruBack, n, u, hu, ?_⟩
    simp only [exec, execRlyAck, h4, if_false, hgo]

end

/-- Settles O41: an acknowledgement closes what waits for it alone, and is kept, resent or counted otherwise. -/
theorem acksClose : Obligations.AcksClose := by
  refine ⟨fun s n x i t hcalm hx hi hf => ⟨?_, ?_, ?_⟩, fun s n x hcalm hx hi => ?_, ?_, ?_⟩
  · intro hw hrelay hev hwb hrec hfin hink hcp hcommit hp
    obtain ⟨-, hacks, -, -⟩ := State.ackStall_named (State.wf_stalls_of_calm hcalm) hi hf
    exact State.cmpAck_closes hcalm hx hi hf ⟨hw, hrelay, hev, hwb, hrec, hfin, hacks⟩ hink hcp hcommit hp
  · exact State.cmpAck_kept hcalm hx hi hf
  · intro w tt k e hw hh hst hwop hop hrelay hev hwb hhold habs hfin hready hdis hcode hcp hcommit hp hits hfind hest hsh hq
    obtain ⟨hrole, -, -, -⟩ := State.ackStall_named (State.wf_stalls_of_calm hcalm) hi hf
    exact State.cmpAck_forwards hcalm hx hi hf ⟨hrole, hcode, rfl, hrelay, hev, hhold, hwb, hready, hfin, hdis⟩ hw hh hst habs hwop hop hcp
      hcommit hp ⟨hits, hfind, hest, hsh⟩ hq
  · obtain ⟨u, hgo, hu⟩ := State.cmpAck_stray hcalm hx hi
    exact ⟨u, hgo, hu.stalls, hu.dirs, hu.ink, hu.regs⟩
  · rintro s n p ri i t w ⟨hcanon, -, hwf, -, -, -, -, -, -, -, -, hfa, hchk⟩ hnet hown rfl hf hrole hline hw
    obtain ⟨r, m, u, hu, hgo⟩ := State.rlyAck_arrives hcanon hnet hown
    obtain ⟨hfail, hdone⟩ := hu.takeRlyAck hfa hchk hf hrole hline hw m
    refine ⟨fun hbit hlast y hne hy hreq hrel hwaits => ?_, fun hbit hmore y hne hy hreq => ?_, fun hbit hone hleft => ?_⟩
    · obtain ⟨z, hz, htake⟩ := hdone hbit y hy hreq
      obtain ⟨c, l, tk, hclose, hgone, hparent⟩ := State.relayDone_last (z := z) (hz.stalls ▸ hwf) (hz.chk.trans hchk)
        (hz.stalls ▸ hf) hrole hlast hne (hz.stalls ▸ hy) hreq hwaits
      refine ⟨_, hgo, ?_⟩
      rw [htake, hclose]
      exact ⟨hgone, ⟨_, hparent, rfl, rfl, rfl, rfl⟩, hz.dirs, hz.ink, hz.regs⟩
    · obtain ⟨z, hz, htake⟩ := hdone hbit y hy hreq
      refine ⟨_, hgo, ?_⟩
      rw [htake, State.relayDone_more (hz.stalls ▸ hf) hrole hmore]
      exact ⟨State.find_withStall, (SMap.find_put_ne _ _ hne).trans (hz.stalls ▸ hy), hz.dirs, hz.ink, hz.regs⟩
    · obtain ⟨z, hz, htake⟩ := hfail hbit
      have hz' := hz.mono (List.subset_cons_self R.BLOT_STATUS _) eventRegs_recordRegs
      obtain ⟨hflag, hdirs, hwait⟩ := State.relayFail_resends hz.canonical (hz.faults.trans hfa) (hz.stalls ▸ hf) hone
        (hleft.trans_eq hz'.resendLimit.symm) 1
      refine ⟨_, hgo, ?_⟩
      rw [htake]
      exact ⟨hflag, hdirs.trans hz.dirs, hwait⟩
  · rintro s n p ⟨hcanon, -, -, -, -, -, -, -, -, -, -, hfa, hchk⟩ hnet hown hf
    obtain ⟨r, m, u, hu, hgo⟩ := State.rlyAck_arrives hcanon hnet hown
    have hz := hu.takeRlyAck_stray hfa hchk hf m
    exact ⟨_, hgo, hz.stalls, hz.dirs, hz.ink, hz.regs⟩

end Sys2Proof.Machine
end

section
/-! SUPPORT. An agent that becomes SUSPECT: the fence entry that it takes, and what else changes (R320, R322). -/

-- As in the tests: the compile of the one text stays within the threads of the sandbox.
set_option Elab.async false

namespace Sys2Proof.Machine

section
variable {s u z : State} {j k trig : Nat} {who : EpId}

/-- The registers that an agent's fencing may change with fence entry `k` (R322). -/
def fenceRegs (k : Nat) : List RegAddr := fenceReg k :: relayRegs

theorem eventRegs_fenceRegs (hk : k < 16) : EventRegs (fenceRegs k) := by
  have hne : (0x440 + 8 * k) / 8 ≠ 0x500 / 8 := by omega
  exact eventRegs_relayRegs.cons hne

theorem quietReg_fenceReg (hk : k < 16) : quietReg (fenceReg k) := by
  have : quietReg (0x440 + 8 * k) := by omega
  exact this

theorem fenceReg_div_ne (h : j ≠ k) : fenceReg j / 8 ≠ fenceReg k / 8 := by
  have : (0x440 + 8 * j) / 8 ≠ (0x440 + 8 * k) / 8 := by omega
  exact this

/-- Fence entries are no registers of a record, nor of GLB.RCVSTAT. -/
theorem State.Drifts.reg_fenceReg (d : s.Drifts relayRegs u) (hk : k < 16) : u.reg (fenceReg k) = s.reg (fenceReg k) := by
  have hstat : R.GLB_RCVSTAT / 8 ≠ fenceReg k / 8 := by
    have : 0x408 / 8 ≠ (0x440 + 8 * k) / 8 := by omega
    exact this
  have hblot : R.BLOT_STATUS / 8 ≠ fenceReg k / 8 := fun he => by
    have : ¬ 0x18008 / 8 = (0x440 + 8 * k) / 8 := by omega
    exact this he
  exact d.reg (List.forall_mem_cons.2 ⟨hstat, List.forall_mem_cons.2 ⟨hblot, fun _ ha he =>
    quietReg_fenceReg hk (he ▸ answerSlot_of_mem (perfRegs_subset_answerRegs ha))⟩⟩)

theorem State.Drifts.fenceIdx (d : s.Drifts relayRegs u) (who : EpId) : u.fenceIdx who = s.fenceIdx who :=
  List.find?_congr fun j hj => by
    simp only [State.fld]
    rw [show u.reg (R.GLB_FENCE + 8 * j) = s.reg (R.GLB_FENCE + 8 * j) from d.reg_fenceReg (List.mem_range.1 hj)]

theorem State.Drifts.fenceFree (d : s.Drifts relayRegs u) : u.fenceFree = s.fenceFree :=
  List.find?_congr fun j hj => by simp only [State.fld, d.reg_fenceReg (List.mem_range.1 hj)]

/-- The fence entry of a new SUSPECT (R320, R340). -/
def suspectWord (who : EpId) (trig : Nat) : Word := BitVec.ofNat 64 (who.toNat + 1 * 2 ^ 18 + trig * 2 ^ 22 + 2 ^ 25)

theorem getBits_suspectWord (who : EpId) (trig : Nat) :
    getBits (suspectWord who trig) 0 18 = who.toNat ∧ getBits (suspectWord who trig) 18 2 = 1 := by
  have := who.isLt
  simp only [getBits, suspectWord, BitVec.toNat_ofNat]
  omega

/-- A state with an ID made SUSPECT in fence entry `k`: the entry and the ID's flush request aside, it is `s` after records (R322). -/
structure State.Suspects (s : State) (who : EpId) (k : Nat) (u : State) : Prop where
  drift : ∃ z r x, s.Drifts (fenceRegs k) z ∧ u = { z with rcv := r, rcvTx := x }
  purge : u.rcv.purge = s.rcv.purge
  idx : k < 16
  id : u.fld (fenceReg k) 0 18 = who.toNat
  suspect : u.fld (fenceReg k) 18 2 = 1
  others : ∀ j, j < 16 → j ≠ k → u.reg (fenceReg j) = s.reg (fenceReg j)

/-- The flush request of a new SUSPECT is queued, or raised at once (R322). -/
theorem State.flushPump_eq (hf : s.faults = []) : ∃ r x, s.flushPump = { s with rcv := r, rcvTx := x } ∧ r.purge = s.rcv.purge := by
  unfold State.flushPump
  split
  · split
    · exact ⟨s.rcv, s.rcvTx, rfl, rfl⟩
    · rw [State.readAll_intact hf]
      exact ⟨_, _, rfl, rfl⟩
  · exact ⟨s.rcv, s.rcvTx, rfl, rfl⟩

/-- A fence entry that takes a new state is flagged, recorded and noticed (R327). -/
theorem State.Drifts.fenceMoved {as : List RegAddr} (d : s.Drifts as u) (hs : relayRegs ⊆ as) {st : Nat} (hst : st ≠ 0) (k : Nat)
    (who : EpId) : s.Drifts as (u.fenceMoved k st who) := by
  have hmem : R.GLB_RCVSTAT ∈ as ∧ R.BLOT_STATUS ∈ as := ⟨hs List.mem_cons_self, hs blotStatus_mem_relayRegs⟩
  simp only [State.fenceMoved, hst, if_false]
  exact ((d.setFlag hmem.1 _ true).note hmem.2 ..).notice ..

/-- An agent without a fence entry becomes SUSPECT in the lowest FREE one (R320, R322). -/
theorem State.Drifts.suspect (d : s.Drifts relayRegs u) (hfa : s.faults = []) (hidx : s.fenceIdx who = none) (hfree : s.fenceFree = some k)
    (trig : Nat) : s.Suspects who k (u.suspect who trig) := by
  have hk : k < 16 := List.mem_range.1 (List.mem_of_find?_eq_some hfree)
  obtain ⟨hid, hst⟩ := getBits_suspectWord who trig
  obtain ⟨b, hb⟩ : ∃ b, b = u.setReg (fenceReg k) (suspectWord who trig) := ⟨_, rfl⟩
  have hset : s.Drifts (fenceRegs k) b :=
    hb ▸ (d.mono (List.subset_cons_self (fenceReg k) _) (eventRegs_fenceRegs hk)).setReg List.mem_cons_self _
  have hself : b.reg (fenceReg k) = suspectWord who trig := hb ▸ State.reg_setReg_self d.canonical _ _
  have hne : ∀ j, j < 16 → j ≠ k → b.reg (fenceReg j) = s.reg (fenceReg j) := fun j hj hjk =>
    hb ▸ (State.reg_setReg_ne d.canonical (fenceReg_div_ne hjk) _).trans (d.reg_fenceReg hj)
  have hz := hset.fenceMoved (List.subset_cons_self _ _) one_ne_zero k who
  have hmoved := (State.Drifts.refl eventRegs_relayRegs hset.canonical).fenceMoved (fun _ h => h) one_ne_zero k who
  have hgo : u.suspect who trig = ({ b.fenceMoved k 1 who with
      rcv := { (b.fenceMoved k 1 who).rcv with asks := (b.fenceMoved k 1 who).rcv.asks ++ [who] } } : State).flushPump := by
    simp only [State.suspect, d.fenceIdx, hidx, d.fenceFree, hfree, hb]
    rfl
  generalize b.fenceMoved k 1 who = z at hz hmoved hgo
  obtain ⟨r, x, hpump, hpurge⟩ := State.flushPump_eq (s := { z with rcv := { z.rcv with asks := z.rcv.asks ++ [who] } })
    (hz.faults.trans hfa)
  rw [hgo, hpump]
  have hreg : z.reg (fenceReg k) = suspectWord who trig := (hmoved.reg_fenceReg hk).trans hself
  exact ⟨⟨z, r, x, hz, rfl⟩, hpurge.trans (show z.rcv.purge = s.rcv.purge by rw [hz.rcv]), hk, (congrArg (getBits · 0 18) hreg).trans hid,
    (congrArg (getBits · 18 2) hreg).trans hst, fun j hj hjk => (hmoved.reg_fenceReg hj).trans (hne j hj hjk)⟩

theorem State.Suspects.chk (x : s.Suspects who k u) : u.chk = s.chk := by
  obtain ⟨z, r, t, hz, rfl⟩ := x.drift
  exact hz.chk

theorem State.Suspects.stalls (x : s.Suspects who k u) : u.stalls = s.stalls := by
  obtain ⟨z, r, t, hz, rfl⟩ := x.drift
  exact hz.stalls

theorem State.Suspects.dirs (x : s.Suspects who k u) : u.dirs = s.dirs := by
  obtain ⟨z, r, t, hz, rfl⟩ := x.drift
  exact hz.dirs

theorem State.Suspects.tod (x : s.Suspects who k u) : u.tod = s.tod := by
  obtain ⟨z, r, t, hz, rfl⟩ := x.drift
  exact hz.tod

theorem State.Suspects.regs (x : s.Suspects who k u) : s.regsKept u (fenceRegs k) := by
  obtain ⟨z, r, t, hz, rfl⟩ := x.drift
  exact hz.regs

theorem State.Suspects.awaitsCommit (x : s.Suspects who k u) (i : Nat) : u.awaitsCommit i = s.awaitsCommit i := by
  obtain ⟨z, r, t, hz, rfl⟩ := x.drift
  exact hz.awaitsCommit i

/-- An ID made SUSPECT is SUSPECT: its entry is the only one with its ID (R320). -/
theorem State.Suspects.fence (x : s.Suspects who k u) (hidx : s.fenceIdx who = none) : u.fence who = 1 := by
  have hfound : (u.fenceIdx who).isSome = true := List.find?_isSome.2 ⟨k, List.mem_range.2 x.idx, by
    have hid := x.id
    have hst := x.suspect
    simp only [fenceReg] at hid hst
    simp [hid, hst]⟩
  obtain ⟨j, hj⟩ := Option.isSome_iff_exists.1 hfound
  have hlt : j < 16 := List.mem_range.1 (List.mem_of_find?_eq_some hj)
  have hjk : j = k := by
    by_contra hne
    refine List.find?_eq_none.1 hidx j (List.mem_range.2 hlt) ?_
    have hp := List.find?_some hj
    simp only [State.fld] at hp ⊢
    rwa [show u.reg (R.GLB_FENCE + 8 * j) = s.reg (R.GLB_FENCE + 8 * j) from x.others j hlt hne] at hp
  have hst := x.suspect
  simp only [State.fence, hj, hjk]
  exact hst

end

end Sys2Proof.Machine
end

section
/-! SUPPORT. A snoop sent again: routes do not depend on the registers of global control, and the snoop's wait stays with its agent
(R242, R319). -/

-- As in the tests: the compile of the one text stays within the threads of the sandbox.
set_option Elab.async false

namespace Sys2Proof.Machine

section
variable {s v u z : State} {i j k n : Nat} {t : Stall} {w a : Wait} {who q : EpId} {op : BitVec 6}

/-! ### Routes -/

/-- Two states whose registers differ in the page of global control alone. -/
structure State.SameUnits (s u : State) : Prop where
  base : s.canonical = true
  canonical : u.canonical = true
  faults : u.faults = s.faults
  reg : ∀ b, 0x1000 ≤ b → u.reg b = s.reg b

theorem State.SameUnits.toPhys (x : s.SameUnits u) (d : EpId) : u.toPhys d = s.toPhys d := by
  have hcam : u.win.filter (fun e => decide (0x6000 ≤ e.1 ∧ e.1 < 0x6400)) = s.win.filter (fun e => decide (0x6000 ≤ e.1 ∧ e.1 < 0x6400)) :=
    SMap.filter_congr ((State.canonical_iff u).1 x.canonical).1 ((State.canonical_iff s).1 x.base).1
      (fun k => decide (0x6000 ≤ k ∧ k < 0x6400)) fun k hk => by
        have hk : 0x6000 ≤ k ∧ k < 0x6400 := of_decide_eq_true hk
        exact State.find_win_of_reg x.canonical x.base (x.reg (8 * k) (by omega))
  have hpre : ∀ (z : State) (p : Word → Bool), z.camFind p =
      ((z.win.filter (fun e => decide (0x6000 ≤ e.1 ∧ e.1 < 0x6400))).find? (fun e => bit e.2.toNat 36 && p e.2)).map
        (fun e => (e.1 - 0x6000, e.2)) := fun z p => by
    simp [State.camFind, List.find?_filter, Bool.and_assoc]
  simp only [State.toPhys, hpre, hcam]

theorem State.SameUnits.routeEntry (x : s.SameUnits u) {b : Nat} (hb : 0x1000 ≤ b) : u.routeEntry b = s.routeEntry b := by
  simp only [State.routeEntry, x.reg b hb, x.faults]

/-- A route lookup reads the registers of the ports and of the tables (R242). -/
theorem State.SameUnits.route (x : s.SameUnits u) (d : EpId) : u.route d = s.route d := by
  have hepoch : u.fld R.RTE_EPOCHCTL 0 1 = s.fld R.RTE_EPOCHCTL 0 1 := by simp only [State.fld, x.reg R.RTE_EPOCHCTL (by decide)]
  have hentry : ∀ n e l, u.routeEntry (routeAddr n e l) = s.routeEntry (routeAddr n e l) ∧
      u.routeEntry (routeAddr n e l + 0x1000) = s.routeEntry (routeAddr n e l + 0x1000) := fun n e l =>
    ⟨x.routeEntry (by unfold routeAddr; omega), x.routeEntry (by unfold routeAddr; omega)⟩
  have hbest : u.routeBest d = s.routeBest d := by
    simp only [State.routeBest, hepoch, (hentry _ _ _).1]
    refine List.foldl_ext _ _ _ fun b n hn => ?_
    have hn4 : n ≠ 4 := by have := List.mem_range.1 hn; omega
    have hlink : u.link n = s.link n := by
      simp only [State.link, hn4, if_false, State.fld, x.reg (npBase R.NP_STATUS n) (Nat.le_trans (by decide) (Nat.le_add_right ..))]
    have hopen : u.isOpen n = s.isOpen n := by
      simp only [State.isOpen, State.flag, State.fld, x.reg (npBase R.NP_CTL n) (Nat.le_trans (by decide) (Nat.le_add_right ..))]
    rw [hlink, hopen]
  simp only [State.route, hbest, hepoch, (hentry _ _ _).2]

/-! ### Snoops -/

theorem snpEvent_lt (op : BitVec 6) (fmode : Bool) : snpEvent op fmode < 256 := by
  unfold snpEvent
  split_ifs <;> decide

/-- A snoop's message leaves the waits of every stall as they are, and is posted where a route is found (R243, R319). -/
theorem State.snoopMsg_asks (hc : s.canonical = true) (hfa : s.faults = []) (i : Nat) (t : Stall) (who : EpId) (op : BitVec 6)
    (fmode : Bool) : s.Spares (s.snoopMsg i t who op fmode).1 ∧ (∀ j, (s.snoopMsg i t who op fmode).1.aims j = s.aims j) ∧
      (s.reaches who → (s.snoopMsg i t who op fmode).2 = true ∧ s.posts (s.snoopMsg i t who op fmode).1 who op (BitVec.ofNat 12 i)) := by
  have hev : ∀ x, s.Drifts perfRegs (s.ev (snpEvent op fmode) x) := (State.Drifts.refl eventRegs_perfRegs hc).ev (snpEvent_lt op fmode)
  unfold State.snoopMsg
  extract_lets det m x first
  have hS := ((hev x).tracks perfRegs_subset_answerRegs).sends
  have haims : ∀ j, (s.ev (snpEvent op fmode) x).aims j = s.aims j := State.aims_of_stalls (hev x).stalls
  generalize s.ev (snpEvent op fmode) x = z at hS haims ⊢
  obtain ⟨hsent, hroute, hpost⟩ := hS.send hfa m ⟨some i, first, false⟩
  have hsenta := hS.aims_send hfa m ⟨some i, first, false⟩
  split
  · next u he =>
    rw [he] at hsent hsenta hpost
    refine ⟨?_, fun j => ?_, fun h => ⟨rfl, ?_⟩⟩
    · dsimp only
      split
      · exact ⟨hsent.spares.canonical, hsent.spares.dirs, hsent.spares.status⟩
      · exact hsent.spares
    · dsimp only
      split
      · exact (State.aims_updStall (f := fun x => { x with first := true }) (fun _ => rfl) j).trans ((hsenta j).trans (haims j))
      · exact (hsenta j).trans (haims j)
    · obtain ⟨n, y, hwho, hop, htag, hp⟩ := hpost h
      refine ⟨n, y, hwho, hop, htag, ?_⟩
      dsimp only
      split <;> exact hp
  · next u he =>
    rw [he] at hsent hsenta hroute
    have hnote : (u.noRouteNote m).stalls = u.stalls := State.note_stalls ..
    refine ⟨(hsent.noRouteNote m).spares, fun j => ?_, fun h => ?_⟩
    · exact (State.aims_of_stalls hnote j).trans ((hsenta j).trans (haims j))
    · cases hroute.trans h

/-- That a message is flagged and counted as sent again changes no route (R319). -/
theorem State.resent_reaches (hc : s.canonical = true) (l : LineAddr) (hk : k < 256) (h : s.reaches who) :
    ((s.resent l).redo k).reaches who := by
  obtain ⟨-, hd⟩ := (State.Drifts.refl eventRegs_relayRegs hc).resent l hk
  have ht := hd.tracks perfRegs_subset_answerRegs
  have hset : s.SameUnits (s.setFlag R.GLB_RCVSTAT 20 true) := ⟨hc, State.canonical_setReg _ _ hc,
    ((State.Drifts.refl eventRegs_relayRegs hc).setFlag List.mem_cons_self 20 true).faults,
    fun b hb => State.reg_setReg_ne hc (show b / 8 ≠ 0x408 / 8 by omega) _⟩
  rwa [State.reaches, ht.toPhys, ht.route, hset.toPhys, hset.route]

theorem State.setWait_faults {f : Wait → Wait} : (s.setWait i q f).faults = s.faults := rfl

theorem State.setWait_tx {f : Wait → Wait} : (s.setWait i q f).tx = s.tx := rfl

theorem State.posts_of_tx {tag : Tag} (h : v.tx = s.tx) (hp : v.posts u who op tag) : s.posts u who op tag := by
  unfold State.posts at hp ⊢
  rwa [h] at hp

theorem State.setWait_reaches {f : Wait → Wait} (hc : s.canonical = true) (h : s.reaches who) : (s.setWait i q f).reaches who := by
  have hset : s.SameUnits (s.setWait i q f) := ⟨hc, hc, rfl, fun _ _ => rfl⟩
  rwa [State.reaches, hset.toPhys, hset.route]

/-- A snoop that is due is sent again to its agent, and its wait counts the resend (R319). -/
theorem State.resendSnoop_asks (hc : s.canonical = true) (hfa : s.faults = []) (hf : SMap.find s.stalls i = some t) (hw : t.waits = [w])
    (hfence : s.fence w.who = 0) (hleft : w.resends < s.fld R.GLB_RCVCTL 8 2) :
    (s.resendSnoop i t w).flag R.GLB_RCVSTAT 20 = true ∧
    (s.reaches w.who → s.posts (s.resendSnoop i t w) w.who w.op (BitVec.ofNat 12 i)) ∧
    (∃ y w', SMap.find (s.resendSnoop i t w).stalls i = some y ∧ y.waits = [w'] ∧ w'.who = w.who ∧ w'.resends = w.resends + 1) ∧
    (s.resendSnoop i t w).dirs = s.dirs := by
  obtain ⟨hd, -⟩ := (State.Drifts.refl eventRegs_relayRegs hc).resent (s.lineOf t.h) (snpEvent_lt w.op w.fmode)
  have hflag := State.resent_flag hc (s.lineOf t.h) (snpEvent_lt w.op w.fmode)
  have hreach := State.resent_reaches (who := w.who) hc (s.lineOf t.h) (snpEvent_lt w.op w.fmode)
  rw [State.resendSnoop, if_neg (by simp [hfence]), if_pos hleft]
  -- Named: the kernel would else compare register windows by evaluating them.
  generalize (s.resent (s.lineOf t.h)).redo (snpEvent w.op w.fmode) = v at hd hflag hreach ⊢
  dsimp only
  have haims : v.aims i = some [w.aim] := (State.aims_of_stalls hd.stalls i).trans (State.aims_of_find hf hw)
  have hasked := State.aims_setWait (who := w.who) haims rfl fun _ hy => aim_asked hy .queued (w.resends + 1)
  have hspared : v.Spares (v.setWait i w.who fun y => { y with st := .queued, resends := w.resends + 1 }) :=
    (State.Spares.refl hd.canonical).setWait ..
  have hfz : v.faults = [] := hd.faults.trans hfa
  have htx : v.tx = s.tx := (congrArg State.tx hd.rest :)
  obtain ⟨hsent, hsame, hpost⟩ := State.snoopMsg_asks hspared.canonical (State.setWait_faults.trans hfz) i t w.who w.op w.fmode
  have hdone : ∀ u, v.Spares u → u.aims i = some [{ w.aim with resends := w.resends + 1 }] →
      u.flag R.GLB_RCVSTAT 20 = true ∧
      (∃ y w', SMap.find u.stalls i = some y ∧ y.waits = [w'] ∧ w'.who = w.who ∧ w'.resends = w.resends + 1) ∧ u.dirs = s.dirs := fun u hu ha =>
    ⟨by simpa only [State.flag, State.fld, hu.status] using hflag, State.wait_of_aims ha, hu.dirs.trans hd.dirs⟩
  split
  · next u he =>
    rw [he] at hsent hsame hpost
    obtain ⟨hf, hy, hdirs⟩ := hdone u (hspared.trans hsent) ((hsame i).trans hasked)
    refine ⟨hf, fun h => ?_, hy, hdirs⟩
    obtain ⟨-, hp⟩ := hpost (State.setWait_reaches hd.canonical (hreach h))
    exact State.posts_of_tx (State.setWait_tx.trans htx) hp
  · next u he =>
    rw [he] at hsent hsame hpost
    have ha := State.aims_setWait (f := fun y => { y with st := .resend (u.resendAt (w.resends + 1)) }) ((hsame i).trans hasked) rfl
      fun _ hy => hy
    obtain ⟨hf, hy, hdirs⟩ := hdone _ ((hspared.trans hsent).setWait ..) ha
    refine ⟨hf, fun h => ?_, hy, hdirs⟩
    obtain ⟨hno, -⟩ := hpost (State.setWait_reaches hd.canonical (hreach h))
    cases hno

end

end Sys2Proof.Machine
end

section
/-! Timers of snoops, acknowledgements and relays. -/

-- As in the tests: the compile of the one text stays within the threads of the sandbox.
set_option Elab.async false

namespace Sys2Proof.Machine

section
variable {s v u z : State} {i k : Nat} {t : Stall} {w : Wait} {tt : Tod}

/-- A forwarding snoop that times out makes its agent SUSPECT and opens the forward window (R320, R324). -/
theorem State.snoopLate_opens (hc : s.canonical = true) (hfa : s.faults = []) (hchk : s.chk = false) (hf : SMap.find s.stalls i = some t)
    (hw : t.waits = [w]) (hfm : w.fmode = true) (hack : t.ackGot = false) (hidx : s.fenceIdx w.who = none)
    (hfree : s.fenceFree = some k) : ∃ z, s.Suspects w.who k z ∧
      s.snoopLate i t w = z.withStall i { t with waits := [{ w with st := .window s.tod }] } := by
  have hlate := ((((State.Drifts.refl eventRegs_relayRegs hc).ev (k := 0xA0) (by decide)
    { w := some t.req.world, s := some t.req.src, i := some w.who.toNat, l := some (s.lineOf t.h).toNat }).note blotStatus_mem_relayRegs 0 3 0 2
    (s.worldOfH t.h) (s.lineOf t.h) (BitVec.ofNat 12 i) w.who w.op (Config.blotArg (3 * 256 + 0))).addLate i w.who (BitVec.ofNat 12 i)
    (s.lineOf t.h) false).suspect hfa hidx hfree 0
  unfold State.snoopLate
  extract_lets line a z
  have hz : s.Suspects w.who k z := hlate
  -- Named: the kernel would else compare register windows by evaluating them.
  clear_value z
  have hopen : (w.fmode && z.fence w.who == 1) = true := by simp [hfm, hz.fence hidx]
  refine ⟨z, hz, ?_⟩
  rw [if_neg (by simp [hz.chk, hchk]), if_pos hopen, if_neg (by simp [hack]), State.updStall_of_find (hz.stalls ▸ hf), hw, hz.tod]
  simp

/-- A stall whose requester's acknowledgement is missing, with nothing else to wait for, closes without it (R85, R325). -/
theorem State.Suspects.closes {who : EpId} (hz : s.Suspects who k z) (hwf : SMap.wf s.stalls = true)
    (hf : SMap.find s.stalls i = some t) (hrole : t.role = .req) (ht : t.AwaitsAck) (hcp : t.req.cp = none)
    (hcommit : s.awaitsCommit i = false) (hp : s.rcv.purge = []) : ∃ m ink tk,
      (z.updStall i (fun y => { y with ackGot := true })).closeReq i = { z with stalls := m, ink := ink, tickets := tk } ∧
      SMap.find m i = none := by
  have hy : Stall.AwaitsAck { t with ackGot := true } :=
    ⟨ht.waits, ht.relay, ht.evict, ht.wbWait, ht.recorded, ht.final, ht.acks⟩
  obtain ⟨m, ink, tk, hdone, hm, -⟩ := State.closeReq_closes (v := z) (hz.stalls ▸ hwf)
    (hy.canClose rfl ((hz.awaitsCommit i).trans hcommit)) hcp hrole (hz.purge.trans hp)
  exact ⟨m, ink, tk, by rw [State.updStall_of_find (hz.stalls ▸ hf), hdone], hm.gone⟩

/-! ### The timers' commands -/

theorem exec_snoopTimeout {tag : Tag} (hfa : s.faults = []) (hchk : s.chk = false) (htag : tag.toNat < 2048)
    (hf : SMap.find s.stalls tag.toNat = some t) (hw : t.waits = [w]) (hop : w.op ≠ Op.rlyInv) (hst : w.st = .sent tt)
    (hdue : s.snpTmo ≤ elapsed tt s.tod) : exec (.snoopTimeout tag w.who) s = .next (finish s (s.snoopLate tag.toNat t w)) := by
  simp [exec, execSnoopTimeout, Nat.not_le.2 htag, State.reading_intact hfa, hf, hw, hop, hst, hdue, hchk]

theorem exec_cmpackTimeout {i : Fin 2048} (hc : s.canonical = true) (hfa : s.faults = []) (hchk : s.chk = false)
    (hf : SMap.find s.stalls i = some t) (hresp : t.respAt = some tt) (hacks : t.req.acks = true) (hack : t.ackGot = false)
    (hdue : s.snpTmo ≤ elapsed tt s.tod) : ∃ z, s.Drifts relayRegs z ∧ exec (.cmpackTimeout i) s =
      .next (finish s (((z.suspect t.req.q 1).updStall i (fun y => { y with ackGot := true })).closeReq i)) := by
  refine ⟨_, ((State.Drifts.refl eventRegs_relayRegs hc).note blotStatus_mem_relayRegs 0 3 1 2 t.req.world t.req.line t.req.tag t.req.q Op.cmpAck
    (BitVec.ofNat 40 i)).addLate i t.req.q t.req.tag t.req.line true, ?_⟩
  simp [exec, execCmpackTimeout, State.reading_intact hfa, hf, hresp, hacks, hack, hdue, hchk]

theorem exec_rlyinvTimeout {i : Fin 2048} (hc : s.canonical = true) (hfa : s.faults = []) (hchk : s.chk = false)
    (hf : SMap.find s.stalls i = some t) (hw : t.waits = [w]) (hop : w.op = Op.rlyInv) (hst : w.st = .sent tt) (hdue : s.rlyTmo ≤ elapsed tt s.tod) :
    ∃ z, s.Drifts recordRegs z ∧ exec (.rlyinvTimeout i w.who) s = .next (finish s (z.relayFail i t w 0)) := by
  refine ⟨_, ((State.Drifts.refl eventRegs_recordRegs hc).ev (k := 0xAE) (by decide)
    { l := some t.req.line.toNat }).addLate i w.who (BitVec.ofNat 12 i) t.req.line false, ?_⟩
  simp [exec, execRlyinvTimeout, State.reading_intact hfa, hf, hw, hop, hst, hdue, hchk]

theorem exec_resendTimer {i : Fin 2048} (hfa : s.faults = []) (hchk : s.chk = false) (hf : SMap.find s.stalls i = some t)
    (hw : t.waits = [w]) (hop : w.op ≠ Op.rlyInv) (hst : w.st = .resend tt) (hdue : s.due tt = true) :
    exec (.resendTimer i w.who) s = .next (finish s (s.resendSnoop i t w)) := by
  simp [exec, execResendTimer, State.reading_intact hfa, hf, hw, hop, hst, hdue, hchk]

/-- The window of an agent that is still SUSPECT ends with the wait for its flush (R324). -/
theorem exec_fwdWindowExpiry {i : Fin 2048} (hfa : s.faults = []) (hchk : s.chk = false) (hf : SMap.find s.stalls i = some t)
    (hw : t.waits = [w]) (hst : w.st = .window tt) (hdue : s.snpTmo ≤ elapsed tt s.tod) (hh : w.holder = true)
    (hop : w.op ≠ Op.snpInv) (habs : t.absorbed = none) (hfence : s.fence w.who = 1) :
    exec (.fwdWindowExpiry i) s = .next (finish s (s.withStall i { t with waits := [{ w with st := .flush }] })) := by
  have hgo : s.onBehalf i w = s.withStall i { t with waits := [{ w with st := .flush }] } := by
    simp [State.onBehalf, hf, hh, hop, habs, hfence, State.updStall_of_find hf, hw]
  simp [exec, execFwdWindowExpiry, State.reading_intact hfa, hf, hw, hst, hdue, hchk, hgo]

end

/-- Settles O44: each timer by what it sends, opens or closes. -/
theorem timers : Obligations.Timers := by
  refine ⟨?_, ?_, ?_, ?_, ?_⟩
  · rintro s tag t w tt k ⟨hc, -, -, -, -, -, -, -, -, -, -, hfa, hchk⟩ htag hf hw hop hfm hst hdue hidx hfree hack
    obtain ⟨z, hz, hgo⟩ := State.snoopLate_opens hc hfa hchk hf hw hfm hack hidx hfree
    refine ⟨_, exec_snoopTimeout hfa hchk htag hf hw hop hst hdue, ?_⟩
    rw [hgo]
    exact ⟨hz.id, hz.suspect, ⟨_, State.find_withStall, rfl, rfl⟩, hz.dirs, hz.regs⟩
  · rintro s i t tt k ⟨hc, -, hwf, -, -, -, -, -, -, -, -, hfa, hchk⟩ hf hrole hresp hfin hacks hack hdue hidx hfree hw hrelay hev hwb hrec
      hink hcp hcommit hp
    obtain ⟨v, hv, hgo⟩ := exec_cmpackTimeout hc hfa hchk hf hresp hacks hack hdue
    have hz := hv.suspect hfa hidx hfree 1
    obtain ⟨m, ink, tk, hclose, hgone⟩ := hz.closes hwf hf hrole ⟨hw, hrelay, hev, hwb, hrec, hfin, hacks⟩ hcp hcommit hp
    refine ⟨_, hgo, ?_⟩
    rw [hclose]
    exact ⟨hgone, hz.id, hz.suspect, hz.dirs, hz.regs⟩
  · rintro s i t w tt ⟨hc, -, -, -, -, -, -, -, -, -, -, hfa, hchk⟩ hf hw hop hst hdue
    obtain ⟨z, hz, hgo⟩ := exec_rlyinvTimeout hc hfa hchk hf hw hop hst hdue
    refine ⟨fun hleft => ⟨_, hgo, ?_⟩, fun hleft => ⟨_, hgo, ?_⟩⟩
    · obtain ⟨hflag, hdirs, hwait⟩ := State.relayFail_resends hz.canonical (hz.faults.trans hfa) (hz.stalls ▸ hf) hw
        (hleft.trans_eq hz.resendLimit.symm) 0
      exact ⟨hflag, hwait, hdirs.trans hz.dirs⟩
    · obtain ⟨hstop, hcause, hdirs⟩ := State.relayFail_stops (i := i) (t := t) hz.canonical (hz.chk.trans hchk)
        (hz.resendLimit.trans_le hleft) 0
      exact ⟨hstop, hcause, hdirs.trans hz.dirs⟩
  · rintro s i t w tt ⟨hc, -, -, -, -, -, -, -, -, -, -, hfa, hchk⟩ hf hw hop hst hdue hfence hleft
    exact ⟨_, exec_resendTimer hfa hchk hf hw hop hst hdue, State.resendSnoop_asks hc hfa hf hw hfence hleft⟩
  · rintro s i t w tt ⟨-, -, -, -, -, -, -, -, -, -, -, hfa, hchk⟩ hf hw hst hdue hh hop habs hfence
    exact ⟨_, exec_fwdWindowExpiry hfa hchk hf hw hst hdue hh hop habs hfence, ⟨_, State.find_withStall, rfl, rfl⟩, rfl, rfl,
      fun _ _ => rfl⟩

end Sys2Proof.Machine
end

section
/-! SUPPORT. What waits in an ingress queue stays there, in its order, while packets leave the port and others
arrive behind it (R31, R250). -/

-- As in the tests: the compile of the one text stays within the threads of the sandbox.
set_option Elab.async false

namespace Sys2Proof.Machine

/-- The ingress queues of a port hold what they held, with more behind it. -/
def NpSt.Fills (p q : NpSt) : Prop := ∀ c, p.inqOf c <+: q.inqOf c
/-- The ingress queues of every port hold what they held, with more behind it. -/
def State.Fills (s u : State) : Prop := ∀ n, (s.np n).Fills (u.np n)

section
variable {s u v z : State} {p q r : NpSt} {n k f : Nat}

theorem NpSt.Fills.refl (p : NpSt) : p.Fills p := fun _ => List.prefix_rfl
theorem NpSt.Fills.trans (h : p.Fills q) (g : q.Fills r) : p.Fills r := fun c => (h c).trans (g c)
theorem NpSt.Fills.of_inq (h : q.inq = p.inq) : p.Fills q := fun c => by simp only [NpSt.inqOf, h, List.prefix_rfl]

theorem State.Fills.trans (h : s.Fills u) (g : u.Fills z) : s.Fills z := fun n => (h n).trans (g n)
theorem State.Fills.of_nps (h : u.nps = s.nps) : s.Fills u := fun n => by
  simp only [State.np, h]
  exact .refl _

theorem NpSt.fills_fill1 (p : NpSt) (k : Nat) : p.Fills (p.fill1 k) := by
  unfold NpSt.fill1
  split
  · next x l hl =>
    dsimp only
    split
    · intro c
      by_cases hc : c = x.p.cls.toNat
      · simp [NpSt.inqOf, hc, SMap.find_put_self]
      · simp [NpSt.inqOf, SMap.find_put_ne _ _ hc]
    · exact .refl p
  · exact .refl p

theorem NpSt.fills_fillN (p : NpSt) (k f : Nat) : p.Fills (p.fillN k f) := by
  induction f generalizing p with
  | zero => exact .refl p
  | succ f ih => exact (p.fills_fill1 k).trans (ih _)

theorem NpSt.fills_fill (p : NpSt) : p.Fills p.fill :=
  List.foldlRecOn (motive := p.Fills) [0, 3, 4, 5] _ (.refl p) fun q hq k _ => hq.trans (q.fills_fillN k _)

theorem State.fills_setNp (h : (s.np n).Fills p) : s.Fills (s.setNp n p) := fun m => by
  by_cases hm : m = n
  · rw [hm, State.np_setNp_self]
    exact h
  · rw [State.np_setNp_ne _ hm]
    exact .refl _

theorem State.fills_settleIn (s : State) (n : Nat) : s.Fills (s.settleIn n) := by
  have hfill : s.Fills (s.setNp n (s.np n).fill) := State.fills_setNp (NpSt.fills_fill _)
  unfold State.settleIn
  dsimp only
  split
  · exact hfill.trans (State.fills_setNp (.of_inq rfl))
  · exact hfill

/-- A packet that leaves a port is none of its ingress queues. -/
theorem State.pump1_inq (h : s.pump1 n = some u) : ∃ p x, u = (s.setNp n p).left n x ∧ p.inq = (s.np n).inq := by
  unfold State.pump1 at h
  extract_lets p order at h
  split at h
  · split at h
    · next x l hl =>
      split at h
      · cases h
        exact ⟨_, x, rfl, rfl⟩
      · cases h
    · cases h
  · split at h
    · split at h
      · cases h
      · extract_lets k at h
        split at h
        · cases h
        · next x b hb =>
          cases h
          exact ⟨_, x, rfl, by cases b <;> rfl⟩
    · cases h

theorem State.Sends.fills_pumpN (S : v.Sends u) (hn : n < 4) (f : Nat) : u.Fills (u.pumpN n f) := by
  induction f generalizing u with
  | zero => exact .of_nps rfl
  | succ f ih =>
    unfold State.pumpN
    split
    · next t e =>
      obtain ⟨p, x, ht, hp⟩ := State.pump1_inq e
      have hleft : t.nps = (u.setNp n p).nps := ht ▸ (State.left_nps_tx (s := u.setNp n p) S.tracks.canonical hn x).1
      exact ((State.fills_setNp (.of_inq hp)).trans (.of_nps hleft)).trans (ih (S.pump1 hn e))
    · exact .of_nps rfl

theorem State.Sends.fills_enqueue (S : v.Sends u) (hn : n < 4) (x : EgItem) : u.Fills (u.enqueue n x) := by
  unfold State.enqueue State.pump
  extract_lets p k
  have hput : u.Fills (u.setNp n { p with eg := SMap.put p.eg k (p.egq k ++ [x]) }) := State.fills_setNp (.of_inq rfl)
  exact (hput.trans ((S.setNp n _).fills_pumpN hn _)).trans (State.fills_settleIn _ n)

theorem State.Sends.fills_send (S : v.Sends u) (hf : v.faults = []) (m : Msg) (k : Meta) : u.Fills (u.send m k).1 := by
  have hfu : u.faults = [] := S.tracks.faults.trans hf
  cases hr : u.route (u.toPhys m.dst) with
  | none =>
    rw [State.send_of_no_route hfu hr]
    exact .of_nps (by rw [State.ev_nps, State.addFld_nps])
  | some r =>
    obtain ⟨n, rt, nh⟩ := r
    rw [State.send_of_route hfu hr]
    exact S.fills_enqueue (State.route_lt hr) _

/-- A message that is told and not awaited: the state follows as before, the message stands in an egress queue or has left where a
route is found, and the ingress queues keep what they hold (R83, R243). -/
theorem State.Sends.tell (S : v.Sends u) (hf : v.faults = []) (m : Msg) (k : Meta) : v.Sends (u.tell m k) ∧ u.Fills (u.tell m k) ∧
    (v.reaches m.dst → ∃ n x, x.who = m.dst ∧ x.p.opcode = m.op ∧ x.p.tag = m.tag ∧
      (u.tell m k).Posted v.tx.length n (poolOf (classOf m.op)) x) := by
  obtain ⟨hS, hfound, hP⟩ := S.send hf m k
  have hfills := S.fills_send hf m k
  unfold State.tell
  split
  · next t he =>
    rw [he] at hS hfills hP
    exact ⟨hS, hfills, hP⟩
  · next t he =>
    rw [he] at hS hfills hfound
    refine ⟨hS.noRouteNote m, hfills.trans (.of_nps ?_), fun h => ?_⟩
    · unfold State.noRouteNote State.note State.blot
      dsimp only
      split
      · rfl
      · rw [State.ev_nps, State.setFld_nps, State.addFld_nps]
    · cases hfound.trans h

end

end Sys2Proof.Machine
end

section
/-! SUPPORT. The access of an `EvictNote` or a write-back to the entry of its line (R78, R101, R117). -/

-- As in the tests: the compile of the one text stays within the threads of the sandbox.
set_option Elab.async false

namespace Sys2Proof.Machine

section
variable {s u v z : State} {as : List RegAddr} {h : HIdx} {k : Nat} {e d : DirEntry} {who : EpId}

theorem State.Drifts.setDirs (x : s.Drifts as u) (m : SMap DirEntry) : ({ s with dirs := m } : State).Drifts as { u with dirs := m } :=
  ⟨x.lists, x.base, x.canonical, x.regs, congrArg (fun z : State => { z with dirs := m }) x.rest⟩

/-- A line's only entry (R91). -/
structure State.OneEntry (s : State) (h : HIdx) (k : Nat) (e : DirEntry) : Prop where
  hits : s.dirHits h = [k]
  find : SMap.find s.dirs k = some e

theorem State.OneEntry.dirOf (x : s.OneEntry h k e) : s.dirOf h = some (k, e) := by simp only [State.dirOf, x.hits, x.find, Option.map_some]

theorem State.OneEntry.of_tracks (t : s.Tracks as u) (x : s.OneEntry h k e) : u.OneEntry h k e :=
  ⟨(t.dirHits h).trans x.hits, (congrArg (SMap.find · k) t.dirs).trans x.find⟩

/-- An entry written with its tag kept is the entry of the line that it was. -/
theorem State.OneEntry.put (x : s.OneEntry h k e) (ht : d.tag = e.tag) : ({ s with dirs := SMap.put s.dirs k d } : State).OneEntry h k d := by
  refine ⟨Eq.trans (List.filter_congr fun j _ => ?_) x.hits, SMap.find_put_self _ _ _⟩
  by_cases hj : j = k
  · simp only [hj, SMap.find_put_self, x.find, ht]
  · simp only [SMap.find_put_ne _ _ hj]

/-- A state in which the entry of a line has been read and marked as referenced (R117). -/
def State.touched (s : State) (k : Nat) (e : DirEntry) : State := { s with dirs := SMap.put s.dirs k { e with ref := true } }

/-- An access to a line with one entry, of the line's world and in a form of one word, marks the entry (R117, R129). -/
theorem State.Drifts.dirAccess_hit (d : s.Drifts perfRegs z) (hfa : s.faults = []) (x : s.OneEntry h k e) (hw : e.world = s.worldOfH h)
    (hx : e.sh.xidx = none) :
    (s.touched k e).Drifts perfRegs (z.dirAccess h) ∧ (z.dirAccess h).nps = z.nps := by
  have hslice : 0x80 + sliceOf h % 2 < 256 := by omega
  have hz := d.ev hslice { l := some (z.lineOf h).toNat }
  have ht := hz.tracks perfRegs_subset_answerRegs
  obtain ⟨hits, find⟩ := x.of_tracks ht
  have hfold : (List.range z.lookupWays).foldl (fun t w => t.dirProbe 0 (dirKey (posOf h) w) (t.lineOf h)) z = z :=
    List.foldl_fixed' (fun w => State.dirProbe_intact (d.faults.trans hfa) _ _ _) _
  have hworld : (e.world != (z.ev (0x80 + sliceOf h % 2) { l := some (z.lineOf h).toNat }).worldOfH h) = false := by
    simp [ht.worldOfH, hw]
  have hread : ∀ y : State, y.extRead k e = y := fun y => by simp only [State.extRead, hx]
  unfold State.dirAccess
  simp only [hfold, hits, find, hworld, Bool.false_eq_true, if_false, hread]
  rw [hz.dirs]
  exact ⟨hz.setDirs _, State.ev_nps ..⟩

/-- An access to a line without an entry changes no entry (R117). -/
theorem State.Drifts.dirAccess_none (d : s.Drifts perfRegs z) (hfa : s.faults = []) (hm : s.dirHits h = []) :
    s.Drifts perfRegs (z.dirAccess h) ∧ (z.dirAccess h).nps = z.nps := by
  have hslice : 0x80 + sliceOf h % 2 < 256 := by omega
  rw [State.dirAccess_miss (d.faults.trans hfa) fun a => (((d.ev hslice a).tracks perfRegs_subset_answerRegs).dirHits h).trans hm]
  exact ⟨d.ev hslice _, State.ev_nps ..⟩

theorem State.Drifts.fence (d : s.Drifts relayRegs u) (who : EpId) : u.fence who = s.fence who := by
  unfold State.fence
  rw [d.fenceIdx]
  split
  · next k hk =>
    have hlt : k < 16 := List.mem_range.1 (List.mem_of_find?_eq_some hk)
    simp only [State.fld]
    rw [show u.reg (R.GLB_FENCE + 8 * k) = s.reg (R.GLB_FENCE + 8 * k) from d.reg_fenceReg hlt]
  · rfl

theorem State.hIdx_queues (m : SMap NpSt) (l : SMap Nat) (a : LineAddr) : ({ s with nps := m, lanePtr := l } : State).hIdx a = s.hIdx a := rfl

theorem State.touched_chk : (s.touched k e).chk = s.chk := rfl
theorem State.touched_blocked : (s.touched k e).blocked h = s.blocked h := rfl
theorem State.touched_entry (x : s.OneEntry h k e) : (s.touched k e).OneEntry h k { e with ref := true } := x.put rfl

/-- An entry in pointer form refers to no extension entry (R98). -/
theorem State.freeEntry_ptr {a b : Option EpId} (find : SMap.find s.dirs k = some e) (hsh : e.sh = .ptr a b) :
    s.freeEntry k = { s with dirs := SMap.del s.dirs k } := by
  simp only [State.freeEntry, find, State.freeExt, hsh, Sharers.xidx]

/-! ### Notes -/

section
variable {p : Packet} {n : Nat} {b : EpId}

/-- A note about an unblocked line with one entry reaches the entry (R78, R101). -/
theorem State.Drifts.takeNote_entry (d : s.Drifts perfRegs z) (hfa : s.faults = []) (hchk : s.chk = false) (hfence : s.fence p.src = 0)
    (hidx : z.hIdx p.line = some h) (hb : s.blocked h = false) (x : s.OneEntry h k e) (hw : e.world = s.worldOfH h) (hx : e.sh.xidx = none)
    (n : Nat) : ∃ y, (s.touched k e).Drifts perfRegs y ∧ z.takeNote n p = y.evictNoteOn n p h k { e with ref := true } := by
  obtain ⟨hy, -⟩ := d.dirAccess_hit hfa x hw hx
  have ht := hy.tracks perfRegs_subset_answerRegs
  have hf := (d.mono perfRegs_subset_relayRegs eventRegs_relayRegs).fence p.src
  have hent := (State.touched_entry x).of_tracks ht
  refine ⟨_, hy, ?_⟩
  simp [State.takeNote, d.chk, hchk, hf, hfence, hidx, hy.chk, State.touched_chk, ht.blocked, State.touched_blocked, hb, hent.dirOf]

/-- A note about a line without an entry is discarded and counted (R78, R82). -/
theorem State.Drifts.takeNote_none (d : s.Drifts perfRegs z) (hfa : s.faults = []) (hchk : s.chk = false) (hfence : s.fence p.src = 0)
    (hidx : z.hIdx p.line = some h) (hb : s.blocked h = false) (hm : s.dirHits h = []) (n : Nat) :
    s.Drifts perfRegs (z.takeNote n p) ∧ (z.takeNote n p).nps = z.nps := by
  obtain ⟨hy, hnps⟩ := d.dirAccess_none hfa hm
  have ht := hy.tracks perfRegs_subset_answerRegs
  have hf := (d.mono perfRegs_subset_relayRegs eventRegs_relayRegs).fence p.src
  have hgone : (z.dirAccess h).dirOf h = none := by simp only [State.dirOf, (ht.dirHits h).trans hm]
  have hgo : z.takeNote n p = (z.dirAccess h).ev 0xA7 (pktAttr n p) := by
    simp [State.takeNote, State.noteDropped, d.chk, hchk, hf, hfence, hidx, hy.chk, ht.blocked, hb, hgone]
  rw [hgo]
  exact ⟨hy.ev (by decide) _, (State.ev_nps ..).trans hnps⟩

/-- The X holder's note takes its entry out of the directory (R78, R101). -/
theorem State.Drifts.evictNote_holder (d : s.Drifts perfRegs u) (find : SMap.find s.dirs k = some e) (hst : e.st = .x)
    (hsh : e.sh = .ptr (some p.src) none) (n : Nat) :
    ({ s with dirs := SMap.del s.dirs k } : State).Drifts perfRegs (u.evictNoteOn n p h k e) := by
  have hfind : SMap.find u.dirs k = some e := d.dirs ▸ find
  have howner : e.owner = some p.src := by simp only [DirEntry.owner, hst, hsh]
  rw [State.evictNoteOn, if_pos howner, if_pos hst, State.freeEntry_ptr hfind hsh, d.dirs]
  exact (d.setDirs _).ev (by decide) _

/-- A sharer's note takes it out of the entry; the other sharer stays (R101). -/
theorem State.Drifts.evictNote_sharer (d : s.Drifts perfRegs u) (hb : b ≠ p.src) (hst : e.st = .s)
    (hsh : e.sh = .ptr (some p.src) (some b)) (n : Nat) :
    (s.putEntry k { e with sh := .ptr (some b) none }).Drifts perfRegs (u.evictNoteOn n p h k e) := by
  have howner : e.owner = none := by simp only [DirEntry.owner, hst]
  have hexact : u.exact e = [p.src, b] := by simp only [State.exact, hst, hsh, Option.toList_some, List.singleton_append]
  have hset : u.setExact k h e e.owner (fun x => x != p.src) = { u with dirs := SMap.put u.dirs k { e with sh := .ptr (some b) none } } := by
    simp [State.setExact, howner, hexact, hb, hsh, State.putEntry, hst]
  rw [State.evictNoteOn, if_neg (by simp [howner]), if_pos (by simp [hexact]), hset, d.dirs]
  exact (d.setDirs _).ev (by decide) _

end

end

end Sys2Proof.Machine
end

section
/-! SUPPORT. A write-back of a line that no stall blocks: it goes to the inkwell, its entry is freed and its sender told (R78, R81, R136). -/

-- As in the tests: the compile of the one text stays within the threads of the sandbox.
set_option Elab.async false

namespace Sys2Proof.Machine

section
variable {s u v z : State} {as : List RegAddr} {h : HIdx} {i j k n sl : Nat} {e : DirEntry} {p : Packet} {t : Stall}

theorem State.Tracks.setDirs (t : v.Tracks as u) (m : SMap DirEntry) : ({ v with dirs := m } : State).Tracks as { u with dirs := m } :=
  ⟨t.least, t.most, t.base, t.canonical, t.regs, congrArg (fun z : State => { z with dirs := m }) t.rest⟩

/-- A line whose only entry is freed has none. -/
theorem State.OneEntry.del (x : s.OneEntry h k e) (hwf : SMap.wf s.dirs = true) :
    ({ s with dirs := SMap.del s.dirs k } : State).dirOf h = none := by
  have hnone : ({ s with dirs := SMap.del s.dirs k } : State).dirHits h = [] := by
    refine List.filter_eq_nil_iff.2 fun j hj => ?_
    by_cases hjk : j = k
    · simp only [hjk, SMap.find_del_self hwf, Bool.false_eq_true, not_false_eq_true]
    · simp only [SMap.find_del_ne hwf hjk]
      intro hit
      have hmem : j ∈ s.dirHits h := List.mem_filter.2 ⟨hj, hit⟩
      rw [x.hits, List.mem_singleton] at hmem
      exact hjk hmem
  simp only [State.dirOf, hnone]

/-- A write-back's stall of a line without an entry returns to its pool (R84). -/
theorem State.doClose_writeBack (hdir : s.dirOf t.h = none) (hink : t.ink = none) (hrole : t.role = .wb) : s.doClose i t = s.freeStall i := by
  unfold State.doClose
  simp only [State.holdsRead_idle hdir, hdir, ite_self, hink, hrole]

theorem State.openStall_nps (s : State) (i : Nat) (t : Stall) : (s.openStall i t).nps = s.nps := by
  unfold State.openStall
  dsimp only
  split
  · exact State.maxFld_nps ..
  · split
    · exact State.maxFld_nps ..
    · split <;> exact State.maxFld_nps ..

theorem State.inkReserve_nps (s : State) (sl : Nat) (h : HIdx) : (s.inkReserve sl h).nps = s.nps := State.maxFld_nps ..

theorem State.inkFill_nps (s : State) (sl : Nat) (d : LineData) (ids : List EpId) (cps : List (Nat × BitVec 16)) :
    (s.inkFill sl d ids cps).nps = s.nps := by
  unfold State.inkFill
  split
  · rfl
  · dsimp only
    split
    · rw [State.copySkip_eq]
    · rw [State.evN_nps, State.addFld_nps, State.copySkip_eq]

/-- The line of a write-back in an inkwell slot, its entry freed (R78). -/
def State.writtenBack (v : State) (p : Packet) (h : HIdx) (k sl : Nat) : State :=
  { (v.withSlot h (some sl)).withFilled sl ((InkSlot.reserve h (v.worldOfH h)).fill p.data (v.needPorts h) [p.src] [] v.inkSeq v.tod) with
    dirs := SMap.del v.dirs k }

theorem State.writtenBack_slot (v : State) (p : Packet) (h : HIdx) (k sl : Nat) : SMap.find (v.writtenBack p h k sl).ink sl =
    some ((InkSlot.reserve h (v.worldOfH h)).fill p.data (v.needPorts h) [p.src] [] v.inkSeq v.tod) := SMap.find_put_self _ _ _

/-- What a write-back of a line held in X leaves: its line in the inkwell, its entry and its stall free, its sender told (R78). -/
structure State.WroteBack (v u z : State) (p : Packet) (h : HIdx) (k i sl : Nat) : Prop where
  dirs : z.dirs = SMap.del v.dirs k
  pen : z.pen = v.pen
  stall : SMap.find z.stalls i = none
  slot : ∃ y, SMap.find z.ink sl = some y ∧ y.h = h ∧ y.phase = .filled ∧ y.data = LineData.norm p.data ∧ y.ids = [p.src]
  posts : v.reaches p.src → v.posts z p.src Op.cmpW p.tag
  fills : u.Fills z
  regs : v.regsKept z answerRegs

/-- A write-back of a line held in X takes its stall and slot, and closes at once (R78, R81, R136). -/
theorem State.Tracks.wbTake (t : v.Tracks answerRegs u) (hf : v.faults = []) (x : v.OneEntry h k e) (hst : e.st = .x)
    (hsh : e.sh = .ptr (some p.src) none) (hn : v.inkNewest h = none) (hwf : SMap.wf v.stalls = true) (hwd : SMap.wf v.dirs = true)
    (n i sl : Nat) : v.WroteBack u (u.wbTake n p h i sl) p h k i sl := by
  unfold State.wbTake
  extract_lets r s1 s2 s3 s4
  have t1 : (v.withStall i (Stall.new .wb r h u.tod)).Tracks answerRegs s1 := (t.ev (by decide) (pktAttr n p)).openStall i _
  have hslot : ((v.withStall i (Stall.new .wb r h u.tod)).withSlot h (some sl)).inkNewest h = none := State.inkNewest_withSlot hn
  have t2 := (t1.inkReserve sl h).inkFill State.find_ink_withSlot hslot p.data [p.src] []
  have hent : s2.OneEntry h k e := State.OneEntry.of_tracks t2 ⟨x.hits, x.find⟩
  have hfree : s3 = { s2 with dirs := SMap.del v.dirs k } := by
    have hdirs : s2.dirs = v.dirs := t2.dirs
    simp only [s3, hent.dirOf, hst, reduceCtorEq, if_false, State.freeEntry_ptr hent.find hsh, hdirs]
  have t3 : ((v.writtenBack p h k sl).withStall i (Stall.new .wb r h u.tod)).Tracks answerRegs s3 := hfree ▸ t2.setDirs (SMap.del v.dirs k)
  obtain ⟨hS, hfills, hP⟩ := t3.sends.tell hf ⟨Op.cmpW, p.src, p.world, p.line, p.tag, 0, 0, []⟩ {}
  obtain ⟨at', hfind⟩ := hS.stall rfl
  have hgone : s4.dirOf h = none := by
    have hnone : (v.writtenBack p h k sl).dirOf h = none := x.del hwd
    exact (hS.tracks.dirOf h).trans hnone
  have hnps : s3.nps = u.nps := by
    have hfill : s2.nps = s1.nps := (State.inkFill_nps ..).trans (State.inkReserve_nps ..)
    rw [hfree]
    exact hfill.trans ((State.openStall_nps ..).trans (State.ev_nps ..))
  rw [show SMap.find s4.stalls i = _ from hfind]
  dsimp only
  rw [State.doClose_writeBack hgone rfl rfl, State.freeStall_eq]
  exact ⟨hS.tracks.dirs, hS.tracks.pen, SMap.find_del_self (hS.wf (SMap.risesFrom_put (Nat.zero_le _) hwf)) i,
    ⟨_, (congrArg (SMap.find · sl) hS.tracks.ink).trans (v.writtenBack_slot p h k sl), rfl, rfl, rfl, rfl⟩,
    fun hr => State.posts_of_posted rfl (hP hr), (State.Fills.of_nps hnps).trans hfills, hS.tracks.regs⟩

/-- The write-back of a line held in X that no stall blocks is taken when a write-back stall and an inkwell slot are free, and waits
otherwise (R81, R136). -/
theorem State.Drifts.writeBack_held (d : s.Drifts perfRegs z) (hfa : s.faults = []) (hchk : s.chk = false) (hfence : s.fence p.src = 0)
    (hidx : z.hIdx p.line = some h) (x : s.HeldX h k e p.src) (hw : e.world = s.worldOfH h) (hb : s.blocker h = none) (n : Nat) :
    ∃ y, (s.touched k e).Drifts perfRegs y ∧ y.nps = z.nps ∧
      (∀ i sl, s.aStall 1 = some i → s.inkFree = some sl → z.writeBack n p = some (y.wbTake n p h i sl)) ∧
      (s.aStall 1 = none → z.writeBack n p = none) := by
  have hx : e.sh.xidx = none := by rw [x.sh]; rfl
  have hent : s.OneEntry h k e := ⟨x.hits, x.find⟩
  obtain ⟨hy, hnps⟩ := d.dirAccess_hit hfa hent hw hx
  have ht := hy.tracks perfRegs_subset_answerRegs
  obtain ⟨hits, hfind⟩ := State.touched_entry hent
  have hheld : (s.touched k e).HeldX h k { e with ref := true } p.src := ⟨hits, hfind, x.st, x.sh⟩
  have hf := (d.mono perfRegs_subset_relayRegs eventRegs_relayRegs).fence p.src
  have howns : (z.dirAccess h).wbOwner h p.src = true := by simp [State.wbOwner, (hheld.of_tracks ht).ownsIn]
  have hstall : (z.dirAccess h).aStall 1 = s.aStall 1 := ht.aStall 1
  have hink : (z.dirAccess h).inkFree = s.inkFree := ht.inkFree
  have hblock : (z.dirAccess h).blocker h = none := (ht.blocker h).trans hb
  have hrun : (z.dirAccess h).chk = false := hy.chk.trans hchk
  refine ⟨_, hy, hnps, fun i sl hi hsl => ?_, fun hi => ?_⟩
  · simp [State.writeBack, d.chk, hchk, hf, hfence, hidx, hrun, howns, hblock, hstall, hink, hi, hsl]
  · simp [State.writeBack, d.chk, hchk, hf, hfence, hidx, hrun, howns, hblock, hstall, hi]

end

end Sys2Proof.Machine
end

section
/-! The write-back queue: write-backs and notes. -/

-- As in the tests: the compile of the one text stays within the threads of the sandbox.
set_option Elab.async false

namespace Sys2Proof.Machine

section
variable {s : State} {n : Fin 4} {x : InItem} {r : List InItem} {h : HIdx} {k i sl : Nat} {e : DirEntry}

/-- What stands behind the head of an ingress queue when the head has left it (R31). -/
theorem State.dropIn_behind {m c : Nat} (hq : (s.np m).inqOf c = x :: r) : r <+: ((s.dropIn m c x).np m).inqOf c := by
  refine List.IsPrefix.trans ?_ (State.fills_settleIn _ m m c)
  rw [State.np_setNp_self, hq, List.erase_cons_head]
  cases r with
  | nil => exact List.nil_prefix
  | cons a l => simp [NpSt.inqOf, putQ, SMap.find_put_self]

/-- The head of a write-back queue that is taken: the ports and a pointer differ, and the queue keeps the rest. -/
theorem State.head_taken (hc : s.canonical = true) (hq : (s.np n).inqOf 1 = x :: r) (hh : s.hIdx x.p.line = some h) :
    ∃ z, (s.dropIn n 1 x).taken 2 (s.laneOf x.p.line) n = z ∧ s.Drifts perfRegs z ∧ z.hIdx x.p.line = some h ∧ r <+: (z.np n).inqOf 1 := by
  obtain ⟨l, hl⟩ := s.taken_dropIn_eq n 1 2 (s.laneOf x.p.line) n x
  exact ⟨_, hl, (State.Drifts.refl eventRegs_perfRegs hc).setQueues _ _, (State.hIdx_queues ..).trans hh, State.dropIn_behind hq⟩

theorem State.touched_reaches {q : EpId} (h : s.reaches q) : (s.touched k e).reaches q := h

/-- A write-back of a line held in X is taken, with a write-back stall and an inkwell slot free (R78, R81, R136). -/
theorem State.offerWb_takes (hcalm : s.calm) (hq : (s.np n).inqOf 1 = x :: r) (hop : x.p.opcode = Op.wbDirty) (hfence : s.fence x.p.src = 0)
    (hh : s.hIdx x.p.line = some h) (held : s.HeldX h k e x.p.src) (hw : e.world = s.worldOfH h) (hb : s.blocker h = none)
    (hn : s.inkNewest h = none) (hsl : s.inkFree = some sl) (hi : s.aStall 1 = some i) :
    ∃ y, (s.touched k e).WroteBack y (s.offerWb n) x.p h k i sl ∧ r <+: (y.np n).inqOf 1 := by
  obtain ⟨hc, hwd, hwf, -, -, -, -, -, -, -, -, hfa, hchk⟩ := hcalm
  obtain ⟨z, hz, hd, hhz, hr⟩ := State.head_taken hc hq hh
  obtain ⟨y, hy, hnps, htake, -⟩ := hd.writeBack_held hfa hchk hfence hhz held hw hb n
  have hgo : s.offerWb n = y.wbTake n x.p h i sl := by simp only [State.offerWb, hq, hop, if_true, hz, htake i sl hi hsl]
  have hent := State.touched_entry ⟨held.hits, held.find⟩
  refine ⟨y, ?_, by simpa only [State.np, hnps] using hr⟩
  rw [hgo]
  exact (hy.tracks perfRegs_subset_answerRegs).wbTake hfa hent held.st held.sh hn hwf (SMap.risesFrom_put (Nat.zero_le k) hwd) n i sl

/-- With no write-back stall free, the write-back stays at the head of its queue (R81, R136). -/
theorem State.offerWb_waits (hcalm : s.calm) (hq : (s.np n).inqOf 1 = x :: r) (hop : x.p.opcode = Op.wbDirty) (hfence : s.fence x.p.src = 0)
    (hh : s.hIdx x.p.line = some h) (held : s.HeldX h k e x.p.src) (hw : e.world = s.worldOfH h) (hb : s.blocker h = none)
    (hi : s.aStall 1 = none) : s.offerWb n = s := by
  obtain ⟨hc, -, -, -, -, -, -, -, -, -, -, hfa, hchk⟩ := hcalm
  obtain ⟨z, hz, hd, hhz, -⟩ := State.head_taken hc hq hh
  obtain ⟨y, -, -, -, hwait⟩ := hd.writeBack_held hfa hchk hfence hhz held hw hb n
  simp only [State.offerWb, hq, hop, if_true, hz, hwait hi]

/-- The note at the head of a write-back queue is taken (R78, R82). -/
theorem exec_evictNote (hq : (s.np n).inqOf 1 = x :: r) (hop : x.p.opcode = Op.evictNote) : exec (.evictNote n) s =
    .next (finish s (((s.dropIn n 1 x).taken 2 (s.laneOf x.p.line) n).takeNote n x.p)) := by
  simp only [exec, execEvictNote, hq, hop, if_true]

end

/-- Settles O38: a write-back takes a stall and a slot or waits for one, and a note acts on its sender's part of the entry. -/
theorem writeBacksAndNotes : Obligations.WriteBacksAndNotes := by
  refine ⟨?_, ?_⟩
  · intro s n x r h k i sl e hcalm hq hop hfence hh hits hfind hw hst hsh hb hn hsl
    have held : s.HeldX h k e x.p.src := ⟨hits, hfind, hst, hsh⟩
    refine ⟨fun hi c hcmd => ⟨s.offerWb n, by rcases hcmd with rfl | rfl <;> rfl, ?_⟩,
      fun hi c hcmd => ⟨s.offerWb n, by rcases hcmd with rfl | rfl <;> rfl, ?_⟩⟩
    · obtain ⟨y, hdone, hr⟩ := State.offerWb_takes hcalm hq hop hfence hh held hw hb hn hsl hi
      obtain ⟨-, hwd, -⟩ := hcalm
      have hput : SMap.risesFrom 0 (SMap.put s.dirs k { e with ref := true }) = true := SMap.risesFrom_put (Nat.zero_le k) hwd
      refine ⟨?_, hdone.stall, hdone.slot, fun hreach => hdone.posts (State.touched_reaches hreach), hr.trans (hdone.fills n 1),
        fun j hj => ?_, hdone.pen, hdone.regs⟩
      · rw [hdone.dirs]
        exact SMap.find_del_self hput k
      · rw [hdone.dirs]
        exact (SMap.find_del_ne hput hj).trans (SMap.find_put_ne _ _ hj)
    · exact State.offerWb_waits hcalm hq hop hfence hh held hw hb hi
  · intro s n x r h hcalm hq hop hfence hh hb
    obtain ⟨hc, hwd, -, -, -, -, -, -, -, -, -, hfa, hchk⟩ := hcalm
    obtain ⟨z, hz, hd, hhz, hr⟩ := State.head_taken hc hq hh
    have hgo := hz ▸ exec_evictNote hq hop
    refine ⟨fun k e hits hfind hw => ⟨fun hst hsh => ⟨_, hgo, ?_⟩, fun b hne hst hsh => ⟨_, hgo, ?_⟩⟩, fun hm => ⟨_, hgo, ?_⟩⟩
    · obtain ⟨y, hy, htake⟩ := hd.takeNote_entry hfa hchk hfence hhz hb ⟨hits, hfind⟩ hw (by rw [hsh]; rfl) n
      have hput : SMap.risesFrom 0 (SMap.put s.dirs k { e with ref := true }) = true := SMap.risesFrom_put (Nat.zero_le k) hwd
      have hdone := hy.evictNote_holder (h := h) (e := { e with ref := true }) (SMap.find_put_self _ _ _) hst hsh n
      rw [htake]
      refine ⟨?_, fun j hj => ?_, hdone.stalls, hdone.regs⟩
      · rw [hdone.dirs]
        exact SMap.find_del_self hput k
      · rw [hdone.dirs]
        exact (SMap.find_del_ne hput hj).trans (SMap.find_put_ne _ _ hj)
    · obtain ⟨y, hy, htake⟩ := hd.takeNote_entry hfa hchk hfence hhz hb ⟨hits, hfind⟩ hw (by rw [hsh]; rfl) n
      have hdone := hy.evictNote_sharer (h := h) (k := k) (e := { e with ref := true }) hne hst hsh n
      rw [htake]
      refine ⟨?_, fun j hj => ?_, hdone.stalls, hdone.regs⟩
      · rw [hdone.dirs]
        exact SMap.find_put_self _ _ _
      · rw [hdone.dirs]
        exact (SMap.find_put_ne _ _ hj).trans (SMap.find_put_ne _ _ hj)
    · obtain ⟨hdone, hnps⟩ := hd.takeNote_none hfa hchk hfence hhz hb hm n
      exact ⟨hdone.dirs, hdone.stalls, by simpa only [State.np, hnps] using hr, hdone.regs⟩

end Sys2Proof.Machine
end

section
/-! The functions of the spec that take a value apart and put it together again: the directory's index (R90), the reverse route
(R236), the line formed from two copies (R266), the header of a packet (R230) and the command flit (R284). -/

-- As in the tests: the compile of the one text stays within the threads of the sandbox.
set_option Elab.async false

namespace Sys2Proof.Machine

/-! ### The directory's index -/

theorem foldOf_lt (t : BitVec 17) : foldOf t < 8 := by
  have hlt : ∀ k, t.toNat / 2 ^ (3 * k) % 8 < 2 ^ 3 := fun k => Nat.mod_lt _ (by decide)
  have htop : t.toNat / 2 ^ 15 % 4 < 2 ^ 3 := (Nat.mod_lt _ (by decide)).trans (by decide)
  exact Nat.xor_lt_two_pow (Nat.xor_lt_two_pow (Nat.xor_lt_two_pow (Nat.xor_lt_two_pow (Nat.xor_lt_two_pow
    (hlt 0) (hlt 1)) (hlt 2)) (hlt 3)) (hlt 4)) htop

theorem sliceOf_lt (h : HIdx) : sliceOf h < 8 :=
  Nat.xor_lt_two_pow (n := 3) (Nat.mod_lt _ (by decide)) (foldOf_lt _)

/-- The fold of the tag, taken out of the slice again, leaves the lowest bits of the line's index (R90). -/
theorem sliceOf_xor_foldOf (h : HIdx) : sliceOf h ^^^ foldOf (tagOf h) = h.toNat % 8 := by
  rw [sliceOf, Nat.xor_assoc, Nat.xor_self, Nat.xor_zero]

theorem tagOf_toNat (h : HIdx) : (tagOf h).toNat = h.toNat / 2 ^ 17 := by
  have := h.isLt
  rw [tagOf, BitVec.toNat_ofNat, Nat.mod_eq_of_lt (by omega)]

/-- Set, slice and tag of a line give its index back (R90). -/
theorem hOf_posOf_tagOf (h : HIdx) : hOf (posOf h) (tagOf h) = h := by
  have hslice := sliceOf_lt h
  have hset : posOf h / 8 = setOf h := by unfold posOf; omega
  have hpos : posOf h % 8 = sliceOf h := by unfold posOf; omega
  apply BitVec.eq_of_toNat_eq
  rw [hOf, hset, hpos, sliceOf_xor_foldOf, tagOf_toNat, BitVec.toNat_ofNat, setOf]
  have := h.isLt
  omega

theorem eq_of_posOf_tagOf {h g : HIdx} (hp : posOf h = posOf g) (ht : tagOf h = tagOf g) : h = g := by
  rw [← hOf_posOf_tagOf h, hp, ht, hOf_posOf_tagOf]

/-! ### The reverse route -/

/-- Select `k` of a reversed route is the select as far from the other end (R236). -/
theorem revRoute_select (r : BitVec 48) {n k : Nat} (hk : k < n) :
    revRoute r n / 2 ^ (4 * k) % 16 = r.toNat / 2 ^ (4 * (n - 1 - k)) % 16 := by
  induction n generalizing k with
  | zero => exact absurd hk (Nat.not_lt_zero k)
  | succ n ih =>
    cases k with
    | zero => simp [revRoute]
    | succ k =>
      have hshift : revRoute r (n + 1) / 2 ^ (4 * (k + 1)) = revRoute r n / 2 ^ (4 * k) := by
        have hpow : 2 ^ (4 * (k + 1)) = 16 * 2 ^ (4 * k) := by rw [Nat.mul_succ, pow_add]; ring
        have hrest : revRoute r (n + 1) / 16 = revRoute r n := by rw [revRoute]; omega
        rw [hpow, ← Nat.div_div_eq_div_mul, hrest]
      rw [hshift, ih (by omega), show n + 1 - 1 - (k + 1) = n - 1 - k by omega]

/-! ### A formed line -/

theorem formLine_word (a b : LineData) {w : Nat} (hw : w < 32) :
    (formLine a b).word w = if (a.word w).bad && !(b.word w).bad then b.word w else a.word w := by
  simp [formLine, LineData.word, hw]

theorem formLine_word_bad (a b : LineData) {w : Nat} (hw : w < 32) :
    ((formLine a b).word w).bad = ((a.word w).bad && (b.word w).bad) := by
  rw [formLine_word a b hw]
  cases ha : (a.word w).bad <;> cases hb : (b.word w).bad <;> simp [ha, hb]

/-! ### Header and command flit -/

/-- The four syndromes of a header put together again (R229). -/
theorem synOf_append (p : Packet) : p.synOf 3 ++ p.synOf 2 ++ p.synOf 1 ++ p.synOf 0 = p.syn := by
  apply BitVec.eq_of_getLsbD_eq
  intro i hi
  simp only [Packet.synOf, BitVec.getLsbD_append, BitVec.getLsbD_setWidth, BitVec.getLsbD_ushiftRight]
  split_ifs
  all_goals
    rw [decide_eq_true (by omega), Bool.true_and]
    congr 1
    omega

/-- A packet's header words spell the packet (R230). -/
theorem ofHeader_header_eq_self (p : Packet) : Packet.ofHeader p.header p.data = p := by
  rw [Packet.ofHeader_header, synOf_append]
  simp [Packet.word0, Packet.word1, Packet.word2, Packet.word3, fieldAt_placeAt_apart, bitOf_eq_one]

/-- A command's flit spells the command (R284). -/
theorem ofFlit_flit (c : CpCmd) : CpCmd.ofFlit c.flit c.data = c := by
  simp [CpCmd.ofFlit, CpCmd.flit, DWord.gen, fieldAt_placeAt_apart]

/-- Settles O59: each of the functions by the lemma that says what takes it back. -/
theorem indexAndRoute : Obligations.IndexAndRoute :=
  ⟨hOf_posOf_tagOf, fun _ _ => eq_of_posOf_tagOf, fun r _ _ _ hk => revRoute_select r hk, fun a b _ hw => formLine_word_bad a b hw,
    ofHeader_header_eq_self, ofFlit_flit⟩

end Sys2Proof.Machine
end

section
/-! A walk over indices that acts at one of them alone: over the bits of a request, the ways of a set, the slices of a scrub. -/

-- As in the tests: the compile of the one text stays within the threads of the sandbox.
set_option Elab.async false

namespace Sys2Proof.Machine

theorem foldl_eq_self {σ β : Type} {f : σ → β → σ} {s : σ} {l : List β} (h : ∀ j ∈ l, f s j = s) : l.foldl f s = s :=
  List.foldlRecOn l f (motive := fun t => t = s) rfl fun _ ht j hj => ht ▸ h j hj

/-- A walk that acts at index `k` alone is its action there. -/
theorem foldl_range_one {σ : Type} {f : σ → Nat → σ} {s u : σ} {n k : Nat} (hk : k < n) (hat : f s k = u)
    (hbefore : ∀ j, j < n → j ≠ k → f s j = s) (hafter : ∀ j, j < n → j ≠ k → f u j = u) : (List.range n).foldl f s = u := by
  obtain ⟨a, b, hab⟩ := List.append_of_mem (List.mem_range.2 hk)
  have hnodup : (a ++ k :: b).Nodup := hab ▸ List.nodup_range
  have hlt : ∀ j ∈ a ++ k :: b, j < n := fun j hj => List.mem_range.1 (hab ▸ hj)
  obtain ⟨hka, hkb⟩ : k ∉ a ∧ k ∉ b := by
    have := List.nodup_middle.1 hnodup
    simpa using (List.nodup_cons.1 this).1
  rw [hab, List.foldl_append, foldl_eq_self fun j hj => hbefore j (hlt j (by simp [hj])) (ne_of_mem_of_not_mem hj hka), List.foldl_cons, hat]
  exact foldl_eq_self fun j hj => hafter j (hlt j (by simp [hj])) (ne_of_mem_of_not_mem hj hkb)

end Sys2Proof.Machine
end

section
/-! The power of ways 8-15 and of the banks of the ALC: what a write of their request bits starts (R121, R124, R226, R227). -/

-- As in the tests: the compile of the one text stays within the threads of the sandbox.
set_option Elab.async false

namespace Sys2Proof.Machine

/-! ### Bits and fields of one register -/

section
variable {s z u : State} {a b lo w : Nat} {on : Bool} {v : Word}

theorem State.onlyRegs_setFld (hc : s.canonical = true) (a lo w x : Nat) : s.onlyRegs (s.setFld a lo w x) [a] :=
  State.onlyRegs_setReg hc a _

theorem State.canonical_setFld (hc : s.canonical = true) (a lo w x : Nat) : (s.setFld a lo w x).canonical = true :=
  State.canonical_setReg a _ hc

/-- A bit reads as written. -/
theorem State.flag_setFlag_self (hc : s.canonical = true) (a : Nat) (hb : b < 64) (on : Bool) : (s.setFlag a b on).flag a b = on := by
  rw [State.flag, State.setFlag, State.fld_setFld_self hc a _ hb]
  cases on <;> rfl

/-- A field written leaves a bit outside it as it was. -/
theorem State.flag_setFld_apart (hc : s.canonical = true) (hlo : lo + w ≤ 64) (h : lo + w ≤ b ∨ b + 1 ≤ lo) (x : Nat) :
    (s.setFld a lo w x).flag a b = s.flag a b := by
  rw [State.flag, State.flag]
  rw [State.fld_setFld_apart (f := ⟨lo, w, .rw⟩) (g := ⟨b, 1, .rw⟩) hc _ x hlo h]

/-- A register that is not written keeps its fields. -/
theorem State.onlyRegs.fld (h : s.onlyRegs u [a]) (hb : a / 8 ≠ b / 8) (lo w : Nat) : u.fld b lo w = s.fld b lo w := by
  rw [State.fld, State.fld, h.2 b (by simpa using hb)]

theorem State.onlyRegs.flag (h : s.onlyRegs u [a]) (hb : a / 8 ≠ b / 8) (k : Nat) : u.flag b k = s.flag b k := by
  rw [State.flag, State.flag, h.fld hb]

/-! ### Way power -/

/-- The fields of DIR.WAYPWR (R132): the request, the state, and the event that a change has ended. -/
theorem regRow_waypwr : ∃ r, regRow R.DIR_WAYPWR = some r ∧ r.fields = [⟨0, 1, .rw⟩, ⟨1, 2, .ro⟩, ⟨3, 1, .w1c⟩] := by
  have h : (regRow R.DIR_WAYPWR).map RegRow.fields = some [⟨0, 1, .rw⟩, ⟨1, 2, .ro⟩, ⟨3, 1, .w1c⟩] := by decide +kernel
  simpa using h

/-- A write of DIR.WAYPWR stores the request and leaves the state of the ways as it is (R18, R132). -/
theorem State.storeReg_waypwr (hc : s.canonical = true) (v : Word) :
    (s.storeReg R.DIR_WAYPWR v).flag R.DIR_WAYPWR 0 = bit v.toNat 0 ∧ (s.storeReg R.DIR_WAYPWR v).wayState = s.wayState := by
  obtain ⟨r, hr, hf⟩ := regRow_waypwr
  have hfld : ∀ f ∈ r.fields, _ := fun f hm =>
    (writeActsByAccessCode.2 s R.DIR_WAYPWR v r f hc hr hm (by rw [hf]; decide)).1
  have hreq := hfld ⟨0, 1, .rw⟩ (by simp [hf])
  have hst := hfld ⟨1, 2, .ro⟩ (by simp [hf])
  refine ⟨?_, hst⟩
  rw [State.flag, hreq]
  simp [getBits, bit]

/-- A request of the ways with the directory clear, stored (R121, R124). -/
structure State.WaysAsked (s : State) (on : Bool) (z : State) : Prop where
  canonical : z.canonical = true
  only : s.onlyRegs z [R.DIR_WAYPWR]
  request : z.flag R.DIR_WAYPWR 0 = on
  state : z.wayState = s.wayState

theorem State.waysAsked (hc : s.canonical = true) (v : Word) : s.WaysAsked (bit v.toNat 0) (s.storeReg R.DIR_WAYPWR v) :=
  ⟨(State.storeReg_keeps (.refl s) _ _).canonical hc, State.onlyRegs_storeReg hc _ v, (State.storeReg_waypwr hc v).1,
    (State.storeReg_waypwr hc v).2⟩

theorem State.WaysAsked.clear (h : s.WaysAsked on z) : z.flag R.DIR_STATUS 0 = s.flag R.DIR_STATUS 0 :=
  h.only.flag (by decide) 0

/-- The state of the ways written, behind a request that is stored. -/
theorem State.WaysAsked.setState (h : s.WaysAsked on z) {st : Nat} (hst : st < 4) :
    (z.setFld R.DIR_WAYPWR 1 2 st).wayState = st ∧ (z.setFld R.DIR_WAYPWR 1 2 st).flag R.DIR_WAYPWR 0 = on ∧
      s.onlyRegs (z.setFld R.DIR_WAYPWR 1 2 st) [R.DIR_WAYPWR] := by
  refine ⟨(State.fld_setFld_self h.canonical _ st (by decide)).trans (Nat.mod_eq_of_lt hst), ?_,
    h.only.trans (State.onlyRegs_setFld h.canonical ..)⟩
  rw [State.flag, State.fld_setFld_below h.canonical _ st (by decide) (by decide)]
  exact h.request

/-- The cleaner begins at its first position (R121). -/
def State.cleanFromStart (s : State) : State := { s with rcv := { s.rcv with cleanPos := 0 } }

/-- A power-down of ways that are ON starts their cleaning (R121). -/
theorem State.waypwr_down (hc : s.canonical = true) (hclear : s.flag R.DIR_STATUS 0 = true) (hwas : s.flag R.DIR_WAYPWR 0 = true)
    (hnow : bit v.toNat 0 = false) (hst : s.wayState = 0) :
    s.waypwr v = (s.storeReg R.DIR_WAYPWR v).cleanFromStart.setFld R.DIR_WAYPWR 1 2 1 := by
  have hz := State.waysAsked hc v
  simp [State.waypwr, hwas, hnow, hz.clear, hclear, hz.state, hst, State.cleanFromStart]

/-- A power-up of ways that are OFF starts their clearing (R124). -/
theorem State.waypwr_up (hc : s.canonical = true) (hclear : s.flag R.DIR_STATUS 0 = true) (hwas : s.flag R.DIR_WAYPWR 0 = false)
    (hnow : bit v.toNat 0 = true) (hst : s.wayState = 2) :
    s.waypwr v = (s.storeReg R.DIR_WAYPWR v).setFld R.DIR_WAYPWR 1 2 3 := by
  have hz := State.waysAsked hc v
  simp [State.waypwr, hwas, hnow, hz.clear, hclear, hz.state, hst]

/-! ### Bank power -/

theorem State.bank_setFld_apart (hc : s.canonical = true) (hlo : lo + w ≤ 64) (h : lo + w ≤ 8 + 2 * b ∨ 8 + 2 * b + 2 ≤ lo) (x : Nat) :
    (s.setFld R.ALC_BANKPWR lo w x).bank b = s.bank b :=
  State.fld_setFld_apart (f := ⟨lo, w, .rw⟩) (g := ⟨8 + 2 * b, 2, .ro⟩) hc _ x hlo h

/-- A request bit written as it stands changes nothing (R226). -/
theorem State.bankReq_same (h : s.flag R.ALC_BANKPWR b = on) : s.bankReq b on = s := by
  simp [State.bankReq, h]

/-- Bank `b` of the ALC takes a request and a state. -/
def State.moveBank (s : State) (b : Nat) (on : Bool) (st : Nat) : State := (s.setFlag R.ALC_BANKPWR b on).setBank b st

/-- The request of an ON bank that falls starts its cleaning (R226). -/
theorem State.bankReq_down (hreq : s.flag R.ALC_BANKPWR b = true) (hst : s.bank b = 0) (halc : b ≠ 0 ∨ s.alcState = 0) :
    s.bankReq b false = s.moveBank b false 1 := by
  have hgo : (b = 0 && s.alcState != 0) = false := by
    rcases halc with h | h <;> simp [h]
  simp [State.bankReq, hreq, hst, hgo, State.moveBank]

/-- The request of an OFF bank that rises starts its clearing (R226). -/
theorem State.bankReq_up (hreq : s.flag R.ALC_BANKPWR b = false) (hst : s.bank b = 2) : s.bankReq b true = s.moveBank b true 3 := by
  simp [State.bankReq, hreq, hst, State.moveBank]

/-- Bank 0 is not powered down while the ALC is not OFF (R227). -/
theorem State.bankReq_refused (hreq : s.flag R.ALC_BANKPWR 0 = true) (halc : s.alcState ≠ 0) : s.bankReq 0 false = s.alcRefuse 4 := by
  simp [State.bankReq, hreq, halc]

/-- What a bank that takes a request and a state shows, and what it leaves alone. -/
theorem State.moveBank_shows (hc : s.canonical = true) (hb : b < 8) (on : Bool) {st : Nat} (hst : st < 4) :
    (s.moveBank b on st).bank b = st ∧ (s.moveBank b on st).flag R.ALC_BANKPWR b = on ∧
      (∀ c, c < 8 → c ≠ b → (s.moveBank b on st).flag R.ALC_BANKPWR c = s.flag R.ALC_BANKPWR c) ∧
      s.onlyRegs (s.moveBank b on st) [R.ALC_BANKPWR] := by
  have hset : (s.setFlag R.ALC_BANKPWR b on).canonical = true := State.canonical_setFld hc ..
  refine ⟨?_, ?_, fun c hc8 hcb => ?_, (State.onlyRegs_setFld hc ..).trans (State.onlyRegs_setFld hset ..)⟩
  · exact (State.fld_setFld_self hset _ st (by omega)).trans (Nat.mod_eq_of_lt hst)
  · exact (State.flag_setFld_apart hset (by omega) (.inr (by omega)) st).trans (State.flag_setFlag_self hc _ (by omega) on)
  · exact (State.flag_setFld_apart hset (by omega) (.inr (by omega)) st).trans
      (State.flag_setFld_apart hc (by omega) (by omega) (b2n on))

/-- A refusal shows its cause, and writes no register but ALC.STATUS (R223). -/
theorem State.alcRefuse_shows (hc : s.canonical = true) {cause : Nat} (h : cause < 8) :
    (s.alcRefuse cause).fld R.ALC_STATUS 1 3 = cause ∧ (s.alcRefuse cause).flag R.ALC_STATUS 4 = true ∧
      s.onlyRegs (s.alcRefuse cause) [R.ALC_STATUS] := by
  have hset : (s.setFld R.ALC_STATUS 1 3 cause).canonical = true := State.canonical_setFld hc ..
  refine ⟨?_, State.flag_setFlag_self hset _ (by decide) true, (State.onlyRegs_setFld hc ..).trans (State.onlyRegs_setFld hset ..)⟩
  exact (State.fld_setFld_below hset _ _ (by decide) (by decide)).trans
    ((State.fld_setFld_self hc _ cause (by decide)).trans (Nat.mod_eq_of_lt h))

/-- A write of ALC.BANKPWR begins with its events; requests and states stand as they were (R18, R226). -/
structure State.BanksAsked (s z : State) : Prop where
  canonical : z.canonical = true
  only : s.onlyRegs z [R.ALC_BANKPWR]
  request : ∀ c, c < 8 → z.flag R.ALC_BANKPWR c = s.flag R.ALC_BANKPWR c
  state : ∀ c, c < 8 → z.bank c = s.bank c
  alc : z.alcState = s.alcState

/-- A write of ALC.BANKPWR in which one request bit changes is that bit's request (R226, R227). -/
theorem State.bankpwr_one (hc : s.canonical = true) (hb : b < 8)
    (hsame : ∀ c, c < 8 → c ≠ b → bit v.toNat c = s.flag R.ALC_BANKPWR c) :
    ∃ z, s.BanksAsked z ∧ ∀ u, z.bankReq b (bit v.toNat b) = u →
      (∀ c, c < 8 → c ≠ b → u.flag R.ALC_BANKPWR c = z.flag R.ALC_BANKPWR c) → s.bankpwr v = u := by
  have honly := State.onlyRegs_setFld hc R.ALC_BANKPWR 24 8
    (s.fld R.ALC_BANKPWR 24 8 - (s.fld R.ALC_BANKPWR 24 8 &&& getBits v 24 8))
  have hz : s.BanksAsked _ := ⟨State.canonical_setFld hc .., honly,
    fun c hc8 => State.flag_setFld_apart hc (by decide) (.inr (by omega)) _,
    fun c hc8 => State.bank_setFld_apart hc (by decide) (.inr (by omega)) _, honly.fld (by decide) 1 2⟩
  refine ⟨_, hz, fun u hu hkept => foldl_range_one hb hu (fun c hc8 hcb => ?_) fun c hc8 hcb => ?_⟩
  · exact State.bankReq_same ((hz.request c hc8).trans (hsame c hc8 hcb).symm)
  · exact State.bankReq_same ((hkept c hc8 hcb).trans ((hz.request c hc8).trans (hsame c hc8 hcb).symm))

end

/-- Settles O13: the stored request is compared with the state of the ways, and of the one bank whose bit changes. -/
theorem wayAndBankPower : Obligations.WayAndBankPower := by
  refine ⟨?_, ?_, fun b hb => ⟨?_, ?_, ?_⟩⟩
  · refine spDoes_of_spDo (fun _ _ => rfl) fun s t x _ hc hx => ⟨rfl, ?_⟩
    obtain ⟨-, hclear, hwas, hnow, hst⟩ := hx
    simp only [State.spDo, State.waypwr_down hc hclear hwas hnow hst]
    have hz := State.waysAsked hc x.data
    generalize t.storeReg R.DIR_WAYPWR x.data = z at hz ⊢
    obtain ⟨hstate, hreq, honly⟩ := hz.setState (st := 1) (by decide)
    exact ⟨hstate, hreq.trans hnow, rfl, (congrArg State.dirs honly.1 :), honly.2⟩
  · refine spDoes_of_spDo (fun _ _ => rfl) fun s t x _ hc hx => ⟨rfl, ?_⟩
    obtain ⟨-, hclear, hwas, hnow, hst⟩ := hx
    simp only [State.spDo, State.waypwr_up hc hclear hwas hnow hst]
    exact hnow ▸ (State.waysAsked hc x.data).setState (by decide)
  · refine spDoes_of_spDo (fun _ _ => rfl) fun s t x _ hc hx => ⟨rfl, ?_⟩
    obtain ⟨-, -, hsame, hreq, hnow, hst, halc⟩ := hx
    obtain ⟨z, hz, hgo⟩ := State.bankpwr_one hc hb hsame
    obtain ⟨hbank, hflag, hkept, honly⟩ := State.moveBank_shows hz.canonical hb false (st := 1) (by decide)
    have hu := hgo _ (hnow ▸ State.bankReq_down ((hz.request b hb).trans hreq) ((hz.state b hb).trans hst)
      (halc.imp_right hz.alc.trans)) hkept
    simp only [State.spDo, hu]
    exact ⟨hbank, hflag, hz.only.trans honly⟩
  · refine spDoes_of_spDo (fun _ _ => rfl) fun s t x _ hc hx => ⟨rfl, ?_⟩
    obtain ⟨-, -, hsame, hreq, hnow, hst⟩ := hx
    obtain ⟨z, hz, hgo⟩ := State.bankpwr_one hc hb hsame
    obtain ⟨hbank, hflag, hkept, honly⟩ := State.moveBank_shows hz.canonical hb true (st := 3) (by decide)
    have hu := hgo _ (hnow ▸ State.bankReq_up ((hz.request b hb).trans hreq) ((hz.state b hb).trans hst)) hkept
    simp only [State.spDo, hu]
    exact ⟨hbank, hflag, hz.only.trans honly⟩
  · refine spDoes_of_spDo (fun _ _ => rfl) fun s t x _ hc hx => ⟨rfl, ?_⟩
    obtain ⟨-, -, hsame, rfl, hreq, hnow, halc⟩ := hx
    obtain ⟨z, hz, hgo⟩ := State.bankpwr_one hc hb hsame
    obtain ⟨hcause, hevent, honly⟩ := State.alcRefuse_shows hz.canonical (cause := 4) (by decide)
    have hbank : R.ALC_STATUS / 8 ≠ R.ALC_BANKPWR / 8 := by decide
    have hu := hgo _ (hnow ▸ State.bankReq_refused ((hz.request 0 hb).trans hreq) (hz.alc.trans_ne halc))
      fun c _ _ => honly.flag hbank c
    simp only [State.spDo, hu]
    exact ⟨(honly.flag hbank 0).trans ((hz.request 0 hb).trans hreq), (honly.fld hbank _ 2).trans (hz.state 0 hb), hcause, hevent⟩

end Sys2Proof.Machine
end

section
/-! SUPPORT. Packets that leave the ports change a multicast of the relay unit only in where the messages of its waits stand (R110,
R252), and write only the registers of what is sent. -/

-- As in the tests: the compile of the one text stays within the threads of the sandbox.
set_option Elab.async false

namespace Sys2Proof.Machine

/-- What a multicast is for, wherever the messages of its waits stand (R110, R252). -/
def RlyOpen.aim (o : RlyOpen) : RlyOpen := { o with waits := o.waits.map Wait.aim }

/-- What a slot of the relay unit is for. -/
def State.rlyAim (s : State) (k : Nat) : Option RlyOpen := (SMap.find s.rlys k).map RlyOpen.aim

/-- `u` is `s` after packets have left: the directory and the aims of multicasts are the same, and few registers differ. -/
structure State.Departs (s u : State) : Prop where
  canonical : u.canonical = true
  dirs : u.dirs = s.dirs
  regs : s.regsKept u sendRegs
  rlys : ∀ k, u.rlyAim k = s.rlyAim k

section
variable {s u v w : State} {n k j : Nat} {o : RlyOpen}

theorem State.Departs.refl (hc : s.canonical = true) : s.Departs s := ⟨hc, rfl, fun _ _ => rfl, fun _ => rfl⟩

/-- A step that touches neither registers nor directory nor relay unit. -/
theorem State.Departs.beside (d : s.Departs u) (hwin : w.win = u.win) (hdirs : w.dirs = u.dirs) (hrlys : w.rlys = u.rlys) : s.Departs w where
  canonical := by simpa only [State.canonical, hwin] using d.canonical
  dirs := hdirs.trans d.dirs
  regs b hb := by simpa only [State.reg, hwin] using d.regs b hb
  rlys k := by simpa only [State.rlyAim, hrlys] using d.rlys k

theorem State.Departs.setReg (d : s.Departs u) {a : Nat} (ha : a ∈ sendRegs) (x : Word) : s.Departs (u.setReg a x) where
  canonical := State.canonical_setReg _ _ d.canonical
  dirs := d.dirs
  regs b hb := (State.reg_setReg_ne d.canonical (fun e => by
    have hne := List.all_eq_true.1 hb a ha
    simp [e] at hne) x).trans (d.regs b hb)
  rlys := d.rlys

theorem count_mem_sendRegs (hk : k < 256) : R.PMC_CNT + 8 * k ∈ sendRegs := List.mem_append_left _ (count_mem_perfRegs hk)
theorem yardResp_mem_sendRegs : R.YARD_RESP ∈ sendRegs := List.mem_append_right _ List.mem_cons_self

theorem State.Departs.evN (d : s.Departs u) (m : Nat) (a : Attr) (hk : u.passes (u.filterOf k) a = true → k < 256) :
    s.Departs (u.evN k m a) := by
  unfold State.evN
  split
  · next h => exact d.setReg (count_mem_sendRegs (hk h)) _
  · exact d

theorem State.Departs.ev (d : s.Departs u) (hk : k < 256) (a : Attr) : s.Departs (u.ev k a) := d.evN 1 a fun _ => hk

/-- The measure of a first response (R159). -/
theorem State.Departs.respMeasured (d : s.Departs u) (src : Nat) (acc : Tod) : s.Departs (u.respMeasured src acc) := by
  unfold State.respMeasured
  extract_lets t s1 s2 s3
  have hmax : s.Departs s1 := d.setReg yardResp_mem_sendRegs _
  have hlate : s.Departs s2 := (hmax.setReg (a := R.YARD_RESP) yardResp_mem_sendRegs _).evN 1 _ fun h => by
    have := State.src_lt_of_passes h
    omega
  split
  · refine State.Departs.ev ?_ (by decide) _
    simp only [s3]
    split
    · exact hlate.ev (by decide) _
    · exact hlate
  · exact hmax

theorem State.rlyAim_updRly {f : RlyOpen → RlyOpen} (hf : ∀ o, (f o).aim = o.aim) (j : Nat) : (s.updRly k f).rlyAim j = s.rlyAim j := by
  simp only [State.rlyAim, State.updRly, SMap.find_upd]
  split
  · next h => subst h; cases SMap.find s.rlys j <;> simp [hf]
  · rfl

theorem State.Departs.left (d : s.Departs u) (hn : n < 4) (x : EgItem) : s.Departs (u.left n x) := by
  unfold State.left
  extract_lets s1 s2 start
  have h1 : s.Departs s1 := State.Departs.evN (u := { u with tx := u.tx ++ [(n, x.p)] }) (d.beside rfl rfl rfl) _ _ fun _ => by omega
  have h2 : s.Departs s2 := by
    simp only [s2]
    split
    · exact h1.respMeasured _ _
    · exact h1
  split
  · exact h2
  · split
    · split
      · exact h2.beside rfl rfl rfl
      · exact ⟨h2.canonical, h2.dirs, h2.regs, fun j => (State.rlyAim_updRly (fun o => by
          simp only [RlyOpen.aim, start, map_aim_updWait _ (f := fun w => { w with st := .sent s2.tod }) fun _ => rfl]) j).trans (h2.rlys j)⟩
    · split
      · exact h2.beside rfl rfl rfl
      · exact h2

theorem State.Departs.pumpN (hn : n < 4) (f : Nat) (d : s.Departs u) : s.Departs (u.pumpN n f) := by
  induction f generalizing u with
  | zero => exact d
  | succ f ih =>
    unfold State.pumpN
    split
    · next t e =>
      obtain ⟨p, x, rfl, -⟩ := State.pump1_eq e
      exact ih (State.Departs.left (u := u.setNp n p) (d.beside rfl rfl rfl) hn x)
    · exact d

theorem State.Departs.settleIn (d : s.Departs u) (n : Nat) : s.Departs (u.settleIn n) := by
  rw [u.settleIn_eq n]
  exact d.beside rfl rfl rfl

theorem State.Departs.enqueue (d : s.Departs u) (hn : n < 4) (x : EgItem) : s.Departs (u.enqueue n x) := by
  unfold State.enqueue State.pump
  extract_lets p k
  have hset : s.Departs (u.setNp n { p with eg := SMap.put p.eg k (p.egq k ++ [x]) }) := d.beside rfl rfl rfl
  exact (hset.pumpN hn _).settleIn n

end

end Sys2Proof.Machine
end

section
/-! The relay unit: a `RlyInv` opens a multicast and is fanned out, and the last member's answer ends it (R107, R110). -/

-- As in the tests: the compile of the one text stays within the threads of the sandbox.
set_option Elab.async false

namespace Sys2Proof.Machine

section
variable {s v u z : State} {as : List RegAddr} {e k n : Nat} {o : RlyOpen} {w : Wait} {x : InItem} {who src : EpId} {m : Msg}

/-! ### What the relay unit decides by -/

theorem State.Drifts.fld_of_quiet (d : s.Drifts perfRegs u) {b : Nat} (hb : quietReg b) (lo w : Nat) : u.fld b lo w = s.fld b lo w :=
  (d.tracks perfRegs_subset_answerRegs).fld hb lo w

theorem State.Drifts.domain (d : s.Drifts perfRegs u) : u.domain = s.domain := by
  rw [State.domain, State.domain, d.fld_of_quiet (by decide)]

theorem State.Drifts.ruEp (d : s.Drifts perfRegs u) : u.ruEp = s.ruEp := by
  rw [State.ruEp, State.ruEp, d.fld_of_quiet (by decide)]

theorem State.Drifts.ruDom (d : s.Drifts perfRegs u) (dom : BitVec 12) : u.ruDom dom = s.ruDom dom :=
  List.find?_congr fun e he => by
    have hlt := List.mem_range.1 he
    have hquiet : quietReg (0x1240 + 8 * e) := by omega
    simp only [State.flag, d.fld_of_quiet (b := R.DIR_RUDOM + 8 * e) hquiet]

theorem State.ruDom_lt {dom : BitVec 12} (h : s.ruDom dom = some e) : e < 8 := List.mem_range.1 (List.mem_of_find?_eq_some h)

theorem State.Drifts.fanOut (d : s.Drifts perfRegs u) (he : e < 8) (detail : BitVec 40) : u.fanOut e detail = s.fanOut e detail := by
  have hmask : (List.range 512).filter (fun l => u.flag (R.DIR_RUMASK + 64 * e + 8 * (l / 64)) (l % 64)) =
      (List.range 512).filter (fun l => s.flag (R.DIR_RUMASK + 64 * e + 8 * (l / 64)) (l % 64)) :=
    List.filter_congr fun l hl => by
      have hlt := List.mem_range.1 hl
      have hquiet : quietReg (0x1400 + 64 * e + 8 * (l / 64)) := by omega
      simp only [State.flag, d.fld_of_quiet (b := R.DIR_RUMASK + 64 * e + 8 * (l / 64)) hquiet]
  simp only [State.fanOut, hmask, d.ruEp]

/-! ### Member snoops -/

theorem State.sendFrom_of_route (hf : s.faults = []) {rt nh : Nat} (hr : s.route (s.toPhys m.dst) = some (n, rt, nh)) (src : EpId)
    (dom : BitVec 12) (c : Meta) : s.sendFrom src dom true m c =
      (s.enqueue n ⟨s.packet m src dom (s.toPhys m.dst) rt nh, c.stall, m.dst, c.first, c.final, none⟩, true) := by
  simp only [State.sendFrom, if_true, State.readAll_intact hf, State.routeErr_intact hf, hr]

/-- A message of the relay unit to an agent that a route reaches stands in an egress queue or has left (R110, R250). -/
theorem State.Drifts.sendFrom (d : v.Drifts perfRegs u) (hf : v.faults = []) (hr : v.reaches m.dst) (src : EpId) (dom : BitVec 12)
    (c : Meta) : ∃ z, u.sendFrom src dom true m c = (z, true) ∧ u.Departs z ∧ v.posts z m.dst m.op m.tag := by
  have t := d.tracks perfRegs_subset_answerRegs
  obtain ⟨⟨n, rt, nh⟩, hroute⟩ := Option.isSome_iff_exists.1 hr
  have hroute' : u.route (u.toPhys m.dst) = some (n, rt, nh) := by rw [t.toPhys, t.route, hroute]
  have hn := State.route_lt hroute
  obtain ⟨-, hposted⟩ := t.sends.enqueue hn
    ⟨u.packet m src dom (u.toPhys m.dst) rt nh, c.stall, m.dst, c.first, c.final, none⟩
  have hcls : (BitVec.ofNat 3 (classOf m.op)).toNat = classOf m.op := by
    rw [BitVec.toNat_ofNat]
    exact Nat.mod_eq_of_lt (classOf_lt _)
  refine ⟨_, State.sendFrom_of_route (d.faults.trans hf) hroute' src dom c, (State.Departs.refl d.canonical).enqueue hn _, n,
    ⟨u.packet m src dom (u.toPhys m.dst) rt nh, c.stall, m.dst, c.first, c.final, none⟩, rfl, rfl, rfl, ?_⟩
  simp only [State.packet, hcls] at hposted
  exact hposted

/-- The wait for a member's answer (R110). -/
def memberWait (x : InItem) (who : EpId) : Wait := ⟨who, memberOp (rlyKind x.p.detail), false, false, .queued, 0⟩

/-- The multicast with one more member snoop sent (R110). -/
def RlyOpen.asked (o : RlyOpen) (w : Wait) : RlyOpen := { o with sent := o.sent + 1, waits := o.waits ++ [w] }

theorem State.Drifts.setRlys (d : v.Drifts as u) (r : SMap RlyOpen) : v.Drifts as { u with rlys := r } :=
  ⟨d.lists, d.base, d.canonical, d.regs, congrArg (fun z : State => { z with rlys := r }) d.rest⟩

/-- A member that is not fenced, of the relay unit's own domain, is snooped (R110). -/
theorem State.Drifts.memberSnoop (d : v.Drifts perfRegs u) (hf : v.faults = []) (hfence : v.fence who = 0) (hdom : x.p.domain = v.domain)
    (hr : v.reaches who) (ho : SMap.find u.rlys k = some o) :
    v.regsKept (u.memberSnoop k x who) sendRegs ∧ (u.memberSnoop k x who).dirs = v.dirs ∧
      (u.memberSnoop k x who).rlyAim k = some (o.asked (memberWait x who)).aim ∧
      v.posts (u.memberSnoop k x who) who (memberOp (rlyKind x.p.detail)) (ruTag k) := by
  have hfence' : (u.fence who != 0) = false := by
    rw [(d.mono perfRegs_subset_relayRegs eventRegs_relayRegs).fence, hfence]
    rfl
  have hown : (x.p.domain == u.domain) = true := by rw [d.domain, hdom, beq_self_eq_true]
  unfold State.memberSnoop
  extract_lets own op m z y
  rw [hfence', show own = true from hown]
  have hz : v.Drifts perfRegs z := d.ev (by decide) _
  have hy : v.Drifts perfRegs y := hz.setRlys _
  have hfind : SMap.find y.rlys k = some (o.asked (memberWait x who)) := by
    have hzo : SMap.find z.rlys k = some o := (State.ev_rlys u ..).symm ▸ ho
    have hupd := SMap.find_upd z.rlys k k (fun o => o.asked (memberWait x who))
    rw [if_pos rfl, hzo] at hupd
    exact hupd
  obtain ⟨t, hsend, hdep, hposts⟩ := hy.sendFrom hf (m := m) hr y.ruEp x.p.domain { stall := some (2048 + k) }
  rw [hsend, if_neg Bool.false_ne_true]
  refine ⟨fun b hb => (hdep.regs b hb).trans (State.regsKept.mono hy.regs (List.subset_append_left ..) b hb),
    hdep.dirs.trans hy.dirs, ?_, hposts⟩
  dsimp only
  rw [hdep.rlys k, State.rlyAim, hfind]
  rfl

/-- A multicast with one wait, whatever its message: it stands open (R110). -/
theorem State.rly_of_aim (h : s.rlyAim k = some o.aim) (hw : o.waits = [w]) : ∃ y a, SMap.find s.rlys k = some y ∧ y.inv = o.inv ∧
    y.port = o.port ∧ y.sent = o.sent ∧ y.shared = o.shared ∧ y.waits = [a] ∧ a.who = w.who ∧ a.op = w.op := by
  simp only [State.rlyAim, Option.map_eq_some_iff] at h
  obtain ⟨y, hy, haim⟩ := h
  have hwaits : y.waits.map Wait.aim = [w.aim] := by
    rw [show y.waits.map Wait.aim = o.waits.map Wait.aim from congrArg RlyOpen.waits haim, hw]
    rfl
  obtain ⟨a, ha, hwa⟩ := List.map_eq_singleton_iff.1 hwaits
  exact ⟨y, a, hy, (congrArg RlyOpen.inv haim :), (congrArg RlyOpen.port haim :), (congrArg RlyOpen.sent haim :),
    (congrArg RlyOpen.shared haim :), ha, (congrArg Wait.who hwa :), (congrArg Wait.op hwa :)⟩

/-- A multicast whose members have not all answered stays open (R110). -/
theorem State.rlyFinish_waiting (h : SMap.find s.rlys k = some o) (hw : o.waits = [w]) : s.rlyFinish k = s := by
  simp only [State.rlyFinish, h, hw, List.isEmpty_cons, Bool.false_eq_true, if_false]

/-- A `RlyInv` with one member that is not fenced: the multicast stands open, and the member is snooped (R110). -/
theorem State.Drifts.rlyOpen (d : v.Drifts perfRegs u) (hf : v.faults = []) (hchk : v.chk = false) (he : v.ruDom x.p.domain = some e)
    (hkind : rlyKind x.p.detail < 3) (hfan : v.fanOut e x.p.detail = [who]) (hfence : v.fence who = 0) (hdom : x.p.domain = v.domain)
    (hr : v.reaches who) (port : Nat) :
    v.regsKept (u.rlyOpen port x k) sendRegs ∧ (u.rlyOpen port x k).dirs = v.dirs ∧
      (∃ o w, SMap.find (u.rlyOpen port x k).rlys k = some o ∧ o.inv = x ∧ o.port = port ∧ o.sent = 1 ∧ o.shared = 0 ∧
        o.waits = [w] ∧ w.who = who ∧ w.op = memberOp (rlyKind x.p.detail)) ∧
      v.posts (u.rlyOpen port x k) who (memberOp (rlyKind x.p.detail)) (ruTag k) := by
  unfold State.rlyOpen
  extract_lets z o y
  have hz : v.Drifts perfRegs z := d.ev (by decide) _
  have hy : v.Drifts perfRegs y := ⟨hz.lists, hz.base, hz.canonical, hz.regs,
    congrArg (fun q : State => { q with rlys := y.rlys, lates := y.lates }) hz.rest⟩
  have hfind : SMap.find y.rlys k = some o := SMap.find_put_self ..
  rw [hz.ruDom, he]
  dsimp only
  rw [if_neg (Nat.ne_of_lt hkind), if_neg (by simp [hz.chk, hchk]), hy.fanOut (State.ruDom_lt he), hfan]
  obtain ⟨hregs, hdirs, haim, hposts⟩ := hy.memberSnoop hf hfence hdom hr hfind
  obtain ⟨p, a, hp, hinv, hport, hsent, hshared, hw, hwho, hop⟩ := State.rly_of_aim haim rfl
  rw [List.foldl_cons, List.foldl_nil, State.rlyFinish_waiting hp hw]
  exact ⟨hregs, hdirs, ⟨p, a, hp, hinv, hport, hsent, hshared, hw, hwho, hop⟩, hposts⟩

/-! ### The last member's answer -/

/-- The registers of a combined answer: the relay unit's status and those of events (R110). -/
def ruRegs : List RegAddr := R.DIR_RUSTATUS :: perfRegs

theorem eventRegs_ruRegs : EventRegs ruRegs := eventRegs_perfRegs.cons (by decide)

/-- A status bit of the relay unit is set, with its event, where its condition holds (R110). -/
theorem State.Drifts.ruStatus (d : v.Drifts ruRegs u) (c : Bool) (b : Nat) {j : Nat} (hj : j < 256) (a : Attr) :
    v.Drifts ruRegs (if c then (u.setFlag R.DIR_RUSTATUS b true).ev j a else u) ∧
      (if c then (u.setFlag R.DIR_RUSTATUS b true).ev j a else u).rlys = u.rlys := by
  split
  · exact ⟨(d.setFlag List.mem_cons_self b true).ev hj a, State.ev_rlys ..⟩
  · exact ⟨d, rfl⟩

/-- The detail of a message that names no requester leaves as it is (R60). -/
theorem State.egressDetail_of_ne (s : State) {m : Msg} (hs : m.op ≠ Op.snpShare) (hu : m.op ≠ Op.snpUnique) :
    s.egressDetail m = m.detail := by
  simp [State.egressDetail, hs, hu]

/-- A combined answer to the home of the same core stands behind those that wait for it (R110, R112). -/
theorem State.Drifts.rlyAckTo_own (d : v.Drifts ruRegs u) (x : InItem) (detail : Nat) :
    ∃ z y, u.rlyAckTo 4 x detail = { z with ruBack := v.ruBack ++ [y] } ∧ v.Drifts ruRegs z ∧ z.rlys = u.rlys ∧
      y.p.opcode = Op.rlyAck ∧ y.p.tag = x.p.tag ∧ y.p.line = x.p.line ∧ y.p.detail = BitVec.ofNat 40 detail := by
  unfold State.rlyAckTo
  extract_lets z1 z2 z3 own m p₀ p
  obtain ⟨h1, e1⟩ : v.Drifts ruRegs z1 ∧ z1.rlys = u.rlys := d.ruStatus _ _ (by decide) _
  obtain ⟨h2, e2⟩ : v.Drifts ruRegs z2 ∧ z2.rlys = z1.rlys := h1.ruStatus _ _ (by decide) _
  obtain ⟨h3, e3⟩ : v.Drifts ruRegs z3 ∧ z3.rlys = z2.rlys := h2.ruStatus _ _ (by decide) _
  refine ⟨z3, ⟨p, z3.ruEp, x.raw, 0⟩, ?_, h3, e3.trans (e2.trans e1), rfl, rfl, rfl, ?_⟩
  · rw [if_pos rfl, show z3.ruBack = v.ruBack from (congrArg State.ruBack h3.rest :)]
  · exact z3.egressDetail_of_ne (m := m) (by decide : Op.rlyAck ≠ Op.snpShare) (by decide : Op.rlyAck ≠ Op.snpUnique)

/-- The detail of the combined answer of a multicast (R106). -/
def RlyOpen.summary (o : RlyOpen) : Nat := o.sent % 2 ^ 10 + o.shared % 2 ^ 10 * 2 ^ 10 + b2n o.viol * 2 ^ 20 + b2n o.fail * 2 ^ 21

theorem RlyOpen.summary_counts (o : RlyOpen) : (BitVec.ofNat 40 o.summary).toNat % 2 ^ 10 = o.sent % 2 ^ 10 ∧
    (BitVec.ofNat 40 o.summary).toNat / 2 ^ 10 % 2 ^ 10 = o.shared % 2 ^ 10 := by
  have hviol : b2n o.viol ≤ 1 := by cases o.viol <;> decide
  have hfail : b2n o.fail ≤ 1 := by cases o.fail <;> decide
  rw [BitVec.toNat_ofNat, RlyOpen.summary]
  omega

/-- A multicast whose members have all answered frees its slot and sends its combined answer (R110). -/
theorem State.rlyFinish_done (h : SMap.find s.rlys k = some o) (hw : o.waits = []) :
    s.rlyFinish k = ({ s with rlys := SMap.del s.rlys k } : State).rlyAckTo o.port o.inv o.summary := by
  simp only [State.rlyFinish, h, hw, List.isEmpty_nil, if_true, RlyOpen.summary]

/-- The answer of the one member that a multicast waits for, left in I, closes it (R107, R110). -/
theorem State.memberAnswer_last (hwf : SMap.wf u.rlys = true) (hfind : SMap.find u.rlys k = some o) (htag : x.p.tag.toNat = 2048 + k)
    (hchk : (u.ev (ansEvent x.p.opcode) (pktAttr n x.p)).chk = false)
    (hdom : o.inv.p.domain = (u.ev (ansEvent x.p.opcode) (pktAttr n x.p)).domain) (hw : o.waits = [w]) (hwho : w.who = x.p.src)
    (hline : o.inv.p.line = x.p.line) (hop : x.p.opcode = Op.snpAckI) :
    ∃ r, SMap.find r k = none ∧ u.memberAnswer n x =
      ({ u.ev (ansEvent x.p.opcode) (pktAttr n x.p) with rlys := r } : State).rlyAckTo o.port o.inv o.summary := by
  unfold State.memberAnswer
  extract_lets z i
  have hi : i = k := by simp only [i]; omega
  have hz : SMap.find z.rlys k = some o := (State.ev_rlys u ..).symm ▸ hfind
  have htag' : ¬ x.p.tag.toNat < 2048 := by omega
  have hcounts : memberCounts w.op x.p.opcode = (false, false) := by simp [memberCounts, hop]
  have hwhoOf : o.whoOf z.domain x = w.who := by rw [RlyOpen.whoOf, if_pos hdom, hwho]
  have hlast := SMap.find_upd z.rlys k k fun o => { o with waits := [] }
  rw [if_pos rfl, hz, Option.map_some] at hlast
  refine ⟨_, SMap.find_del_self (SMap.wf_upd (m := z.rlys) ((State.ev_rlys u ..).symm ▸ hwf) k fun o => { o with waits := [] }) k, ?_⟩
  have hfw : o.waits.find? (fun a => a.who == o.whoOf z.domain x) = some w := by simp [hw, hwhoOf]
  have hupd : SMap.upd z.rlys k (fun o => { o with shared := o.shared + b2n false, viol := o.viol || false, waits := o.waits.erase w }) =
      SMap.upd z.rlys k (fun o => { o with waits := [] }) := by
    simp [SMap.upd, hz, hw, b2n]
  rw [if_neg htag', hi, hz]
  simp only [show z.chk = false from hchk, Bool.false_and, Bool.false_eq_true, if_false, hfw, hcounts, hline, if_true, State.updRly, hupd]
  rw [State.rlyFinish_done hlast rfl]
  rfl

/-! ### The two commands -/

/-- A `RlyInv` is taken from its port, or from the home of the same core (R110). -/
def State.rlyTaken (s : State) (port : Nat) (x : InItem) : State :=
  if port = 4 then { s with ruIn := s.ruIn.tail } else s.dropIn port 3 x

theorem exec_rlyInv {n : Fin 5} (hnext : s.nextRly n = some x) (hk : SMap.firstFree s.rlys 0 Config.relaySlots = some k) :
    exec (.rlyInv n) s = .next (finish s ((s.rlyTaken n x).rlyOpen n x k)) := by
  simp only [exec, execRlyInv, hnext, hk, State.rlyTaken]

theorem exec_relayMemberAnswer {n : Fin 4} (hnext : s.nextMember n = some x) :
    exec (.relayMemberAnswer n) s = .next (finish s ((s.dropIn n x.p.cls.toNat x).memberAnswer n x)) := by
  simp only [exec, execRelayMemberAnswer, hnext]

theorem State.Drifts.dropIn (hl : EventRegs as) (hc : s.canonical = true) (n c : Nat) (x : InItem) : s.Drifts as (s.dropIn n c x) :=
  s.dropIn_eq n c x ▸ (State.Drifts.refl hl hc).setQueues (s.dropIn n c x).nps s.lanePtr

/-- But for the queue of the home of the same core, taking a `RlyInv` changes the ports only. -/
theorem State.rlyTaken_drifts (hc : s.canonical = true) (port : Nat) (x : InItem) :
    ∃ l, ({ s with ruIn := l } : State).Drifts perfRegs (s.rlyTaken port x) := by
  unfold State.rlyTaken
  split
  · exact ⟨s.ruIn.tail, State.Drifts.refl eventRegs_perfRegs hc⟩
  · exact ⟨s.ruIn, State.Drifts.dropIn eventRegs_perfRegs hc port 3 x⟩

end

/-- Settles O42: the fan-out of one member opens the multicast with one wait, and that member's answer closes it. -/
theorem relayUnit : Obligations.RelayUnit := by
  refine ⟨?_, ?_⟩
  · intro s n x k e m hcalm hnext hk he hkind hfan hfence hdom hr
    obtain ⟨hc, -, -, -, -, -, -, -, -, -, -, hfa, hchk⟩ := hcalm
    obtain ⟨l, hd⟩ := State.rlyTaken_drifts hc n.val x
    obtain ⟨hregs, hdirs, hopen, hposts⟩ := hd.rlyOpen hfa hchk he hkind hfan hfence hdom hr n.val (k := k)
    exact ⟨_, exec_rlyInv hnext hk, hopen, hposts, hdirs, hregs⟩
  · intro s n x k o w hcalm hnext htag hfind hport hw hdom hwho hline hop
    obtain ⟨hc, -, -, -, -, -, -, -, hwf, -, -, hfa, hchk⟩ := hcalm
    have hd : s.Drifts perfRegs (s.dropIn n x.p.cls.toNat x) := State.Drifts.dropIn eventRegs_perfRegs hc ..
    have hrlys : (s.dropIn n x.p.cls.toNat x).rlys = s.rlys :=
      (congrArg State.rlys (s.dropIn_eq n x.p.cls.toNat x) :)
    have hz := hd.ev (ansEvent_lt x.p.opcode) (pktAttr n x.p)
    obtain ⟨r, hnone, hgo⟩ := State.memberAnswer_last (n := n) (hrlys ▸ hwf) (hrlys ▸ hfind) htag (hz.chk.trans hchk)
      (hdom.trans hz.domain.symm) hw hwho hline hop
    obtain ⟨z, y, hack, hdone, hslots, hyop, hytag, hyline, hydetail⟩ :=
      ((hz.setRlys r).mono (List.subset_cons_self ..) eventRegs_ruRegs).rlyAckTo_own o.inv o.summary
    refine ⟨_, exec_relayMemberAnswer hnext, ?_⟩
    rw [hgo, hport, hack]
    have hcounts := hydetail ▸ o.summary_counts
    exact ⟨(congrArg (SMap.find · k) hslots).trans hnone, ⟨y, rfl, hyop, hytag, hyline, hcounts⟩, hdone.dirs, hdone.stalls, hdone.regs⟩

end Sys2Proof.Machine
end

section
/-! The slow walks over the directory: ways that have been cleared, the scrub, the purge walk and the cleaner (R121, R124, R126, R131). -/

-- As in the tests: the compile of the one text stays within the threads of the sandbox.
set_option Elab.async false

namespace Sys2Proof.Machine

section
variable {s u v z : State} {i j k n w sl src : Nat} {e : DirEntry} {who : EpId} {c : Chk}

/-! ### Cleared ways -/

/-- The damage of ways 8-15 ends with their clearing (R124). -/
def State.clearedFaults (s : State) : List (Nat × Nat × Chk) := s.faults.filter (fun f => !(f.1 == 0 && decide (8 ≤ f.2.1 % 16)))

/-- Ways cleared are open, and their event is set (R124). -/
def State.waysOpened (s : State) : State :=
  (({ s with faults := s.clearedFaults } : State).setFld R.DIR_WAYPWR 1 2 0).setFlag R.DIR_WAYPWR 3 true

theorem State.waysOpened_shows (hc : s.canonical = true) : s.waysOpened.canonical = true ∧ s.waysOpened.wayState = 0 ∧
    s.waysOpened.flag R.DIR_WAYPWR 3 = true ∧ s.waysOpened.flag R.DIR_WAYPWR 0 = s.flag R.DIR_WAYPWR 0 ∧
    ({ s with faults := s.clearedFaults } : State).onlyRegs s.waysOpened [R.DIR_WAYPWR] := by
  have hbase : ({ s with faults := s.clearedFaults } : State).canonical = true := hc
  have hset := State.canonical_setFld hbase R.DIR_WAYPWR 1 2 0
  refine ⟨State.canonical_setFld hset .., ?_, State.flag_setFlag_self hset _ (by decide) true, ?_,
    (State.onlyRegs_setFld hbase ..).trans (State.onlyRegs_setFld hset ..)⟩
  · exact (State.fld_setFld_below hset _ _ (by decide) (by decide)).trans (State.fld_setFld_self hbase _ 0 (by decide))
  · exact (State.flag_setFld_apart hset (by decide) (by decide) _).trans (State.flag_setFld_apart hbase (by decide) (by decide) 0)

/-- Registers that differ beside the damage recorded. -/
theorem State.onlyRegs.of_faults {l : List (Nat × Nat × Chk)} {as : List RegAddr} (h : ({ s with faults := l } : State).onlyRegs u as) :
    s.onlyRegs { u with faults := s.faults } as :=
  ⟨congrArg (fun q : State => { q with faults := s.faults }) h.1, h.2⟩

/-- WAY_CLEAR_DONE (R124). -/
theorem exec_wayClearDone (hst : s.wayState = 3) : exec .wayClearDone s = .next (finish s
    (if s.waysOpened.flag R.DIR_WAYPWR 0 then s.waysOpened else s.waysOpened.setFld R.DIR_WAYPWR 1 2 1)) := by
  simp only [exec, execWayClearDone, hst, if_true]
  rfl

theorem does_wayClearDone (hc : s.canonical = true) (hst : s.wayState = 3) : does .wayClearDone s (fun u =>
    u.wayState = (if s.flag R.DIR_WAYPWR 0 then 0 else 1) ∧ u.flag R.DIR_WAYPWR 3 = true ∧ u.flag R.DIR_WAYPWR 0 = s.flag R.DIR_WAYPWR 0 ∧
    s.onlyRegs { u with faults := s.faults } [R.DIR_WAYPWR]) := by
  obtain ⟨hcan, hopen, hev, hreq, honly⟩ := State.waysOpened_shows hc
  refine ⟨_, exec_wayClearDone hst, ?_⟩
  cases hon : s.flag R.DIR_WAYPWR 0 with
  | true =>
    rw [if_pos (hreq.trans hon)]
    exact ⟨hopen, hev, hreq.trans hon, honly.of_faults⟩
  | false =>
    rw [if_neg (by simp [hreq, hon])]
    have hkept : ∀ b, 3 ≤ b ∨ b + 1 ≤ 1 → _ := fun b hb =>
      State.flag_setFld_apart hcan (a := R.DIR_WAYPWR) (lo := 1) (w := 2) (by decide) hb 1
    exact ⟨State.fld_setFld_self hcan _ 1 (by decide), (hkept 3 (by decide)).trans hev, (hkept 0 (by decide)).trans (hreq.trans hon),
      (honly.trans (State.onlyRegs_setFld hcan ..)).of_faults⟩

/-! ### The scrub -/

theorem dirKey_inj (hi : i < 16) (hj : j < 16) (h : dirKey n i = dirKey k j) : n = k ∧ i = j := by
  simp only [dirKey] at h
  omega

theorem State.lookupWays_le (s : State) : s.lookupWays ≤ 16 := by
  unfold State.lookupWays
  split <;> decide

/-- Damage at one index is none at another. -/
theorem State.damage_other (hf : s.faults = [(src, i, c)]) (h : j ≠ i) : s.damage src j = none := by
  simp [State.damage, hf, h.symm]

theorem State.dirProbe_other (hf : s.faults = [(src, i, c)]) (h : j ≠ i) (line : LineAddr) : s.dirProbe src j line = s := by
  simp only [State.dirProbe, State.damage_other hf h]

/-- The registers of a corrected directory word but for its count (R129). -/
def eccRegs : List RegAddr := R.DIR_ECC_LOC :: recordRegs

theorem eventRegs_eccRegs : EventRegs eccRegs := eventRegs_recordRegs.cons (by decide)

theorem State.Drifts.eccLoc (d : v.Drifts eccRegs u) (src loc : Nat) (freeze : Bool) : v.Drifts eccRegs (u.eccLoc src loc freeze) := by
  unfold State.eccLoc
  split
  · exact d
  · exact d.setReg List.mem_cons_self _

/-- The one damaged word corrected and counted (R129). -/
def State.corrected (s : State) : State := ({ s with faults := [] } : State).addFld R.DIR_ECC_STATUS 0 16 1

theorem State.corrected_count (hc : s.canonical = true) :
    s.corrected.fld R.DIR_ECC_STATUS 0 16 = min (s.fld R.DIR_ECC_STATUS 0 16 + 1) 0xFFFF := by
  have hbase : ({ s with faults := [] } : State).canonical = true := hc
  refine (State.fld_setFld_self hbase _ _ (by decide)).trans (Nat.mod_eq_of_lt ?_)
  exact Nat.lt_of_le_of_lt (Nat.min_le_right ..) (by decide)

/-- A correctable word that is read is corrected, counted, located and recorded (R129). -/
theorem State.dirProbe_corrects (hc : s.canonical = true) (hf : s.faults = [(0, i, .ce)]) (line : LineAddr) :
    s.corrected.Drifts eccRegs (s.dirProbe 0 i line) := by
  have hdamage : s.damage 0 i = some .ce := by simp [State.damage, hf]
  have hmend : s.mend 0 i = { s with faults := [] } := by simp [State.mend, hf]
  have hcan : s.corrected.canonical = true := State.canonical_setFld (s := { s with faults := [] }) hc ..
  have hz := ((State.Drifts.refl eventRegs_eccRegs hcan).eccLoc 0 (locOfKey i) false).ev (k := 0xB0) (by decide) {}
  simp only [State.dirProbe, hdamage, hmend, if_true]
  split
  · exact hz.note (List.mem_cons_of_mem _ List.mem_cons_self) ..
  · exact hz

/-- A set's open ways are read for the scrub (R131). -/
def State.scrubSlice (s : State) (n sl : Nat) : State :=
  (List.range s.lookupWays).foldl (fun u w => u.dirProbe 0 (dirKey (n * 8 + sl) w) (u.lineAt (dirKey (n * 8 + sl) w))) s

theorem State.scrubSlice_intact (hf : s.faults = []) (n sl : Nat) : s.scrubSlice n sl = s :=
  foldl_eq_self fun _ _ => State.dirProbe_intact hf ..

theorem State.extProbe_intact (hf : s.faults = []) (x : Nat) (line : LineAddr) : s.extProbe x line = s :=
  foldl_eq_self fun _ _ => State.dirProbe_intact hf ..

/-- The one correctable word, in an open way of the set of slice `sl`, is corrected as the set is read (R131). -/
theorem State.scrubSlice_corrects (hc : s.canonical = true) (hw : w < s.lookupWays) (hf : s.faults = [(0, dirKey (n * 8 + sl) w, .ce)]) :
    s.corrected.Drifts eccRegs (s.scrubSlice n sl) := by
  have hdrift := State.dirProbe_corrects hc hf (s.lineAt (dirKey (n * 8 + sl) w))
  have hways := s.lookupWays_le
  have hgo : s.scrubSlice n sl = s.dirProbe 0 (dirKey (n * 8 + sl) w) (s.lineAt (dirKey (n * 8 + sl) w)) :=
    foldl_range_one hw rfl
      (fun j hj hjw => State.dirProbe_other hf (fun he => hjw (dirKey_inj (by omega) (by omega) he).2) _)
      fun j _ _ => State.dirProbe_intact hdrift.faults ..
  rw [hgo]
  exact hdrift

/-- The ways of another slice hold no damage. -/
theorem State.scrubSlice_other (hw : w < s.lookupWays) (hf : s.faults = [(0, dirKey (n * 8 + sl) w, c)]) (hj : j ≠ sl) :
    s.scrubSlice n j = s := by
  have hways := s.lookupWays_le
  refine foldl_eq_self fun y hy => State.dirProbe_other hf (fun he => hj ?_) _
  have hlt := List.mem_range.1 hy
  have := (dirKey_inj (by omega) (by omega) he).1
  omega

/-- The end of a scrub: the extension entry of the set's number is read, and the next set is due (R131). -/
def State.scrubEnd (s : State) (n : Nat) : State :=
  { s.extProbe n 0 with rcv := { s.rcv with scrubSet := (n + 1) % 2 ^ 14, scrubAt := s.tod } }

theorem State.scrub_eq (s : State) :
    s.scrub = ((List.range 8).foldl (fun t sl => t.scrubSlice s.rcv.scrubSet sl) s).scrubEnd s.rcv.scrubSet := rfl

/-- The scrub of a set with one correctable word corrects it, and goes on to the next set (R131). -/
theorem State.scrub_corrects (hc : s.canonical = true) (hsl : sl < 8) (hw : w < s.lookupWays)
    (hf : s.faults = [(0, dirKey (s.rcv.scrubSet * 8 + sl) w, .ce)]) :
    ∃ z, s.corrected.Drifts eccRegs z ∧
      s.scrub = { z with rcv := { z.rcv with scrubSet := (s.rcv.scrubSet + 1) % 2 ^ 14, scrubAt := z.tod } } := by
  have hdrift := State.scrubSlice_corrects hc hw hf
  have hgo : (List.range 8).foldl (fun t sl => t.scrubSlice s.rcv.scrubSet sl) s = s.scrubSlice s.rcv.scrubSet sl :=
    foldl_range_one hsl rfl (fun j _ hj => State.scrubSlice_other hw hf hj) fun j _ _ => State.scrubSlice_intact hdrift.faults ..
  refine ⟨_, hdrift, ?_⟩
  rw [State.scrub_eq, hgo, State.scrubEnd, State.extProbe_intact hdrift.faults]

theorem exec_scrubRead (hclear : s.flag R.DIR_STATUS 0 = true) (hon : s.fld R.DIR_SCRUB 0 16 ≠ 0)
    (hdue : nsec (32 * s.fld R.DIR_SCRUB 0 16) ≤ elapsed s.rcv.scrubAt s.tod) : exec .scrubRead s = .next (finish s s.scrub) := by
  simp only [exec, execScrubRead]
  rw [if_pos]
  simp [hclear, hon, hdue]

theorem does_scrubRead (hc : s.canonical = true) (hclear : s.flag R.DIR_STATUS 0 = true) (hon : s.fld R.DIR_SCRUB 0 16 ≠ 0)
    (hsl : sl < 8) (hw : w < s.lookupWays) (hdue : nsec (32 * s.fld R.DIR_SCRUB 0 16) ≤ elapsed s.rcv.scrubAt s.tod)
    (hf : s.faults = [(0, dirKey (s.rcv.scrubSet * 8 + sl) w, .ce)]) :
    does .scrubRead s (fun u => u.faults = [] ∧ u.fld R.DIR_ECC_STATUS 0 16 = min (s.fld R.DIR_ECC_STATUS 0 16 + 1) 0xFFFF ∧
      u.rcv.scrubSet = (s.rcv.scrubSet + 1) % 2 ^ 14 ∧ u.rcv.scrubAt = s.tod ∧ u.dirs = s.dirs ∧ u.exts = s.exts) := by
  obtain ⟨z, hz, hgo⟩ := State.scrub_corrects hc hsl hw hf
  have hquiet : ∀ a ∈ eccRegs, a / 8 ≠ R.DIR_ECC_STATUS / 8 := List.forall_mem_cons.2 ⟨by decide, List.forall_mem_cons.2
    ⟨by decide, fun a ha he => (by decide : quietReg R.DIR_ECC_STATUS) (he ▸ answerSlot_of_mem (perfRegs_subset_answerRegs ha))⟩⟩
  have hcount : z.fld R.DIR_ECC_STATUS 0 16 = s.corrected.fld R.DIR_ECC_STATUS 0 16 := congrArg (getBits · 0 16) (hz.reg hquiet)
  refine ⟨s.scrub, exec_scrubRead hclear hon hdue, ?_⟩
  rw [hgo]
  exact ⟨hz.faults, hcount.trans (State.corrected_count hc), rfl, hz.tod, hz.dirs, (congrArg State.exts hz.rest :)⟩

/-! ### The purge walk -/

/-- The walk records that an ID has left its starting position (R126). -/
def State.purging (s : State) (l : List (EpId × Nat × Bool)) : State := { s with rcv := { s.rcv with purge := l } }

theorem SMap.find_singleton_ne {α : Type} {a : α} (h : j ≠ k) : SMap.find [(k, a)] j = none := by
  simp [SMap.find, h.symm]

/-- The only sharer of an entry in pointer form is taken out, and the entry is free (R127). -/
theorem State.purgeId_sharer (hfind : SMap.find s.dirs k = some e) (hst : e.st = .s) (hsh : e.sh = .ptr (some who) none) :
    s.purgeId k who = ({ s with dirs := SMap.del s.dirs k } : State).ev 0x8D
      { i := some who.toNat, l := some (s.lineOf (hOfKey k e)).toNat } := by
  have howner : e.owner = none := by simp [DirEntry.owner, hst]
  have hexact : s.exact e = [who] := by simp [State.exact, hst, hsh]
  have hform : e.sh.form = 0 := by simp [Sharers.form, hsh]
  have hset : s.setExact k (hOfKey k e) e none (fun x => x != who) = { s with dirs := SMap.del s.dirs k } := by
    simp [State.setExact, hexact, State.freeEntry_ptr hfind hsh]
  simp [State.purgeId, hfind, howner, hexact, hform, hset]

/-- The registers of a visit of the purge walk that goes on (R126). -/
def walkRegs : List RegAddr := R.DIR_PURGE_STATUS :: perfRegs

theorem eventRegs_walkRegs : EventRegs walkRegs := eventRegs_perfRegs.cons (by decide)

/-- The walk reads a way of its position, and takes its IDs out of an entry that is not pinned (R126, R127). -/
def State.purgeWay (s : State) (pos w : Nat) : State :=
  match SMap.find s.dirs (dirKey pos w) with
  | some e =>
    let t := (s.dirProbe 0 (dirKey pos w) (s.lineAt (dirKey pos w))).extRead (dirKey pos w) e
    if t.chk || t.pinned (dirKey pos w) then t else t.purgeEntry (dirKey pos w)
  | none => s.dirProbe 0 (dirKey pos w) 0

/-- The open ways of the walk's position (R126). -/
def State.purgeWays (s : State) (pos : Nat) : State := (List.range s.lookupWays).foldl (fun t w => t.purgeWay pos w) s

theorem State.purgeWay_free (hfa : s.faults = []) (h : SMap.find s.dirs (dirKey n w) = none) : s.purgeWay n w = s := by
  simp only [State.purgeWay, h, State.dirProbe_intact hfa]

/-- The walk's one ID leaves the one entry of its position, whose only sharer it is (R127). -/
theorem State.purgeWays_removes {start : Nat} (hc : s.canonical = true) (hfa : s.faults = []) (hchk : s.chk = false) (hw : w < s.lookupWays)
    (hpurge : s.rcv.purge = [(who, start, true)]) (hdirs : s.dirs = [(dirKey n w, e)]) (hst : e.st = .s)
    (hsh : e.sh = .ptr (some who) none) (hpin : s.pinned (dirKey n w) = false) :
    ({ s with dirs := [] } : State).Drifts walkRegs (s.purgeWays n) := by
  have hways := s.lookupWays_le
  have hself : SMap.find s.dirs (dirKey n w) = some e := by simp [hdirs, SMap.find]
  have hdel : SMap.del s.dirs (dirKey n w) = [] := by simp [hdirs, SMap.del]
  have hread : s.extRead (dirKey n w) e = s := by simp only [State.extRead, hsh, Sharers.xidx]
  have hgone := State.purgeId_sharer hself hst hsh
  rw [hdel] at hgone
  have hcan : ({ s with dirs := [] } : State).canonical = true := hc
  have hz : ({ s with dirs := [] } : State).Drifts walkRegs (s.purgeId (dirKey n w) who) :=
    hgone ▸ (State.Drifts.refl eventRegs_walkRegs hcan).ev (by decide) _
  have hat : s.purgeWay n w = s.purgeId (dirKey n w) who := by
    simp only [State.purgeWay, hself, State.dirProbe_intact hfa, hread, hchk, hpin, Bool.or_self, Bool.false_eq_true, if_false,
      State.purgeEntry, hpurge, List.foldl_cons, List.foldl_nil]
  have hgo : s.purgeWays n = s.purgeId (dirKey n w) who := foldl_range_one hw hat
    (fun j hj hjw => State.purgeWay_free hfa (by
      rw [hdirs]
      exact SMap.find_singleton_ne fun he => hjw (dirKey_inj (by omega) (by omega) he).2))
    fun j _ _ => State.purgeWay_free (hz.faults.trans hfa) (by rw [hz.dirs]; rfl)
  rw [hgo]
  exact hz

/-- A visit of the walk with one ID, that is not back where it joined (R126). -/
theorem State.purgeVisit_goes_on {start : Nat} {b : Bool} (hchk : s.chk = false) (hpurge : s.rcv.purge = [(who, start, b)])
    (hstart : b = true → start ≠ s.fld R.DIR_PURGE_STATUS 6 17) (hwait : s.rcv.purgeWait = []) :
    s.purgeVisit = ((s.purging [(who, start, true)]).purgeWays (s.fld R.DIR_PURGE_STATUS 6 17)).setFld R.DIR_PURGE_STATUS 6 17
      ((s.fld R.DIR_PURGE_STATUS 6 17 + 1) % Config.positions) := by
  have hstays : (b && start == s.fld R.DIR_PURGE_STATUS 6 17) = false := by
    cases b with
    | false => rfl
    | true => simpa using hstart rfl
  unfold State.purgeVisit
  rw [if_neg (by simp [hpurge, hchk])]
  extract_lets pos gone stay r s1 s2 r2 s3 r3 s4 s5
  have hgo : gone = [] := by simp [gone, pos, hpurge, hstays]
  have hstay : stay = [(who, start, true)] := by
    simp only [stay, pos, hpurge, List.filter_cons, List.filter_nil, hstays, Bool.not_false, if_true, List.map_cons, List.map_nil]
  have h2 : s2 = s.purging [(who, start, true)] := by
    simp only [s2, hgo, List.foldl_nil, s1, r, hstay, State.purging]
  have h3 : s3 = s.purging [(who, start, true)] := by
    have : (s.purging [(who, start, true)]).rcv.purgeWait = [] := hwait
    simp only [s3, h2, this]
  rw [h3, if_neg (by simp [State.purging])]
  have h5 : s5 = (s.purging [(who, start, true)]).purgeWays pos := by
    simp only [s5, s4, r3, h3]
    rfl
  rw [h5]

theorem exec_purgeWalkVisit : exec .purgeWalkVisit s = .next (finish s s.purgeVisit) := rfl

/-- A visit at a position whose one entry has the walk's ID as its only sharer frees the entry (R126, R127). -/
theorem does_purgeWalkVisit_removes {start pos : Nat} {b : Bool} (hcalm : s.calm) (hpos : pos = s.fld R.DIR_PURGE_STATUS 6 17)
    (hw : w < s.lookupWays) (hpurge : s.rcv.purge = [(who, start, b)]) (hstart : b = true → start ≠ pos) (hwait : s.rcv.purgeWait = [])
    (hdirs : s.dirs = [(dirKey pos w, e)]) (hst : e.st = .s) (hsh : e.sh = .ptr (some who) none)
    (hpin : s.pinned (dirKey pos w) = false) :
    does .purgeWalkVisit s (fun u => u.dirs = [] ∧ u.rcv.purge = [(who, start, true)] ∧
      u.fld R.DIR_PURGE_STATUS 6 17 = (pos + 1) % Config.positions ∧ u.stalls = s.stalls ∧ s.regsKept u (R.DIR_PURGE_STATUS :: perfRegs)) := by
  obtain ⟨hc, -, -, -, -, -, -, -, -, -, -, hfa, hchk⟩ := hcalm
  subst hpos
  have hz := State.purgeWays_removes (s := s.purging [(who, start, true)]) hc hfa hchk hw rfl hdirs hst hsh hpin
  have hu := hz.setFld List.mem_cons_self 6 17 ((s.fld R.DIR_PURGE_STATUS 6 17 + 1) % Config.positions)
  refine ⟨s.purgeVisit, exec_purgeWalkVisit, ?_⟩
  rw [State.purgeVisit_goes_on hchk hpurge hstart hwait]
  refine ⟨hu.dirs, by rw [hu.rcv]; rfl, ?_, hu.stalls, hu.regs⟩
  exact (State.fld_setFld_self hz.canonical _ _ (by decide)).trans (Nat.mod_eq_of_lt (Nat.mod_lt _ (by decide)))

/-! ### The end of a purge walk -/

/-- `u` is `s` but for registers of `as`, among them those of a record, and what the service unit holds. -/
structure State.Notes (as : List RegAddr) (s u : State) : Prop where
  lists : noteRegs ⊆ as
  canonical : u.canonical = true
  only : s.onlyRegs { u with svc := s.svc } as

section
variable {as : List RegAddr}

theorem State.Notes.refl (hl : noteRegs ⊆ as) (hc : s.canonical = true) : s.Notes as s := ⟨hl, hc, s.onlyRegs_refl as⟩

theorem State.Notes.setReg (d : s.Notes as u) {a : Nat} (ha : a ∈ as) (x : Word) : s.Notes as (u.setReg a x) where
  lists := d.lists
  canonical := State.canonical_setReg _ _ d.canonical
  only := d.only.trans ((State.onlyRegs_setReg (s := { u with svc := s.svc }) d.canonical a x).mono
    (List.cons_subset.2 ⟨ha, List.nil_subset _⟩))

theorem State.Notes.setFld (d : s.Notes as u) {a : Nat} (ha : a ∈ as) (lo n x : Nat) : s.Notes as (u.setFld a lo n x) := d.setReg ha _

theorem State.Notes.setSvc (d : s.Notes as u) (c : SvcSt) : s.Notes as { u with svc := c } := ⟨d.lists, d.canonical, d.only⟩

theorem State.Notes.regs (d : s.Notes as u) : s.regsKept u as := d.only.2

theorem State.Notes.rest (d : s.Notes as u) : u = { s with win := u.win, svc := u.svc } :=
  congrArg (fun q : State => { q with svc := u.svc }) d.only.1

/-- A record, written or counted as lost (R449). -/
theorem State.Notes.note (d : s.Notes as u) (src cls det sev : Nat) (world : Bool) (line : LineAddr) (tag : Tag) (id : BitVec 18)
    (op : BitVec 6) (arg : BitVec 40) : s.Notes as (u.note src cls det sev world line tag id op arg) := by
  have hblot : R.BLOT_STATUS ∈ as := d.lists List.mem_cons_self
  unfold State.note State.blot
  extract_lets q
  split
  · exact d.setSvc _
  · have hlost := (d.setFld hblot 17 16 (satAdd 16 (u.fld R.BLOT_STATUS 17 16) 1)).setFld hblot 33 4 src
    unfold State.ev State.evN
    split
    · exact hlost.setReg (d.lists (List.mem_cons_of_mem _ List.mem_cons_self)) _
    · exact hlost

/-- A fence entry's new state is flagged, recorded and noticed (R327). -/
theorem State.Notes.fenceMoved (d : s.Notes as u) (hstat : R.GLB_RCVSTAT ∈ as) {st : Nat} (hst : st ≠ 0) (k : Nat) (who : EpId) :
    s.Notes as (u.fenceMoved k st who) := by
  simp only [State.fenceMoved, hst, if_false]
  exact ((d.setFld hstat _ _ _).note ..).setSvc _

end

/-- The registers of the end of a purge walk for fence entry `k` (R126, R327). -/
def retireRegs (k : Nat) : List RegAddr := [fenceReg k, R.GLB_RCVSTAT, R.DIR_PURGE_DONE] ++ noteRegs

theorem State.fenceIdx_lt (h : s.fenceIdx who = some k) : k < 16 := List.mem_range.1 (List.mem_of_find?_eq_some h)

/-- A fenced ID retires: its entry says so (R126, R327). -/
theorem State.retire_shows (hc : s.canonical = true) (hidx : s.fenceIdx who = some k) (hst : s.fld (fenceReg k) 18 2 = 2) :
    s.Notes (retireRegs k) (s.retire who) ∧ (s.retire who).fld (fenceReg k) 18 2 = 3 := by
  have hk := State.fenceIdx_lt hidx
  have hset := State.canonical_setFld hc (fenceReg k) 18 2 3
  have hlists : noteRegs ⊆ retireRegs k := List.subset_append_right ..
  have hnotes := ((State.Notes.refl hlists hc).setFld (List.mem_append_left _ List.mem_cons_self) 18 2 3).fenceMoved
    (List.mem_append_left _ (List.mem_cons_of_mem _ List.mem_cons_self)) (by decide : 3 ≠ 0) k who
  have hmoved := (State.Drifts.refl eventRegs_relayRegs hset).fenceMoved (fun _ h => h) (by decide : 3 ≠ 0) k who
  have hgo : s.retire who = (s.setFld (fenceReg k) 18 2 3).fenceMoved k 3 who := by simp only [State.retire, hidx, hst, if_true]
  rw [hgo]
  exact ⟨hnotes, (congrArg (getBits · 18 2) (hmoved.reg_fenceReg hk)).trans (State.fld_setFld_self hc _ 3 (by decide))⟩

/-- A visit of the walk whose one ID is back where it joined: the ID retires, and the walk is done (R126). -/
theorem State.purgeVisit_ends (hchk : s.chk = false) (hpurge : s.rcv.purge = [(who, s.fld R.DIR_PURGE_STATUS 6 17, true)])
    (hrcv : ((s.purging []).retire who).rcv = (s.purging []).rcv) (hwait : s.rcv.purgeWait = []) :
    s.purgeVisit = ((s.purging []).retire who).setReg R.DIR_PURGE_DONE ((s.purging []).retire who).tod := by
  have hwait' : ((s.purging []).retire who).rcv.purgeWait = [] := by rw [hrcv]; exact hwait
  have hdone : ((s.purging []).retire who).rcv.purge = [] := by rw [hrcv]; rfl
  unfold State.purgeVisit
  rw [if_neg (by simp [hpurge, hchk])]
  extract_lets pos gone stay r s1 s2 r2 s3
  have hgo : gone = [(who, s.fld R.DIR_PURGE_STATUS 6 17, true)] := by simp [gone, pos, hpurge]
  have hstay : stay = [] := by simp [stay, pos, hpurge]
  have h2 : s2 = (s.purging []).retire who := by simp only [s2, hgo, List.foldl_cons, List.foldl_nil, s1, r, hstay, State.purging]
  have h3 : s3 = (s.purging []).retire who := by simp only [s3, h2, hwait']
  rw [h3, if_pos (by rw [hdone]; rfl)]

theorem does_purgeWalkVisit_ends (hcalm : s.calm) (hpurge : s.rcv.purge = [(who, s.fld R.DIR_PURGE_STATUS 6 17, true)])
    (hwait : s.rcv.purgeWait = []) (hidx : s.fenceIdx who = some k) (hst : s.fld (fenceReg k) 18 2 = 2) :
    does .purgeWalkVisit s (fun u => u.fld (fenceReg k) 18 2 = 3 ∧ u.rcv.purge = [] ∧ u.reg R.DIR_PURGE_DONE = s.tod ∧ u.dirs = s.dirs ∧
      u.stalls = s.stalls ∧ s.regsKept u ([fenceReg k, R.GLB_RCVSTAT, R.DIR_PURGE_DONE] ++ noteRegs)) := by
  obtain ⟨hc, -, -, -, -, -, -, -, -, -, -, -, hchk⟩ := hcalm
  have hk := State.fenceIdx_lt hidx
  obtain ⟨hz, hfence⟩ := State.retire_shows (s := s.purging []) hc hidx hst
  have hgo := State.purgeVisit_ends hchk hpurge (congrArg State.rcv hz.rest :) hwait
  refine ⟨s.purgeVisit, exec_purgeWalkVisit, ?_⟩
  rw [hgo]
  generalize (s.purging []).retire who = z at hz hfence ⊢
  have hu := hz.setReg (a := R.DIR_PURGE_DONE) (by simp [retireRegs]) z.tod
  have hrest := hu.rest
  have hne : fenceReg k / 8 ≠ R.DIR_PURGE_DONE / 8 := by
    have : (0x440 + 8 * k) / 8 ≠ 0x1050 / 8 := by omega
    exact this
  refine ⟨?_, by rw [hrest]; rfl, ?_, (congrArg State.dirs hrest :), (congrArg State.stalls hrest :), hu.regs⟩
  · exact (congrArg (getBits · 18 2) (State.reg_setReg_ne hz.canonical hne z.tod)).trans hfence
  · exact (State.reg_setReg_self hz.canonical _ _).trans (congrArg State.tod hz.rest :)

end

end Sys2Proof.Machine
end

section
/-! The cleaner: a set that has no entry in ways 8-15 is passed, and an entry's eviction begins with a `BackInv` to its holder (R119,
R121, R122). -/

-- As in the tests: the compile of the one text stays within the threads of the sandbox.
set_option Elab.async false

namespace Sys2Proof.Machine

section
variable {s u v z : State} {t : Stall} {i j k n w sl : Nat} {e : DirEntry} {who o : EpId} {a y : Stall} {wt : Wait}

/-! ### A snoop of an agent that is not fenced -/

/-- A stall `y` that is `a` with one wait, on `who` for `op`. -/
structure Stall.Asks (a : Stall) (who : EpId) (op : BitVec 6) (y : Stall) : Prop where
  role : y.role = a.role
  blocks : y.blocks = a.blocks
  waits : ∃ w, y.waits = [w] ∧ w.who = who ∧ w.op = op

/-- A stall of one wait still asks after messages have left. -/
theorem State.Sends.asks (S : v.Sends u) (hf : SMap.find v.stalls i = some a) (hw : a.waits = [wt]) (haims : u.aims i = v.aims i) :
    ∃ y, SMap.find u.stalls i = some y ∧ a.Asks wt.who wt.op y := by
  have hrel := S.stalls i
  rw [hf] at hrel
  generalize hu : SMap.find u.stalls i = q at hrel
  cases hrel with
  | some e =>
    obtain ⟨ws, at', rfl, -⟩ := e
    have hmap : ws.map Wait.aim = [wt.aim] := by
      have := haims.trans (State.aims_of_find hf hw)
      simpa [State.aims, hu] using this
    obtain ⟨w, rfl, haim⟩ := List.map_eq_singleton_iff.1 hmap
    exact ⟨_, rfl, rfl, rfl, w, rfl, (congrArg Wait.who haim :), (congrArg Wait.op haim :)⟩

/-- The message of a snoop is sent, or recorded as without a route (R59, R243). -/
theorem State.snoopMsg_sends (hc : s.canonical = true) (hfa : s.faults = []) (i : Nat) (t : Stall) (who : EpId) (op : BitVec 6) :
    s.Sends (s.snoopMsg i t who op false).1 := by
  have hev : ∀ x, s.Drifts perfRegs (s.ev (snpEvent op false) x) := (State.Drifts.refl eventRegs_perfRegs hc).ev (snpEvent_lt op false)
  unfold State.snoopMsg
  extract_lets det m x first
  obtain ⟨hsent, -⟩ := ((hev x).tracks perfRegs_subset_answerRegs).sends.send hfa m ⟨some i, first, false⟩
  split
  · next u he => exact he ▸ hsent
  · next u he => exact (he ▸ hsent : s.Sends (u, false).1).noRouteNote m

/-- A snoop of an agent that is not fenced: the stall waits for its answer (R56, R59). -/
theorem State.snoop_asks (hc : s.canonical = true) (hfa : s.faults = []) (hf : SMap.find s.stalls i = some t) (hw : t.waits = [])
    (hfence : s.fence who = 0) (op : BitVec 6) (holder : Bool) :
    (∃ y, SMap.find (s.snoop i who op false holder).stalls i = some y ∧ t.Asks who op y) ∧
      (s.snoop i who op false holder).dirs = s.dirs ∧ (s.snoop i who op false holder).faults = [] := by
  obtain ⟨w, hasked⟩ : ∃ w : Wait, w = ⟨who, op, false, holder, .queued, 0⟩ := ⟨_, rfl⟩
  have hadd : SMap.find (s.addWait i w).stalls i = some { t with waits := [w] } := by
    simp [State.addWait, State.updStall, SMap.find_upd, hf, hw]
  have hS := State.snoopMsg_sends (s := s.addWait i w) hc hfa i t who op
  obtain ⟨-, haims, -⟩ := State.snoopMsg_asks (s := s.addWait i w) hc hfa i t who op false
  obtain ⟨y, hy, hrole, hblocks, b, hyw, hwho, hop⟩ := hS.asks hadd rfl (haims i)
  have hself : b.who = who := by rw [hwho, hasked]
  have hsame : b.op = op := by rw [hop, hasked]
  simp only [State.snoop, hf, hfence, if_true, ← hasked]
  split
  · next z he =>
    rw [he] at hS hy
    exact ⟨⟨y, hy, hrole, hblocks, b, hyw, hself, hsame⟩, hS.tracks.dirs, hS.tracks.faults.trans hfa⟩
  · next z he =>
    rw [he] at hS hy
    refine ⟨⟨{ y with waits := [{ b with st := .resend (z.resendAt 0) }] }, ?_, hrole, hblocks, _, rfl, hself, hsame⟩, hS.tracks.dirs,
      hS.tracks.faults.trans hfa⟩
    simp [State.setWait, State.updStall, SMap.find_upd, show SMap.find z.stalls i = some y from hy, hyw, updWait, hself]

/-! ### An eviction -/

theorem State.Tracks.fence {as : List RegAddr} (d : v.Tracks as u) (who : EpId) : u.fence who = v.fence who := by
  have hreg : ∀ k, k < 16 → u.reg (R.GLB_FENCE + 8 * k) = v.reg (R.GLB_FENCE + 8 * k) := fun k hk => d.reg (quietReg_fenceReg hk)
  have hidx : u.fenceIdx who = v.fenceIdx who := List.find?_congr fun k hk => by
    simp only [State.fld, hreg k (List.mem_range.1 hk)]
  unfold State.fence
  rw [hidx]
  split
  · next k hk => simp only [State.fld, hreg k (State.fenceIdx_lt hk)]
  · rfl

/-- An entry that names its holders itself is read without an extension entry (R94, R129). -/
theorem State.entryRead_ptr (hfa : s.faults = []) (hfind : SMap.find s.dirs k = some e) (hsh : e.sh.xidx = none) : s.entryRead k = s := by
  simp only [State.entryRead, State.dirProbe_intact hfa, hfind, State.extRead, hsh]

theorem State.evictStep_waiting (hf : SMap.find s.stalls i = some t) (hw : t.waits ≠ []) : s.evictStep i = s := by
  simp [State.evictStep, hf, hw]

/-- The stall of the cleaner's eviction of an entry, as it is opened (R118, R121). -/
def State.evictStall (s : State) (k : Nat) (e : DirEntry) (sl : Nat) : Stall :=
  { Stall.new (.evict k true) (s.inner 0 (s.worldOfH (hOfKey k e)) (s.lineOf (hOfKey k e)) 0 []) (hOfKey k e) s.tod with
    ink := some sl, way := some k, blocks := false }

/-- The state in which the cleaner's eviction has its stall and its slot (R118, R135). -/
def State.withEvict (s : State) (k : Nat) (e : DirEntry) (j sl : Nat) : State :=
  (s.withSlot (hOfKey k e) (some sl)).withStall j (s.evictStall k e sl)

theorem State.openEvict_takes (hc : s.canonical = true) (hfind : SMap.find s.dirs k = some e) (hj : s.aStall 2 = some j)
    (hsl : s.inkFree = some sl) : ∃ z, s.openEvict k true = (z, some j) ∧ (s.withEvict k e j sl).Tracks answerRegs z := by
  have hs : s.Tracks answerRegs s := (State.Drifts.refl eventRegs_perfRegs hc).tracks perfRegs_subset_answerRegs
  refine ⟨_, ?_, (hs.inkReserve sl (hOfKey k e)).openStall j (s.evictStall k e sl)⟩
  simp only [State.openEvict, hfind, hj, hsl]
  rfl

/-- The eviction of an entry in X asks its holder with a `BackInv` (R119). -/
theorem State.evictGo_asks (d : (v.withStall j y).Tracks answerRegs z) (hfa : v.faults = []) (hchk : v.chk = false)
    (hfind : SMap.find v.dirs k = some e) (hst : e.st = .x) (hsh : e.sh = .ptr (some o) none) (hfence : v.fence o = 0)
    (hrole : y.role = .evict k true) (hw : y.waits = []) :
    (∃ x, SMap.find (z.evictGo j k).stalls j = some x ∧ Stall.Asks { y with blocks := true, code := 2 } o Op.backInv x) ∧
      (z.evictGo j k).dirs = v.dirs ∧ (z.evictGo j k).faults = [] := by
  have hzf : z.faults = [] := d.faults.trans hfa
  have hzd : SMap.find z.dirs k = some e := d.dirs.symm ▸ hfind
  have hexact : ∀ q : State, q.exact e = [] := fun q => by simp [State.exact, hst]
  have howner : e.owner = some o := by simp [DirEntry.owner, hst, hsh]
  have hform : e.sh.form = 0 := by simp [Sharers.form, hsh]
  have hblock := d.updWith fun t => { t with blocks := true, code := 2 }
  have hcleaner : (SMap.find (z.updStall j fun t => { t with blocks := true, code := 2 }).stalls j).map Stall.role = some (.evict k true) := by
    rw [hblock.find]
    exact congrArg some hrole
  unfold State.evictGo
  rw [State.entryRead_ptr hzf hzd (by rw [hsh]; rfl)]
  simp only [show z.chk = false from d.chk.trans hchk, Bool.false_eq_true, if_false, hzd, hcleaner, if_true, hexact, List.foldl_nil,
    howner, hform]
  rw [if_neg (by decide)]
  have hasks := hblock.ev (k := 0x84) (by decide)
    { l := some ((z.updStall j fun t => { t with blocks := true, code := 2 }).lineOf (hOfKey k e)).toNat }
  generalize (z.updStall j fun t => { t with blocks := true, code := 2 }).ev 0x84 _ = q at hasks ⊢
  obtain ⟨⟨x, hx, hone⟩, hdirs, hfaults⟩ := State.snoop_asks hasks.canonical (hasks.faults.trans hfa) hasks.find hw
    ((hasks.fence o).trans hfence) Op.backInv true
  obtain ⟨wt, hwt, -⟩ := hone.waits
  rw [State.evictStep_waiting hx (by simp [hwt])]
  exact ⟨⟨x, hx, hone⟩, hdirs.trans hasks.dirs, hfaults⟩

/-! ### A visit of the cleaner -/

/-- The cleaner reads one of ways 8-15 of its position, and an entry there is evicted (R121). -/
def State.cleanWay (s : State) (pos w : Nat) : State :=
  let t := s.dirProbe 0 (dirKey pos (8 + w)) (s.lineAt (dirKey pos (8 + w)))
  if t.chk then t
  else match SMap.find t.dirs (dirKey pos (8 + w)) with
    | some e =>
      let z := t.extRead (dirKey pos (8 + w)) e
      if z.chk then z else z.cleanEntry (dirKey pos (8 + w)) e
    | none => t

/-- The cleaner goes on to the next position (R121). -/
def State.cleanNext (s : State) (pos : Nat) : State := { s with rcv := { s.rcv with cleanPos := (pos + 1) % Config.positions } }

theorem State.cleanVisit_eq (hst : s.wayState = 1) (hchk : s.chk = false) :
    s.cleanVisit = ((List.range 8).foldl (fun t w => t.cleanWay s.rcv.cleanPos w) s).cleanNext s.rcv.cleanPos := by
  unfold State.cleanVisit
  rw [if_neg (by simp [hst, hchk])]
  rfl

theorem State.cleanWay_free (hfa : s.faults = []) (h : SMap.find s.dirs (dirKey n (8 + w)) = none) : s.cleanWay n w = s := by
  simp [State.cleanWay, State.dirProbe_intact hfa, h]

theorem State.cleanWay_entry (hfa : s.faults = []) (hchk : s.chk = false) (hfind : SMap.find s.dirs (dirKey n (8 + w)) = some e)
    (hsh : e.sh.xidx = none) : s.cleanWay n w = s.cleanEntry (dirKey n (8 + w)) e := by
  simp [State.cleanWay, State.dirProbe_intact hfa, hchk, hfind, State.extRead, hsh]

theorem exec_cleanerVisit : exec .cleanerVisit s = .next (finish s s.cleanVisit) := rfl

/-- A set with no entry in ways 8-15 is passed (R121). -/
theorem does_cleanerVisit_passes (hcalm : s.calm) (hst : s.wayState = 1)
    (hfree : ∀ w, w < 8 → SMap.find s.dirs (dirKey s.rcv.cleanPos (8 + w)) = none) :
    does .cleanerVisit s (fun u => u.rcv.cleanPos = (s.rcv.cleanPos + 1) % Config.positions ∧ s = { u with rcv := s.rcv }) := by
  obtain ⟨-, -, -, -, -, -, -, -, -, -, -, hfa, hchk⟩ := hcalm
  have hgo : (List.range 8).foldl (fun t w => t.cleanWay s.rcv.cleanPos w) s = s :=
    foldl_eq_self fun w hw => State.cleanWay_free hfa (hfree w (List.mem_range.1 hw))
  refine ⟨s.cleanVisit, exec_cleanerVisit, ?_⟩
  rw [State.cleanVisit_eq hst hchk, hgo]
  exact ⟨rfl, rfl⟩

/-- An entry in X that nothing pins is evicted, with a stall and a slot free (R119, R121). -/
theorem State.cleanEntry_evicts (hc : s.canonical = true) (hfa : s.faults = []) (hchk : s.chk = false)
    (hfind : SMap.find s.dirs k = some e) (hst : e.st = .x) (hsh : e.sh = .ptr (some o) none) (hfence : s.fence o = 0)
    (hpin : s.pinned k = false) (hopen : s.cleanOpen = 0) (hevict : s.evicting k = false) (hj : s.aStall 2 = some j)
    (hsl : s.inkFree = some sl) :
    (∃ y, SMap.find (s.cleanEntry k e).stalls j = some y ∧
      Stall.Asks { s.evictStall k e sl with blocks := true, code := 2 } o Op.backInv y) ∧
      (s.cleanEntry k e).dirs = s.dirs ∧ (s.cleanEntry k e).faults = [] := by
  obtain ⟨z, hz, hd⟩ := State.openEvict_takes hc hfind hj hsl
  have hform : e.sh.form = 0 := by simp [Sharers.form, hsh]
  have hgo : s.cleanEntry k e = z.evictGo j k := by
    simp [State.cleanEntry, hevict, hopen, hform, hpin, hz]
  rw [hgo]
  exact State.evictGo_asks (v := s.withSlot (hOfKey k e) (some sl)) hd hfa hchk hfind hst hsh hfence rfl rfl

/-- The one entry of ways 8-15 of a set, in X, is evicted (R119, R121). -/
theorem does_cleanerVisit_evicts (hcalm : s.calm) (hway : s.wayState = 1) (hw : w < 8)
    (hdirs : s.dirs = [(dirKey s.rcv.cleanPos (8 + w), e)]) (hst : e.st = .x) (hsh : e.sh = .ptr (some o) none) (hfence : s.fence o = 0)
    (hpin : s.pinned (dirKey s.rcv.cleanPos (8 + w)) = false) (hopen : s.cleanOpen = 0)
    (hevict : s.evicting (dirKey s.rcv.cleanPos (8 + w)) = false) (hj : (s.aStall 2).isSome = true) (hsl : s.inkFree.isSome = true) :
    does .cleanerVisit s (fun u => ∃ j y wt, s.aStall 2 = some j ∧ SMap.find u.stalls j = some y ∧
      y.role = .evict (dirKey s.rcv.cleanPos (8 + w)) true ∧ y.blocks = true ∧ y.waits = [wt] ∧ wt.who = o ∧ wt.op = Op.backInv ∧
      u.dirs = s.dirs ∧ u.rcv.cleanPos = (s.rcv.cleanPos + 1) % Config.positions) := by
  obtain ⟨hc, -, -, -, -, -, -, -, -, -, -, hfa, hchk⟩ := hcalm
  obtain ⟨j, hj⟩ := Option.isSome_iff_exists.1 hj
  obtain ⟨sl, hsl⟩ := Option.isSome_iff_exists.1 hsl
  have hfind : SMap.find s.dirs (dirKey s.rcv.cleanPos (8 + w)) = some e := by simp [hdirs, SMap.find]
  obtain ⟨⟨y, hy, hrole, hblocks, wt, hwait, hwho, hop⟩, hdone, hfaults⟩ :=
    State.cleanEntry_evicts hc hfa hchk hfind hst hsh hfence hpin hopen hevict hj hsl
  have hother : ∀ i, i < 8 → i ≠ w → SMap.find s.dirs (dirKey s.rcv.cleanPos (8 + i)) = none := fun i hi hiw => by
    rw [hdirs]
    exact SMap.find_singleton_ne fun he => hiw (by have := (dirKey_inj (by omega) (by omega) he).2; omega)
  have hgo : (List.range 8).foldl (fun t w => t.cleanWay s.rcv.cleanPos w) s = s.cleanEntry (dirKey s.rcv.cleanPos (8 + w)) e :=
    foldl_range_one hw (State.cleanWay_entry hfa hchk hfind (by rw [hsh]; rfl)) (fun i hi hiw => State.cleanWay_free hfa (hother i hi hiw))
      fun i hi hiw => State.cleanWay_free hfaults (hdone.symm ▸ hother i hi hiw)
  refine ⟨s.cleanVisit, exec_cleanerVisit, ?_⟩
  rw [State.cleanVisit_eq hway hchk, hgo]
  exact ⟨j, y, wt, hj, hy, hrole, hblocks, hwait, hwho, hop, hdone, rfl⟩

end

/-- Settles O46: each walk acts in one way of one set, and passes the other ways by. -/
theorem slowWalks : Obligations.SlowWalks := by
  exact ⟨fun _ _ _ _ _ _ _ => does_purgeWalkVisit_removes, fun _ _ _ => does_purgeWalkVisit_ends, fun _ => does_cleanerVisit_passes,
    fun _ _ _ _ => does_cleanerVisit_evicts, fun _ _ _ => does_scrubRead, fun _ => does_wayClearDone⟩

end Sys2Proof.Machine
end

section
/-! The captures of the inspection selectors: the four registers that a capture of a stall writes, the word that shows an entry of
the ALC, and the selectors themselves (R161, R228). -/

-- As in the tests: the compile of the one text stays within the threads of the sandbox.
set_option Elab.async false

namespace Sys2Proof.Machine

section
variable {s t : State} {a v k : Nat} {x : Word}

/-! ### Four registers of a capture -/

/-- A capture's words are written into its registers alone (R161). -/
theorem State.onlyRegs_putCapture (hc : s.canonical = true) (a : Nat) (ws : List Word) :
    s.onlyRegs (s.putCapture a ws) [a, a + 8, a + 16, a + 24] := by
  refine (List.foldlRecOn (motive := fun t : State => t.canonical = true ∧ s.onlyRegs t [a, a + 8, a + 16, a + 24]) (List.range 4)
    (fun t k => t.setReg (a + 8 * k) (ws.getD k 0)) ⟨hc, s.onlyRegs_refl _⟩ fun t ht k hk => ?_).2
  obtain ⟨hct, hregs⟩ := ht
  have hmem : a + 8 * k ∈ [a, a + 8, a + 16, a + 24] := by
    have hk : k < 4 := List.mem_range.1 hk
    interval_cases k <;> simp
  exact ⟨State.canonical_setReg _ _ hct,
    hregs.trans ((State.onlyRegs_setReg hct _ _).mono (List.cons_subset.2 ⟨hmem, List.nil_subset _⟩))⟩

/-- Each register of a capture reads its word (R161). -/
theorem State.reg_putCapture (hc : s.canonical = true) (a : Nat) (ws : List Word) (hk : k < 4) :
    (s.putCapture a ws).reg (a + 8 * k) = ws.getD k 0 := by
  have hcanon : ∀ n, ((List.range n).foldl (fun t k => t.setReg (a + 8 * k) (ws.getD k 0)) s).canonical = true := fun n =>
    List.foldlRecOn (motive := fun t : State => t.canonical = true) _ _ hc fun _ ht _ _ => State.canonical_setReg _ _ ht
  have hread : ∀ n, k < n → ((List.range n).foldl (fun t k => t.setReg (a + 8 * k) (ws.getD k 0)) s).reg (a + 8 * k) = ws.getD k 0 := by
    intro n
    induction n with
    | zero => exact fun h => absurd h (Nat.not_lt_zero k)
    | succ n ih =>
      intro hkn
      rw [List.range_succ, List.foldl_concat]
      by_cases hlast : k = n
      · rw [hlast, State.reg_setReg_self (hcanon n)]
      · rw [State.reg_setReg_ne (hcanon n) (by omega), ih (by omega)]
  exact hread 4 hk

/-! ### The selectors -/

/-- A selector is one field that takes what is written (R18). -/
theorem State.select (hc : s.canonical = true) {r : RegRow} {w : Nat} (hr : regRow a = some r) (hf : r.fields = [⟨0, w, .rw⟩]) (hw : w ≤ 64)
    (x : Word) : (s.storeReg a x).canonical = true ∧ (s.storeReg a x).fld a 0 w = getBits x 0 w ∧ s.onlyRegs (s.storeReg a x) [a] := by
  have hmem : (⟨0, w, .rw⟩ : Fld) ∈ r.fields := hf ▸ List.mem_cons_self
  obtain ⟨hfld, honly⟩ := writeActsByAccessCode.2 s a x r ⟨0, w, .rw⟩ hc hr hmem (by simp [hf, fieldsApart, hw])
  exact ⟨(State.storeReg_keeps (.refl s) _ _).canonical hc, hfld, honly⟩

theorem regRow_stallSelector : ∃ r, regRow R.YARD_INSP_SEL = some r ∧ r.fields = [⟨0, 11, .rw⟩] := by
  have h : (regRow R.YARD_INSP_SEL).map RegRow.fields = some [⟨0, 11, .rw⟩] := by decide +kernel
  simpa using h

theorem regRow_alcSelector : ∃ r, regRow R.ALC_INSP_SEL = some r ∧ r.fields = [⟨0, 6, .rw⟩] := by
  have h : (regRow R.ALC_INSP_SEL).map RegRow.fields = some [⟨0, 6, .rw⟩] := by decide +kernel
  simpa using h

/-- A truth value laid in one bit reads back. -/
theorem b2n_mod_two (b : Bool) : (b2n b % 2 ^ 1 == 1) = b := by
  cases b <;> rfl

/-- The second word of a capture is the homed number of the stall's line alone (R161). -/
theorem withFields_low (h : BitVec 34) : withFields 0 [(0, 34, h.toNat)] = BitVec.ofNat 64 h.toNat := by
  apply BitVec.eq_of_toNat_eq
  simp only [withFields, List.foldl_cons, List.foldl_nil, setBits_toNat (v := 0) (lo := 0) (w := 34) (by decide)]
  have := h.isLt
  simp
  omega

/-! ### A stall (R161) -/

/-- The first word of a capture shows the state of the stall, and the number and tag of its request (R161). -/
theorem State.getBits_inspWords (z : State) (i : Nat) (c : Stall) :
    getBits ((z.inspWords i c).getD 0 0) 0 3 = c.code % 8 ∧ getBits ((z.inspWords i c).getD 0 0) 15 18 = c.req.q.toNat ∧
      getBits ((z.inspWords i c).getD 0 0) 33 12 = c.req.tag.toNat := by
  refine ⟨?_, ?_, ?_⟩ <;>
    simp (disch := decide) only [State.inspWords, withFields, List.getD_cons_zero, List.foldl_cons, List.foldl_nil, getBits_setBits_self,
      getBits_setBits_below]
  · rfl
  · exact Nat.mod_eq_of_lt c.req.q.isLt
  · exact Nat.mod_eq_of_lt c.req.tag.isLt

/-- The registers of a captured stall: its state and request, its line, and its time of acceptance (R161). -/
theorem State.insp_shows (hc : s.canonical = true) (hf : s.faults = []) {c : Stall} (hat : SMap.find s.stalls (getBits x 0 11) = some c) :
    (s.insp x).fld R.YARD_INSP_SEL 0 11 = getBits x 0 11 ∧ (s.insp x).fld R.YARD_INSP0 0 3 = c.code % 8 ∧
      (s.insp x).fld R.YARD_INSP0 15 18 = c.req.q.toNat ∧ (s.insp x).fld R.YARD_INSP0 33 12 = c.req.tag.toNat ∧
      (s.insp x).reg (R.YARD_INSP0 + 8) = BitVec.ofNat 64 c.h.toNat ∧ (s.insp x).reg (R.YARD_INSP0 + 24) = c.acc ∧
      s.onlyRegs (s.insp x) [R.YARD_INSP_SEL, R.YARD_INSP0, R.YARD_INSP0 + 8, R.YARD_INSP0 + 16, R.YARD_INSP0 + 24] := by
  obtain ⟨r, hr, hrf⟩ := regRow_stallSelector
  obtain ⟨hcz, hsel, honly⟩ := State.select hc hr hrf (by decide) x
  have hcap : s.insp x = (s.storeReg R.YARD_INSP_SEL x).putCapture R.YARD_INSP0
      ((s.storeReg R.YARD_INSP_SEL x).inspWords (getBits x 0 11) c) := by
    have hfz : (s.storeReg R.YARD_INSP_SEL x).faults = [] := (congrArg State.faults honly.1).trans hf
    have hatz : SMap.find (s.storeReg R.YARD_INSP_SEL x).stalls (getBits x 0 11) = some c :=
      (congrArg (fun z : State => SMap.find z.stalls (getBits x 0 11)) honly.1).trans hat
    simp only [State.insp, State.reading_intact hfz, hsel, hatz]
  rw [hcap]
  generalize s.storeReg R.YARD_INSP_SEL x = z at hcz hsel honly
  have hread := fun k (hk : k < 4) => State.reg_putCapture hcz R.YARD_INSP0 (z.inspWords (getBits x 0 11) c) hk
  have hput := State.onlyRegs_putCapture hcz R.YARD_INSP0 (z.inspWords (getBits x 0 11) c)
  have hword : ∀ lo w, (z.putCapture R.YARD_INSP0 (z.inspWords (getBits x 0 11) c)).fld R.YARD_INSP0 lo w =
      getBits ((z.inspWords (getBits x 0 11) c).getD 0 0) lo w := fun lo w => congrArg (getBits · lo w) (hread 0 (by decide))
  obtain ⟨hcode, hseq, htag⟩ := State.getBits_inspWords z (getBits x 0 11) c
  refine ⟨?_, (hword 0 3).trans hcode, (hword 15 18).trans hseq, (hword 33 12).trans htag, ?_, hread 3 (by decide),
    (honly.mono (by simp)).trans (hput.mono (by simp))⟩
  · rw [State.fld, hput.2 _ (by decide)]
    exact hsel
  · exact (hread 1 (by decide)).trans (withFields_low c.h)

/-! ### An entry of the ALC (R228) -/

theorem State.alcInsp_shows (hc : s.canonical = true) (hf : s.faults = []) {e : AlcEntry}
    (hdef : s.alcUndef.getLsbD (getBits x 0 6 / 8) = false) (hbank : s.bank (getBits x 0 6 / 8) ≠ 2)
    (hat : SMap.find s.alc (getBits x 0 6) = some e) :
    (s.alcInsp x).fld R.ALC_INSP 0 34 = e.h.toNat ∧ (s.alcInsp x).flag R.ALC_INSP 34 = e.world ∧ (s.alcInsp x).flag R.ALC_INSP 35 = e.v ∧
      (s.alcInsp x).flag R.ALC_INSP 36 = e.d ∧ (s.alcInsp x).flag R.ALC_INSP 37 = e.lk ∧ (s.alcInsp x).flag R.ALC_INSP 38 = e.ref ∧
      s.onlyRegs (s.alcInsp x) [R.ALC_INSP_SEL, R.ALC_INSP] := by
  obtain ⟨r, hr, hrf⟩ := regRow_alcSelector
  obtain ⟨hcz, hsel, honly⟩ := State.select hc hr hrf (by decide) x
  have hcap : ∃ b, s.alcInsp x = (s.storeReg R.ALC_INSP_SEL x).setReg R.ALC_INSP (withFields 0 [(0, 34, e.h.toNat), (34, 1, b2n e.world),
      (35, 1, b2n e.v), (36, 1, b2n e.d), (37, 1, b2n e.lk), (38, 1, b2n e.ref), (39, 1, b2n b)]) := by
    have hfz : (s.storeReg R.ALC_INSP_SEL x).faults = [] := (congrArg State.faults honly.1).trans hf
    have hatz : SMap.find (s.storeReg R.ALC_INSP_SEL x).alc (getBits x 0 6) = some e :=
      (congrArg (fun z : State => SMap.find z.alc (getBits x 0 6)) honly.1).trans hat
    have hundef : (s.storeReg R.ALC_INSP_SEL x).alcUndef.getLsbD (getBits x 0 6 / 8) = false :=
      (congrArg (fun z : State => z.alcUndef.getLsbD (getBits x 0 6 / 8)) honly.1).trans hdef
    have hbankz : (s.storeReg R.ALC_INSP_SEL x).bank (getBits x 0 6 / 8) ≠ 2 := by
      rw [State.bank, honly.fld (by decide)]
      exact hbank
    have htag : ∀ k, (s.storeReg R.ALC_INSP_SEL x).alcTag k = s.storeReg R.ALC_INSP_SEL x := fun k => by
      simp only [State.alcTag, State.damage_intact hfz]
    refine ⟨(s.storeReg R.ALC_INSP_SEL x).alcPinned (getBits x 0 6), ?_⟩
    simp only [State.alcInsp, hsel, htag, ite_self, hundef, hbankz, hatz, Bool.false_or, decide_false, Bool.false_eq_true, if_false]
  obtain ⟨b, hcap⟩ := hcap
  rw [hcap]
  generalize s.storeReg R.ALC_INSP_SEL x = z at hcz hsel honly
  have hel := e.h.isLt
  refine ⟨?_, ?_, ?_, ?_, ?_, ?_, (honly.mono (by simp)).trans ((State.onlyRegs_setReg hcz _ _).mono (by simp))⟩ <;>
    simp (disch := decide) only [State.flag, State.fld, State.reg_setReg_self hcz, withFields, List.foldl_cons, List.foldl_nil,
      getBits_setBits_self, getBits_setBits_below, b2n_mod_two]
  exact Nat.mod_eq_of_lt hel

end

/-- Settles O10: a selector takes the number that is written, and the capture lays out the stall or the entry it names. -/
theorem captures : Obligations.Captures := by
  refine ⟨fun c => spDoes_of_spDo (fun _ _ => rfl) fun s t x _ hc hx => ⟨rfl, ?_⟩,
    fun e => spDoes_of_spDo (fun _ _ => rfl) fun s t x _ hc hx => ⟨rfl, ?_⟩⟩
  · obtain ⟨-, hat, hf⟩ := hx
    exact State.insp_shows hc hf hat
  · obtain ⟨-, hdef, hbank, hf, hat⟩ := hx
    exact State.alcInsp_shows hc hf hdef hbank hat

end Sys2Proof.Machine
end

section
/-! SUPPORT. A request that has its stall and goes on for a line in state I, with the registers that it writes named one by one: what it
takes, and how it waits for memory (R78, R135, R276). -/

-- As in the tests: the compile of the one text stays within the threads of the sandbox.
set_option Elab.async false

namespace Sys2Proof.Machine

section
variable {as : List RegAddr} {s v u : State} {r : Req} {i : Nat} {x : Stall} {h : HIdx} {slot : Option Nat}

/-! ### Steps that two states take alike -/

theorem State.Drifts.setStalls (d : v.Drifts as u) (m : SMap Stall) : ({ v with stalls := m } : State).Drifts as { u with stalls := m } :=
  ⟨d.lists, d.base, d.canonical, d.regs, congrArg (fun z : State => { z with stalls := m }) d.rest⟩

theorem State.Drifts.setInk (d : v.Drifts as u) (m : SMap InkSlot) : ({ v with ink := m } : State).Drifts as { u with ink := m } :=
  ⟨d.lists, d.base, d.canonical, d.regs, congrArg (fun z : State => { z with ink := m }) d.rest⟩

theorem State.Drifts.setPen (d : v.Drifts as u) (m : SMap PenEntry) : ({ v with pen := m } : State).Drifts as { u with pen := m } :=
  ⟨d.lists, d.base, d.canonical, d.regs, congrArg (fun z : State => { z with pen := m }) d.rest⟩

theorem State.Drifts.setMps (d : v.Drifts as u) (m : SMap MpSt) : ({ v with mps := m } : State).Drifts as { u with mps := m } :=
  ⟨d.lists, d.base, d.canonical, d.regs, congrArg (fun z : State => { z with mps := m }) d.rest⟩

theorem State.Drifts.setCp (d : v.Drifts as u) (c : CpSt) : ({ v with cp := c } : State).Drifts as { u with cp := c } :=
  ⟨d.lists, d.base, d.canonical, d.regs, congrArg (fun z : State => { z with cp := c }) d.rest⟩

theorem State.Drifts.updStall (d : v.Drifts as u) (i : Nat) (f : Stall → Stall) : (v.updStall i f).Drifts as (u.updStall i f) := by
  simp only [State.updStall, d.stalls]
  exact d.setStalls _

theorem State.Drifts.find (d : (v.withStall i x).Drifts as u) : SMap.find u.stalls i = some x := by rw [d.stalls, State.find_withStall]

theorem State.Drifts.updWith (d : (v.withStall i x).Drifts as u) (f : Stall → Stall) : (v.withStall i (f x)).Drifts as (u.updStall i f) := by
  rw [← State.updStall_withStall f]
  exact d.updStall i f

theorem State.Drifts.maxFld (d : v.Drifts as u) {a : Nat} (ha : a ∈ as) (lo w x : Nat) : v.Drifts as (u.maxFld a lo w x) := d.setReg ha _

/-- The events of a first response (R439). -/
theorem State.Drifts.respEv (d : v.Drifts as u) {kind : Nat} (hk : kind < 8) (hr : r.src < 6) : v.Drifts as (u.respEv kind r) := by
  unfold State.respEv
  refine State.Drifts.ev ?_ (by omega) _
  split
  · exact (d.ev (by omega) _).ev (by omega) _
  · exact d.ev (by omega) _

theorem State.Drifts.evN (d : v.Drifts as u) {k : Nat} (n : Nat) (a : Attr) (hk : u.passes (u.filterOf k) a = true → k < 256) :
    v.Drifts as (u.evN k n a) := by
  unfold State.evN
  split
  · next h => exact d.setReg (d.lists.perf (count_mem_perfRegs (hk h))) _
  · exact d

/-- The measure of a first response (R159). -/
theorem State.Drifts.respMeasured (d : v.Drifts as u) (hr : R.YARD_RESP ∈ as) (src : Nat) (acc : Tod) : v.Drifts as (u.respMeasured src acc) := by
  have hmax := d.maxFld hr 0 24 (elapsed acc u.tod)
  have hlate := (hmax.addFld hr 24 24 1).evN 1 { s := some src } (k := 0x68 + src) fun h => by
    have := State.src_lt_of_passes h
    omega
  unfold State.respMeasured
  extract_lets t s1 s2 s3
  rw [← show s1 = u.maxFld R.YARD_RESP 0 24 t from rfl] at hlate
  split
  · refine State.Drifts.ev ?_ (by decide) _
    have hs2 : v.Drifts as s2 := hlate
    simp only [s3]
    split
    · exact hs2.ev (by decide) _
    · exact hs2
  · exact hmax

/-- A slot RESERVED in both states alike. -/
theorem State.Drifts.inkReserve (d : v.Drifts as u) (hsub : as ⊆ answerRegs) (hp : R.INK_PEAK ∈ as) (sl : Nat) (h : HIdx) :
    (v.withSlot h (some sl)).Drifts as (u.inkReserve sl h) := by
  have hset := (d.setInk (SMap.put v.ink sl (InkSlot.reserve h (v.worldOfH h)))).maxFld hp 0 10
    (SMap.put v.ink sl (InkSlot.reserve h (v.worldOfH h))).length
  unfold State.inkReserve
  rw [(d.tracks hsub).worldOfH, d.ink]
  exact hset

/-- A memory read is asked for in both states alike (R276). -/
theorem State.Drifts.askRead (d : (v.withStall i x).Drifts as u) (hsub : as ⊆ answerRegs) (h : HIdx) :
    ((v.withRead i h).withStall i { x with rd := .asked }).Drifts as (u.askRead i h) := by
  have t := d.tracks hsub
  have hput := (d.setMps ((v.withStall i x).setMp ((v.withStall i x).readPort h) { (v.withStall i x).mp ((v.withStall i x).readPort h) with
    reads := ((v.withStall i x).mp ((v.withStall i x).readPort h)).reads ++
      [((v.withStall i x).mp ((v.withStall i x).readPort h)).ask h i (v.withStall i x).tod] }).mps).updStall i (fun y => { y with rd := .asked })
  rw [← State.askRead_withStall]
  simp only [State.askRead, State.setMp, t.readPort, t.mp, t.tod, t.mps] at hput ⊢
  exact hput

/-- A stall opened; the peak of its pool follows (R160). -/
theorem State.Drifts.openStall (d : s.Drifts as u) (hp : R.YARD_PEAK ∈ as) (i : Nat) (x : Stall) :
    (s.withStall i x).Drifts as (u.openStall i x) := by
  have hput : (s.withStall i x).Drifts as
      { u with stalls := SMap.put u.stalls i x, lates := SMap.del u.lates i, freeCtr := u.freeCtr + 1 } := by
    rw [d.stalls]
    exact ⟨d.lists, d.base, d.canonical, d.regs, congrArg (fun z : State =>
      { z with stalls := SMap.put s.stalls i x, lates := SMap.del u.lates i, freeCtr := u.freeCtr + 1 }) d.rest⟩
  unfold State.openStall
  dsimp only
  split
  · exact hput.maxFld hp ..
  · split
    · exact hput.maxFld hp ..
    · split <;> exact hput.maxFld hp ..

/-! ### A transaction begins -/

/-- A stall whose transaction begins with its line in state I: no snoop decides the outcome (R78). -/
def Stall.direct (x : Stall) (port slot : Option Nat) : Stall :=
  { x with code := 2, blocks := true, way := none, datPort := port, ink := slot.or x.ink, hold := none, out := some .direct }

/-- A transaction without snoops begins: its memory read is asked for where its reply needs data (R78, R276). -/
theorem State.Drifts.begin_direct (d : (v.withStall i x).Drifts as u) (hsub : as ⊆ answerRegs) (hgot : x.got = none)
    (hn : v.inkNewest h = none) (relays : List EpId) (ex1 : Option EpId) (data : Bool) :
    ∃ w, (v.withStall i { x with hold := none, out := some .direct }).Drifts as w ∧
      u.begin i h Plan.direct relays ex1 data = (if data then w.askRead i h else w).advance i := by
  have hw := d.updWith (fun y => { y with hold := none, out := some .direct })
  refine ⟨_, hw, ?_⟩
  have hnone : (u.updStall i (fun y => { y with hold := none, out := some .direct })).inkNewest h = none :=
    ((hw.tracks hsub).inkNewest h).trans hn
  have hfind := hw.find
  unfold State.begin Plan.direct
  simp only [List.foldl_nil, Bool.false_eq_true, if_false]
  cases data
  · rfl
  · simp only [hfind, hgot, hnone, Option.isNone_none, Bool.and_self, if_true]

/-- A request that takes no way, its line in state I, goes on in its stall with the slot that it takes (R78, R135). -/
theorem State.Drifts.proceed_direct (d : (v.withStall i x).Drifts as u) (hsub : as ⊆ answerRegs) (hkind : kindOf r.op < 8) (hgot : x.got = none)
    (hd : v.dirOf h = none) (ha : v.alcHit h = none) (hn : v.inkNewest h = none) (port : Option Nat)
    (hslot : ∀ sl, slot = some sl → v.inkFree = some sl ∧ R.INK_PEAK ∈ as) :
    ∃ w, ((v.withSlot h slot).withStall i (x.direct port slot)).Drifts as w ∧
      u.proceed r i h none port slot.isSome =
        (if (s.repOf r r.op .direct none).needsData r.op then w.askRead i h else w).advance i := by
  have t := d.tracks hsub
  have hdir : u.dirOf h = none := (t.dirOf h).trans hd
  have hhit : u.alcHit h = none := (t.alcHit h).trans ha
  unfold State.proceed
  rw [hdir, hhit]
  extract_lets e hit waited counted p key placed free reserved given evicted data relays ex1
  have hcounted : (v.withStall i x).Drifts as counted := d.ev (by simp only [classIdx, e]; split <;> omega) _
  have hfree : (v.withStall i { x with code := 2, blocks := true, way := none, datPort := port }).Drifts as free :=
    hcounted.updWith (fun y => { y with code := 2, blocks := true, way := none, datPort := port })
  have hreserved : ((v.withSlot h slot).withStall i { x with code := 2, blocks := true, way := none, datPort := port, ink := slot.or x.ink }).Drifts
      as reserved := by
    cases slot with
    | none => exact hfree
    | some sl =>
      have hsl : free.inkFree = some sl := (hfree.tracks hsub).inkFree.trans (hslot sl rfl).1
      have := (hfree.inkReserve hsub (hslot sl rfl).2 sl h).updWith (v := v.withSlot h (some sl)) (fun y => { y with ink := some sl })
      simpa only [reserved, Option.isSome_some, if_true, hsl, Option.some_or] using this
  obtain ⟨w, hw, heq⟩ := hreserved.begin_direct (h := h) hsub hgot (State.inkNewest_withSlot hn) relays ex1 data
  exact ⟨w, hw, heq⟩

/-! ### A transaction waits for memory -/

/-- A stall whose reply waits for the data that it has asked for (R78, R276). -/
structure Stall.Asking (t : Stall) : Prop where
  role : t.role = .req
  code : t.code = 2
  waits : t.waits = []
  relay : t.relay = none
  hold : t.hold = none
  out : t.out = some .direct
  wbWait : t.wbWait = none
  got : t.got = none
  rd : t.rd = .asked
  ready : t.ready = false
  final : t.final = false

/-- Nothing follows for a stall that waits for its data, but its state as R138 shows it. -/
theorem State.advance_asking {t : Stall} (ht : t.Asking) (hf : SMap.find s.stalls i = some t) (hchk : s.chk = false)
    (hw : s.awaitsCommit i = false) (hdir : s.dirOf t.h = none) (hn : s.inkNewest t.h = none)
    (hneeds : (s.repOf t.req t.req.op .direct none).needsData t.req.op = true) (hsync : t.req.op ≠ Op.sync) (hack : t.req.acks = false) :
    s.advance i = s.updStall i (fun y => { y with code := 2 }) := by
  have hhold : s.holdStep i t = s := by simp [State.holdStep, ht.hold]
  have hneed := State.need_asked (i := i) ht.got hn ht.rd
  have hstep : s.completeStep i t .direct = s := by
    unfold State.completeStep
    simp only [ht.role, hdir, State.displaces_idle hdir, ite_self, hf, ht.waits, Option.any_some, List.isEmpty_nil, Bool.not_true,
      Bool.false_eq_true, if_false, hneed]
    generalize s.repOf t.req t.req.op .direct none = rep at hneeds ⊢
    cases rep with
    | data _ => rfl
    | cmpW =>
      have : t.req.op = Op.wrPart := by simpa [Rep.needsData] using hneeds
      simp [this, show Op.wrPart ≠ Op.wrFull by decide]
    | fwd | grant _ | cmpZ | gather => cases hneeds
  have hopen : s.canClose i t = false := by simp [State.canClose, ht.final]
  have hcode : s.codeOf i t = 2 := by
    have hs : s.cpSyncWaits t = false := by
      unfold State.cpSyncWaits
      split
      · simp [hsync]
      · rfl
    simp [State.codeOf, hw, hs, hack, ht.final]
  have hgo : s.advance i = (s.completeStep i t .direct).closeReq i := by
    simp only [State.advance, hf, hhold, hchk, ht.code, ht.waits, ht.relay, ht.wbWait, ht.out, Stall.done, ht.final, ht.ready, hw]
    rfl
  rw [hgo, hstep, State.closeReq_open hf hopen, hcode]

end

end Sys2Proof.Machine
end

section
/-! The pen and the tickets: an entry whose turn has come, one past its deadline, and a ticket past its hold time (R142, R146, R151,
R153). -/

-- As in the tests: the compile of the one text stays within the threads of the sandbox.
set_option Elab.async false

namespace Sys2Proof.Machine

/-- What a table lists is written again without a change. -/
theorem SMap.put_of_find {α : Type} {m : SMap α} {k : Nat} {a : α} (h : SMap.find m k = some a) : SMap.put m k a = m := by
  induction m with
  | nil => cases h
  | cons e r ih =>
    obtain ⟨j, b⟩ := e
    simp only [SMap.find] at h
    simp only [SMap.put]
    split at h
    · next hj => cases h; simp [hj]
    · split at h
      · cases h
      · next hj hlt => rw [if_neg hj, if_neg hlt, ih h]

theorem State.withStall_of_find {s : State} {i : Nat} {t : Stall} (h : SMap.find s.stalls i = some t) : s.withStall i t = s := by
  rw [State.withStall, SMap.put_of_find h]

section
variable {s u v : State} {k i : Nat} {e : PenEntry} {t : Stall} {h : HIdx} {r : Req}

/-! ### A turn (R142, R153) -/

/-- A penned request whose line is free, the first of its line's chain, and claimed by no older ticket, is not penned again (R142, R149). -/
theorem State.penReason_turn (he : s.penTurn k e = true) (hreason : e.reason ≠ 1) (hat : SMap.find s.stalls e.stall = some t)
    (hrole : t.role = .req) (hc : s.claimed r.line e.tkt = false) : s.penReason r e.h e.tkt (some (k, e)) = none := by
  simp only [State.penTurn, Bool.and_eq_true] at he
  obtain ⟨helig, -⟩ := he
  have hkeep : s.keepsAlc e.stall = false := by simp [State.keepsAlc, hat, hrole]
  simp only [State.penEligible, State.penHead, hreason, if_false, Bool.and_eq_true, hkeep, Bool.or_false, Bool.not_eq_true'] at helig
  obtain ⟨hhead, ⟨⟨hblock, hmove⟩, hdrain⟩, -⟩ := helig
  have hblocked : s.blocked e.h = false := by
    simp [State.blocked, hmove, hdrain, Option.isNone_iff_eq_none.1 hblock]
  have hfirst : s.pen.any (fun f => f.2.h == e.h && (f.1 != k && f.2.before e)) = false := by
    simp only [List.any_eq_false, List.all_eq_true] at hhead ⊢
    intro f hf
    have := hhead f hf
    simp only [Bool.or_eq_true, beq_iff_eq, bne_iff_ne, Bool.not_eq_true'] at this
    rcases this with (h1 | h1) | h1 <;> simp [h1]
  have hunclaimed : (e.tkt.isNone && s.claimed r.line none) = false := by
    cases htkt : e.tkt with
    | none => rw [htkt] at hc; simp [hc]
    | some o => rfl
  simp only [State.penReason, hunclaimed, hblocked, hfirst, hc]
  rfl

/-- A state whose pen has lost an entry. -/
def State.outOfPen (s : State) (k : Nat) : State := { s with pen := SMap.del s.pen k }

theorem State.Drifts.outOfPen {as : List RegAddr} (d : s.Drifts as u) (k : Nat) : (s.outOfPen k).Drifts as (u.outOfPen k) := by
  have hpen : u.pen = s.pen := (congrArg State.pen d.rest :)
  rw [State.outOfPen, State.outOfPen, hpen]
  exact d.setPen _

/-- A penned request of a line in state I, its place in the answer's queue free, takes its stall again without the pen (R142, R135). -/
theorem State.Drifts.dispatchLine_again (d : s.Drifts perfRegs u) (heg : ∀ m, (u.np m).eg = (s.np m).eg) (hop : r.op = Op.rdOnce)
    (hat : SMap.find s.stalls e.stall = some t) (hgot : t.got = none) (hm : s.dirHits h = []) (ha : s.alcHit h = none)
    (hn : s.inkNewest h = none) (hseat : s.seated r.q) :
    ∃ port w, ((s.outOfPen k).withStall e.stall (t.direct port none)).Drifts perfRegs w ∧
      u.dispatchLine r .req h none (some (k, e)) = (w.askRead e.stall h).advance e.stall := by
  have q := d.tracks perfRegs_subset_answerRegs
  have hdir : u.dirOf h = none := (q.dirOf h).trans (State.dirOf_miss hm)
  have hhit : u.alcHit h = none := (q.alcHit h).trans ha
  have hall : r.allocates = false := by rw [Req.allocates, hop]; rfl
  have hacks : r.acks = false := by simp [Req.acks, hop, show Op.rdOnce ≠ Op.rdShared ∧ Op.rdOnce ≠ Op.rdUnique ∧ Op.rdOnce ≠ Op.upgrade ∧ Op.rdOnce ≠ Op.claimZero by decide]
  have hroom : u.datRoom (if r.reads then u.datSeat r else none) = true := by
    split
    · exact q.datRoom heg hseat
    · rfl
  have hpen := d.outOfPen k
  rw [← State.withStall_of_find (s := s.outOfPen k) hat] at hpen
  obtain ⟨w, hw, heq⟩ := hpen.proceed_direct (r := r) (slot := none) (s := s) perfRegs_subset_answerRegs (by rw [hop]; decide) hgot (State.dirOf_miss hm) ha hn
    (if r.reads then u.datSeat r else none) (fun _ hs => by cases hs)
  have hneeds : (s.repOf r r.op .direct none).needsData r.op = true := by rw [hop]; rfl
  rw [hneeds, if_pos rfl] at heq
  refine ⟨_, w, hw, ?_⟩
  rw [← heq]
  have hwr : (r.op == Op.wrFull || r.op == Op.wrPart) = false := by rw [hop]; decide
  unfold State.dispatchLine
  rw [hdir, hhit]
  simp [hall, hwr, Req.mayOwn, hacks, State.plan, hroom, b2n, State.outOfPen]

theorem State.Tracks.penReason {as : List RegAddr} (q : s.Tracks as u) (r : Req) (h : HIdx) (order : Option Nat) (re : Re) :
    u.penReason r h order re = s.penReason r h order re := by
  have hseq : u.penSeq = s.penSeq := (congrArg State.penSeq q.rest :)
  simp only [State.penReason, q.blocked, q.claimed, q.pen, hseq]

/-- A RdOnce whose turn has come, its line in state I, leaves the pen and asks for its line (R142, R276). -/
theorem State.redispatch_read (hc : s.canonical = true) (hf : s.faults = []) (hchk : s.chk = false) (hturn : s.penTurn k e = true)
    (hreason : e.reason ≠ 1) (hat : SMap.find s.stalls e.stall = some t) (hrole : t.role = .req) (hop : t.req.op = Op.rdOnce)
    (hm : s.dirHits e.h = []) (ha : s.alcHit e.h = none) (hn : s.inkNewest e.h = none) (hclaim : s.claimed t.req.line e.tkt = false)
    (hgot : t.got = none) (hseat : s.seated t.req.q) :
    ∃ port w, ((s.outOfPen k).withStall e.stall (t.direct port none)).Drifts perfRegs w ∧
      s.redispatch k e = (w.askRead e.stall e.h).advance e.stall := by
  obtain ⟨d, hnps⟩ := (State.Drifts.refl eventRegs_perfRegs hc).dirAccess_none hf hm
  have q := d.tracks perfRegs_subset_answerRegs
  have hpen := (q.penReason t.req e.h e.tkt (some (k, e))).trans (State.penReason_turn hturn hreason hat hrole hclaim)
  have heg : ∀ m, ((s.dirAccess e.h).np m).eg = (s.np m).eg := fun m => by simp only [State.np, hnps]
  obtain ⟨port, w, hw, heq⟩ := d.dispatchLine_again (k := k) heg hop hat hgot hm ha hn hseat
  refine ⟨port, w, hw, ?_⟩
  rw [← heq]
  have hsync : Op.rdOnce ≠ Op.sync := by decide
  have hstroke : Op.rdOnce ≠ Op.stroke := by decide
  simp [State.redispatch, hat, hrole, State.dispatch, hop, hsync, hstroke, State.alcLookup_intact (d.faults.trans hf), d.chk.trans hchk, hpen]

theorem does_penRedispatch (hcalm : s.calm) {k : Fin 512} (hin : SMap.find s.pen k = some e) (hturn : s.penTurn k e = true)
    (hreason : e.reason ≠ 1) (hat : SMap.find s.stalls e.stall = some t) (hrole : t.role = .req) (hop : t.req.op = Op.rdOnce)
    (hh : t.h = e.h) (hm : s.dirHits e.h = []) (ha : s.alcHit e.h = none) (hn : s.inkNewest e.h = none)
    (hclaim : s.claimed t.req.line e.tkt = false) (hwaits : t.waits = []) (hrelay : t.relay = none) (hwb : t.wbWait = none)
    (hfin : t.final = false) (hready : t.ready = false) (hgot : t.got = none) (hcommit : s.awaitsCommit e.stall = false)
    (hseat : s.seated t.req.q) :
    does (.penRedispatch k) s (fun u => SMap.find u.pen k = none ∧
      (∃ y, SMap.find u.stalls e.stall = some y ∧ y.req = t.req ∧ y.code = 2 ∧ y.blocks = true ∧ y.rd = .asked) ∧
      s.readAsked u e.h e.stall ∧ u.dirs = s.dirs ∧ u.ink = s.ink ∧ s.regsKept u perfRegs) := by
  obtain ⟨hc, -, -, hwf, -, -, -, -, -, -, -, hf, hchk⟩ := hcalm
  obtain ⟨port, w, hw, heq⟩ := State.redispatch_read hc hf hchk hturn hreason hat hrole hop hm ha hn hclaim hgot hseat
  have hask := hw.askRead perfRegs_subset_answerRegs e.h
  have q := hask.tracks perfRegs_subset_answerRegs
  have hy : Stall.Asking { t.direct port none with rd := .asked } :=
    ⟨hrole, rfl, hwaits, hrelay, rfl, rfl, hwb, hgot, rfl, hready, hfin⟩
  have hneeds : ((w.askRead e.stall e.h).repOf t.req t.req.op .direct none).needsData t.req.op = true := by rw [hop]; rfl
  have hacks : t.req.acks = false := by
    simp [Req.acks, hop, show Op.rdOnce ≠ Op.rdShared ∧ Op.rdOnce ≠ Op.rdUnique ∧ Op.rdOnce ≠ Op.upgrade ∧ Op.rdOnce ≠ Op.claimZero by decide]
  have hadv := State.advance_asking hy hask.find (hask.chk.trans hchk) ((hask.awaitsCommit _).trans hcommit)
    ((q.dirOf _).trans (hh.symm ▸ State.dirOf_miss hm)) ((q.inkNewest _).trans (hh.symm ▸ hn)) hneeds (by rw [Stall.direct, hop]; decide) hacks
  have hend := hask.updWith (fun y => { y with code := 2 })
  rw [← hadv, ← heq] at hend
  have hgo : exec (.penRedispatch k) s = .next (finish s (s.redispatch k e)) := by
    simp [exec, execPenRedispatch, hin, hchk, hturn, State.reading_intact hf]
  generalize s.redispatch k e = z at hend hgo
  have qz := hend.tracks perfRegs_subset_answerRegs
  refine ⟨z, hgo, ?_, ⟨_, hend.find, rfl, rfl, rfl, rfl⟩, ?_, hend.dirs, hend.ink, hend.regs⟩
  · rw [qz.pen]
    exact SMap.find_del_self hwf _
  · have := State.readAsked_withRead (s := s) (h := e.h) (slot := none) (i := e.stall)
    simp only [State.readAsked, qz.mp] at this ⊢
    exact this
/-! ### A ticket past its hold time (R151) -/

/-- The registers of the counters lie above those of the yard (R437). -/
theorem perfRegs_apart {b : Nat} (hb : b < 0x10000) : ∀ a ∈ perfRegs, a / 8 ≠ b / 8 := by
  intro a ha
  have hcnt : ∀ k, (0x10800 + 8 * k) / 8 ≠ b / 8 := by omega
  have hredo : ∀ k, (0x10040 + 8 * k) / 8 ≠ b / 8 := by omega
  simp only [perfRegs, List.mem_append, List.mem_map, List.mem_range] at ha
  rcases ha with ⟨k, -, rfl⟩ | ⟨k, -, rfl⟩
  · exact hcnt k
  · exact hredo k

/-- A counter of 16 bits counts one up to its greatest value (R20). -/
theorem State.fld_addFld_one (hc : s.canonical = true) (a : Nat) {lo : Nat} (hlo : lo + 16 ≤ 64) :
    (s.addFld a lo 16 1).fld a lo 16 = min (s.fld a lo 16 + 1) 0xFFFF := by
  rw [State.addFld, State.fld_setFld_self hc a _ hlo, satAdd]
  omega

/-- Stalls given back change the tickets that they are owed to, and list no new ticket (R137, R147). -/
theorem State.giveBacks_tickets {k : Nat} (hk : SMap.find s.tickets k = none) (l : List Nat) :
    ∃ m, l.foldl (fun u i => u.giveBack i) s = { s with tickets := m } ∧ SMap.find m k = none := by
  refine List.foldlRecOn (motive := fun u : State => ∃ m, u = { s with tickets := m } ∧ SMap.find m k = none) l _ ⟨_, rfl, hk⟩
    fun u ⟨m, hu, hm⟩ i _ => ?_
  subst hu
  unfold State.giveBack
  split
  · split
    · refine ⟨_, rfl, ?_⟩
      rw [SMap.find_upd]
      split
      · next hk => rw [← hk]; simp [hm]
      · exact hm
    · exact ⟨m, rfl, hm⟩
  · exact ⟨m, rfl, hm⟩

theorem does_ticketExpiry (hcalm : s.calm) {k : Fin 256} {t : Ticket} (hin : SMap.find s.tickets k = some t)
    (hpast : usec (max 1 (s.fld R.YARD_TKTCTL 24 6)) ≤ elapsed t.issued s.tod) :
    does (.ticketExpiry k) s (fun u => SMap.find u.tickets k = none ∧
      u.fld R.YARD_TKTERR 0 16 = min (s.fld R.YARD_TKTERR 0 16 + 1) 0xFFFF ∧ u.stalls = s.stalls ∧ u.dirs = s.dirs ∧
      s.regsKept u (R.YARD_TKTERR :: perfRegs)) := by
  obtain ⟨hc, -, -, -, hwf, -, -, -, -, -, -, hf, -⟩ := hcalm
  obtain ⟨v, hv⟩ : ∃ v : State, v = { s with tickets := SMap.del s.tickets k } := ⟨_, rfl⟩
  obtain ⟨y, hy⟩ : ∃ y, y = v.addFld R.YARD_TKTERR 0 16 1 := ⟨_, rfl⟩
  obtain ⟨z, hz⟩ : ∃ z, z = y.ev 0x8F { i := some t.who.toNat, l := some t.line.toNat } := ⟨_, rfl⟩
  have hcv : v.canonical = true := by rw [hv]; exact hc
  have hreg : ∀ b, v.reg b = s.reg b := fun b => by rw [hv]; rfl
  have hstalls : v.stalls = s.stalls := by rw [hv]
  have hdirs : v.dirs = s.dirs := by rw [hv]
  have hlist : EventRegs (R.YARD_TKTERR :: perfRegs) := eventRegs_perfRegs.cons (by decide)
  have dy : v.Drifts (R.YARD_TKTERR :: perfRegs) y := by
    rw [hy]
    exact (State.Drifts.refl hlist hcv).addFld List.mem_cons_self ..
  have dz : v.Drifts (R.YARD_TKTERR :: perfRegs) z := by
    rw [hz]
    exact dy.ev (by decide) _
  have hcount : z.fld R.YARD_TKTERR 0 16 = min (s.fld R.YARD_TKTERR 0 16 + 1) 0xFFFF := by
    have hreg : z.reg R.YARD_TKTERR = y.reg R.YARD_TKTERR := by
      rw [hz]
      exact ((State.Drifts.refl eventRegs_perfRegs dy.canonical).ev (by decide) _).reg
        (perfRegs_apart (by decide))
    rw [State.fld, hreg, ← State.fld, hy, State.fld_addFld_one hcv _ (by decide), hv]
    rfl
  have hnone : SMap.find z.tickets k = none := by
    have htk : z.tickets = v.tickets := (congrArg State.tickets dz.rest :)
    rw [htk, hv]
    exact SMap.find_del_self hwf _
  obtain ⟨m, hm, hgone⟩ := State.giveBacks_tickets hnone t.held
  refine ⟨{ z with tickets := m }, ?_, hgone, hcount, dz.stalls.trans hstalls, dz.dirs.trans hdirs, fun b hb => (dz.regs b hb).trans (hreg b)⟩
  rw [← hm, hz, hy, hv]
  simp only [exec, execTicketExpiry, State.reading_intact hf, hin, if_pos hpast]

/-! ### A message told (R243) -/

theorem State.Departs.noRouteNote (d : s.Departs u) (m : Msg) : s.Departs (u.noRouteNote m) := by
  have hb : R.BLOT_STATUS ∈ sendRegs := List.mem_append_right _ (by simp)
  unfold State.noRouteNote State.note State.blot
  extract_lets q
  split
  · exact d.beside rfl rfl rfl
  · exact State.Departs.ev ((d.setReg hb _).setReg hb _) (by decide) _

/-- A message told writes the registers of a message sent (R159, R243, R449). -/
theorem State.Departs.tell (d : s.Departs u) (hf : u.faults = []) (m : Msg) (k : Meta) : s.Departs (u.tell m k) := by
  have hr : R.RTE_ERRCNT ∈ sendRegs := List.mem_append_right _ (by simp)
  unfold State.tell
  cases he : u.route (u.toPhys m.dst) with
  | none =>
    rw [State.send_of_no_route hf he]
    exact State.Departs.noRouteNote (State.Departs.ev (d.setReg hr _) (by decide) _) m
  | some r =>
    obtain ⟨n, rt, nh⟩ := r
    rw [State.send_of_route hf he]
    exact d.enqueue (State.route_lt he) _

/-! ### Routes (R242) -/

/-- Two states whose registers differ below those of the ports and of the tables alone. -/
structure State.SamePorts (s u : State) : Prop where
  base : s.canonical = true
  canonical : u.canonical = true
  faults : u.faults = s.faults
  reg : ∀ b, 0x5000 ≤ b → u.reg b = s.reg b

theorem State.SamePorts.cam (x : s.SamePorts u) : ∀ z ∈ [u, s], z.win.filter (fun e => decide (0x6000 ≤ e.1 ∧ e.1 < 0x6400)) =
    s.win.filter (fun e => decide (0x6000 ≤ e.1 ∧ e.1 < 0x6400)) := by
  refine List.forall_mem_cons.2 ⟨SMap.filter_congr ((State.canonical_iff u).1 x.canonical).1 ((State.canonical_iff s).1 x.base).1
    (fun k => decide (0x6000 ≤ k ∧ k < 0x6400)) fun k hk => ?_, by simp⟩
  have hk : 0x6000 ≤ k ∧ k < 0x6400 := of_decide_eq_true hk
  exact State.find_win_of_reg x.canonical x.base (x.reg (8 * k) (by omega))

/-- A logical ID is translated by the CAM's registers (R41). -/
theorem State.SamePorts.toPhys (x : s.SamePorts u) (d : EpId) : u.toPhys d = s.toPhys d := by
  have hpre : ∀ z ∈ [u, s], ∀ p : Word → Bool, z.camFind p =
      ((s.win.filter (fun e => decide (0x6000 ≤ e.1 ∧ e.1 < 0x6400))).find? (fun e => bit e.2.toNat 36 && p e.2)).map
        (fun e => (e.1 - 0x6000, e.2)) := fun z hz p => by
    rw [← x.cam z hz]
    simp [State.camFind, List.find?_filter, Bool.and_assoc]
  simp only [State.toPhys, hpre u (by simp), hpre s (by simp)]

/-- A route lookup reads the epoch, the links of the ports and the route entries. -/
theorem State.SamePorts.route (x : s.SamePorts u) (d : EpId) : u.route d = s.route d := by
  have hfld : ∀ b lo w, 0x5000 ≤ b → u.fld b lo w = s.fld b lo w := fun b lo w hb => by simp only [State.fld, x.reg b hb]
  have hentry : ∀ b, 0x5000 ≤ b → u.routeEntry b = s.routeEntry b := fun b hb => by simp only [State.routeEntry, x.reg b hb, x.faults]
  have haddr : ∀ n e l, 0x5000 ≤ routeAddr n e l := fun n e l => by unfold routeAddr; omega
  have hport : ∀ n, n ≠ 4 → (u.link n = 1 && u.isOpen n) = (s.link n = 1 && s.isOpen n) := fun n hn => by
    simp only [State.link, hn, if_false, State.isOpen, State.flag]
    rw [hfld (npBase R.NP_STATUS n) _ _ (Nat.le_trans (by decide) (Nat.le_add_right ..)),
      hfld (npBase R.NP_CTL n) _ _ (Nat.le_trans (by decide) (Nat.le_add_right ..))]
  have hbest : u.routeBest d = s.routeBest d := by
    simp only [State.routeBest, hfld R.RTE_EPOCHCTL 0 1 (by decide), hentry _ (haddr _ _ _)]
    refine List.foldl_ext _ _ _ fun b n hn => ?_
    rw [hport n (by have := List.mem_range.1 hn; omega)]
  simp only [State.route, hbest, hfld R.RTE_EPOCHCTL 0 1 (by decide), hentry _ (Nat.le_add_right_of_le (haddr _ _ _))]

/-- What reaches an endpoint in one of the states reaches it in the other (R242). -/
theorem State.SamePorts.reaches (x : s.SamePorts u) (q : EpId) : u.reaches q ↔ s.reaches q := by
  rw [State.reaches, State.reaches, x.toPhys, x.route]

/-! ### An entry past its deadline (R146) -/

theorem SMap.firstFree_lt {α : Type} {m : SMap α} {lo c n : Nat} (h : SMap.firstFree m lo c = some n) : n < lo + c := by
  induction c generalizing lo with
  | zero => cases h
  | succ c ih =>
    simp only [SMap.firstFree] at h
    split at h
    · cases h; omega
    · have := ih h; omega

/-- The number of a ticket is not 0x0000 (R148). -/
theorem ticketNumber_ne_zero {n : Nat} (hn : n < 256) (g : Nat) : BitVec.ofNat 16 (n * 256 + (g % 255 + 1)) ≠ 0 := by
  intro h
  have := congrArg BitVec.toNat h
  rw [BitVec.toNat_ofNat, Nat.mod_eq_of_lt (by omega), show (0 : BitVec 16).toNat = 0 from rfl] at this
  omega

/-- A ticket in entry `n` that keeps the stall of a penned request (R147, R148). -/
def State.issued (s : State) (n : Nat) (r : Req) (i : Nat) : State :=
  { s with tickets := SMap.put s.tickets n ⟨r.q, r.line, [r.line], s.tod, s.tktSeq, [i], 0, r.src == 4⟩,
           tktGen := SMap.put s.tktGen n (((SMap.find s.tktGen n).getD 0) % 255 + 1), tktSeq := s.tktSeq + 1 }

theorem State.Drifts.issued {as : List RegAddr} (d : s.Drifts as u) (n : Nat) (r : Req) (i : Nat) : (s.issued n r i).Drifts as (u.issued n r i) := by
  exact ⟨d.lists, d.base, d.canonical, d.regs, congrArg (fun z : State => z.issued n r i) d.rest⟩

/-- With a free entry of the table a ticket is issued, and counted (R148). -/
theorem State.issue_free {n : Nat} (hfree : SMap.firstFree s.tickets 0 Config.tickets = some n) (r : Req) (i : Nat) :
    ∃ k, k ≠ 0 ∧ s.issue r [r.line] [i] 0 = ((s.issued n r i).ev 0x8E r.attr, k) := by
  have hlt := SMap.firstFree_lt hfree
  refine ⟨_, ticketNumber_ne_zero (n := n) (by simpa [Config.tickets] using hlt) ((SMap.find s.tktGen n).getD 0), ?_⟩
  simp only [State.issue, hfree]
  rfl

/-- A penned request past its deadline leaves the pen and the yard, and is counted (R146). -/
def State.expired (s : State) (k i : Nat) : State :=
  State.addFld { s with pen := SMap.del s.pen k, stalls := SMap.del s.stalls i } R.YARD_RETRY 32 16 1

theorem State.onlyRegs_expired (hc : s.canonical = true) (k i : Nat) : ({ s with pen := SMap.del s.pen k, stalls := SMap.del s.stalls i } : State).onlyRegs
    (s.expired k i) [R.YARD_RETRY] :=
  State.onlyRegs_setFld (s := { s with pen := SMap.del s.pen k, stalls := SMap.del s.stalls i }) hc ..

/-- The `Retry` of a request that is penned for too long is told in a state that differs from the ticketed one in counters (R146, R147). -/
theorem State.expirePen_tells (hc : s.canonical = true) (hat : SMap.find s.stalls e.stall = some t) (hrole : t.role = .req) (hsrc : t.req.src < 4)
    (hcp : t.req.cp = none) (hreason : e.reason < 3) (hpast : s.deadline ≤ elapsed t.acc s.tod) {n : Nat}
    (hfree : SMap.firstFree s.tickets 0 Config.tickets = some n) :
    ∃ z m c, ((s.expired k e.stall).issued n t.req e.stall).Drifts perfRegs z ∧ s.expirePen k e = z.tell m c ∧ m.dst = t.req.q ∧ m.op = Op.retry ∧
      m.tag = t.req.tag := by
  have hcan : (s.expired k e.stall).canonical = true := State.canonical_setFld hc ..
  have honly := State.onlyRegs_expired hc k e.stall
  have htk : (s.expired k e.stall).tickets = s.tickets := (congrArg State.tickets honly.1 :)
  have hgo : s.expirePen k e = (let z := (s.expired k e.stall).respEv 3 t.req
      let p := z.issue t.req [t.req.line] [e.stall] 0
      let z : State := if p.2 = 0 then p.1.giveBack e.stall else p.1
      z.sendRetry t.req p.2 (z.hint p.2 8) t.acc) := by
    simp only [State.expirePen, hat, hrole]
    rw [if_pos (by simp [hpast, hreason]; omega)]
    rfl
  generalize s.expired k e.stall = x at hcan htk hgo ⊢
  have hev := (State.Drifts.refl eventRegs_perfRegs hcan).respEv (kind := 3) (r := t.req) (by decide) (by omega)
  have htkz : (x.respEv 3 t.req).tickets = x.tickets := (congrArg State.tickets hev.rest :)
  obtain ⟨num, hnum, hissue⟩ := State.issue_free ((congrArg (SMap.firstFree · 0 Config.tickets) (htkz.trans htk)).trans hfree) t.req e.stall
  have hz := (hev.issued n t.req e.stall).ev (k := 0x8E) (by decide) t.req.attr
  generalize ((x.respEv 3 t.req).issued n t.req e.stall).ev 0x8E t.req.attr = z at hissue hz
  refine ⟨z, ⟨Op.retry, t.req.q, t.req.world, t.req.line, t.req.tag, BitVec.ofNat 40 (num.toNat + z.hint num 8 * 65536), 0, []⟩,
    { first := some (t.req.src, t.acc) }, hz, ?_, rfl, rfl, rfl⟩
  rw [hgo]
  simp only [hissue, hnum, if_false, State.sendRetry, hcp]

theorem does_penDeadline (hcalm : s.calm) {k : Fin 512} {n : Nat} (hin : SMap.find s.pen k = some e) (hat : SMap.find s.stalls e.stall = some t)
    (hrole : t.role = .req) (hsrc : t.req.src < 4) (hcp : t.req.cp = none) (hreason : e.reason < 3)
    (hpast : s.deadline ≤ elapsed t.acc s.tod) (hfree : SMap.firstFree s.tickets 0 Config.tickets = some n) :
    does (.penDeadline k) s (fun u => SMap.find u.pen k = none ∧ SMap.find u.stalls e.stall = none ∧
      (∃ y, SMap.find u.tickets n = some y ∧ y.who = t.req.q ∧ y.line = t.req.line ∧ y.held = [e.stall] ∧ y.issued = s.tod) ∧
      (s.reaches t.req.q → s.posts u t.req.q Op.retry t.req.tag) ∧
      u.fld R.YARD_RETRY 32 16 = min (s.fld R.YARD_RETRY 32 16 + 1) 0xFFFF ∧ u.dirs = s.dirs ∧ u.ink = s.ink ∧
      s.regsKept u (R.YARD_RETRY :: sendRegs)) := by
  obtain ⟨hc, -, hwfs, hwfp, -, -, -, -, -, -, -, hf, hchk⟩ := hcalm
  obtain ⟨z, m, c, hz, hgo, hdst, hop, htag⟩ := State.expirePen_tells (k := k) hc hat hrole hsrc hcp hreason hpast hfree
  have honly := State.onlyRegs_expired hc k e.stall
  have hcount : (s.expired k e.stall).fld R.YARD_RETRY 32 16 = min (s.fld R.YARD_RETRY 32 16 + 1) 0xFFFF :=
    State.fld_addFld_one (s := { s with pen := SMap.del s.pen k, stalls := SMap.del s.stalls e.stall }) hc _ (by decide)
  have hcan : (s.expired k e.stall).canonical = true := State.canonical_setFld hc ..
  generalize s.expired k e.stall = x at hz honly hcount hcan
  have hx := honly.1
  have hfaults : x.faults = s.faults := (congrArg State.faults hx :)
  have htod : x.tod = s.tod := (congrArg State.tod hx :)
  have htx : x.tx = s.tx := (congrArg State.tx hx :)
  have hpen : x.pen = SMap.del s.pen k := (congrArg State.pen hx :)
  have hstalls : x.stalls = SMap.del s.stalls e.stall := (congrArg State.stalls hx :)
  have hdirs : x.dirs = s.dirs := (congrArg State.dirs hx :)
  have hink : x.ink = s.ink := (congrArg State.ink hx :)
  clear hx
  have hfx : (x.issued n t.req e.stall).faults = [] := hfaults.trans hf
  have hports : s.SamePorts (x.issued n t.req e.stall) := ⟨hc, hcan, hfaults, fun b hb => honly.2 b (by
    have hne : R.YARD_RETRY / 8 ≠ b / 8 := by
      have : 0x2028 / 8 ≠ b / 8 := by omega
      exact this
    simpa using hne)⟩
  have q := hz.tracks perfRegs_subset_answerRegs
  obtain ⟨hS, -, hpost⟩ := q.sends.tell (m := m) hfx c
  have hD := (State.Departs.refl hz.canonical).tell (hz.faults.trans hfx) m c
  have hexec : exec (.penDeadline k) s = .next (finish s (z.tell m c)) := by
    simp only [exec, execPenDeadline, hin, State.reading_intact hf, hgo]
  have hsend : ∀ a ∈ sendRegs, a / 8 ≠ R.YARD_RETRY / 8 := fun a ha he => by
    have := answerSlot_of_mem (List.subset_append_right [R.YARD_PEAK, R.INK_PEAK] sendRegs ha)
    rw [he] at this
    revert this
    decide
  generalize z.tell m c = u at hS hD hpost hexec
  have hregs : (x.issued n t.req e.stall).regsKept u sendRegs := fun b hb =>
    (hD.regs b hb).trans (hz.regs b (List.all_eq_true.2 fun a ha => List.all_eq_true.1 hb a (List.mem_append_left _ ha)))
  have hretry : u.reg R.YARD_RETRY = x.reg R.YARD_RETRY := hregs _ (List.all_eq_true.2 fun a ha => by simpa using hsend a ha)
  refine ⟨u, hexec, ?_, ?_, ?_, fun hr => ?_, ?_, ?_, ?_, fun b hb => ?_⟩
  · have hpenu : u.pen = x.pen := hS.tracks.pen
    rw [hpenu, hpen]
    exact SMap.find_del_self hwfp _
  · have hgone : SMap.find x.stalls e.stall = none := by
      rw [hstalls]
      exact SMap.find_del_self hwfs _
    have hrel := hS.stalls e.stall
    rw [show (x.issued n t.req e.stall).stalls = x.stalls from rfl, hgone] at hrel
    generalize SMap.find u.stalls e.stall = o at hrel ⊢
    cases hrel
    rfl
  · have htk : u.tickets = (x.issued n t.req e.stall).tickets := hS.tracks.tickets
    refine ⟨_, (congrArg (SMap.find · n) htk).trans (SMap.find_put_self _ _ _), rfl, rfl, rfl, htod⟩
  · have hgo := hpost (by rw [hdst]; exact (hports.reaches _).2 hr)
    rw [hdst, hop, htag, show (x.issued n t.req e.stall).tx = s.tx from htx] at hgo
    exact State.posts_of_posted rfl hgo
  · rw [State.fld, hretry]
    exact hcount
  · exact hS.tracks.dirs.trans hdirs
  · exact hS.tracks.ink.trans hink
  · rw [List.all_cons, Bool.and_eq_true] at hb
    obtain ⟨hb1, hb2⟩ := hb
    exact (hregs b hb2).trans (honly.2 b (by simpa using hb1))

end

/-- Settles O39: the turn's own conditions show that the request is not penned again, an expired one takes the lowest free ticket, and what
a ticket kept back is given away. -/
theorem penAndTickets : Obligations.PenAndTickets := by
  refine ⟨?_, ?_, ?_⟩
  · intro s k e t hcalm hin hturn hreason hat hrole hop _ hh hm ha hn hclaim hwaits hrelay hwb _ hfin hready hgot _ hcommit hseat
    exact does_penRedispatch hcalm hin hturn hreason hat hrole hop hh hm ha hn hclaim hwaits hrelay hwb hfin hready hgot hcommit hseat
  · intro s k e t n hcalm hin hat hrole hsrc hcp hreason hpast hfree
    exact does_penDeadline hcalm hin hat hrole hsrc hcp hreason hpast hfree
  · intro s k t hcalm hin hpast
    exact does_ticketExpiry hcalm hin hpast

end Sys2Proof.Machine
end

section
/-! SUPPORT. A NEW command of the channel port: what joins its stream, and what the request that carries it out decides by (R285, R286,
R287). -/

-- As in the tests: the compile of the one text stays within the threads of the sandbox.
set_option Elab.async false

namespace Sys2Proof.Machine

section
variable {as : List RegAddr} {s w u v z : State} {c : CpCmd} {h : HIdx} {st : Nat} {o : CpOpen} {r : Req}

/-! ### Two states whose streams differ -/

/-- Two states that differ in the registers of the streams and in the channel port alone. -/
structure State.SameButStreams (s w : State) : Prop where
  base : s.canonical = true
  canonical : w.canonical = true
  rest : w = { s with win := w.win, cp := w.cp }
  reg : ∀ b, b < 0x7100 ∨ 0x7300 ≤ b → w.reg b = s.reg b

theorem State.SameButStreams.fld (x : s.SameButStreams w) {b : Nat} (hb : b < 0x7100 ∨ 0x7300 ≤ b) (lo n : Nat) : w.fld b lo n = s.fld b lo n := by
  rw [State.fld, State.fld, x.reg b hb]

theorem State.SameButStreams.flag (x : s.SameButStreams w) {b : Nat} (hb : b < 0x7100 ∨ 0x7300 ≤ b) (k : Nat) : w.flag b k = s.flag b k := by
  rw [State.flag, State.flag, x.fld hb]

theorem State.SameButStreams.chk (x : s.SameButStreams w) : w.chk = s.chk := by
  simp only [State.chk, x.fld (b := R.GLB_CHKSTOP) (.inl (by decide))]

theorem State.SameButStreams.link (x : s.SameButStreams w) : w.link 4 = s.link 4 := x.fld (b := R.CP_STATUS) (.inl (by decide)) 0 2

theorem State.SameButStreams.faults (x : s.SameButStreams w) : w.faults = s.faults := (congrArg State.faults x.rest :)
theorem State.SameButStreams.dirs (x : s.SameButStreams w) : w.dirs = s.dirs := (congrArg State.dirs x.rest :)
theorem State.SameButStreams.stalls (x : s.SameButStreams w) : w.stalls = s.stalls := (congrArg State.stalls x.rest :)
theorem State.SameButStreams.ink (x : s.SameButStreams w) : w.ink = s.ink := (congrArg State.ink x.rest :)
theorem State.SameButStreams.mps (x : s.SameButStreams w) : w.mps = s.mps := (congrArg State.mps x.rest :)
theorem State.SameButStreams.tod (x : s.SameButStreams w) : w.tod = s.tod := (congrArg State.tod x.rest :)
theorem State.SameButStreams.cpTx (x : s.SameButStreams w) : w.cpTx = s.cpTx := (congrArg State.cpTx x.rest :)

theorem State.SameButStreams.regions (x : s.SameButStreams w) (n : Nat) :
    w.reg (R.SEC_REGIONA + 16 * n) = s.reg (R.SEC_REGIONA + 16 * n) ∧ w.reg (R.SEC_REGIONB + 16 * n) = s.reg (R.SEC_REGIONB + 16 * n) :=
  ⟨x.reg _ (.inr (Nat.le_trans (by decide) (Nat.le_add_right ..))), x.reg _ (.inr (Nat.le_trans (by decide) (Nat.le_add_right ..)))⟩

theorem State.SameButStreams.regionOf (x : s.SameButStreams w) (l : LineAddr) : w.regionOf l = s.regionOf l := by
  refine List.find?_congr fun n _ => ?_
  simp only [State.regionV, State.regionBase, State.regionSize, State.flag, State.fld, x.regions]
  rfl

theorem State.SameButStreams.regionOfH (x : s.SameButStreams w) (h : HIdx) : w.regionOfH h = s.regionOfH h := by
  refine List.find?_congr fun n _ => ?_
  simp only [State.regionV, State.regionOff, State.regionSize, State.flag, State.fld, x.regions]
  rfl

theorem State.SameButStreams.hIdx (x : s.SameButStreams w) (l : LineAddr) : w.hIdx l = s.hIdx l := by
  simp only [State.hIdx, x.regionOf, State.regionOff, State.regionBase, State.fld, x.regions]

theorem State.SameButStreams.denies (x : s.SameButStreams w) (b : Bool) (l : LineAddr) : w.denies b l = s.denies b l := by
  simp only [State.denies, x.regionOf, State.regionWorld, State.flag, State.fld, x.regions]

theorem State.SameButStreams.readPort (x : s.SameButStreams w) (h : HIdx) : w.readPort h = s.readPort h := by
  have hports : w.portsOf h = s.portsOf h := by
    simp only [State.portsOf, x.regionOfH, State.regionMirror, State.flag, State.fld, x.regions]
    rfl
  have hmp : ∀ n, n < 2 → w.mpState n = s.mpState n := fun n hn =>
    x.fld (.inl (by
      have : 0x6010 + 0x80 * n < 0x7100 := by omega
      exact this)) _ _
  have hlt : 1 - h.toNat % 2 < 2 := by omega
  simp only [State.readPort, hports, hmp 0 (by decide), hmp 1 (by decide), hmp _ hlt]

theorem State.SameButStreams.quietLine (x : s.SameButStreams w) (hq : s.quietLine h) : w.quietLine h := by
  have hway : w.wayState = s.wayState := x.fld (b := R.DIR_WAYPWR) (.inl (by decide)) 1 2
  have halc : w.alcState = s.alcState := x.fld (b := R.ALC_CTL) (.inl (by decide)) 1 2
  have halcs : w.alc = s.alc := (congrArg State.alc x.rest :)
  have hmoves : w.moves = s.moves := (congrArg State.moves x.rest :)
  have hpen : w.pen = s.pen := (congrArg State.pen x.rest :)
  have hseq : w.inkSeq = s.inkSeq := (congrArg State.inkSeq x.rest :)
  simpa only [State.quietLine, State.dirHits, State.lookupWays, hway, x.dirs, State.alcHit, halc, halcs, State.blocked, State.blocker,
    State.moving, State.draining, x.stalls, hmoves, State.penHas, hpen, State.inkNewest, hseq, x.ink] using hq

theorem State.SameButStreams.claimed (x : s.SameButStreams w) (l : LineAddr) (n : Option Nat) : w.claimed l n = s.claimed l n := by
  have htk : w.tickets = s.tickets := (congrArg State.tickets x.rest :)
  simp only [State.claimed, htk]

/-- A request of the channel port takes the free stall of lowest index (R134, R138). -/
theorem State.SameButStreams.stallFor (x : s.SameButStreams w) {i : Nat} (hi : s.aStall 0 = some i) (hroom : 1 ≤ s.freeStalls 0)
    (hsrc : r.src = 4) : w.stallFor r none = some i := by
  have htk : w.tickets = s.tickets := (congrArg State.tickets x.rest :)
  have hfrom : ∀ held lo n, w.freeFrom held lo n = s.freeFrom held lo n := fun held lo n => by
    induction n generalizing lo with
    | zero => rfl
    | succ n ih => simp only [State.freeFrom, x.stalls, ih]
  have hfree : w.freeStalls 0 = s.freeStalls 0 := by
    simp only [State.freeStalls, State.used, State.setAside, x.stalls, htk]
  have ha : w.aStall 0 = some i := by rw [← hi]; simp only [State.aStall, State.setAside, htk, hfrom]
  simp [State.stallFor, State.mayTake, hsrc, hfree, hroom, ha]

/-! ### The command joins its stream -/

/-- A NEW command has joined its stream: NEXT has passed it (R285, R287). -/
def State.cpJoined (s : State) (c : CpCmd) : State :=
  ((s.cpSpend c).setFld (cpReg c.stream.val) 0 16 (c.seq + 1).toNat).cpOpen c.stream.val ⟨c.seq, false, none, none, none⟩

theorem State.cpSpend_eq (s : State) (c : CpCmd) : s.cpSpend c = { s with cp := (s.cpSpend c).cp } ∧ (s.cpSpend c).cp.opens = s.cp.opens ∧
    (s.cpSpend c).cp.eg = s.cp.eg ∧ (s.cpSpend c).cp.retry = s.cp.retry := by
  unfold State.cpSpend
  split <;> exact ⟨rfl, rfl, rfl, rfl⟩

theorem State.cpSpend_canonical (hc : s.canonical = true) : (s.cpSpend c).canonical = true := by
  rw [(s.cpSpend_eq c).1]
  exact hc

/-- What has become of the stream of a NEW command, when it was idle (R285, R287). -/
theorem State.cpJoined_shows (hc : s.canonical = true) (hidle : SMap.find s.cp.opens c.stream.val = none) :
    s.SameButStreams (s.cpJoined c) ∧ (s.cpJoined c).cpNext c.stream.val = c.seq + 1 ∧
      s.regsKept (s.cpJoined c) [cpReg c.stream.val] ∧
      (s.cpJoined c).cp.opens = SMap.put s.cp.opens c.stream.val [⟨c.seq, false, none, none, none⟩] ∧ (s.cpJoined c).cp.eg = s.cp.eg ∧
      (s.cpJoined c).cp.retry = s.cp.retry := by
  obtain ⟨he, hopens, heg, hretry⟩ := s.cpSpend_eq c
  have hcs := State.cpSpend_canonical (c := c) hc
  have hset := State.canonical_setFld hcs (cpReg c.stream.val) 0 16 (c.seq + 1).toNat
  have honly := State.onlyRegs_setFld hcs (cpReg c.stream.val) 0 16 (c.seq + 1).toNat
  have hfld := State.fld_setFld_self hcs (cpReg c.stream.val) (lo := 0) (w := 16) (c.seq + 1).toNat (by decide)
  have hreg : ∀ b, (s.cpSpend c).reg b = s.reg b := fun b => by rw [he]; rfl
  have hjoin : s.cpJoined c = ((s.cpSpend c).setFld (cpReg c.stream.val) 0 16 (c.seq + 1).toNat).cpOpen c.stream.val ⟨c.seq, false, none, none, none⟩ :=
    rfl
  generalize (s.cpSpend c).setFld (cpReg c.stream.val) 0 16 (c.seq + 1).toNat = y at hset honly hfld hjoin
  have hy : y = { s with win := y.win, cp := (s.cpSpend c).cp } := by
    conv_lhs => rw [honly.1, he]
  have hcp : y.cp = (s.cpSpend c).cp := by rw [hy]
  have hkept : s.regsKept (s.cpJoined c) [cpReg c.stream.val] := fun b hb => by
    rw [hjoin]
    exact (honly.2 b hb).trans (hreg b)
  refine ⟨⟨hc, by rw [hjoin]; exact hset, ?_, fun b hb => hkept b ?_⟩, ?_, hkept, ?_, ?_, ?_⟩
  · rw [hjoin]
    exact congrArg (fun q : State => { q with cp := (y.cpOpen c.stream.val ⟨c.seq, false, none, none, none⟩).cp }) hy
  · have hlt := c.stream.isLt
    have hne : (0x7100 + 8 * c.stream.val) / 8 ≠ b / 8 := by omega
    simpa using (show cpReg c.stream.val / 8 ≠ b / 8 from hne)
  · rw [hjoin]
    have hb : (c.seq + 1).toNat % 2 ^ 16 = (c.seq + 1).toNat := Nat.mod_eq_of_lt (c.seq + 1).isLt
    rw [hb] at hfld
    exact (congrArg (BitVec.ofNat 16) hfld).trans (BitVec.ofNat_toNat ..|>.trans (BitVec.setWidth_eq _))
  · rw [hjoin]
    simp only [State.cpOpen, hcp, hopens, hidle, Option.getD_none, List.nil_append]
  · rw [hjoin]
    simp only [State.cpOpen, hcp, heg]
  · rw [hjoin]
    simp only [State.cpOpen, hcp, hretry]

/-! ### From the link to its dispatch -/

theorem State.Drifts.cp (d : v.Drifts as u) : u.cp = v.cp := (congrArg State.cp d.rest :)

theorem State.Drifts.cpOpen (d : v.Drifts as u) (st : Nat) (o : CpOpen) : (v.cpOpen st o).Drifts as (u.cpOpen st o) :=
  ⟨d.lists, d.base, d.canonical, d.regs, congrArg (fun z : State => z.cpOpen st o) d.rest⟩

/-- Data without an uncorrectable word that counts are taken in, a correction recorded (R9, R314). -/
theorem State.Drifts.cpIntake (d : v.Drifts as u) (hbad : cpBadWord c = none) (hb : c.data.ceCount = 0 ∨ R.BLOT_STATUS ∈ as) :
    v.Drifts as (u.cpIntake c) := by
  unfold State.cpIntake
  rw [hbad]
  dsimp only
  split
  · exact d
  · next hce => exact d.note (hb.resolve_left hce) ..

/-- A NEW command of a stream with no command held joins it and is dispatched, its data corrected (R285, R286). -/
theorem State.cpCommand_fresh {op : BitVec 6} (hc : s.canonical = true) (hf : s.faults = []) (hchk : s.chk = false) (hopened : s.cp.opened = true)
    (hlink : s.link 4 = 1) (hclass : s.cpClass c = .fresh) (hidle : SMap.find s.cp.opens c.stream.val = none) (hheld : s.cpHeld c.stream = false)
    (hop : cpOpcode c.op = some op) (hbad : cpBadWord c = none) (hlist : EventRegs as) (hb : c.data.ceCount = 0 ∨ R.BLOT_STATUS ∈ as) :
    ∃ z, (s.cpJoined c).Drifts as z ∧ s.cpCommand c = z.cpDispatch (z.cpReq { c with data := c.data.fix } op 0 false) := by
  obtain ⟨-, -, -, -, -, hretry⟩ := State.cpJoined_shows (c := c) hc hidle
  obtain ⟨he, -⟩ := s.cpSpend_eq c
  have hcs := State.cpSpend_canonical (c := c) hc
  have hfs : (s.cpSpend c).faults = [] := by rw [he]; exact hf
  have hchks : (s.cpSpend c).chk = false := by rw [he]; exact hchk
  have hclasss : (s.cpSpend c).cpClass c = .fresh := by rw [he]; exact hclass
  have hprobe : (s.cpSpend c).probe 5 c.stream.val = s.cpSpend c := by simp only [State.probe, State.damage_intact hfs]
  have hset := State.canonical_setFld hcs (cpReg c.stream.val) 0 16 (c.seq + 1).toNat
  have hz := (((State.Drifts.refl hlist hset).cpIntake hbad hb).ev (k := 0xD8) (by decide) { s := some 4, l := some c.line.toNat }).cpOpen
    c.stream.val ⟨c.seq, false, none, none, none⟩
  refine ⟨_, hz, ?_⟩
  have hheldz := (congrArg (fun q : CpSt => q.retry.any (fun x => x.1.stream == c.stream)) hz.cp).trans
    ((congrArg (fun q : List (CpCmd × BitVec 16 × Bool) => q.any (fun x => x.1.stream == c.stream)) hretry).trans hheld)
  change State.cpHeld _ c.stream = false at hheldz
  have hopen : (s.cp.opened && (s.link 4 == 1 || s.link 4 == 2)) = true := by simp [hopened, hlink]
  simp only [State.cpCommand, hopen, if_true, Bool.not_true, Bool.false_eq_true, if_false, hchks, hop, hprobe, hclasss, State.cpFresh,
    State.cpExecute, hheldz]

theorem State.Tracks.regionOf (t : v.Tracks as u) (l : LineAddr) : u.regionOf l = v.regionOf l :=
  List.find?_congr fun n hn => by
    have hn : n < 64 := List.mem_range.1 hn
    simp only [State.regionV, State.regionBase, State.regionSize, State.flag, State.fld, t.regionA hn, t.regionB hn]
    rfl

theorem State.regionOf_lt {l : LineAddr} {n : Nat} (e : s.regionOf l = some n) : n < 64 := List.mem_range.1 (List.mem_of_find?_eq_some e)

theorem State.Tracks.hIdx (t : v.Tracks as u) (l : LineAddr) : u.hIdx l = v.hIdx l := by
  unfold State.hIdx
  rw [t.regionOf]
  cases e : v.regionOf l with
  | none => simp only [Option.map_none]
  | some n =>
    have hn := State.regionOf_lt e
    simp only [Option.map_some, State.regionOff, State.regionBase, State.fld, t.regionA hn, t.regionB hn]

theorem State.Tracks.denies (t : v.Tracks as u) (b : Bool) (l : LineAddr) : u.denies b l = v.denies b l := by
  unfold State.denies
  rw [t.regionOf]
  split
  · next n e => simp only [State.regionWorld, State.flag, State.fld, t.regionA (State.regionOf_lt e)]
  · rfl

/-- The request that carries out a command of a world that may reach its line (R76, R286). -/
theorem State.Drifts.cpDispatch (d : v.Drifts as u) (hsub : as ⊆ answerRegs)
    (hop : r.op ≠ Op.ligature) (hreg : r.op = Op.sync ∨ (v.hIdx r.line).isSome = true ∧ v.denies r.world r.line = false) :
    ∃ z, v.Drifts as z ∧ u.cpDispatch r = z.dispatch r .req none := by
  have hz : v.Drifts as (u.taken 5 (u.laneOf r.line) 4) := d.setQueues u.nps (u.taken 5 (u.laneOf r.line) 4).lanePtr
  refine ⟨_, hz, ?_⟩
  unfold State.cpDispatch
  generalize u.taken 5 (u.laneOf r.line) 4 = z at hz ⊢
  have t := hz.tracks hsub
  have hcheck : z.regionCheck r = none := by
    rcases hreg with hsync | ⟨hin, hden⟩
    · simp [State.regionCheck, hsync]
    · have hin' : (z.regionOf r.line).isNone = false := by
        rw [t.regionOf]
        simpa [State.hIdx] using hin
      simp [State.regionCheck, hop, State.vet, hin', (t.denies _ _).trans hden]
  simp only [hcheck]

end

end Sys2Proof.Machine
end

section
/-! SUPPORT. A channel-port request whose line is in state I and free: it takes its stall, which its command is told, and its inkwell slot
(R34, R134, R135, R287). -/

-- As in the tests: the compile of the one text stays within the threads of the sandbox.
set_option Elab.async false

namespace Sys2Proof.Machine

section
variable {as : List RegAddr} {s w u v z : State} {c : CpCmd} {h : HIdx} {st i : Nat} {q : BitVec 16} {o : CpOpen} {r : Req} {slot : Option Nat}

/-- The one open command of a stream written (R287). -/
def State.withOpen (s : State) (st : Nat) (o : CpOpen) : State := { s with cp := { s.cp with opens := SMap.put s.cp.opens st [o] } }

theorem State.Drifts.withOpen (d : v.Drifts as u) (st : Nat) (o : CpOpen) : (v.withOpen st o).Drifts as (u.withOpen st o) :=
  ⟨d.lists, d.base, d.canonical, d.regs, congrArg (fun z : State => z.withOpen st o) d.rest⟩

/-- The dispatch of a request of an idle line, with no ticket: after one count it takes what its opcode takes (R135, R140). -/
theorem State.Drifts.dispatch_idle (d : v.Drifts as u) (hsub : as ⊆ answerRegs) (hf : v.faults = []) (hchk : v.chk = false)
    (hq : v.quietLine h) (hc : v.claimed r.line none = false) (ht : r.ticket = 0) (hsync : r.op ≠ Op.sync) (hstroke : r.op ≠ Op.stroke)
    (hh : v.hIdx r.line = some h) : ∃ w, v.Drifts as w ∧ u.dispatch r .req none = w.dispatchLine r .req h none none := by
  have hev : ∀ a, v.Drifts as (u.ev (0x80 + sliceOf h % 2) a) := fun a => d.ev (by omega) a
  have hacc := State.dirAccess_miss (d.faults.trans hf) fun a => (((hev a).tracks hsub).quietLine hq).1
  have hw := hev { l := some (u.lineOf h).toNat }
  have hpen := State.penReason_idle (r := r) ((hw.tracks hsub).quietLine hq) (((hw.tracks hsub).claimed _ _).trans hc)
  have hhu : u.hIdx r.line = some h := ((d.tracks hsub).hIdx _).trans hh
  refine ⟨_, hw, ?_⟩
  simp [State.dispatch, State.readTicket, State.redeems, ht, hsync, hstroke, hhu, hacc, State.alcLookup_intact (hw.faults.trans hf),
    hw.chk.trans hchk, hpen]

/-- A request of the channel port is accepted: its command has its stall (R32, R138, R287). -/
theorem State.Drifts.accept_cp (d : v.Drifts as u) (hp : R.YARD_PEAK ∈ as) (hcp : r.cp = some (st, q, false)) (hr : r.src < 6)
    (hopen : SMap.find v.cp.opens st = some [⟨q, false, none, none, none⟩]) (h : HIdx) (i : Nat) :
    ((v.withOpen st ⟨q, false, some i, none, some v.tod⟩).withStall i (Stall.accepted r h v.tod)).Drifts as (u.accept r .req h i none) := by
  have hstall := d.openStall hp i (Stall.accepted r h u.tod)
  unfold State.accept
  rw [hcp]
  extract_lets _ _ x _ m
  have hsame : x = u.openStall i (Stall.accepted r h u.tod) := rfl
  rw [← hsame] at hstall
  clear_value x
  have hm : m = x.withOpen st ⟨q, false, some i, none, some v.tod⟩ := by
    have hopens : x.cp.opens = v.cp.opens := congrArg CpSt.opens hstall.cp
    simp only [m, hopens, hopen, hstall.tod, Option.getD_some, updFirst, beq_self_eq_true, Option.isNone_none, Bool.and_self, if_true, putQ,
      List.isEmpty_cons, Bool.false_eq_true, if_false, State.withOpen]
    rfl
  have hset := (hstall.withOpen st ⟨q, false, some i, none, some v.tod⟩).respEv (kind := 0) (by decide) hr
  rw [d.tod, ← hm] at hset
  exact hset

/-- The stall of a channel-port request whose transaction begins (R78, R135). -/
def Stall.cpBegun (r : Req) (h : HIdx) (acc : Tod) (slot : Option Nat) : Stall := (Stall.accepted r h acc).direct none slot

/-- The state of a channel-port request whose transaction begins: its command has its stall, and its slot is reserved (R135, R287). -/
def State.cpBegun (s : State) (r : Req) (h : HIdx) (st i : Nat) (q : BitVec 16) (slot : Option Nat) : State :=
  ((s.withOpen st ⟨q, false, some i, none, some s.tod⟩).withSlot h slot).withStall i (Stall.cpBegun r h s.tod slot)

/-- A channel-port request whose line is in state I and free takes its stall and its slot (R116, R135). -/
theorem State.Drifts.dispatchLine_cp (d : v.Drifts as u) (hsub : as ⊆ answerRegs) (hp : R.YARD_PEAK ∈ as) (hq : v.quietLine h)
    (hi : v.stallFor r none = some i) (hkind : kindOf r.op < 8) (hcp : r.cp = some (st, q, false)) (hsrc : r.src = 4)
    (hopen : SMap.find v.cp.opens st = some [⟨q, false, none, none, none⟩]) (hall : r.allocates = false)
    (hslot : ∀ sl, slot = some sl → 1 ≤ v.inkRoom ∧ v.inkFree = some sl ∧ R.INK_PEAK ∈ as)
    (htakes : (r.op == Op.wrFull || r.op == Op.wrPart) = slot.isSome) :
    ∃ w, (v.cpBegun r h st i q slot).Drifts as w ∧
      u.dispatchLine r .req h none none = (if (s.repOf r r.op .direct none).needsData r.op then w.askRead i h else w).advance i := by
  obtain ⟨hd, ha, -, -, hn⟩ := hq
  have t := d.tracks hsub
  have hdir : u.dirOf h = none := (t.dirOf h).trans (State.dirOf_miss hd)
  have hhit : u.alcHit h = none := (t.alcHit h).trans ha
  have hstall : u.stallFor r none = some i := (t.stallFor r none).trans hi
  have hroom : b2n slot.isSome ≤ u.inkRoom := by
    rw [t.inkRoom]
    cases slot with
    | none => exact Nat.zero_le _
    | some sl => exact (hslot sl rfl).1
  have hreads : r.reads = false := by simp [Req.reads, hsrc]
  have hown : r.mayOwn none = false := by simp [Req.mayOwn, Req.acks, hsrc]
  obtain ⟨w, hw, heq⟩ := (d.accept_cp hp hcp (by omega) hopen h i).proceed_direct (r := r) (s := s) hsub hkind rfl (State.dirOf_miss hd) ha hn none
    (slot := slot) fun sl hsl => (hslot sl hsl).2
  refine ⟨w, hw, ?_⟩
  rw [← heq]
  have hzero : b2n false = 0 := rfl
  unfold State.dispatchLine
  rw [hdir, hhit]
  simp [hall, htakes, hown, hreads, State.plan, State.datRoom, hzero, hroom, hstall]

end

end Sys2Proof.Machine
end

section
/-! NEW commands of the channel port for an idle stream: a read and a write of part of a line that wait for memory (R138, R276, R285, R286). -/

-- As in the tests: the compile of the one text stays within the threads of the sandbox.
set_option Elab.async false

namespace Sys2Proof.Machine

section
variable {as : List RegAddr} {s w u v z : State} {c : CpCmd} {h : HIdx} {i : Nat} {r : Req} {op : BitVec 6} {slot : Option Nat}

/-! ### The turn of a command -/

/-- A NEW command of an idle stream arrives, and a stall is free for it (R138, R285). -/
structure State.CpArrival (s : State) (c : CpCmd) (i : Nat) : Prop where
  calm : s.calm
  opened : s.cp.opened = true
  link : s.link 4 = 1
  fresh : s.cpClass c = .fresh
  idle : SMap.find s.cp.opens c.stream.val = none
  heldNone : s.cpHeld c.stream = false
  good : cpBadWord c = none
  stall : s.aStall 0 = some i
  room : 1 ≤ s.freeStalls 0
  clear : s.awaitsCommit i = false

/-- Its line is the home's, of its world, in state I, free and unclaimed (R139, R150, R347). -/
structure State.CpTurn (s : State) (c : CpCmd) (h : HIdx) (i : Nat) : Prop extends s.CpArrival c i where
  home : s.hIdx c.line = some h
  allowed : s.denies (s.flag R.SEC_WORLDCFG 4) c.line = false
  quiet : s.quietLine h
  unclaimed : s.claimed c.line none = false

theorem State.CpArrival.joined (t : s.CpArrival c i) : s.SameButStreams (s.cpJoined c) ∧ (s.cpJoined c).cpNext c.stream.val = c.seq + 1 ∧
    s.regsKept (s.cpJoined c) [cpReg c.stream.val] ∧
    (s.cpJoined c).cp.opens = SMap.put s.cp.opens c.stream.val [⟨c.seq, false, none, none, none⟩] ∧ (s.cpJoined c).cp.eg = s.cp.eg ∧
    (s.cpJoined c).cp.retry = s.cp.retry := State.cpJoined_shows t.calm.1 t.idle

/-- The request that carries out a command, as its opcode and its number in the stream give it (R286). -/
structure Req.Carries (r : Req) (c : CpCmd) (op : BitVec 6) : Prop where
  op : r.op = op
  src : r.src = 4
  line : r.line = c.line
  ticket : r.ticket = 0
  detail : r.detail = BitVec.ofNat 40 c.mask.toNat
  data : r.data = c.data.fix
  cp : r.cp = some (c.stream.val, c.seq, false)

theorem quietReg_cpReg (st : Fin 64) : quietReg (cpReg st.val) := by
  have hlt := st.isLt
  have : quietReg (0x7100 + 8 * st.val) := by omega
  exact this

theorem State.CpTurn.begins (t : s.CpTurn c h i) (hsub : as ⊆ answerRegs) (hlist : EventRegs as) (hp : R.YARD_PEAK ∈ as) (hb : R.BLOT_STATUS ∈ as)
    (hcode : cpOpcode c.op = some op) (hkind : kindOf op < 8) (hops : op ≠ Op.sync ∧ op ≠ Op.stroke ∧ op ≠ Op.ligature)
    (hall : ∀ r : Req, r.op = op → r.allocates = false)
    (hslot : ∀ sl, slot = some sl → 1 ≤ s.inkRoom ∧ s.inkFree = some sl ∧ R.INK_PEAK ∈ as)
    (htakes : (op == Op.wrFull || op == Op.wrPart) = slot.isSome) :
    ∃ r w, r.Carries c op ∧ ((s.cpJoined c).cpBegun r h c.stream.val i c.seq slot).Drifts as w ∧
      s.cpCommand c = (if (s.repOf r r.op .direct none).needsData r.op then w.askRead i h else w).advance i := by
  obtain ⟨hsame, -, -, hopens, -, -⟩ := t.joined
  obtain ⟨hc, -, -, -, -, -, -, -, -, -, -, hf, hchk⟩ := t.calm
  obtain ⟨hsync, hstroke, hlig⟩ := hops
  obtain ⟨z, hz, hgo⟩ := State.cpCommand_fresh hc hf hchk t.opened t.link t.fresh t.idle t.heldNone hcode t.good hlist (.inr hb)
  have hcar : (z.cpReq { c with data := c.data.fix } op 0 false).Carries c op := ⟨rfl, rfl, rfl, rfl, rfl, rfl, rfl⟩
  have hworld : (z.cpReq { c with data := c.data.fix } op 0 false).world = s.flag R.SEC_WORLDCFG 4 :=
    ((hz.tracks hsub).flag (b := R.SEC_WORLDCFG) (by decide) 4).trans (hsame.flag (.inr (by decide)) 4)
  generalize z.cpReq { c with data := c.data.fix } op 0 false = r at hcar hworld hgo
  generalize s.cpJoined c = W at hsame hopens hz
  have hopen : SMap.find W.cp.opens c.stream.val = some [⟨c.seq, false, none, none, none⟩] := by rw [hopens, SMap.find_put_self]
  have hhome : W.hIdx r.line = some h := by rw [hcar.line, hsame.hIdx, t.home]
  have hdenies : W.denies r.world r.line = false := by rw [hworld, hcar.line, hsame.denies, t.allowed]
  obtain ⟨y, hy, hgo2⟩ := hz.cpDispatch (r := r) hsub (hcar.op ▸ hlig) (.inr ⟨by rw [hhome]; rfl, hdenies⟩)
  obtain ⟨x, hx, hgo3⟩ := hy.dispatch_idle hsub (hsame.faults.trans hf) (hsame.chk.trans hchk) (hsame.quietLine t.quiet)
    ((hsame.claimed _ _).trans (hcar.line ▸ t.unclaimed)) hcar.ticket (hcar.op ▸ hsync) (hcar.op ▸ hstroke) hhome
  obtain ⟨w, hw, hgo4⟩ := hx.dispatchLine_cp (s := s) hsub hp (hsame.quietLine t.quiet) (hsame.stallFor t.stall t.room hcar.src) (hcar.op ▸ hkind)
    hcar.cp hcar.src hopen (hall r hcar.op) (slot := slot) (by simpa only [State.inkRoom, State.inkFree, hsame.ink] using hslot) (hcar.op ▸ htakes)
  exact ⟨r, w, hcar, hw, hgo.trans (hgo2.trans (hgo3.trans hgo4))⟩

/-! ### A command that waits for memory -/

/-- The state of a channel-port request that has asked for its line (R276, R287). -/
def State.cpAsks (s : State) (r : Req) (h : HIdx) (st i : Nat) (q : BitVec 16) (slot : Option Nat) : State :=
  (((s.withOpen st ⟨q, false, some i, none, some s.tod⟩).withSlot h slot).withRead i h).withStall i
    { Stall.cpBegun r h s.tod slot with rd := .asked }

/-- A command whose answer needs the line's data asks for them, and waits (R78, R276). -/
theorem State.CpTurn.asks (t : s.CpTurn c h i) (hsub : as ⊆ answerRegs) (hr : r.Carries c op)
    (hw : ((s.cpJoined c).cpBegun r h c.stream.val i c.seq slot).Drifts as w) (hsync : op ≠ Op.sync)
    (hneeds : ∀ z : State, (z.repOf r r.op .direct none).needsData r.op = true) :
    ((s.cpJoined c).cpAsks r h c.stream.val i c.seq slot).Drifts as ((w.askRead i h).advance i) := by
  obtain ⟨hsame, -⟩ := t.joined
  obtain ⟨hd, -, -, -, hn⟩ := hsame.quietLine t.quiet
  have hchk : (s.cpJoined c).chk = false := hsame.chk.trans t.calm.2.2.2.2.2.2.2.2.2.2.2.2
  have hclear : (s.cpJoined c).awaitsCommit i = false := by
    rw [State.awaitsCommit, hsame.ink]
    exact t.clear
  generalize s.cpJoined c = W at hw hd hn hchk hclear ⊢
  have hask := hw.askRead hsub h
  have q := hask.tracks hsub
  have hy : Stall.Asking { Stall.cpBegun r h W.tod slot with rd := .asked } := ⟨rfl, rfl, rfl, rfl, rfl, rfl, rfl, rfl, rfl, rfl, rfl⟩
  have hopen : (W.withOpen c.stream.val ⟨c.seq, false, some i, none, some W.tod⟩).inkNewest h = none := hn
  have hclear' : (W.withOpen c.stream.val ⟨c.seq, false, some i, none, some W.tod⟩).awaitsCommit i = false := hclear
  have hacks : r.acks = false := by simp [Req.acks, hr.src]
  have hadv := State.advance_asking hy hask.find ((hask.chk.trans State.chk_withSlot).trans hchk)
    ((hask.awaitsCommit i).trans (State.awaitsCommit_withSlot hclear')) ((q.dirOf h).trans ((State.dirOf_withSlot h).trans (State.dirOf_miss hd)))
    ((q.inkNewest h).trans (State.inkNewest_withSlot hopen)) (hneeds _) (hr.op ▸ hsync) hacks
  rw [hadv]
  exact hask.updWith (fun y => { y with code := 2 })

/-- What is left of a NEW command that waits for memory: NEXT has passed it, and its stall and its read are told of (R276, R285, R287). -/
theorem State.CpTurn.waits (t : s.CpTurn c h i) (hsub : as ⊆ answerRegs) (hu : ((s.cpJoined c).cpAsks r h c.stream.val i c.seq slot).Drifts as u) :
    u.cpNext c.stream.val = c.seq + 1 ∧ SMap.find u.cp.opens c.stream.val = some [⟨c.seq, false, some i, none, some s.tod⟩] ∧
    SMap.find u.stalls i = some { Stall.cpBegun r h s.tod slot with rd := .asked } ∧ s.readAsked u h i ∧ u.dirs = s.dirs ∧
    u.ink = (s.cpJoined c |>.withSlot h slot).ink ∧ s.regsKept u (cpReg c.stream.val :: as) := by
  obtain ⟨hsame, hnext, hkept, hopens, -, -⟩ := t.joined
  have hreads : (s.cpJoined c).mp = s.mp := by
    funext n
    simp only [State.mp, hsame.mps]
  generalize s.cpJoined c = W at hsame hnext hkept hopens hu hreads ⊢
  have hregs : W.regsKept u as := fun b hb => (hu.regs b hb).trans (by cases slot <;> rfl)
  refine ⟨?_, ?_, ?_, ?_, ?_, hu.ink.trans (by cases slot <;> rfl), ?_⟩
  · rw [← hnext, State.cpNext, State.cpNext, State.fld, State.fld, State.regsKept.reg_eq hregs hsub (quietReg_cpReg c.stream)]
  · have hcp : u.cp.opens = SMap.put W.cp.opens c.stream.val [⟨c.seq, false, some i, none, some W.tod⟩] := by
      rw [hu.cp]
      cases slot <;> rfl
    rw [hcp, SMap.find_put_self, hsame.tod]
  · rw [← hsame.tod]
    exact hu.find
  · have := State.readAsked_withRead (s := W.withOpen c.stream.val ⟨c.seq, false, some i, none, some W.tod⟩) (h := h) (slot := slot) (i := i)
    have hport : (W.withOpen c.stream.val ⟨c.seq, false, some i, none, some W.tod⟩).readPort h = s.readPort h := hsame.readPort h
    have hmp : (W.withOpen c.stream.val ⟨c.seq, false, some i, none, some W.tod⟩).mp = s.mp := hreads
    have htod : (W.withOpen c.stream.val ⟨c.seq, false, some i, none, some W.tod⟩).tod = s.tod := hsame.tod
    rw [State.readAsked, hport, hmp, htod] at this
    rw [State.readAsked, (hu.tracks hsub).mp]
    exact this
  · rw [hu.dirs, ← hsame.dirs]
    exact State.withSlot_dirs
  · intro b hb
    rw [List.all_cons, Bool.and_eq_true] at hb
    obtain ⟨hb1, hb2⟩ := hb
    exact (hregs b hb2).trans (hkept b (by simpa using hb1))

theorem yardPeak_mem_answerRegs : R.YARD_PEAK ∈ answerRegs := by simp [answerRegs]
theorem inkPeak_mem_answerRegs : R.INK_PEAK ∈ answerRegs := by simp [answerRegs]

/-- CP_READ (R286). -/
theorem State.CpTurn.read (t : s.CpTurn c h i) (hop : c.op = 1) :
    does (.cpRead c) s (fun u => u.cpNext c.stream.val = c.seq + 1 ∧
      SMap.find u.cp.opens c.stream.val = some [⟨c.seq, false, some i, none, some s.tod⟩] ∧
      (∃ y, SMap.find u.stalls i = some y ∧ y.req.op = Op.rdOnce ∧ y.req.line = c.line ∧ y.h = h ∧ y.blocks = true ∧ y.rd = .asked) ∧
      s.readAsked u h i ∧ u.dirs = s.dirs ∧ u.ink = s.ink ∧ s.regsKept u ([cpReg c.stream.val, R.YARD_PEAK, R.BLOT_STATUS] ++ perfRegs)) := by
  have hsub : (R.YARD_PEAK :: R.BLOT_STATUS :: perfRegs) ⊆ answerRegs :=
    List.cons_subset.2 ⟨yardPeak_mem_answerRegs, List.cons_subset.2 ⟨blotStatus_mem_answerRegs, perfRegs_subset_answerRegs⟩⟩
  have hlist : EventRegs (R.YARD_PEAK :: R.BLOT_STATUS :: perfRegs) := (eventRegs_perfRegs.cons (by decide)).cons (by decide)
  obtain ⟨r, w, hr, hw, hgo⟩ := t.begins (op := Op.rdOnce) (slot := none) hsub hlist List.mem_cons_self (by simp)
    (by rw [hop]; rfl) (by decide) (by decide) (fun r hr => by rw [Req.allocates, hr]; rfl) (fun _ hs => by cases hs) (by decide)
  have hneeds : ∀ z : State, (z.repOf r r.op .direct none).needsData r.op = true := fun z => by rw [hr.op]; rfl
  have hu := t.asks hsub hr hw (by decide) hneeds
  rw [hneeds, if_pos rfl] at hgo
  obtain ⟨hnext, hopens, hstall, hread, hdirs, hink, hregs⟩ := t.waits hsub hu
  refine ⟨_, rfl, ?_⟩
  rw [hgo]
  exact ⟨hnext, hopens, ⟨_, hstall, hr.op, hr.line, rfl, rfl, rfl⟩, hread, hdirs, hink.trans t.joined.1.ink, hregs⟩

/-- CP_WRPART (R286). -/
theorem State.CpTurn.writePart (t : s.CpTurn c h i) (hop : c.op = 3) {sl : Nat} (hroom : 1 ≤ s.inkRoom) (hfree : s.inkFree = some sl) :
    does (.cpWrpart c) s (fun u => u.cpNext c.stream.val = c.seq + 1 ∧
      (∃ y, SMap.find u.stalls i = some y ∧ y.req.op = Op.wrPart ∧ y.req.mask = c.mask ∧ y.req.data = c.data.fix ∧ y.h = h ∧ y.blocks = true ∧
        y.ink = some sl ∧ y.rd = .asked) ∧
      s.reserves u sl h ∧ s.readAsked u h i ∧
      u.dirs = s.dirs ∧ s.regsKept u ([cpReg c.stream.val, R.YARD_PEAK, R.INK_PEAK, R.BLOT_STATUS] ++ perfRegs)) := by
  have hsub : (R.YARD_PEAK :: R.INK_PEAK :: R.BLOT_STATUS :: perfRegs) ⊆ answerRegs :=
    List.cons_subset.2 ⟨yardPeak_mem_answerRegs, List.cons_subset.2 ⟨inkPeak_mem_answerRegs,
      List.cons_subset.2 ⟨blotStatus_mem_answerRegs, perfRegs_subset_answerRegs⟩⟩⟩
  have hlist : EventRegs (R.YARD_PEAK :: R.INK_PEAK :: R.BLOT_STATUS :: perfRegs) :=
    ((eventRegs_perfRegs.cons (by decide)).cons (by decide)).cons (by decide)
  obtain ⟨r, w, hr, hw, hgo⟩ := t.begins (op := Op.wrPart) (slot := some sl) hsub hlist List.mem_cons_self (by simp)
    (by rw [hop]; rfl) (by decide) (by decide) (fun r hr => by rw [Req.allocates, hr]; rfl)
    (fun _ hs => by cases hs; exact ⟨hroom, hfree, by simp⟩) rfl
  have hneeds : ∀ z : State, (z.repOf r r.op .direct none).needsData r.op = true := fun z => by rw [hr.op]; rfl
  have hu := t.asks hsub hr hw (by decide) hneeds
  rw [hneeds, if_pos rfl] at hgo
  obtain ⟨hnext, -, hstall, hread, hdirs, hink, hregs⟩ := t.waits hsub hu
  have hmask : r.mask = c.mask := by
    apply BitVec.eq_of_toNat_eq
    have := c.mask.isLt
    rw [Req.mask, hr.detail, BitVec.toNat_ofNat, BitVec.toNat_ofNat]
    omega
  refine ⟨_, rfl, ?_⟩
  rw [hgo]
  refine ⟨hnext, ⟨_, hstall, hr.op, hmask, hr.data, rfl, rfl, rfl, rfl⟩, ?_, hread, hdirs, hregs⟩
  obtain ⟨⟨y, hy, hyh, hyp⟩, hothers⟩ := State.reserves_of_ink hink
  exact ⟨⟨y, hy, hyh, hyp⟩, fun j hj => (hothers j hj).trans (by rw [t.joined.1.ink])⟩

end

end Sys2Proof.Machine
end

section
/-! SUPPORT. Responses of the channel port: what stands in its queue stays there until it has left, and what the answer to a command and
the close of its stall leave behind (R283, R287, R288, R289). -/

-- As in the tests: the compile of the one text stays within the threads of the sandbox.
set_option Elab.async false

namespace Sys2Proof.Machine

section
variable {as : List RegAddr} {s w u v z : State} {c : CpCmd} {h : HIdx} {i st L : Nat} {x : CpRsp} {q : BitVec 16} {t : Stall}

/-! ### The queue of responses -/

theorem State.Drifts.trans (a : s.Drifts as v) (b : v.Drifts as u) : s.Drifts as u := by
  refine ⟨a.lists, a.base, b.canonical, fun r hr => (b.regs r hr).trans (a.regs r hr), ?_⟩
  conv_lhs => rw [b.rest, a.rest]

/-- The channel port and what has left it written. -/
def State.withCp (s : State) (c : CpSt) (l : List CpRsp) : State := { s with cp := c, cpTx := l }

theorem State.Drifts.withCp (d : v.Drifts as u) (c : CpSt) (l : List CpRsp) : (v.withCp c l).Drifts as (u.withCp c l) :=
  ⟨d.lists, d.base, d.canonical, d.regs, congrArg (fun z : State => z.withCp c l) d.rest⟩

/-- `u` is `v` but for what a drift leaves, and for responses of the channel port that have left it (R283). -/
structure State.CpSends (as : List RegAddr) (v u : State) : Prop where
  drifts : (v.withCp u.cp u.cpTx).Drifts as u
  opens : u.cp.opens = v.cp.opens

theorem State.Drifts.cpSends (d : v.Drifts as u) : v.CpSends as u := by
  have htx : u.cpTx = v.cpTx := (congrArg State.cpTx d.rest :)
  refine ⟨?_, congrArg CpSt.opens d.cp⟩
  rw [d.cp, htx]
  exact d

/-- A response stands in the queue, or is among what has left after the first `L` (R288). -/
def State.CpPosted (s : State) (L : Nat) (x : CpRsp) : Prop := x ∈ s.cp.eg.map (fun e => e.1) ∨ x ∈ s.cpTx.drop L

theorem State.CpSends.drift {m : State} (S : v.CpSends as u) (d : u.Drifts as m) : v.CpSends as m := by
  have htx : m.cpTx = u.cpTx := (congrArg State.cpTx d.rest :)
  refine ⟨?_, (congrArg CpSt.opens d.cp).trans S.opens⟩
  rw [d.cp, htx]
  exact S.drifts.trans d

theorem State.Drifts.cpPosted (d : v.Drifts as u) : u.CpPosted L x ↔ v.CpPosted L x := by
  have htx : u.cpTx = v.cpTx := (congrArg State.cpTx d.rest :)
  rw [State.CpPosted, State.CpPosted, d.cp, htx]

theorem State.CpSends.chk (S : v.CpSends as u) : u.chk = v.chk := S.drifts.chk
theorem State.CpSends.link (S : v.CpSends as u) (hsub : as ⊆ answerRegs) : u.link 4 = v.link 4 :=
  (S.drifts.tracks hsub).fld (b := R.CP_STATUS) (by decide) 0 2

/-- The channel port when the first response of its queue has left (R283). -/
def State.cpLeft (u : State) (y : CpRsp) (r : List (CpRsp × Option Tod)) (n : Nat) : State :=
  u.withCp { u.cp with eg := r, cred := u.cp.cred - n } (u.cpTx ++ [y])

theorem State.CpSends.left (S : v.CpSends as u) {y : CpRsp} {acc : Option Tod} {r : List (CpRsp × Option Tod)} (he : u.cp.eg = (y, acc) :: r)
    (hL : L ≤ u.cpTx.length) {n : Nat} {m : State} (hm : (u.cpLeft y r n).Drifts as m) :
    v.CpSends as m ∧ L ≤ m.cpTx.length ∧ ∀ x, u.CpPosted L x → m.CpPosted L x := by
  have hcp : m.cp = { u.cp with eg := r, cred := u.cp.cred - n } := hm.cp
  have htx : m.cpTx = u.cpTx ++ [y] := (congrArg State.cpTx hm.rest :)
  have hdrop : m.cpTx.drop L = u.cpTx.drop L ++ [y] := by rw [htx, List.drop_append_of_le_length hL]
  refine ⟨⟨?_, by rw [hcp]; exact S.opens⟩, by rw [htx, List.length_append]; omega, fun x hx => ?_⟩
  · have ht := S.drifts.withCp m.cp m.cpTx
    rw [hcp, htx] at ht ⊢
    exact ht.trans hm
  · rw [State.CpPosted, hdrop, hcp]
    rcases hx with hx | hx
    · rw [he, List.map_cons, List.mem_cons] at hx
      rcases hx with rfl | hx
      · exact .inr (List.mem_append_right _ List.mem_cons_self)
      · exact .inl hx
    · exact .inr (List.mem_append_left _ hx)

/-- Responses leave one by one while link and credits let them: each is queued still or has left (R283). -/
theorem State.CpSends.cpPumpN (hr : R.YARD_RESP ∈ as) (f : Nat) (S : v.CpSends as u) (hL : L ≤ u.cpTx.length) :
    v.CpSends as (u.cpPumpN f) ∧ L ≤ (u.cpPumpN f).cpTx.length ∧ ∀ x, u.CpPosted L x → (u.cpPumpN f).CpPosted L x := by
  induction f generalizing u with
  | zero => exact ⟨S, hL, fun _ => id⟩
  | succ f ih =>
    unfold State.cpPumpN
    split
    · exact ⟨S, hL, fun _ => id⟩
    · next y acc r he =>
      have hleft : ∀ n, (u.cpLeft y r n).Drifts as (u.cpLeft y r n) := fun n => .refl S.drifts.lists S.drifts.canonical
      have hstep : ∀ n m, (u.cpLeft y r n).Drifts as m → v.CpSends as (m.cpPumpN f) ∧ L ≤ (m.cpPumpN f).cpTx.length ∧
          ∀ x, u.CpPosted L x → (m.cpPumpN f).CpPosted L x := fun n m hm => by
        obtain ⟨hS, hlen, hkeep⟩ := S.left he hL hm
        obtain ⟨h1, h2, h3⟩ := ih hS hlen
        exact ⟨h1, h2, fun x hx => h3 x (hkeep x hx)⟩
      extract_lets n _ t
      split
      · cases acc with
        | none => exact hstep n _ (hleft n)
        | some a => exact hstep n _ ((hleft n).respMeasured hr 4 a)
      · exact ⟨S, hL, fun _ => id⟩

theorem State.CpSends.cpPump (S : v.CpSends as u) (hr : R.YARD_RESP ∈ as) (hlink : u.link 4 = 1) (hL : L ≤ u.cpTx.length) :
    v.CpSends as u.cpPump ∧ L ≤ u.cpPump.cpTx.length ∧ ∀ x, u.CpPosted L x → u.cpPump.CpPosted L x := by
  have hgo : u.cpPump = u.cpPumpN u.cp.eg.length := by simp [State.cpPump, hlink]
  rw [hgo]
  exact S.cpPumpN hr _ hL

/-- The queue of responses written. -/
def State.withEg (s : State) (l : List (CpRsp × Option Tod)) : State := { s with cp := { s.cp with eg := l } }

theorem State.CpSends.withEg (S : v.CpSends as u) (l : List (CpRsp × Option Tod)) : v.CpSends as (u.withEg l) :=
  ⟨S.drifts.withCp { u.cp with eg := l } u.cpTx, S.opens⟩

/-- A response queued stands there or has left, and so does every earlier one (R288). -/
theorem State.CpSends.cpRespond (S : v.CpSends as u) (hr : R.YARD_RESP ∈ as) (hlink : u.link 4 = 1) (hL : L ≤ u.cpTx.length) (x : CpRsp)
    (acc : Option Tod) : v.CpSends as (u.cpRespond x acc) ∧ L ≤ (u.cpRespond x acc).cpTx.length ∧
      (u.cpRespond x acc).CpPosted L { x with dack := u.cpDack x.stream } := by
  obtain ⟨h1, h2, h3⟩ := (S.withEg (u.cp.eg ++ [({ x with dack := u.cpDack x.stream }, acc)])).cpPump hr hlink hL
  refine ⟨h1, h2, h3 _ (.inl ?_)⟩
  simp [State.withEg]

theorem mem_ackPut {a y : CpRsp} {l : List (CpRsp × Option Tod)} (hy : y.ack = false) (h : y ∈ l.map (fun e => e.1)) :
    y ∈ (ackPut a l).map (fun e => e.1) := by
  induction l with
  | nil => cases h
  | cons b l ih =>
    rw [List.map_cons, List.mem_cons] at h
    unfold ackPut
    split
    · next hb =>
      rcases h with rfl | h
      · simp [hy] at hb
      · exact List.mem_cons_of_mem _ h
    · rcases h with rfl | h
      · exact List.mem_cons_self
      · exact List.mem_cons_of_mem _ (ih h)

/-- `u` is `s` but for DACK of a stream (R289). -/
structure State.DackMoved (s u : State) (st : Nat) : Prop where
  canonical : u.canonical = true
  rest : u = { s with win := u.win }
  regs : ∀ b, cpReg st / 8 ≠ b / 8 → u.reg b = s.reg b
  next : u.fld (cpReg st) 0 16 = s.fld (cpReg st) 0 16

theorem State.DackMoved.refl (hc : s.canonical = true) (st : Nat) : s.DackMoved s st := ⟨hc, rfl, fun _ _ => rfl, rfl⟩

theorem State.DackMoved.setFld (hc : s.canonical = true) (st n : Nat) : s.DackMoved (s.setFld (cpReg st) 16 16 n) st := by
  obtain ⟨hrest, hregs⟩ := State.onlyRegs_setFld hc (cpReg st) 16 16 n
  exact ⟨State.canonical_setFld hc .., hrest, fun b hb => hregs b (by simpa using hb),
    State.fld_setFld_below hc (cpReg st) n (by decide) (by decide)⟩

theorem State.DackMoved.stalls (m : s.DackMoved u st) : u.stalls = s.stalls := (congrArg State.stalls m.rest :)
theorem State.DackMoved.dirs (m : s.DackMoved u st) : u.dirs = s.dirs := (congrArg State.dirs m.rest :)
theorem State.DackMoved.ink (m : s.DackMoved u st) : u.ink = s.ink := (congrArg State.ink m.rest :)
theorem State.DackMoved.cp (m : s.DackMoved u st) : u.cp = s.cp := (congrArg State.cp m.rest :)
theorem State.DackMoved.cpTx (m : s.DackMoved u st) : u.cpTx = s.cpTx := (congrArg State.cpTx m.rest :)

/-- DACK of a stream advances, or nothing changes; an acknowledgement that becomes due displaces no response (R289). -/
theorem State.cpAdvance_shows (hc : u.canonical = true) (hlist : EventRegs as) (hsub : as ⊆ answerRegs) (hr : R.YARD_RESP ∈ as)
    (hlink : u.link 4 = 1) (hL : L ≤ u.cpTx.length) (st : Fin 64) : ∃ z, u.DackMoved z st.val ∧ z.CpSends as (u.cpAdvance st.val) ∧
      ∀ x, x.ack = false → u.CpPosted L x → (u.cpAdvance st.val).CpPosted L x := by
  unfold State.cpAdvance
  split
  · exact ⟨u, .refl hc _, (State.Drifts.refl hlist hc).cpSends, fun _ _ => id⟩
  · extract_lets d top n v z
    split
    · exact ⟨u, .refl hc _, (State.Drifts.refl hlist hc).cpSends, fun _ _ => id⟩
    · have hm : u.DackMoved z st.val := State.DackMoved.setFld hc st.val v.toNat
      have hcz := hm.canonical
      have hcp := hm.cp
      have htx := hm.cpTx
      have hlinkz : z.link 4 = 1 := by
        have hne : (0x7100 + 8 * st.val) / 8 ≠ 0x7008 / 8 := by omega
        have hreg := hm.regs R.CP_STATUS hne
        rw [← hlink]
        simp only [State.link, if_true, State.fld, hreg]
      refine ⟨z, hm, ?_⟩
      clear_value z
      rw [if_neg (by rw [hlinkz]; decide)]
      have hw := (State.Drifts.refl hlist hcz).cpSends.withEg (ackPut ⟨st.val, v, 0, true, v, []⟩ z.cp.eg)
      have hev := (State.Drifts.refl hlist hw.drifts.canonical).ev (k := 0xDB) (by decide) {}
      have htxe : ((z.withEg (ackPut ⟨st.val, v, 0, true, v, []⟩ z.cp.eg)).ev 0xDB {}).cpTx = u.cpTx :=
        ((congrArg State.cpTx hev.rest :) : _ = z.cpTx).trans htx
      obtain ⟨h1, -, h3⟩ := (hw.drift hev).cpPump hr (((hw.drift hev).link hsub).trans hlinkz) (L := L) (by rw [htxe]; exact hL)
      refine ⟨h1, fun x hx hpost => h3 x (hev.cpPosted.2 ?_)⟩
      rcases hpost with hpost | hpost
      · refine .inl (mem_ackPut hx ?_)
        rw [hcp]
        exact hpost
      · refine .inr ?_
        rw [show (z.withEg (ackPut ⟨st.val, v, 0, true, v, []⟩ z.cp.eg)).cpTx = u.cpTx from htx]
        exact hpost

/-! ### The close of a command's stall -/

/-- A stall of a channel-port command that has been answered and waits for nothing (R84, R287). -/
structure Stall.CpDone (t : Stall) (st : Nat) (q : BitVec 16) : Prop where
  role : t.role = .req
  src : t.req.src = 4
  cp : t.req.cp = some (st, q, false)
  waits : t.waits = []
  relay : t.relay = none
  evict : t.evict = none
  wbWait : t.wbWait = none
  ink : t.ink = none
  recorded : t.recorded = true
  final : t.final = true

theorem State.canClose_done (ht : t.CpDone st q) (hc : s.awaitsCommit i = false) (hsync : s.cpSyncWaits t = false) : s.canClose i t = true := by
  simp [State.canClose, ht.waits, ht.relay, ht.evict, ht.wbWait, ht.recorded, ht.final, Req.acks, ht.src, hc, hsync]

/-- A stall that blocks no line, or a line without an entry, and keeps no slot, returns to its pool (R84). -/
theorem State.doClose_done (ht : t.CpDone st q) (hdir : t.blocks = false ∨ s.dirOf t.h = none) : s.doClose i t = s.freeStall i := by
  rcases hdir with hb | hd
  · simp only [State.doClose, hb, Bool.false_and, Bool.false_eq_true, if_false, ht.ink, ht.role]
  · exact State.doClose_idle hd ht.ink ht.role

/-- The only open command of a stream, answered, closes and its response is queued (R287). -/
theorem State.cpDrain_only (hf : SMap.find s.stalls i = some t) (ht : t.CpDone st q) (hclose : s.canClose i t = true)
    (hdir : t.blocks = false ∨ s.dirOf t.h = none) {o : CpOpen} {a : CpRsp} (ho : o.stall = some i) (ha : o.ans = some a)
    (hopen : SMap.find s.cp.opens st = some [o]) (n : Nat) :
    s.cpDrain st (n + 1) = State.cpDrain ((({ s.freeStall i with cp := { (s.freeStall i).cp with opens := SMap.del (s.freeStall i).cp.opens st } } :
      State)).cpRespond a o.acc) st n := by
  rw [State.cpDrain, hopen]
  simp only [Option.getD_some, ho, ha, hf, hclose, if_true, State.doClose_done ht hdir, putQ, List.isEmpty_nil]

theorem State.cpDrain_idle (hopen : SMap.find s.cp.opens st = none) (n : Nat) : s.cpDrain st n = s := by
  cases n with
  | zero => rfl
  | succ n =>
    rw [State.cpDrain, hopen]
    rfl

theorem Stall.CpDone.coded (ht : t.CpDone st q) (n : Nat) : Stall.CpDone { t with code := n } st q := { ht with }

/-- A state whose stall `i` and open command of stream `st` are gone (R84, R287). -/
def State.closed (s : State) (i st : Nat) (k : SMap Ticket) : State :=
  { s with stalls := SMap.del s.stalls i, tickets := k, cp := { s.cp with opens := SMap.del s.cp.opens st } }

theorem State.Drifts.closed (d : v.Drifts as u) (i st : Nat) (k : SMap Ticket) : (v.closed i st k).Drifts as (u.closed i st k) :=
  ⟨d.lists, d.base, d.canonical, d.regs, congrArg (fun z : State => z.closed i st k) d.rest⟩

theorem State.freeStall_closed (s : State) (i st : Nat) :
    ({ s.freeStall i with cp := { (s.freeStall i).cp with opens := SMap.del (s.freeStall i).cp.opens st } } : State) =
      s.closed i st (s.freeStall i).tickets := by
  rw [s.freeStall_eq i]
  rfl

/-- A channel-port command that has been answered closes, its response is queued, and its stall is free again (R84, R287, R288). -/
theorem State.Drifts.closeReq_cp {st : Fin 64} {y : Stall} {o : CpOpen} {a : CpRsp} (d : (v.withStall i y).Drifts as u) (hsub : as ⊆ answerRegs)
    (hr : R.YARD_RESP ∈ as) (hy : y.CpDone st.val q) (hc : v.awaitsCommit i = false) (hsync : v.cpSyncWaits y = false)
    (hdir : y.blocks = false ∨ v.dirOf y.h = none) (ho : o.stall = some i) (ha : o.ans = some a)
    (hopen : SMap.find v.cp.opens st.val = some [o]) (hack : a.ack = false) (hwfo : SMap.wf v.cp.opens = true) (hwfs : SMap.wf v.stalls = true)
    (hlink : v.link 4 = 1) :
    ∃ dk, SMap.find (u.closeReq i).stalls i = none ∧ (u.closeReq i).CpPosted v.cpTx.length { a with dack := dk } ∧
      (u.closeReq i).dirs = v.dirs ∧ (u.closeReq i).ink = v.ink ∧ v.regsKept (u.closeReq i) (cpReg st.val :: as) ∧
      (u.closeReq i).fld (cpReg st.val) 0 16 = v.fld (cpReg st.val) 0 16 := by
  have d1 := d.updWith (fun x => { x with code := u.codeOf i y })
  have hd1 := hy.coded (u.codeOf i y)
  have hsync1 : ∀ w : State, w.ink = v.ink → w.cpSyncWaits { y with code := u.codeOf i y } = false := fun w hw => by
    rw [← hsync]
    simp only [State.cpSyncWaits, hw]
  have hcan0 : u.canClose i y = true := State.canClose_done hy ((d.awaitsCommit i).trans hc) (by
    rw [← hsync]
    simp only [State.cpSyncWaits, d.ink]
    rfl)
  have hgo : u.closeReq i = ((u.updStall i (fun x => { x with code := u.codeOf i y })).cpDrain st.val 64).cpAdvance st.val := by
    simp only [State.closeReq, d.find, State.canClose_updStall, hcan0, if_true, hy.cp]
  generalize u.updStall i (fun x => { x with code := u.codeOf i y }) = x at d1 hgo
  generalize u.codeOf i y = code at d1 hd1 hsync1
  have hopenx : SMap.find x.cp.opens st.val = some [o] := by rw [d1.cp]; exact hopen
  have hdrain := State.cpDrain_only d1.find hd1 (State.canClose_done hd1 ((d1.awaitsCommit i).trans hc) (hsync1 x d1.ink))
    (hdir.imp id fun h => ((d1.tracks hsub).dirOf _).trans h) ho ha hopenx 63
  rw [State.freeStall_closed] at hdrain
  have d2 := d1.closed i st.val (x.freeStall i).tickets
  generalize x.closed i st.val (x.freeStall i).tickets = y2 at d2 hdrain
  generalize (x.freeStall i).tickets = tk at d2
  have hlink2 : y2.link 4 = 1 := ((d2.tracks hsub).fld (b := R.CP_STATUS) (by decide) 0 2).trans hlink
  have htx2 : y2.cpTx = v.cpTx := (congrArg State.cpTx d2.rest :)
  obtain ⟨hS, hL, hpost⟩ := d2.cpSends.cpRespond hr hlink2 (L := v.cpTx.length) (by rw [htx2]) a o.acc
  generalize y2.cpDack a.stream = dk at hpost
  generalize y2.cpRespond a o.acc = z at hS hL hpost hdrain
  have hgone : SMap.find z.cp.opens st.val = none := by
    rw [hS.opens]
    exact SMap.find_del_self hwfo _
  rw [hdrain, State.cpDrain_idle hgone] at hgo
  obtain ⟨m, hm, hSm, hkeep⟩ := State.cpAdvance_shows hS.drifts.canonical hS.drifts.lists hsub hr ((hS.link hsub).trans hlink) hL st
  rw [hgo]
  refine ⟨dk, ?_, hkeep _ hack hpost, ?_, ?_, ?_, ?_⟩
  · have hstalls : (z.cpAdvance st.val).stalls = _ := hSm.drifts.stalls.trans (hm.stalls.trans hS.drifts.stalls)
    rw [hstalls]
    exact SMap.find_del_self (SMap.risesFrom_put (Nat.zero_le _) hwfs) i
  · exact hSm.drifts.dirs.trans (hm.dirs.trans hS.drifts.dirs)
  · exact hSm.drifts.ink.trans (hm.ink.trans hS.drifts.ink)
  · intro b hb
    rw [List.all_cons, Bool.and_eq_true] at hb
    obtain ⟨hb1, hb2⟩ := hb
    exact (hSm.drifts.regs b hb2).trans ((hm.regs b (by simpa using hb1)).trans (hS.drifts.regs b hb2))
  · have hzf : z.fld (cpReg st.val) 0 16 = v.fld (cpReg st.val) 0 16 := (hS.drifts.tracks hsub).fld (quietReg_cpReg st) 0 16
    have hff := (hSm.drifts.tracks hsub).fld (quietReg_cpReg st) 0 16
    exact hff.trans (hm.next.trans hzf)

end

end Sys2Proof.Machine
end

section
/-! NEW commands of the channel port for an idle stream: a full write, answered from the inkwell, and a SYNC (R138, R285, R286, R287). -/

-- As in the tests: the compile of the one text stays within the threads of the sandbox.
set_option Elab.async false

namespace Sys2Proof.Machine

section
variable {as : List RegAddr} {s w u v z : State} {c : CpCmd} {h : HIdx} {i sl st : Nat} {r : Req} {op : BitVec 6} {slot : Option Nat} {a : CpRsp}
  {x : InkSlot} {acc : Tod}

/-! ### Steps of an answer -/

theorem State.Drifts.inkFill (d : v.Drifts as u) (hsub : as ⊆ answerRegs) (hx : SMap.find v.ink sl = some x) (hn : v.inkNewest x.h = none)
    (e : LineData) (ids : List EpId) (cps : List (Nat × BitVec 16)) :
    (v.withFilled sl (x.fill e (v.needPorts x.h) ids cps v.inkSeq v.tod)).Drifts as (u.inkFill sl e ids cps) := by
  have t := d.tracks hsub
  have hseq : u.inkSeq = v.inkSeq := (congrArg State.inkSeq d.rest :)
  rw [State.inkFill_only (by rw [d.ink]; exact hx) (State.inkOlder_eq_nil ((t.inkNewest _).trans hn)), t.needPorts, hseq, d.tod]
  exact ⟨d.lists, d.base, d.canonical, d.regs,
    congrArg (fun q : State => q.withFilled sl (x.fill e (v.needPorts x.h) ids cps v.inkSeq v.tod)) d.rest⟩

theorem State.Drifts.cpAnswer (d : v.Drifts as u) (st i : Nat) (a : CpRsp) : (v.cpAnswer st i a).Drifts as (u.cpAnswer st i a) :=
  ⟨d.lists, d.base, d.canonical, d.regs, congrArg (fun q : State => q.cpAnswer st i a) d.rest⟩

/-- The only open command of a stream has its answer prepared (R287). -/
theorem State.opens_cpAnswer {o : CpOpen} (ho : o.stall = some i) (hopen : SMap.find s.cp.opens st = some [o]) (a : CpRsp) :
    (s.cpAnswer st i a).cp.opens = SMap.put s.cp.opens st [{ o with ans := some a }] := by
  simp [State.cpAnswer, hopen, ho, putQ]

/-! ### The full write -/

/-- The response OK to a write or a SYNC (R288). -/
def CpRsp.ok (c : CpCmd) : CpRsp := ⟨c.stream.val, c.seq, 0, false, 0, []⟩

/-- A stall whose request is about to be answered, its line in state I (R78). -/
structure Stall.CpDue (t : Stall) (r : Req) (h : HIdx) (slot : Option Nat) : Prop where
  role : t.role = .req
  code : t.code = 2
  req : t.req = r
  line : t.h = h
  way : t.way = none
  waits : t.waits = []
  relay : t.relay = none
  evict : t.evict = none
  hold : t.hold = none
  out : t.out = some .direct
  wbWait : t.wbWait = none
  ready : t.ready = false
  final : t.final = false
  ink : t.ink = slot

theorem Stall.cpBegun_due (r : Req) (h : HIdx) (acc : Tod) : (Stall.cpBegun r h acc slot).CpDue r h slot :=
  ⟨rfl, rfl, rfl, rfl, rfl, rfl, rfl, rfl, rfl, rfl, rfl, rfl, rfl, Option.or_none⟩

/-- The full write of a line in state I: its line is placed in the slot that it has reserved, and its answer prepared (R78, R286). -/
theorem State.advance_cpWrite {t : Stall} (hr : r.Carries c Op.wrFull) (ht : t.CpDue r h (some sl)) (hf : SMap.find s.stalls i = some t)
    (hchk : s.chk = false) (hc : s.awaitsCommit i = false) (hdir : s.dirOf h = none) :
    s.advance i = ((((((s.updStall i (fun y => { y with recorded := true })).inkFill sl r.data [] [(c.stream.val, c.seq)]).updStall i
      (fun y => { y with ink := none, got := none })).updStall i (fun y => { y with final := true, first := true })).cpAnswer c.stream.val i
        (CpRsp.ok c)).closeReq i) := by
  have hdt : s.dirOf t.h = none := by rw [ht.line, hdir]
  have hrep : s.repOf r Op.wrFull .direct none = .cmpW := rfl
  have hdur : r.dur = false := by simp [Req.dur, hr.src]
  have hsrc : ¬ r.src < 4 := by rw [hr.src]; decide
  have hrec : s.record t .direct .cmpW false = s := by
    simp only [State.record, State.holdsRead_idle hdt, hdt, ht.way, ite_self]
  have hhold : s.holdStep i t = s := by simp [State.holdStep, ht.hold]
  have hgo : s.advance i = (s.completeStep i t .direct).closeReq i := by
    simp only [State.advance, hf, hhold, hchk, ht.code, ht.waits, ht.relay, ht.wbWait, ht.out, Stall.done, ht.final, ht.ready, hc]
    rfl
  rw [hgo]
  congr 1
  unfold State.completeStep
  simp only [ht.role, ht.req, hdt, hr.op, hrep, State.displaces_idle hdt, ite_self, hf, ht.waits, Option.any_some, List.isEmpty_nil,
    Bool.not_true, Bool.false_eq_true, if_false, ht.evict, Option.isSome_none, if_true, hrec, hdur, hsrc, hr.cp, ht.ink, Option.getD_some,
    decide_false, Bool.false_and]
  rfl

/-- The state of a full write that is in the inkwell (R274). -/
def State.cpFilled (s : State) (r : Req) (h : HIdx) (st i sl : Nat) (q : BitVec 16) : State :=
  ((s.withOpen st ⟨q, false, some i, none, some s.tod⟩).withSlot h (some sl)).withFilled sl
    ((InkSlot.reserve h (s.worldOfH h)).fill r.data (s.needPorts h) [] [(st, q)] s.inkSeq s.tod)

/-- The state of a full write that is in the inkwell, its answer prepared (R274, R287). -/
def State.cpWritten (s : State) (r : Req) (h : HIdx) (st i sl : Nat) (q : BitVec 16) (a : CpRsp) : State :=
  (s.cpFilled r h st i sl q).cpAnswer st i a

/-- The stall of a command that has been answered (R287). -/
def Stall.cpAnswered (t : Stall) : Stall := { t with recorded := true, ink := none, got := none, final := true, first := true }

theorem Stall.CpDue.answered {t : Stall} (ht : t.CpDue r h slot) (hr : r.Carries c op) : t.cpAnswered.CpDone c.stream.val c.seq where
  role := ht.role
  src := (congrArg Req.src ht.req).trans hr.src
  cp := (congrArg Req.cp ht.req).trans hr.cp
  waits := ht.waits
  relay := ht.relay
  evict := ht.evict
  wbWait := ht.wbWait
  ink := rfl
  recorded := rfl
  final := rfl

/-- A full write is placed in the inkwell and goes on to close (R78, R84). -/
theorem State.Drifts.cpWrite (hw : (v.cpBegun r h c.stream.val i c.seq (some sl)).Drifts as w) (hsub : as ⊆ answerRegs)
    (hr : r.Carries c Op.wrFull) (hchk : v.chk = false) (hc : v.awaitsCommit i = false) (hdir : v.dirOf h = none) (hn : v.inkNewest h = none) :
    ∃ z, ((v.cpWritten r h c.stream.val i sl c.seq (CpRsp.ok c)).withStall i (Stall.cpBegun r h v.tod (some sl)).cpAnswered).Drifts as z ∧
      w.advance i = z.closeReq i := by
  have t := hw.tracks hsub
  have hopen : (v.withOpen c.stream.val ⟨c.seq, false, some i, none, some v.tod⟩).inkNewest h = none := hn
  have hclear : (v.withOpen c.stream.val ⟨c.seq, false, some i, none, some v.tod⟩).awaitsCommit i = false := hc
  have hadv := State.advance_cpWrite hr (Stall.cpBegun_due r h v.tod) hw.find (hw.chk.trans hchk)
    ((hw.awaitsCommit i).trans (State.awaitsCommit_withSlot hclear)) ((t.dirOf h).trans hdir)
  have d1 : ((v.cpFilled r h c.stream.val i sl c.seq).withStall i { Stall.cpBegun r h v.tod (some sl) with recorded := true }).Drifts as _ :=
    (hw.updWith (fun y => { y with recorded := true })).inkFill (sl := sl) (x := InkSlot.reserve h (v.worldOfH h)) hsub
      State.find_ink_withSlot (State.inkNewest_withSlot hopen) r.data [] [(c.stream.val, c.seq)]
  have d2 := d1.updWith (fun y => { y with ink := none, got := none })
  exact ⟨_, (d2.updWith (fun y => { y with final := true, first := true })).cpAnswer c.stream.val i (CpRsp.ok c), hadv⟩

/-! ### The close of a NEW command -/

/-- A NEW command has joined its stream and has its stall (R287). -/
def State.cpTaken (s : State) (c : CpCmd) (i : Nat) : State :=
  (s.cpJoined c).withOpen c.stream.val ⟨c.seq, false, some i, none, some s.tod⟩

/-- A state with the streams, the stalls and the responses of one where a NEW command has its stall (R287). -/
structure State.CpStanding (s : State) (c : CpCmd) (i : Nat) (x : State) : Prop where
  win : x.win = (s.cpTaken c i).win
  cp : x.cp = (s.cpTaken c i).cp
  stalls : x.stalls = s.stalls
  cpTx : x.cpTx = s.cpTx

/-- The response OK to a command, queued or gone (R288). -/
theorem State.CpPosted.answered {dk : BitVec 16} (hp : u.CpPosted s.cpTx.length { CpRsp.ok c with dack := dk }) : s.cpAnswered u c 0 :=
  ⟨_, rfl, rfl, rfl, rfl, hp⟩

/-- What a NEW command that is answered OK leaves behind (R84, R285, R287, R288). -/
theorem State.CpArrival.closes {y : Stall} (t : s.CpArrival c i) (hwf : SMap.wf s.cp.opens = true) (hv : s.CpStanding c i v)
    (d : ((v.cpAnswer c.stream.val i (CpRsp.ok c)).withStall i y).Drifts as u) (hsub : as ⊆ answerRegs) (hr : R.YARD_RESP ∈ as)
    (hy : y.CpDone c.stream.val c.seq) (hc : v.awaitsCommit i = false) (hsync : v.cpSyncWaits y = false)
    (hdir : y.blocks = false ∨ v.dirOf y.h = none) :
    (u.closeReq i).cpNext c.stream.val = c.seq + 1 ∧ SMap.find (u.closeReq i).stalls i = none ∧ s.cpAnswered (u.closeReq i) c 0 ∧
      (u.closeReq i).dirs = v.dirs ∧ (u.closeReq i).ink = v.ink ∧ s.regsKept (u.closeReq i) (cpReg c.stream.val :: as) := by
  obtain ⟨hsame, hnext, hkept, hopens, -, -⟩ := t.joined
  obtain ⟨hwin, hcp, hstalls, htx⟩ := hv
  obtain ⟨-, -, hwfs, -⟩ := t.calm
  have hreg : ∀ b, v.reg b = (s.cpJoined c).reg b := fun b => by
    simp only [State.reg, hwin]
    rfl
  have hjoin : v.cp.opens = SMap.put (s.cpJoined c).cp.opens c.stream.val [⟨c.seq, false, some i, none, some s.tod⟩] := by rw [hcp]; rfl
  have hwfv : SMap.wf v.cp.opens = true := by
    rw [hjoin, hopens]
    exact SMap.risesFrom_put (Nat.zero_le _) (SMap.risesFrom_put (Nat.zero_le _) hwf)
  have hans : (v.cpAnswer c.stream.val i (CpRsp.ok c)).cp.opens =
      SMap.put v.cp.opens c.stream.val [⟨c.seq, false, some i, some (CpRsp.ok c), some s.tod⟩] :=
    State.opens_cpAnswer (o := ⟨c.seq, false, some i, none, some s.tod⟩) rfl (by rw [hjoin]; exact SMap.find_put_self _ _ _) _
  have hlink : v.link 4 = 1 := by
    rw [← t.link, ← hsame.link]
    exact congrArg (fun x => (getBits x 0 2)) (hreg R.CP_STATUS)
  obtain ⟨dk, hstall, hpost, hdirs, hink, hregs, hfld⟩ := d.closeReq_cp hsub hr hy hc hsync hdir
    (o := ⟨c.seq, false, some i, some (CpRsp.ok c), some s.tod⟩) rfl rfl (by rw [hans]; exact SMap.find_put_self _ _ _) rfl
    (by rw [hans]; exact SMap.risesFrom_put (Nat.zero_le _) hwfv) (hwfs ▸ congrArg SMap.wf hstalls) hlink
  refine ⟨?_, hstall, ?_, hdirs, hink, fun b hb => ?_⟩
  · rw [← hnext, State.cpNext, State.cpNext, hfld]
    exact congrArg (fun x => BitVec.ofNat 16 (getBits x 0 16)) (hreg _)
  · exact State.CpPosted.answered (dk := dk) (htx ▸ hpost)
  · refine (hregs b hb).trans ((hreg b).trans (hkept b ?_))
    rw [List.all_cons, Bool.and_eq_true] at hb
    simpa using hb.1

/-- A command that is no SYNC waits for no commit of its stream (R286). -/
theorem State.cpSyncWaits_write {t : Stall} (hop : t.req.op ≠ Op.sync) : s.cpSyncWaits t = false := by
  unfold State.cpSyncWaits
  split
  · simp [hop]
  · rfl

/-- CP_WRFULL (R286). -/
theorem State.CpTurn.writeFull (t : s.CpTurn c h i) (hop : c.op = 2) (hwf : SMap.wf s.cp.opens = true) (hroom : 1 ≤ s.inkRoom)
    (hfree : s.inkFree = some sl) :
    does (.cpWrfull c) s (fun u => u.cpNext c.stream.val = c.seq + 1 ∧ SMap.find u.stalls i = none ∧
      (∃ y, SMap.find u.ink sl = some y ∧ y.h = h ∧ y.phase = .filled ∧ y.data = LineData.norm c.data.fix ∧ y.cps = [(c.stream.val, c.seq)] ∧
        y.ids = []) ∧ (∀ j, j ≠ sl → SMap.find u.ink j = SMap.find s.ink j) ∧
      s.cpAnswered u c 0 ∧ u.dirs = s.dirs ∧
      s.regsKept u ([cpReg c.stream.val, R.YARD_PEAK, R.YARD_RESP, R.INK_PEAK, R.BLOT_STATUS] ++ perfRegs)) := by
  have hsub : (R.YARD_PEAK :: R.YARD_RESP :: R.INK_PEAK :: R.BLOT_STATUS :: perfRegs) ⊆ answerRegs :=
    List.cons_subset.2 ⟨yardPeak_mem_answerRegs, List.cons_subset.2 ⟨yardResp_mem_answerRegs, List.cons_subset.2 ⟨inkPeak_mem_answerRegs,
      List.cons_subset.2 ⟨blotStatus_mem_answerRegs, perfRegs_subset_answerRegs⟩⟩⟩⟩
  have hlist : EventRegs (R.YARD_PEAK :: R.YARD_RESP :: R.INK_PEAK :: R.BLOT_STATUS :: perfRegs) :=
    (((eventRegs_perfRegs.cons (by decide)).cons (by decide)).cons (by decide)).cons (by decide)
  obtain ⟨r, w, hr, hw, hgo⟩ := t.begins (op := Op.wrFull) (slot := some sl) hsub hlist List.mem_cons_self (by simp)
    (by rw [hop]; rfl) (by decide) (by decide) (fun r hr => by rw [Req.allocates, hr]; rfl)
    (fun _ hs => by cases hs; exact ⟨hroom, hfree, by simp⟩) rfl
  have hneeds : (s.repOf r r.op .direct none).needsData r.op = false := by rw [hr.op]; rfl
  rw [hneeds, if_neg (by decide)] at hgo
  obtain ⟨hsame, -⟩ := t.joined
  obtain ⟨-, -, -, -, -, -, -, -, -, -, -, -, hchk⟩ := t.calm
  obtain ⟨hd, -, -, -, hn⟩ := hsame.quietLine t.quiet
  have hclear : (s.cpJoined c).awaitsCommit i = false := by
    rw [State.awaitsCommit, hsame.ink]
    exact t.clear
  obtain ⟨z, hz, hgo2⟩ := hw.cpWrite hsub hr (hsame.chk.trans hchk) hclear (State.dirOf_miss hd) hn
  obtain ⟨hnext, hstall, hans, hdirs, hink, hregs⟩ := t.closes (v := (s.cpJoined c).cpFilled r h c.stream.val i sl c.seq) hwf
    ⟨rfl, by rw [State.cpTaken, ← hsame.tod]; rfl, hsame.stalls, hsame.cpTx⟩ hz hsub (by simp) ((Stall.cpBegun_due r h _).answered hr)
    (State.awaitsCommit_withFilled (State.awaitsCommit_withSlot hclear) rfl)
    (State.cpSyncWaits_write (hr.op ▸ by decide)) (.inr (State.dirOf_miss hd))
  refine ⟨_, rfl, ?_⟩
  rw [hgo, hgo2]
  refine ⟨hnext, hstall, ⟨_, (congrArg (SMap.find · sl) hink).trans (SMap.find_put_self _ _ _), rfl, rfl, ?_, rfl, rfl⟩, fun j hj => ?_, hans,
    hdirs.trans hsame.dirs, hregs⟩
  · exact congrArg LineData.norm hr.data
  · exact (congrArg (SMap.find · j) hink).trans ((SMap.find_put_ne _ _ hj).trans ((SMap.find_put_ne _ _ hj).trans
      (congrArg (SMap.find · j) hsame.ink)))

end

end Sys2Proof.Machine
end

section
/-! NEW commands of the channel port for an idle stream: a SYNC (R86, R286, R287). -/

-- As in the tests: the compile of the one text stays within the threads of the sandbox.
set_option Elab.async false

namespace Sys2Proof.Machine

section
variable {as : List RegAddr} {s w u v z : State} {c : CpCmd} {i st : Nat} {q : BitVec 16} {r : Req} {acc : Tod}

/-! ### The stall of a SYNC -/

/-- The stall of a SYNC, which blocks no line (R86). -/
def Stall.syncBegun (r : Req) (acc : Tod) : Stall := { Stall.accepted r 0 acc with recorded := true, out := some .direct }

/-- The stall of a SYNC whose answer is prepared (R86, R287). -/
def Stall.syncAnswered (r : Req) (acc : Tod) : Stall := { Stall.syncBegun r acc with final := true, first := true }

theorem Stall.syncAnswered_done (hr : r.Carries c Op.sync) (acc : Tod) : (Stall.syncAnswered r acc).CpDone c.stream.val c.seq :=
  ⟨rfl, hr.src, hr.cp, rfl, rfl, rfl, rfl, rfl, rfl, rfl⟩

/-- The state of a SYNC that has its stall (R86, R287). -/
def State.cpSynced (s : State) (r : Req) (st i : Nat) (q : BitVec 16) : State :=
  (s.withOpen st ⟨q, false, some i, none, some s.tod⟩).withStall i (Stall.syncBegun r s.tod)

/-- A SYNC takes a stall and goes on to its answer (R86). -/
theorem State.Drifts.dispatchSync_cp (d : v.Drifts as u) (hsub : as ⊆ answerRegs) (hp : R.YARD_PEAK ∈ as) (hr : r.Carries c Op.sync)
    (hi : v.stallFor r none = some i) (hopen : SMap.find v.cp.opens c.stream.val = some [⟨c.seq, false, none, none, none⟩]) :
    ∃ w, (v.cpSynced r c.stream.val i c.seq).Drifts as w ∧ u.dispatch r .req none = w.syncStep i := by
  have hstall : u.stallFor r none = some i := ((d.tracks hsub).stallFor r none).trans hi
  have hacc := (d.accept_cp hp hr.cp (by rw [hr.src]; decide) hopen 0 i).updWith fun t => { t with recorded := true, out := some .direct }
  refine ⟨_, hacc, ?_⟩
  have hsrc : ¬ r.src < 4 := by rw [hr.src]; decide
  simp [State.dispatch, State.dispatchSync, State.readTicket, State.redeems, hr.ticket, hr.op, hstall, hsrc]

/-- The answer of a SYNC is prepared, and its stall closes when it can (R86, R287). -/
theorem State.Drifts.syncStep_cp (d : (v.cpSynced r c.stream.val i c.seq).Drifts as w) (hr : r.Carries c Op.sync) (hchk : v.chk = false)
    (hc : v.awaitsCommit i = false) :
    ∃ z, (((v.withOpen c.stream.val ⟨c.seq, false, some i, none, some v.tod⟩).cpAnswer c.stream.val i (CpRsp.ok c)).withStall i
      (Stall.syncAnswered r v.tod)).Drifts as z ∧ w.syncStep i = z.closeReq i := by
  have hz := (State.Drifts.updWith d fun t => { t with final := true, first := true }).cpAnswer c.stream.val i (CpRsp.ok c)
  refine ⟨_, hz, ?_⟩
  have hchkw : w.chk = false := d.chk.trans hchk
  have hcw : w.awaitsCommit i = false := (d.awaitsCommit i).trans hc
  have hcp : (Stall.syncBegun r v.tod).req.cp = some (c.stream.val, c.seq, false) := hr.cp
  have hfin : (Stall.syncBegun r v.tod).final = false := rfl
  have hf : SMap.find w.stalls i = some (Stall.syncBegun r v.tod) := State.Drifts.find d
  simp only [State.syncStep, hf, hchkw, hcw, hcp, hfin, Bool.false_or, Bool.false_eq_true, if_false]
  rfl

/-- A NEW SYNC of an idle stream takes its stall, its answer prepared (R86, R138, R287). -/
theorem State.CpArrival.syncs (t : s.CpArrival c i) (hop : c.op = 4) (hdata : c.data = []) (hsub : as ⊆ answerRegs) (hlist : EventRegs as)
    (hp : R.YARD_PEAK ∈ as) : ∃ r z, r.Carries c Op.sync ∧
      (((s.cpTaken c i).cpAnswer c.stream.val i (CpRsp.ok c)).withStall i
        (Stall.syncAnswered r s.tod)).Drifts as z ∧ s.cpCommand c = z.closeReq i := by
  obtain ⟨hsame, -, -, hopens, -, -⟩ := t.joined
  obtain ⟨hc, -, -, -, -, -, -, -, -, -, -, hf, hchk⟩ := t.calm
  obtain ⟨z, hz, hgo⟩ := State.cpCommand_fresh (op := Op.sync) hc hf hchk t.opened t.link t.fresh t.idle t.heldNone (by rw [hop]; rfl) t.good hlist
    (.inl (by rw [hdata]; rfl))
  have hr : (z.cpReq { c with data := c.data.fix } Op.sync 0 false).Carries c Op.sync := ⟨rfl, rfl, rfl, rfl, rfl, rfl, rfl⟩
  generalize z.cpReq { c with data := c.data.fix } Op.sync 0 false = r at hr hgo
  have hopen : SMap.find (s.cpJoined c).cp.opens c.stream.val = some [⟨c.seq, false, none, none, none⟩] := by rw [hopens, SMap.find_put_self]
  have hclear : (s.cpJoined c).awaitsCommit i = false := by
    rw [State.awaitsCommit, hsame.ink]
    exact t.clear
  obtain ⟨y, hy, hgo2⟩ := hz.cpDispatch (r := r) hsub (hr.op ▸ by decide) (.inl hr.op)
  obtain ⟨w, hw, hgo3⟩ := hy.dispatchSync_cp hsub hp hr (hsame.stallFor t.stall t.room hr.src) hopen
  obtain ⟨x, hx, hgo4⟩ := hw.syncStep_cp hr (hsame.chk.trans hchk) hclear
  rw [hsame.tod] at hx
  exact ⟨r, x, hr, hx, hgo.trans (hgo2.trans (hgo3.trans hgo4))⟩

/-! ### CP_SYNC -/

/-- A SYNC waits for the writes of its stream from before it (R286). -/
theorem State.cpSyncWaits_sync (hr : r.Carries c Op.sync) : s.cpSyncWaits (Stall.syncAnswered r acc) =
    s.ink.any (fun e => e.2.cps.any (fun p => p.1 == c.stream.val && decide ((c.seq - p.2).toNat < 0x8000))) := by
  have hcp : (Stall.syncAnswered r acc).req.cp = some (c.stream.val, c.seq, false) := hr.cp
  have hop : (Stall.syncAnswered r acc).req.op = Op.sync := hr.op
  simp only [State.cpSyncWaits, hcp, hop, beq_self_eq_true, Bool.true_and]

/-- CP_SYNC with no write of its stream in the inkwell (R86, R286). -/
theorem State.CpArrival.syncDone (t : s.CpArrival c i) (hop : c.op = 4) (hdata : c.data = []) (hwf : SMap.wf s.cp.opens = true)
    (hnone : ∀ e ∈ s.ink, ∀ p ∈ e.2.cps, p.1 ≠ c.stream.val) :
    does (.cpSync c) s (fun u => u.cpNext c.stream.val = c.seq + 1 ∧ SMap.find u.stalls i = none ∧ s.cpAnswered u c 0 ∧ u.dirs = s.dirs ∧
      u.ink = s.ink ∧ s.regsKept u ([cpReg c.stream.val, R.YARD_PEAK, R.YARD_RESP] ++ perfRegs)) := by
  have hsub : (R.YARD_PEAK :: R.YARD_RESP :: perfRegs) ⊆ answerRegs :=
    List.cons_subset.2 ⟨yardPeak_mem_answerRegs, List.cons_subset.2 ⟨yardResp_mem_answerRegs, perfRegs_subset_answerRegs⟩⟩
  have hlist : EventRegs (R.YARD_PEAK :: R.YARD_RESP :: perfRegs) := (eventRegs_perfRegs.cons (by decide)).cons (by decide)
  obtain ⟨r, z, hr, hz, hgo⟩ := t.syncs hop hdata hsub hlist List.mem_cons_self
  obtain ⟨hsame, -⟩ := t.joined
  have hink : (s.cpTaken c i).ink = s.ink := hsame.ink
  have hclear : (s.cpTaken c i).awaitsCommit i = false := by
    rw [State.awaitsCommit, hink]
    exact t.clear
  have hwaits : (s.cpTaken c i).cpSyncWaits (Stall.syncAnswered r s.tod) = false := by
    rw [State.cpSyncWaits_sync hr, hink, List.any_eq_false]
    intro e he
    simp only [List.any_eq_true, not_exists, not_and, Bool.and_eq_true, beq_iff_eq]
    exact fun p hp heq => absurd heq (hnone e he p hp)
  obtain ⟨hnext, hstall, hans, hdirs, hink', hregs⟩ := t.closes
    (v := s.cpTaken c i) hwf ⟨rfl, rfl, hsame.stalls, hsame.cpTx⟩ hz hsub (by simp)
    (Stall.syncAnswered_done hr _) hclear hwaits (.inl rfl)
  refine ⟨_, rfl, ?_⟩
  rw [hgo]
  exact ⟨hnext, hstall, hans, hdirs.trans hsame.dirs, hink'.trans hsame.ink, hregs⟩

/-- CP_SYNC while the write before it waits for its commit (R86, R138, R286). -/
theorem State.CpArrival.syncWaits (t : s.CpArrival c i) (hop : c.op = 4) (hdata : c.data = [])
    (hsome : ∃ e ∈ s.ink, (c.stream.val, c.seq - 1) ∈ e.2.cps) :
    does (.cpSync c) s (fun u => u.cpNext c.stream.val = c.seq + 1 ∧
      (∃ y, SMap.find u.stalls i = some y ∧ y.req.op = Op.sync ∧ y.blocks = false ∧ y.code = 5) ∧ u.dirs = s.dirs ∧ u.ink = s.ink ∧
      u.cp.eg = s.cp.eg) := by
  have hsub : (R.YARD_PEAK :: perfRegs) ⊆ answerRegs := List.cons_subset.2 ⟨yardPeak_mem_answerRegs, perfRegs_subset_answerRegs⟩
  obtain ⟨r, z, hr, hz, hgo⟩ := t.syncs hop hdata hsub (eventRegs_perfRegs.cons (by decide)) List.mem_cons_self
  obtain ⟨hsame, hnext, -, -, heg, -⟩ := t.joined
  have hink : z.ink = s.ink := hz.ink.trans hsame.ink
  have hwaits : z.cpSyncWaits (Stall.syncAnswered r s.tod) = true := by
    obtain ⟨e, he, hp⟩ := hsome
    rw [State.cpSyncWaits_sync hr, hink, List.any_eq_true]
    exact ⟨e, he, List.any_eq_true.2 ⟨_, hp, by simp⟩⟩
  have hcode : z.codeOf i (Stall.syncAnswered r s.tod) = 5 := by simp [State.codeOf, hwaits]
  have hopen : z.canClose i (Stall.syncAnswered r s.tod) = false := by simp [State.canClose, hwaits]
  have hu := State.Drifts.updWith hz fun y => { y with code := 5 }
  refine ⟨_, rfl, ?_⟩
  rw [hgo, State.closeReq_open hz.find hopen, hcode]
  refine ⟨?_, ⟨_, hu.find, hr.op, rfl, rfl⟩, hu.dirs.trans hsame.dirs, hu.ink.trans hsame.ink, ?_⟩
  · rw [← hnext]
    exact congrArg (BitVec.ofNat 16) ((hu.tracks hsub).fld (quietReg_cpReg c.stream) 0 16)
  · exact (congrArg CpSt.eg hu.cp).trans heg

end

/-- Settles O50: a command of an idle stream joins it, its request takes a stall, and asks for its line, or is answered and closes. -/
theorem channelCommands : Obligations.ChannelCommands := by
  refine ⟨?_, ?_⟩
  · rintro s c h i sl _ hcalm hopened hlink hfresh hidle hheld hwf rfl hgood hi hfree hclear hhome hden hq hcl hroom hsl
    have t : s.CpTurn c h i := ⟨⟨hcalm, hopened, hlink, hfresh, hidle, hheld, hgood, hi, hfree, hclear⟩, hhome, hden, hq, hcl⟩
    exact ⟨t.read, fun hop => t.writeFull hop hwf hroom hsl, fun hop => t.writePart hop hroom hsl⟩
  · intro s c i hcalm hopened hlink hfresh hidle hheld hwf hi hfree hclear hop hdata
    have hgood : cpBadWord c = none := by simp [cpBadWord, hdata]
    have t : s.CpArrival c i := ⟨hcalm, hopened, hlink, hfresh, hidle, hheld, hgood, hi, hfree, hclear⟩
    exact ⟨t.syncDone hop hdata hwf, t.syncWaits hop hdata⟩

end Sys2Proof.Machine
end

section
/-! SUPPORT. A preload that waits for its turn (R219): nothing that a dispatch does sets another one to wait. Each operation of the core
leaves `State.preload` alone, down to the acceptance that takes a waiting preload on. (`simp` is kept from closing a step by definition:
the kernel would then compare two states by the reset values of their registers.) -/

-- As in the tests: the compile of the one text stays within the threads of the sandbox.
set_option Elab.async false

namespace Sys2Proof.Machine

/-! ### Registers, records and protected structures -/

theorem foldl_preload {β : Type} {f : State → β → State} (hf : ∀ t a, (f t a).preload = t.preload) (l : List β) (s : State) :
    (l.foldl f s).preload = s.preload := by
  induction l generalizing s with
  | nil => rfl
  | cons a l ih => exact (ih _).trans (hf s a)

theorem preload_of_eq {α : Type} {p : State × α} {t : State} {b : α} (h : p = (t, b)) : t.preload = p.1.preload := by rw [h]

@[simp] theorem State.setLink_preload (s : State) (n v : Nat) : (s.setLink n v).preload = s.preload := by
  unfold State.setLink
  split <;> simp -implicitDefEqProofs

@[simp] theorem State.blot_preload (s : State) (r : BlotRec) : (s.blot r).preload = s.preload := by
  unfold State.blot
  dsimp only
  (repeat' split) <;> simp -implicitDefEqProofs

@[simp] theorem State.note_preload (s : State) (src cls det sev : Nat) (world : Bool) (line : LineAddr) (tag : Tag) (id : BitVec 18)
    (op : BitVec 6) (arg : BitVec 40) :
    (s.note src cls det sev world line tag id op arg).preload = s.preload := by simp -implicitDefEqProofs [State.note]

@[simp] theorem State.declare_preload (s : State) (cause src : Nat) (who : EpId) (ue : Nat) :
    (s.declare cause src who ue).preload = s.preload := by
  unfold State.declare
  (repeat' split) <;> simp -implicitDefEqProofs

@[simp] theorem State.mend_preload (s : State) (k i : Nat) : (s.mend k i).preload = s.preload := rfl

@[simp] theorem State.probe_preload (s : State) (k i : Nat) : (s.probe k i).preload = s.preload := by
  unfold State.probe
  (repeat' split) <;> simp -implicitDefEqProofs

@[simp] theorem State.readAll_preload (s : State) (k : Nat) : (s.readAll k).preload = s.preload := by
  unfold State.readAll
  exact foldl_preload (fun t f => by split <;> simp -implicitDefEqProofs) _ _

/-! ### Credits -/

@[simp] theorem State.settleIn_preload (s : State) (n : Nat) : (s.settleIn n).preload = s.preload := by
  unfold State.settleIn
  dsimp only
  (repeat' split) <;> simp -implicitDefEqProofs

/-! ### Sending -/

@[simp] theorem State.routeRead_preload (s : State) (a : Nat) : (s.routeRead a).preload = s.preload := by
  unfold State.routeRead
  split <;> simp -implicitDefEqProofs

@[simp] theorem State.routeErr_preload (s : State) (d : EpId) : (s.routeErr d).preload = s.preload := by
  have hread : ∀ (l : List Nat) (e : Nat), (l.foldl (fun t n => t.routeRead (routeAddr n e (clusterOf d))) s).preload = s.preload :=
    fun l e => foldl_preload (fun t n => t.routeRead_preload _) l s
  unfold State.routeErr
  dsimp only
  split
  · rw [State.routeRead_preload, hread]
  · rw [hread]

@[simp] theorem State.respMeasured_preload (s : State) (src : Nat) (acc : Tod) : (s.respMeasured src acc).preload = s.preload := by
  unfold State.respMeasured
  dsimp only
  (repeat' split) <;> simp -implicitDefEqProofs

@[simp] theorem State.left_preload (s : State) (n : Nat) (x : EgItem) : (s.left n x).preload = s.preload := by
  unfold State.left
  (repeat' split) <;> simp -implicitDefEqProofs

theorem State.pump1_preload {s t : State} {n : Nat} (h : s.pump1 n = some t) : t.preload = s.preload := by
  have hleft : ∀ p x, ((s.setNp n p).left n x).preload = s.preload := fun p x => by simp -implicitDefEqProofs
  unfold State.pump1 at h
  dsimp only at h
  split at h
  · split at h
    · split at h
      · rw [← Option.some.inj h, hleft]
      · cases h
    · cases h
  · split at h
    · split at h
      · cases h
      · split at h
        · cases h
        · rw [← Option.some.inj h, hleft]
    · cases h

@[simp] theorem State.pumpN_preload (s : State) (n : Nat) (f : Nat) : (s.pumpN n f).preload = s.preload := by
  induction f generalizing s with
  | zero => rfl
  | succ f ih =>
    unfold State.pumpN
    split
    · next t h => exact (ih t).trans (State.pump1_preload h)
    · rfl

@[simp] theorem State.pump_preload (s : State) (n : Nat) : (s.pump n).preload = s.preload := by simp -implicitDefEqProofs [State.pump]

@[simp] theorem State.enqueue_preload (s : State) (n : Nat) (x : EgItem) :
    (s.enqueue n x).preload = s.preload := by simp -implicitDefEqProofs [State.enqueue]

@[simp] theorem State.sendFrom_preload (s : State) (src : EpId) (dom : BitVec 12) (xlat : Bool) (m : Msg) (k : Meta) :
    (s.sendFrom src dom xlat m k).1.preload = s.preload := by
  unfold State.sendFrom
  dsimp only
  (repeat' split) <;> simp -implicitDefEqProofs

@[simp] theorem State.send_preload (s : State) (m : Msg) (k : Meta) :
    (s.send m k).1.preload = s.preload := by simp -implicitDefEqProofs [State.send]

@[simp] theorem State.noRouteNote_preload (s : State) (m : Msg) :
    (s.noRouteNote m).preload = s.preload := by simp -implicitDefEqProofs [State.noRouteNote]

@[simp] theorem State.tell_preload (s : State) (m : Msg) (k : Meta) : (s.tell m k).preload = s.preload := by
  unfold State.tell
  split <;> next t h => simp -implicitDefEqProofs [preload_of_eq h]

/-! ### The directory -/

@[simp] theorem State.eccLoc_preload (s : State) (src loc : Nat) (freeze : Bool) : (s.eccLoc src loc freeze).preload = s.preload := by
  unfold State.eccLoc
  split <;> simp -implicitDefEqProofs

@[simp] theorem State.dirStop_preload (s : State) (src loc : Nat) (line : LineAddr) : (s.dirStop src loc line).preload = s.preload := by
  unfold State.dirStop
  split <;> simp -implicitDefEqProofs

@[simp] theorem State.dirProbe_preload (s : State) (src i : Nat) (line : LineAddr) : (s.dirProbe src i line).preload = s.preload := by
  unfold State.dirProbe
  dsimp only
  (repeat' split) <;> simp -implicitDefEqProofs

@[simp] theorem State.extProbe_preload (s : State) (x : Nat) (line : LineAddr) : (s.extProbe x line).preload = s.preload :=
  foldl_preload (fun t _ => t.dirProbe_preload ..) _ _

@[simp] theorem State.extRead_preload (s : State) (k : Nat) (e : DirEntry) : (s.extRead k e).preload = s.preload := by
  unfold State.extRead
  dsimp only
  (repeat' split) <;> simp -implicitDefEqProofs

@[simp] theorem State.entryRead_preload (s : State) (k : Nat) : (s.entryRead k).preload = s.preload := by
  unfold State.entryRead
  dsimp only
  (repeat' split) <;> simp -implicitDefEqProofs

@[simp] theorem State.holdsRead_preload (s : State) (h : HIdx) : (s.holdsRead h).preload = s.preload := by
  unfold State.holdsRead
  split <;> simp -implicitDefEqProofs

@[simp] theorem State.dirAccess_preload (s : State) (h : HIdx) : (s.dirAccess h).preload = s.preload := by
  have hprobe : ∀ l : List Nat, (l.foldl (fun t w => t.dirProbe 0 (dirKey (posOf h) w) (t.lineOf h)) s).preload = s.preload :=
    fun l => foldl_preload (fun t w => t.dirProbe_preload ..) l s
  unfold State.dirAccess
  dsimp only
  (repeat' split) <;> simp -implicitDefEqProofs [hprobe]

@[simp] theorem State.freeExt_preload (s : State) (sh : Sharers) : (s.freeExt sh).preload = s.preload := by
  unfold State.freeExt
  split <;> simp -implicitDefEqProofs

theorem State.allocExt_preload {s t : State} {e : Ext} {x : Nat} (h : s.allocExt e = some (t, x)) : t.preload = s.preload := by
  unfold State.allocExt at h
  split at h
  · cases h
  · rw [← (Prod.mk.inj (Option.some.inj h)).1, State.setFld_preload]

@[simp] theorem State.freeEntry_preload (s : State) (k : Nat) : (s.freeEntry k).preload = s.preload := by
  unfold State.freeEntry
  split <;> simp -implicitDefEqProofs

@[simp] theorem State.putEntry_preload (s : State) (k : Nat) (e : DirEntry) : (s.putEntry k e).preload = s.preload := rfl

@[simp] theorem State.putX_preload (s : State) (k : Nat) (h : HIdx) (q : EpId) :
    (s.putX k h q).preload = s.preload := by simp -implicitDefEqProofs [State.putX]

@[simp] theorem State.addSharer_preload (s : State) (k : Nat) (h : HIdx) (e : DirEntry) (st : DState) (own : Option EpId) (q : EpId) :
    (s.addSharer k h e st own q).1.preload = s.preload := by
  unfold State.addSharer
  dsimp only
  split
  · rfl
  · (repeat' split) <;> simp -implicitDefEqProofs
  · (repeat' split) <;> simp -implicitDefEqProofs
  · split
    · rfl
    · split
      · next h => (repeat' split) <;> simp -implicitDefEqProofs [State.allocExt_preload h]
      · split <;> simp -implicitDefEqProofs

@[simp] theorem State.setExact_preload (s : State) (k : Nat) (h : HIdx) (e : DirEntry) (own : Option EpId) (keep : EpId → Bool) :
    (s.setExact k h e own keep).preload = s.preload := by
  unfold State.setExact
  dsimp only
  (repeat' split) <;> simp -implicitDefEqProofs

@[simp] theorem State.dropOwner_preload (s : State) (k : Nat) (h : HIdx) (e : DirEntry) : (s.dropOwner k h e).preload = s.preload := by
  unfold State.dropOwner
  split <;> simp -implicitDefEqProofs

@[simp] theorem State.purgeId_preload (s : State) (k : Nat) (id : EpId) : (s.purgeId k id).preload = s.preload := by
  unfold State.purgeId
  (repeat' split) <;> simp -implicitDefEqProofs

@[simp] theorem State.purgeEntry_preload (s : State) (k : Nat) : (s.purgeEntry k).preload = s.preload :=
  foldl_preload (fun t _ => t.purgeId_preload ..) _ _

/-! ### Yard, inkwell, tickets and pen -/

@[simp] theorem State.openStall_preload (s : State) (i : Nat) (t : Stall) : (s.openStall i t).preload = s.preload := by
  unfold State.openStall
  dsimp only
  (repeat' split) <;> simp -implicitDefEqProofs

@[simp] theorem State.giveBack_preload (s : State) (i : Nat) : (s.giveBack i).preload = s.preload := by
  unfold State.giveBack
  (repeat' split) <;> simp -implicitDefEqProofs

@[simp] theorem State.freeStall_preload (s : State) (i : Nat) :
    (s.freeStall i).preload = s.preload := by simp -implicitDefEqProofs [State.freeStall]

@[simp] theorem State.inkReserve_preload (s : State) (slot : Nat) (h : HIdx) : (s.inkReserve slot h).preload = s.preload := rfl

@[simp] theorem State.inkDrop_preload (s : State) (slot : Nat) : (s.inkDrop slot).preload = s.preload := rfl

@[simp] theorem State.copySkip_preload (s : State) (h : HIdx) : (s.copySkip h).preload = s.preload := by
  unfold State.copySkip
  split <;> simp -implicitDefEqProofs

@[simp] theorem State.inkFill_preload (s : State) (slot : Nat) (d : LineData) (ids : List EpId) (cps : List (Nat × BitVec 16)) :
    (s.inkFill slot d ids cps).preload = s.preload := by
  unfold State.inkFill
  dsimp only
  (repeat' split) <;> simp -implicitDefEqProofs

@[simp] theorem State.inkWait_preload (s : State) (slot i : Nat) : (s.inkWait slot i).preload = s.preload := rfl

@[simp] theorem State.inkRead_preload (s : State) (slot : Nat) : (s.inkRead slot).1.preload = s.preload := by
  unfold State.inkRead
  dsimp only
  (repeat' split) <;> simp -implicitDefEqProofs

@[simp] theorem State.readTicket_preload (s : State) (n : BitVec 16) : (s.readTicket n).preload = s.preload := by
  unfold State.readTicket
  split <;> simp -implicitDefEqProofs

@[simp] theorem State.issue_preload (s : State) (r : Req) (lines : List LineAddr) (held : List Nat) (owed : Nat) :
    (s.issue r lines held owed).1.preload = s.preload := by
  unfold State.issue
  split <;> simp -implicitDefEqProofs

@[simp] theorem State.respEv_preload (s : State) (kind : Nat) (r : Req) : (s.respEv kind r).preload = s.preload := by
  unfold State.respEv
  split <;> simp -implicitDefEqProofs

@[simp] theorem State.sendRetry_preload (s : State) (r : Req) (tkt : BitVec 16) (hint : Nat) (acc : Tod) :
    (s.sendRetry r tkt hint acc).preload = s.preload := by
  unfold State.sendRetry
  (repeat' split) <;> simp -implicitDefEqProofs

@[simp] theorem State.retryFull_preload (s : State) (r : Req) (lines : List LineAddr) (held : List Nat) (owed : Nat) (tk : Option Nat)
    (acc : Tod) :
    (s.retryFull r lines held owed tk acc).preload = s.preload := by
  have hback : ∀ (t : State), (held.foldl (fun t i => t.giveBack i) t).preload = t.preload :=
    foldl_preload (fun t i => t.giveBack_preload i) held
  unfold State.retryFull
  dsimp only
  (repeat' split) <;> simp -implicitDefEqProofs [hback]

@[simp] theorem State.penPut_preload (s : State) (k i reason : Nat) (h : HIdx) (tkt : Option Nat) (seq : Nat) :
    (s.penPut k i reason h tkt seq).preload = s.preload := by simp -implicitDefEqProofs [State.penPut]

@[simp] theorem State.retryPen_preload (s : State) (r : Req) (lines : List LineAddr) (held : List Nat) (acc : Tod) :
    (s.retryPen r lines held acc).preload = s.preload := by
  have hback : ∀ (t : State), (held.foldl (fun t i => t.giveBack i) t).preload = t.preload :=
    foldl_preload (fun t i => t.giveBack_preload i) held
  unfold State.retryPen
  dsimp only
  split <;> simp -implicitDefEqProofs [hback]

/-! ### The ALC -/

@[simp] theorem State.alcPut_preload (s : State) (k : Nat) (e : AlcEntry) : (s.alcPut k e).preload = s.preload := rfl

@[simp] theorem State.alcFree_preload (s : State) (k : Nat) : (s.alcFree k).preload = s.preload := rfl

@[simp] theorem State.alcSweep_preload (s : State) : (s.alcSweep).preload = s.preload := by
  unfold State.alcSweep
  exact foldl_preload (fun t f => by split <;> rfl) _ _

@[simp] theorem State.alcLoc_preload (s : State) (k w src : Nat) (freeze : Bool) : (s.alcLoc k w src freeze).preload = s.preload := by
  unfold State.alcLoc
  split <;> simp -implicitDefEqProofs

@[simp] theorem State.alcTag_preload (s : State) (k : Nat) : (s.alcTag k).preload = s.preload := by
  unfold State.alcTag
  (repeat' split) <;> simp -implicitDefEqProofs

@[simp] theorem State.alcTags_preload (s : State) : (s.alcTags).preload = s.preload := by
  unfold State.alcTags
  exact foldl_preload (fun t f => by split <;> simp -implicitDefEqProofs) _ _

@[simp] theorem State.alcLookup_preload (s : State) : (s.alcLookup).preload = s.preload := by
  unfold State.alcLookup
  split <;> simp -implicitDefEqProofs

@[simp] theorem State.alcRead_preload (s : State) (k : Nat) : (s.alcRead k).1.preload = s.preload := by
  unfold State.alcRead
  dsimp only
  (repeat' split) <;> simp -implicitDefEqProofs

@[simp] theorem State.alcEvict_preload (s : State) (k : Nat) (dirty : Bool) (slot : Option Nat) (kind : Nat) :
    (s.alcEvict k dirty slot kind).preload = s.preload := by
  unfold State.alcEvict
  split <;> simp -implicitDefEqProofs

/-! ### Memory reads and snoops -/

@[simp] theorem State.askRead_preload (s : State) (i : Nat) (h : HIdx) : (s.askRead i h).preload = s.preload := rfl

@[simp] theorem State.fetch_preload (s : State) (st : Stall) : (s.fetch st).1.preload = s.preload := by
  unfold State.fetch
  (repeat' split) <;> simp -implicitDefEqProofs

@[simp] theorem State.need_preload (s : State) (i : Nat) (st : Stall) : (s.need i st).1.preload = s.preload := by
  unfold State.need
  split
  · next t d h => simp -implicitDefEqProofs [preload_of_eq h]
  · next t h => split <;> simp -implicitDefEqProofs [preload_of_eq h]

@[simp] theorem State.addWait_preload (s : State) (i : Nat) (w : Wait) : (s.addWait i w).preload = s.preload := rfl

@[simp] theorem State.setWait_preload (s : State) (i : Nat) (who : EpId) (f : Wait → Wait) :
    (s.setWait i who f).preload = s.preload := rfl

@[simp] theorem State.snoopMsg_preload (s : State) (i : Nat) (st : Stall) (who : EpId) (op : BitVec 6) (fmode : Bool) :
    (s.snoopMsg i st who op fmode).1.preload = s.preload := by
  unfold State.snoopMsg
  dsimp only
  split
  · next t h => split <;> simp -implicitDefEqProofs [preload_of_eq h]
  · next t h => simp -implicitDefEqProofs [preload_of_eq h]

@[simp] theorem State.snoop_preload (s : State) (i : Nat) (who : EpId) (op : BitVec 6) (fmode holder : Bool) :
    (s.snoop i who op fmode holder).preload = s.preload := by
  unfold State.snoop
  dsimp only
  split
  · rfl
  · split
    · split <;> next t h => simp -implicitDefEqProofs [preload_of_eq h]
    · (repeat' split) <;> simp -implicitDefEqProofs

@[simp] theorem State.relayFailNote_preload (s : State) (ri : Nat) (st : Stall) (who : EpId) (why : Nat) :
    (s.relayFailNote ri st who why).preload = s.preload := by simp -implicitDefEqProofs [State.relayFailNote]

@[simp] theorem State.rlySend_preload (s : State) (ri : Nat) (st : Stall) (who : EpId) (n : Nat) :
    (s.rlySend ri st who n).preload = s.preload := by
  unfold State.rlySend
  dsimp only
  split
  · simp -implicitDefEqProofs
  · split
    · next t h => simp -implicitDefEqProofs [preload_of_eq h]
    · next t h => split <;> simp -implicitDefEqProofs [preload_of_eq h]

@[simp] theorem State.multicast_preload (s : State) (i : Nat) (h : HIdx) (relays : List EpId) (detail : BitVec 40) :
    (s.multicast i h relays detail).preload = s.preload := by
  unfold State.multicast
  dsimp only
  split
  · rfl
  · split
    · rfl
    · rw [foldl_preload (fun t w => t.rlySend_preload ..), State.updStall_preload, State.openStall_preload]

/-! ### Transactions -/

@[simp] theorem State.record_preload (s : State) (st : Stall) (o : Out) (rep : Rep) (poison : Bool) :
    (s.record st o rep poison).preload = s.preload := by
  unfold State.record
  dsimp only
  (repeat' split) <;> simp -implicitDefEqProofs

@[simp] theorem State.cpPumpN_preload (s : State) (f : Nat) : (s.cpPumpN f).preload = s.preload := by
  induction f generalizing s with
  | zero => rfl
  | succ f ih =>
    unfold State.cpPumpN
    split
    · rfl
    · extract_lets n _ t
      split
      · rw [ih]
        split <;> simp -implicitDefEqProofs [t]
      · rfl

@[simp] theorem State.cpPump_preload (s : State) : (s.cpPump).preload = s.preload := by
  unfold State.cpPump
  split <;> simp -implicitDefEqProofs

@[simp] theorem State.cpAdvance_preload (s : State) (st : Nat) : (s.cpAdvance st).preload = s.preload := by
  unfold State.cpAdvance
  dsimp only
  (repeat' split) <;> simp -implicitDefEqProofs

@[simp] theorem State.cpRespond_preload (s : State) (x : CpRsp) (acc : Option Tod) :
    (s.cpRespond x acc).preload = s.preload := by simp -implicitDefEqProofs [State.cpRespond]

@[simp] theorem State.doClose_preload (s : State) (i : Nat) (t : Stall) : (s.doClose i t).preload = s.preload := by
  unfold State.doClose
  dsimp only
  (repeat' split) <;> simp -implicitDefEqProofs

@[simp] theorem State.cpDrain_preload (s : State) (st : Nat) (f : Nat) : (s.cpDrain st f).preload = s.preload := by
  induction f generalizing s with
  | zero => rfl
  | succ f ih =>
    unfold State.cpDrain
    (repeat' split) <;> simp -implicitDefEqProofs [ih]

@[simp] theorem State.cpAnswer_preload (s : State) (st : Nat) (i : Nat) (a : CpRsp) : (s.cpAnswer st i a).preload = s.preload := rfl

@[simp] theorem State.closeReq_preload (s : State) (i : Nat) : (s.closeReq i).preload = s.preload := by
  unfold State.closeReq
  dsimp only
  (repeat' split) <;> simp -implicitDefEqProofs

@[simp] theorem State.holdStep_preload (s : State) (i : Nat) (t : Stall) : (s.holdStep i t).preload = s.preload := by
  unfold State.holdStep
  (repeat' split) <;> simp -implicitDefEqProofs

@[simp] theorem State.reply_preload (s : State) (i : Nat) (t : Stall) (op : BitVec 6) (detail n : Nat) (d : LineData) :
    (s.reply i t op detail n d).preload = s.preload := by
  unfold State.reply
  dsimp only
  split <;> next t h => simp -implicitDefEqProofs [preload_of_eq h]

@[simp] theorem State.gathered_preload (s : State) (i : Nat) (t : Stall) (d : LineData) (dirty : Bool) :
    (s.gathered i t d dirty).preload = s.preload := by
  unfold State.gathered
  (repeat' split) <;> simp -implicitDefEqProofs

@[simp] theorem State.ligLeave_preload (s : State) (i : Nat) (t : Stall) (k : Nat) : (s.ligLeave i t k).preload = s.preload := by
  unfold State.ligLeave
  dsimp only
  (repeat' split) <;> simp -implicitDefEqProofs

@[simp] theorem State.gatherEnd_preload (s : State) (i : Nat) (t : Stall) : (s.gatherEnd i t).preload = s.preload := by
  unfold State.gatherEnd
  dsimp only
  (repeat' split) <;> simp -implicitDefEqProofs

@[simp] theorem State.completeStep_preload (s : State) (i : Nat) (t : Stall) (o : Out) : (s.completeStep i t o).preload = s.preload := by
  unfold State.completeStep
  extract_lets +onlyGivenNames -lift r op rep v
  have hv : v.preload = s.preload := by
    simp only [v]
    split <;> simp -implicitDefEqProofs
  clear_value v rep
  split
  · exact hv
  · extract_lets +onlyGivenNames -lift late
    have hlate : ∀ u p, (late u p).preload = u.preload := fun u p => by
      simp only [late]
      split <;> simp -implicitDefEqProofs
    clear_value late
    split
    · simp -implicitDefEqProofs [hlate, hv]
    · simp -implicitDefEqProofs [hlate, hv]
    · simp -implicitDefEqProofs [hlate, hv]
    · split
      · next h => simp -implicitDefEqProofs [preload_of_eq h, hv]
      · next h => (repeat' split) <;> simp -implicitDefEqProofs [preload_of_eq h, hlate, hv]
    · extract_lets +onlyGivenNames -lift base
      have hbase : base.1.preload = s.preload := by
        simp only [base]
        split <;> simp -implicitDefEqProofs [hv]
      clear_value base
      split
      · exact hbase
      · dsimp only at hbase ⊢
        (repeat' split) <;> simp -implicitDefEqProofs [hlate, hbase]
    · extract_lets +onlyGivenNames -lift w resident ends
      have hw : w.preload = s.preload := by
        simp only [w]
        split <;> simp -implicitDefEqProofs [hv]
      have hends : ∀ u, (ends u).preload = u.preload := fun u => by
        simp only [ends]
        split <;> simp -implicitDefEqProofs
      clear_value w ends resident
      split
      · simp -implicitDefEqProofs [hends, hw]
      · split
        · simp -implicitDefEqProofs [hw]
        · split <;> next h => simp -implicitDefEqProofs [preload_of_eq h, hends, hw]

@[simp] theorem State.advance_preload (s : State) (i : Nat) : (s.advance i).preload = s.preload := by
  unfold State.advance
  dsimp only
  (repeat' split) <;> simp -implicitDefEqProofs

@[simp] theorem State.begin_preload (s : State) (i : Nat) (h : HIdx) (p : Plan) (relays : List EpId) (ex1 : Option EpId) (data : Bool) :
    (s.begin i h p relays ex1 data).preload = s.preload := by
  have hsnoop : ∀ (l : List EpId) (t : State), (l.foldl (fun t w => t.snoop i w Op.snpInv false false) t).preload = t.preload :=
    foldl_preload fun t w => t.snoop_preload ..
  unfold State.begin
  dsimp only
  (repeat' split) <;> simp -implicitDefEqProofs [hsnoop]

/-! ### Accepting, refusing and penning -/

@[simp] theorem State.refuse_preload (s : State) (r : Req) (op : BitVec 6) (detail nflit : Nat) (d : LineData) :
    (s.refuse r op detail nflit d).preload = s.preload := by simp -implicitDefEqProofs [State.refuse]

@[simp] theorem State.lack_preload (s : State) (r : Req) (lines : List LineAddr) (n : Nat) (tk : Option (Nat × Ticket)) (re : Re) :
    (s.lack r lines n tk re).preload = s.preload := by
  unfold State.lack
  (repeat' split) <;> simp -implicitDefEqProofs

@[simp] theorem State.alcTake_preload (s : State) (h : HIdx) (pick : Nat × Bool × Bool × Bool) :
    (s.alcTake h pick).preload = s.preload := by
  unfold State.alcTake
  (repeat' split) <;> simp -implicitDefEqProofs

@[simp] theorem State.gatherGo_preload (s : State) (i : Nat) (h : HIdx) (r : Req) (op : BitVec 6) (alc ink : Option Nat) :
    (s.gatherGo i h r op alc ink).preload = s.preload := by
  unfold State.gatherGo
  dsimp only
  (repeat' split) <;> simp -implicitDefEqProofs

@[simp] theorem State.preloadOff_preload (s : State) (re : Re) : (s.preloadOff re).preload = s.preload := by
  unfold State.preloadOff
  split <;> simp -implicitDefEqProofs

@[simp] theorem State.syncStep_preload (s : State) (i : Nat) : (s.syncStep i).preload = s.preload := by
  unfold State.syncStep
  (repeat' split) <;> simp -implicitDefEqProofs

/-! ### Slow paths -/

@[simp] theorem State.bankMoves_preload (s : State) (f : Nat) : (s.bankMoves f).preload = s.preload := by
  induction f generalizing s with
  | zero => rfl
  | succ f ih =>
    unfold State.bankMoves
    split
    · rw [ih, State.inkReserve_preload]
    · rfl

@[simp] theorem State.startMove_preload (s : State) : (s.startMove).preload = s.preload := by
  unfold State.startMove
  (repeat' split) <;> simp -implicitDefEqProofs

@[simp] theorem State.bankFree_preload (s : State) : (s.bankFree).preload = s.preload := rfl

@[simp] theorem State.setBank_preload (s : State) (b v : Nat) : (s.setBank b v).preload = s.preload := rfl

@[simp] theorem State.bankOff_preload (s : State) (b : Nat) : (s.bankOff b).preload = s.preload := by
  unfold State.bankOff
  split <;> simp -implicitDefEqProofs

@[simp] theorem State.drainEnd_preload (s : State) : (s.drainEnd).preload = s.preload := by
  unfold State.drainEnd
  split <;> simp -implicitDefEqProofs

@[simp] theorem State.alcWork_preload (s : State) : (s.alcWork).preload = s.preload := by
  have hoff : ∀ (l : List Nat) (t : State), (l.foldl (fun u b => u.bankOff b) t).preload = t.preload :=
    foldl_preload fun t b => t.bankOff_preload b
  unfold State.alcWork
  dsimp only
  (repeat' split) <;> simp -implicitDefEqProofs [hoff]

@[simp] theorem State.wayWork_preload (s : State) : (s.wayWork).preload = s.preload := by
  unfold State.wayWork
  split <;> simp -implicitDefEqProofs

@[simp] theorem State.loseCredits_preload (s : State) (n : Nat) : (s.loseCredits n).preload = s.preload := rfl

@[simp] theorem State.npWork_preload (s : State) (n : Nat) : (s.npWork n).preload = s.preload := by
  unfold State.npWork
  split <;> simp -implicitDefEqProofs

end Sys2Proof.Machine
end

section
/-! SUPPORT. The dispatch of a preload either leaves the preload that waits, or takes it on (R219). -/

-- As in the tests: the compile of the one text stays within the threads of the sandbox.
set_option Elab.async false

namespace Sys2Proof.Machine

theorem State.accept_preload (s : State) (r : Req) (role : Role) (h : HIdx) (i : Nat) (tk : Option (Nat × Ticket)) :
    (s.accept r role h i tk).preload = s.preload ∨ (s.accept r role h i tk).preload = none := by
  unfold State.accept
  dsimp only
  rw [State.respEv_preload]
  split
  · exact .inr rfl
  all_goals
    refine .inl ?_
    (repeat' split) <;> simp -implicitDefEqProofs

theorem State.park_preload (s : State) (r : Req) (role : Role) (h : HIdx) (reason : Nat) (tk : Option (Nat × Ticket)) :
    (s.park r role h reason tk none).preload = s.preload ∨ (s.park r role h reason tk none).preload = none := by
  unfold State.park
  dsimp only
  split
  · exact .inl (by simp -implicitDefEqProofs)
  · split
    · rw [State.penPut_preload]
      exact s.accept_preload ..
    · refine .inl ?_
      (repeat' split) <;> simp -implicitDefEqProofs

theorem State.dispatchGather_preload (s : State) (r : Req) (role : Role) (h : HIdx) (tk : Option (Nat × Ticket)) :
    (s.dispatchGather r role h tk none).preload = s.preload ∨ (s.dispatchGather r role h tk none).preload = none := by
  unfold State.dispatchGather
  extract_lets +onlyGivenNames -lift e byp op p hit pick dirty port ok v go
  clear_value ok port dirty pick hit p op byp e
  have hv : v.preload = s.preload := by
    simp only [v]
    split
    · exact State.ev_preload ..
    · rfl
  have hgo : ∀ (w : State) (j : Nat), (go w j).preload = w.preload := fun w j => by
    simp only [go]
    (repeat' split) <;> simp -implicitDefEqProofs
  clear_value v go
  split
  · next hre => cases hre
  · rw [hgo, ← hv]
    exact v.accept_preload ..
  · exact .inl (by rw [State.lack_preload, hv])

theorem State.dispatchSync_preload (s : State) (r : Req) (tk : Option (Nat × Ticket)) :
    (s.dispatchSync r tk).preload = s.preload ∨ (s.dispatchSync r tk).preload = none := by
  unfold State.dispatchSync
  split
  · exact .inl (by simp -implicitDefEqProofs)
  · next i _ =>
    have hacc := s.accept_preload r .req 0 i tk
    generalize s.accept r .req 0 i tk = w at hacc
    dsimp only
    rw [State.syncStep_preload]
    split <;> exact hacc

/-- The dispatch of a preload leaves the waiting preload, or takes it on (R219). -/
theorem State.dispatch_preload (s : State) (r : Req) (op : Nat) :
    (s.dispatch r (.preload op) none).preload = s.preload ∨ (s.dispatch r (.preload op) none).preload = none := by
  unfold State.dispatch
  extract_lets +onlyGivenNames -lift v tk w
  have hw : w.preload = s.preload := by
    simp only [w, v]
    split <;> simp -implicitDefEqProofs
  clear_value w tk
  rw [← hw]
  split
  · exact w.dispatchSync_preload ..
  · extract_lets +onlyGivenNames -lift h x
    have hx : x.preload = w.preload := by simp -implicitDefEqProofs [x]
    clear_value x h
    rw [← hx]
    split
    · refine .inl ?_
      (repeat' split) <;> simp -implicitDefEqProofs
    · extract_lets
      split
      · exact x.park_preload ..
      · dsimp only
        split
        · exact .inl (by simp -implicitDefEqProofs)
        · exact x.dispatchGather_preload ..

end Sys2Proof.Machine
end

section
/-! SUPPORT. What follows a command and leaves a flush waiting has changed no stall (R219, R225, R226, R337, R363). -/

-- As in the tests: the compile of the one text stays within the threads of the sandbox.
set_option Elab.async false

namespace Sys2Proof.Machine

section
variable {s u : State} {r : Req}

/-! ### Stalls while the ALC is drained or cleaned -/

theorem foldl_stalls {β : Type} {f : State → β → State} (hf : ∀ t a, (f t a).stalls = t.stalls) (l : List β) (s : State) :
    (l.foldl f s).stalls = s.stalls := by
  induction l generalizing s with
  | nil => rfl
  | cons a l ih => exact (ih _).trans (hf s a)

@[simp] theorem State.declare_stalls (s : State) (cause src : Nat) (who : EpId) (ue : Nat) : (s.declare cause src who ue).stalls = s.stalls := by
  unfold State.declare
  dsimp only
  (repeat' split) <;> simp -implicitDefEqProofs [State.note_stalls]

@[simp] theorem State.mend_stalls (s : State) (k i : Nat) : (s.mend k i).stalls = s.stalls := rfl

@[simp] theorem State.alcLoc_stalls (s : State) (k w src : Nat) (freeze : Bool) : (s.alcLoc k w src freeze).stalls = s.stalls := by
  unfold State.alcLoc
  split <;> simp -implicitDefEqProofs

theorem State.alcTag_stalls (s : State) (k : Nat) : (s.alcTag k).stalls = s.stalls := by
  unfold State.alcTag
  (repeat' split) <;> simp -implicitDefEqProofs [State.note_stalls]

theorem State.alcTags_stalls (s : State) : s.alcTags.stalls = s.stalls := by
  unfold State.alcTags
  exact foldl_stalls (fun t f => by split <;> simp -implicitDefEqProofs [State.alcTag_stalls]) _ _

@[simp] theorem State.inkReserve_stalls (s : State) (slot : Nat) (h : HIdx) : (s.inkReserve slot h).stalls = s.stalls := by
  simp -implicitDefEqProofs [State.inkReserve]

theorem State.bankMoves_stalls (s : State) (f : Nat) : (s.bankMoves f).stalls = s.stalls := by
  induction f generalizing s with
  | zero => rfl
  | succ f ih =>
    unfold State.bankMoves
    split
    · rw [ih, State.inkReserve_stalls]
    · rfl

theorem State.startMove_stalls (s : State) : s.startMove.stalls = s.stalls := by
  unfold State.startMove
  (repeat' split) <;> simp -implicitDefEqProofs [State.bankMoves_stalls]

theorem State.bankOff_stalls (s : State) (b : Nat) : (s.bankOff b).stalls = s.stalls := by
  unfold State.bankOff
  dsimp only
  split <;> simp -implicitDefEqProofs [State.setBank]

theorem State.drainEnd_stalls (s : State) : s.drainEnd.stalls = s.stalls := by
  unfold State.drainEnd
  split <;> simp -implicitDefEqProofs

theorem State.bankFree_stalls (s : State) : s.bankFree.stalls = s.stalls := rfl

theorem State.alcWork_stalls (s : State) : s.alcWork.stalls = s.stalls := by
  have hoff : ∀ (l : List Nat) (t : State), (l.foldl (fun u b => u.bankOff b) t).stalls = t.stalls := foldl_stalls fun t b => t.bankOff_stalls b
  unfold State.alcWork
  dsimp only
  (repeat' split) <;>
    simp -implicitDefEqProofs [hoff, State.alcTags_stalls, State.startMove_stalls, State.drainEnd_stalls, State.bankFree_stalls]

/-! ### A flush that still waits after a command -/

theorem State.flushTry_waits (s : State) (r : Req) : (s.flushTry r).preload = none ∨ (s.flushTry r).stalls = s.stalls := by
  unfold State.flushTry
  extract_lets +onlyGivenNames -lift h t
  have ht : t.stalls = s.stalls := s.alcTags_stalls
  clear_value t
  split
  · exact .inr ht
  · split
    · split
      · exact .inr ht
      · split
        · exact .inl rfl
        · split
          · exact .inl rfl
          · exact .inr ht
    · split
      · exact .inr ht
      · exact .inl rfl
    · exact .inl rfl

/-- With a flush still waiting after them, the preloads' turn has changed no stall (R219). -/
theorem State.preWork_waits (h : s.preWork.preload = some (r, 3)) : s.preWork.stalls = s.stalls := by
  unfold State.preWork at h ⊢
  split
  · rfl
  · next r' op he =>
    rw [he] at h
    dsimp only at h
    split at h
    · next hchk => rw [if_pos hchk]
    · next hchk =>
      rw [if_neg hchk]
      split at h
      · cases h
      · next halc =>
        rw [if_neg halc]
        split at h
        · next hop =>
          rw [if_pos hop]
          exact (s.flushTry_waits r').resolve_left (by rw [h]; exact Option.some_ne_none _)
        · next hop =>
          rcases s.dispatch_preload r' op with hp | hp
          · rw [h, he] at hp
            exact absurd (Prod.mk.inj (Option.some.inj hp)).2.symm hop
          · rw [h] at hp
            cases hp

theorem State.preWork_none (h : s.preload = none) : s.preWork = s := by simp only [State.preWork, h]

theorem State.wayWork_kept (s : State) : s.wayWork.preload = s.preload ∧ s.wayWork.stalls = s.stalls := by
  unfold State.wayWork
  split <;> simp -implicitDefEqProofs

theorem State.npWork_kept (s : State) (n : Nat) : (s.npWork n).preload = s.preload ∧ (s.npWork n).stalls = s.stalls := by
  unfold State.npWork
  split
  · refine ⟨by simp -implicitDefEqProofs, ?_⟩
    unfold State.loseCredits State.setLink
    split <;> simp -implicitDefEqProofs
  · exact ⟨rfl, rfl⟩

theorem State.slow_kept (s : State) : s.slow.preload = s.alcWork.preWork.preload ∧ s.slow.stalls = s.alcWork.preWork.stalls :=
  ⟨(foldl_preload (fun t n => (t.npWork_kept n).1) _ _).trans (State.wayWork_kept _).1,
    (foldl_stalls (fun t n => (t.npWork_kept n).2) _ _).trans (State.wayWork_kept _).2⟩

theorem State.safeStep_kept (s : State) : s.safeStep.preload = s.preload ∧ s.safeStep.stalls = s.stalls := by
  unfold State.safeStep
  split <;> simp -implicitDefEqProofs

theorem State.edges_kept (s : State) (was : Bool) : (s.edges was).preload = s.preload ∧ (s.edges was).stalls = s.stalls := by
  unfold State.edges
  (repeat' split) <;> simp -implicitDefEqProofs

/-! ### A checkstop and a domain reset leave no preload waiting -/

theorem State.bcastPump_preload (s : State) (f : Nat) : (s.bcastPump f).preload = s.preload := by
  induction f generalizing s with
  | zero => rfl
  | succ f ih =>
    unfold State.bcastPump
    dsimp only
    split
    · split
      · rw [ih]
        simp -implicitDefEqProofs
      · rfl
    · rfl

theorem State.bcastStart_preload (s : State) (kind : Nat) (op : BitVec 6) (det : BitVec 40) (targets : List EpId) :
    (s.bcastStart kind op det targets).preload = s.preload := by
  unfold State.bcastStart State.bcastEnd
  dsimp only
  split <;> simp -implicitDefEqProofs [State.bcastPump_preload]

theorem State.sweep_preload (s : State) : s.sweep.preload = none := by
  unfold State.sweep
  extract_lets +onlyGivenNames -lift ligs a b opens c cp d e
  have he : e.preload = none := rfl
  clear_value e
  dsimp only
  (repeat' split) <;> simp -implicitDefEqProofs [State.bcastStart_preload, he]

theorem State.swept_cases (s s0 : State) : s.swept s0 = s ∨ (s.swept s0).preload = none := by
  unfold State.swept
  split
  · exact .inr s.sweep_preload
  · exact .inl rfl

theorem State.slow_preload_none (h : s.preload = none) : s.slow.preload = none := by
  have ha : s.alcWork.preload = none := s.alcWork_preload.trans h
  rw [(s.slow_kept).1, State.preWork_none ha, ha]

theorem State.domainReset_preload (s : State) (discover : Bool) : (s.domainReset discover).preload = none := by
  have h : (s.domainReset discover).preload = State.reset.preload := by simp -implicitDefEqProofs [State.domainReset]
  exact h.trans rfl

theorem State.resetWork_cases (s : State) : s.resetWork = s ∨ s.resetWork.preload = none := by
  unfold State.resetWork
  split
  · exact .inr (s.domainReset_preload false)
  · exact .inl rfl

/-- What follows the slow paths leaves stalls and the waiting preload, but for a declaration and a domain reset (R337, R363). -/
theorem finish_kept (s u : State) : ∃ v, v = ((u.swept s).slow.swept (u.swept s)).resetWork ∧ (finish s u).preload = v.preload ∧
    (finish s u).stalls = v.stalls := by
  refine ⟨_, rfl, ?_⟩
  unfold finish
  dsimp only
  split
  · exact State.safeStep_kept _
  · exact ⟨(State.edges_kept ..).1.trans (State.safeStep_kept _).1, (State.edges_kept ..).2.trans (State.safeStep_kept _).2⟩

/-- After a command that leaves a flush waiting, the stalls are those that its own effect left (R219, R337, R363). -/
theorem finish_stalls_of_waiting (h : (finish s u).preload = some (r, 3)) : (finish s u).stalls = u.stalls := by
  obtain ⟨v, hv, hp, hs⟩ := finish_kept s u
  rw [hs]
  rw [hp] at h
  have hsome : ∀ {x : State}, x.preload = some (r, 3) → x.preload ≠ none := fun hx => by rw [hx]; exact Option.some_ne_none _
  rw [(State.resetWork_cases _).resolve_right (hv ▸ hsome h)] at hv
  rw [(State.swept_cases _ _).resolve_right (hv ▸ hsome h)] at hv
  have hu : u.swept s = u := (u.swept_cases s).resolve_right fun hn => hsome h (hv ▸ State.slow_preload_none hn)
  rw [hu] at hv
  subst hv
  have hpre : u.alcWork.preWork.preload = some (r, 3) := (u.slow_kept).1.symm.trans h
  rw [(u.slow_kept).2, State.preWork_waits hpre, u.alcWork_stalls]

end

end Sys2Proof.Machine
end

section
/-! SUPPORT. O37 does not hold as it stands: its second clause takes the number of the ligature's slot as any number, and a stall whose
role names a slot from 8 on is one that its ligature has given up (`State.ligLeave`). No dispatch takes such a slot
(`Config.ligSlots`), so the clause fails outside the states that the block reaches. -/

-- As in the tests: the compile of the one text stays within the threads of the sandbox.
set_option Elab.async false

namespace Sys2Proof.Machine

/-- A ligature of line 9 for ring 0, from endpoint 1. -/
def ringRequest : Req := ⟨Op.ligature, 0, false, 1, 5, 9, 0, 0, [], none⟩

/-- The ligature in bypass: stall 0 blocks its data line, stall 1 stands in the pen for its journal line. -/
def halfHeld : Lig := ⟨ringRequest, [9], [0, 1], [(9, 0)], none, [], [1], true, some 0, 0, none, false, false⟩

/-- Its place in the pen, for the journal line. -/
def journalPlace : PenEntry := ⟨1, 0, 512, none, 0⟩

/-- Its stall in the pen, which names ligature slot 8. -/
def journalStall : Stall := { Stall.new (.lig 8 false) ringRequest 0 0 with code := 1, blocks := false }

/-- A flush of line 7. -/
def flushRequest : Req := ⟨Op.rdOnce, 5, false, 0, 0, 7, 0, 0, [], none⟩

/-- The ligature stands in slot 8; the ALC is enabled again, and the flush waits for the entry of line 7, which is on the move path. -/
def misnumbered : State :=
  { State.reset with
    win := [(R.LED_JBASE / 8, 0x200), (R.LED_JSIZE / 8, 64), (R.ALC_CTL / 8, 3), (R.SEC_REGIONA / 8, 0x400000000000),
      (R.SEC_REGIONB / 8, 4)]
    stalls := [(0, Stall.new (.lig 8 false) ringRequest 9 0), (1, journalStall)]
    pen := [(0, journalPlace)]
    ligs := [(8, halfHeld)]
    alc := [(0, ⟨7, false, true, false, false, true, [], 0⟩)]
    moves := [⟨0, 5, 0, 7⟩]
    preload := some (flushRequest, 3) }

/-- The command leaves the flush waiting and the journal line free. -/
def leavesFree : Host.Outcome State Fault Refusal → Bool
  | .next v => decide (v.preload = some (flushRequest, 3)) && decide (v.blocker 512 = none)
  | _ => false

/-- Refutes O37: at `misnumbered` the re-dispatch gathers the journal line and at once gives up its stall, so nothing blocks the line. -/
theorem not_ligaturesAndSyncs : ¬ Obligations.LigaturesAndSyncs := by
  rintro ⟨-, hpen, -⟩
  have hcalm : misnumbered.calm := by
    refine ⟨?_, ?_⟩ <;> decide +kernel
  obtain ⟨u, hu, -, hblock, -⟩ := hpen misnumbered 0 journalPlace journalStall halfHeld 512 512 8 hcalm rfl (by decide +kernel) rfl rfl rfl
    rfl rfl (by decide +kernel) (by decide +kernel) (by decide +kernel) (by decide +kernel) (by decide +kernel) (by decide +kernel)
  have hleaves : leavesFree (exec (.penRedispatch 0) misnumbered) = true := by decide +kernel
  rw [hu, leavesFree, Bool.and_eq_true, decide_eq_true_eq, decide_eq_true_eq] at hleaves
  obtain ⟨hwait, hfree⟩ := hleaves
  rw [State.blocker, finish_stalls_of_waiting hwait] at hfree
  rw [State.blocker, hfree] at hblock
  cases hblock

end Sys2Proof.Machine
end

section
/-! The journal rings as the service port writes them: their heads, and their enabling (R199, R200). -/

-- As in the tests: the compile of the one text stays within the threads of the sandbox.
set_option Elab.async false

namespace Sys2Proof.Machine

section
variable {s z : State} {a n b lo w : Nat} {v : Word} {who : BitVec 10}

/-! ### The registers of the rings -/

/-- The ring that a register of the rings' block belongs to (R199). -/
theorem ringOf_head (n : Nat) : (R.LED_JHEAD + 0x20 * n - R.LED_JBASE) / 0x20 = n := by
  show (0x3118 + 0x20 * n - 0x3100) / 0x20 = n
  omega

theorem ringOf_base (n : Nat) : (R.LED_JBASE + 0x20 * n - R.LED_JBASE) / 0x20 = n := by
  rw [Nat.add_sub_cancel_left, Nat.mul_div_cancel_left _ (by decide)]

/-- The base register of a ring: BASE and EN, both of which LED.CTL locks (R18, R200). -/
theorem regRow_ringBase (hn : n < 8) : ∃ r, regRow (R.LED_JBASE + 0x20 * n) = some r ∧ r.fields = [⟨0, 52, .rwl⟩, ⟨63, 1, .rwl⟩] ∧
    r.lock = R.LED_CTL := by
  have h : ∀ n < 8, (regRow (R.LED_JBASE + 0x20 * n)).map (fun r => (r.fields, r.lock)) =
      some ([⟨0, 52, .rwl⟩, ⟨63, 1, .rwl⟩], R.LED_CTL) := by decide +kernel
  simpa using h n hn

/-- A write of a ring's base register that is not locked stores BASE and EN, and nothing else (R18, R200). -/
theorem State.storeReg_ringBase (hc : s.canonical = true) (hn : n < 8) (hopen : s.flag R.LED_CTL 63 = false) (v : Word) :
    (s.storeReg (R.LED_JBASE + 0x20 * n) v).canonical = true ∧
      (s.storeReg (R.LED_JBASE + 0x20 * n) v).ringEn n = bit v.toNat 63 ∧
      (s.storeReg (R.LED_JBASE + 0x20 * n) v).ringBase n = getBits v 0 52 ∧
      s.onlyRegs (s.storeReg (R.LED_JBASE + 0x20 * n) v) [R.LED_JBASE + 0x20 * n] := by
  obtain ⟨r, hr, hf, hlock⟩ := regRow_ringBase hn
  have hfree : s.lockedReg r = false := by rw [State.lockedReg, hlock, hopen, Bool.and_false]
  have hfld : ∀ f ∈ r.fields, _ := fun f hm => (writeActsByAccessCode.2 s _ v r f hc hr hm (by rw [hf]; decide)).1
  have hbase := hfld ⟨0, 52, .rwl⟩ (by simp [hf])
  have hen := hfld ⟨63, 1, .rwl⟩ (by simp [hf])
  simp only [hfree, Bool.false_eq_true, if_false] at hbase hen
  refine ⟨(State.storeReg_keeps (.refl s) _ _).canonical hc, ?_, hbase, State.onlyRegs_storeReg hc _ v⟩
  rw [State.ringEn, State.flag, hen]
  rfl

/-! ### Heads (R199) -/

theorem State.jhead_within (hin : (getBits v 0 48 + 2 ^ 48 - s.ringHead n) % 2 ^ 48 ≤ (s.ringSeq n + 2 ^ 48 - s.ringHead n) % 2 ^ 48) :
    s.jhead n v = s.setFld (R.LED_JHEAD + 0x20 * n) 0 48 (getBits v 0 48) := if_pos hin

theorem State.jhead_beyond (hout : ¬ (getBits v 0 48 + 2 ^ 48 - s.ringHead n) % 2 ^ 48 ≤ (s.ringSeq n + 2 ^ 48 - s.ringHead n) % 2 ^ 48) :
    s.jhead n v = s.setFlag R.LED_EVENTS (16 + n) true := if_neg hout

/-- A head within HEAD to SEQ is taken, another one only shown (R199). -/
theorem State.jhead_shows (hc : s.canonical = true) (hn : n < 8) (v : Word) :
    if (getBits v 0 48 + 2 ^ 48 - s.ringHead n) % 2 ^ 48 ≤ (s.ringSeq n + 2 ^ 48 - s.ringHead n) % 2 ^ 48 then
      (s.jhead n v).ringHead n = getBits v 0 48 ∧ s.onlyRegs (s.jhead n v) [R.LED_JHEAD + 0x20 * n]
    else (s.jhead n v).flag R.LED_EVENTS (16 + n) = true ∧ s.onlyRegs (s.jhead n v) [R.LED_EVENTS] := by
  split
  · next hin =>
    rw [State.jhead_within hin]
    exact ⟨(State.fld_setFld_self hc _ _ (by decide)).trans (Nat.mod_eq_of_lt (getBits_lt ..)), State.onlyRegs_setFld hc ..⟩
  · next hout =>
    rw [State.jhead_beyond hout]
    exact ⟨State.flag_setFlag_self hc _ (by omega) true, State.onlyRegs_setFld hc ..⟩

/-! ### Enabling (R200) -/

theorem State.ringEnable_ok (hok : s.ringOk n (getBits v 0 52) = true) (who : BitVec 10) : s.ringEnable n v who =
    ((s.storeReg (R.LED_JBASE + 0x20 * n) v).setReg (R.LED_JSEQ + 0x20 * n) 0).setReg (R.LED_JHEAD + 0x20 * n) 0 := if_pos hok

/-- The record of a refused enabling writes the blotter's registers and counters (R449, R451). -/
theorem State.ringEnable_refused (hc : s.canonical = true) (hn : n < 8) (hopen : s.flag R.LED_CTL 63 = false)
    (hbad : ¬ s.ringOk n (getBits v 0 52) = true) (who : BitVec 10) :
    ((s.storeReg (R.LED_JBASE + 0x20 * n) (setBits v 63 1 0)).setFlag R.LED_EVENTS (8 + n) true).Drifts (R.BLOT_STATUS :: perfRegs)
      (s.ringEnable n v who) := by
  have hcan := State.canonical_setFld (State.storeReg_ringBase hc hn hopen (setBits v 63 1 0)).1 R.LED_EVENTS (8 + n) 1 (b2n true)
  rw [State.ringEnable, if_neg hbad]
  exact (State.Drifts.refl (eventRegs_perfRegs.cons (by decide)) hcan).note List.mem_cons_self ..

/-- A ring that meets R200 is enabled and empty (R200). -/
theorem State.ringEnable_shows (hc : s.canonical = true) (hn : n < 8) (hopen : s.flag R.LED_CTL 63 = false)
    (hset : bit v.toNat 63 = true) (hok : s.ringOk n (getBits v 0 52) = true) (who : BitVec 10) :
    (s.ringEnable n v who).ringEn n = true ∧ (s.ringEnable n v who).ringBase n = getBits v 0 52 ∧
      (s.ringEnable n v who).ringSeq n = 0 ∧ (s.ringEnable n v who).ringHead n = 0 ∧
      s.onlyRegs (s.ringEnable n v who) [R.LED_JBASE + 0x20 * n, R.LED_JSEQ + 0x20 * n, R.LED_JHEAD + 0x20 * n] := by
  obtain ⟨hcan, hen, hbase, honly⟩ := State.storeReg_ringBase hc hn hopen v
  rw [State.ringEnable_ok hok]
  generalize s.storeReg (R.LED_JBASE + 0x20 * n) v = z at hcan hen hbase honly
  have hcseq : (z.setReg (R.LED_JSEQ + 0x20 * n) 0).canonical = true := State.canonical_setReg _ _ hcan
  have hapart : (R.LED_JBASE + 0x20 * n) / 8 ≠ (R.LED_JSEQ + 0x20 * n) / 8 ∧ (R.LED_JBASE + 0x20 * n) / 8 ≠ (R.LED_JHEAD + 0x20 * n) / 8 ∧
      (R.LED_JSEQ + 0x20 * n) / 8 ≠ (R.LED_JHEAD + 0x20 * n) / 8 := by
    show (0x3100 + 0x20 * n) / 8 ≠ (0x3110 + 0x20 * n) / 8 ∧ (0x3100 + 0x20 * n) / 8 ≠ (0x3118 + 0x20 * n) / 8 ∧
      (0x3110 + 0x20 * n) / 8 ≠ (0x3118 + 0x20 * n) / 8
    omega
  obtain ⟨hbs, hbh, hsh⟩ := hapart
  have hkept : ((z.setReg (R.LED_JSEQ + 0x20 * n) 0).setReg (R.LED_JHEAD + 0x20 * n) 0).reg (R.LED_JBASE + 0x20 * n) =
      z.reg (R.LED_JBASE + 0x20 * n) := by
    rw [State.reg_setReg_ne hcseq hbh, State.reg_setReg_ne hcan hbs]
  refine ⟨?_, ?_, ?_, ?_, ?_⟩
  · rw [State.ringEn, State.flag, State.fld, hkept]
    exact hen.trans hset
  · rw [State.ringBase, State.fld, hkept]
    exact hbase
  · rw [State.ringSeq, State.fld, State.reg_setReg_ne hcseq hsh, State.reg_setReg_self hcan]
    rfl
  · rw [State.ringHead, State.fld, State.reg_setReg_self hcseq]
    rfl
  · exact ((honly.mono (by simp)).trans ((State.onlyRegs_setReg hcan _ _).mono (by simp))).trans
      ((State.onlyRegs_setReg hcseq _ _).mono (by simp))

/-- A ring that does not meet R200 stays disabled, and its refusal is shown (R200). -/
theorem State.ringEnable_refusal (hc : s.canonical = true) (hn : n < 8) (hopen : s.flag R.LED_CTL 63 = false)
    (hbad : ¬ s.ringOk n (getBits v 0 52) = true) (who : BitVec 10) :
    (s.ringEnable n v who).ringEn n = false ∧ (s.ringEnable n v who).flag R.LED_EVENTS (8 + n) = true := by
  obtain ⟨hcan, hen, -, -⟩ := State.storeReg_ringBase hc hn hopen (setBits v 63 1 0)
  have hd := State.ringEnable_refused hc hn hopen hbad who
  have hreg : ∀ b, b < 0x10000 → (s.ringEnable n v who).reg b = _ := fun b hb =>
    hd.reg (List.forall_mem_cons.2 ⟨show 0x18008 / 8 ≠ b / 8 by omega, perfRegs_apart hb⟩)
  generalize s.storeReg (R.LED_JBASE + 0x20 * n) (setBits v 63 1 0) = z at hcan hen hreg
  refine ⟨?_, ?_⟩
  · have hne : (R.LED_JBASE + 0x20 * n) / 8 ≠ R.LED_EVENTS / 8 := show (0x3100 + 0x20 * n) / 8 ≠ 0x3010 / 8 by omega
    have hlow : R.LED_JBASE + 0x20 * n < 0x10000 := show 0x3100 + 0x20 * n < 0x10000 by omega
    have hclear : bit (setBits v 63 1 0).toNat 63 = false := by
      have := getBits_setBits_self v (lo := 63) (w := 1) 0 (by decide)
      simp only [getBits, pow_one] at this
      simp only [bit, this]
      rfl
    rw [State.ringEn, State.flag, State.fld, hreg _ hlow, ← State.fld, State.setFlag, State.fld_setFld_ne hcan hne]
    exact hen.trans hclear
  · rw [State.flag, State.fld, hreg _ (by decide)]
    exact State.flag_setFlag_self hcan _ (by omega) true

end

/-- Settles O11: a head is compared with the ring's HEAD and SEQ, and a ring is enabled by a write of its base register. -/
theorem journalRings : Obligations.JournalRings := by
  intro n hn
  refine ⟨spDoes_of_spDo (fun _ _ => rfl) fun s t x _ hc hx => ⟨rfl, ?_⟩, spDoes_of_spDo (fun _ _ => rfl) fun s t x _ hc hx => ⟨rfl, ?_⟩⟩
  · have hgo : (t.spDo x .jhead).1 = t.jhead n x.data := by rw [State.spDo, hx, ringOf_head]
    rw [hgo, hx]
    exact State.jhead_shows hc hn x.data
  · obtain ⟨ha, hset, -, hopen⟩ := hx
    have hgo : (t.spDo x .ringEnable).1 = t.ringEnable n x.data x.master := by rw [State.spDo, ha, ringOf_base]
    rw [hgo, ha]
    split
    · next hok => exact State.ringEnable_shows hc hn hopen hset hok x.master
    · next hbad => exact State.ringEnable_refusal hc hn hopen hbad x.master

end Sys2Proof.Machine
end

section
/-! SUPPORT. The execution of a stroke or a ligature writes few registers, and of the other parts of the block only the stalls, slots,
entries and messages that it works on. `State.Runs` says so of a state; the answer and the close at its end are said once (R84, R182, R190). -/

-- As in the tests: the compile of the one text stays within the threads of the sandbox.
set_option Elab.async false

namespace Sys2Proof.Machine

/-! ### What an execution leaves alone -/

theorem eventRegs_sendRegs : EventRegs sendRegs :=
  ⟨List.subset_append_left .., fun a ha he => by
    have := answerSlot_of_mem (List.subset_append_right [R.YARD_PEAK, R.INK_PEAK] sendRegs ha)
    rw [he] at this
    revert this
    decide⟩

theorem sendRegs_subset_answerRegs : sendRegs ⊆ answerRegs := List.subset_append_right _ _
theorem blotStatus_mem_sendRegs : R.BLOT_STATUS ∈ sendRegs := List.mem_append_right _ (by simp)

/-- A register that no request writes is none that a message sent writes. -/
theorem sendRegs_apart {b : Nat} (hb : quietReg b) : ∀ a ∈ sendRegs, a / 8 ≠ b / 8 := fun _ ha he =>
  hb (he ▸ answerSlot_of_mem (sendRegs_subset_answerRegs ha))

/-- The state without its registers and records, and without what an execution works on: stalls, slots, entries and messages. -/
def State.unworked (s : State) : State :=
  { s with win := [], svc := SvcSt.reset, stalls := [], ink := [], inkSeq := 0, mps := [], alc := [], ligs := [], tickets := [], nps := [],
           lanePtr := [], lates := [], freeCtr := 0, rlys := [], tx := [] }

/-- `u` is `s` but for registers of `as`, for records, and for what an execution works on. -/
structure State.Runs (as : List RegAddr) (s u : State) : Prop where
  canonical : u.canonical = true
  regs : s.regsKept u as
  rest : u.unworked = s.unworked

section
variable {as bs cs : List RegAddr} {s t u v w z : State} {i j sl : Nat} {x y : Stall} {q : EpId}

theorem State.Runs.refl (hc : s.canonical = true) : s.Runs as s := ⟨hc, fun _ _ => rfl, rfl⟩

theorem State.Runs.trans (r : s.Runs as t) (r' : t.Runs bs u) (ha : as ⊆ cs) (hb : bs ⊆ cs) : s.Runs cs u :=
  ⟨r'.canonical, fun b h => (State.regsKept.mono r'.regs hb b h).trans (State.regsKept.mono r.regs ha b h), r'.rest.trans r.rest⟩

/-- A step that touches no register, and nothing but what an execution works on. -/
theorem State.Runs.beside (r : s.Runs as u) (hwin : w.win = u.win) (h : w.unworked = u.unworked) : s.Runs as w where
  canonical := by simpa only [State.canonical, hwin] using r.canonical
  regs b hb := by simpa only [State.reg, hwin] using r.regs b hb
  rest := h.trans r.rest

theorem State.Drifts.runs (d : v.Drifts as u) : v.Runs as u := ⟨d.canonical, d.regs, (congrArg State.unworked d.rest :)⟩

theorem State.Runs.drift (r : s.Runs as u) (d : u.Drifts as w) : s.Runs as w := r.trans d.runs (fun _ h => h) fun _ h => h

theorem State.onlyRegs.runs (h : s.onlyRegs u as) (hc : u.canonical = true) : s.Runs as u := ⟨hc, h.2, (congrArg State.unworked h.1 :)⟩

theorem State.Runs.dirs (r : s.Runs as u) : u.dirs = s.dirs := (congrArg State.dirs r.rest :)
theorem State.Runs.faults (r : s.Runs as u) : u.faults = s.faults := (congrArg State.faults r.rest :)
theorem State.Runs.rcv (r : s.Runs as u) : u.rcv = s.rcv := (congrArg State.rcv r.rest :)
theorem State.Runs.readyStrk (r : s.Runs as u) : u.readyStrk = s.readyStrk := (congrArg State.readyStrk r.rest :)
theorem State.Runs.readyLig (r : s.Runs as u) : u.readyLig = s.readyLig := (congrArg State.readyLig r.rest :)

/-- A register outside the list reads the same. -/
theorem State.Runs.reg (r : s.Runs as u) {b : Nat} (hb : ∀ a ∈ as, a / 8 ≠ b / 8) : u.reg b = s.reg b :=
  r.regs b (List.all_eq_true.2 fun a ha => by simpa using hb a ha)

/-- The registers that decide a route lie above those of the ledger and of the ALC (R242). -/
theorem State.Runs.reaches (r : s.Runs as u) (hc : s.canonical = true) (hlow : ∀ a ∈ as, a < 0x5000) : u.reaches q ↔ s.reaches q :=
  State.SamePorts.reaches ⟨hc, r.canonical, r.faults, fun b hb => r.reg fun a ha => by
    have : a < 0x5000 := hlow a ha
    have : ∀ c : Nat, c < 0x5000 → c / 8 ≠ b / 8 := by omega
    exact this a (hlow a ha)⟩ q

/-! ### Stalls of an execution -/

theorem State.find_withStall_ne (h : j ≠ i) : SMap.find (s.withStall i x).stalls j = SMap.find s.stalls j := SMap.find_put_ne _ _ h

theorem State.wf_withStall (h : SMap.wf s.stalls = true) : SMap.wf (s.withStall i x).stalls = true := SMap.risesFrom_put (Nat.zero_le _) h

theorem State.Runs.withStall (r : s.Runs as u) (i : Nat) (x : Stall) : s.Runs as (u.withStall i x) := r.beside rfl rfl

/-! ### The answer -/

theorem State.Departs.send (d : s.Departs u) (hf : u.faults = []) (m : Msg) (k : Meta) : s.Departs (u.send m k).1 := by
  have hr : R.RTE_ERRCNT ∈ sendRegs := List.mem_append_right _ (by simp)
  cases he : u.route (u.toPhys m.dst) with
  | none =>
    rw [State.send_of_no_route hf he]
    exact State.Departs.ev (d.setReg hr _) (by decide) _
  | some r =>
    obtain ⟨n, rt, nh⟩ := r
    rw [State.send_of_route hf he]
    exact d.enqueue (State.route_lt he) _

/-- A reply writes the registers of a message sent (R159, R243, R449). -/
theorem State.Departs.reply (d : s.Departs u) (hf : u.faults = []) (i : Nat) (t : Stall) (op : BitVec 6) (detail n : Nat) (l : LineData) :
    s.Departs (u.reply i t op detail n l) := by
  unfold State.reply
  extract_lets m k s1
  have hsend := (d.beside (w := s1) rfl rfl rfl).send hf m k
  generalize s1.send m k = p at hsend ⊢
  obtain ⟨p, b⟩ := p
  cases b with
  | true => exact hsend
  | false => exact (hsend.noRouteNote m).beside rfl rfl rfl

/-- `z` is `u` after the answer of stall `i`: its stall is answered, and other stalls change only as packets leave. -/
structure State.Replied (u : State) (i : Nat) (y : Stall) (z : State) : Prop where
  stalls : ∀ j, Option.Rel Stall.Sent (SMap.find (u.withStall i y.answered).stalls j) (SMap.find z.stalls j)
  wf : SMap.wf u.stalls = true → SMap.wf z.stalls = true
  ink : z.ink = u.ink
  alc : z.alc = u.alc
  ligs : z.ligs = u.ligs

/-- A stall that is answered waits for nothing else, if it did not before. -/
theorem State.Replied.find (h : u.Replied i y z) (hj : SMap.find (u.withStall i y.answered).stalls j = some x) :
    ∃ x', SMap.find z.stalls j = some x' ∧ x'.ink = x.ink ∧ x'.role = x.role := by
  have hrel := h.stalls j
  rw [hj] at hrel
  generalize SMap.find z.stalls j = o at hrel ⊢
  cases hrel with
  | some e =>
    obtain ⟨ws, at', rfl, -⟩ := e
    exact ⟨_, rfl, rfl, rfl⟩

/-- The answer at the end of an execution: its message stands in an egress queue or has left where a route is found (R183, R193). -/
theorem State.Runs.reply (r : s.Runs sendRegs u) (hc : s.canonical = true) (hf : s.faults = []) (hi : SMap.find u.stalls i = some y)
    (t : Stall) (op : BitVec 6) (detail n : Nat) (d : LineData) :
    s.Runs sendRegs (u.reply i t op detail n d) ∧ u.Replied i y (u.reply i t op detail n d) ∧
      (s.reaches t.req.q → u.posts (u.reply i t op detail n d) t.req.q op t.req.tag) := by
  have hfu : u.faults = [] := r.faults.trans hf
  have hbase : (({ u with win := s.win } : State).withStall i y).Tracks answerRegs u := by
    have hsame : ({ u with win := s.win } : State).withStall i y = { u with win := s.win } := State.withStall_of_find hi
    rw [hsame]
    exact ⟨askRegs_subset_answerRegs, fun _ h => h, hc, r.canonical, State.regsKept.mono r.regs sendRegs_subset_answerRegs, rfl⟩
  have hreach : ({ u with win := s.win } : State).reaches t.req.q ↔ s.reaches t.req.q :=
    State.SamePorts.reaches (s := s) (u := { u with win := s.win }) ⟨hc, hc, r.faults, fun _ _ => rfl⟩ _
  obtain ⟨hS, hpost⟩ := hbase.reply hfu t op detail n d
  have hD := (State.Departs.refl r.canonical).reply hfu i t op detail n d
  generalize u.reply i t op detail n d = z at hS hpost hD
  have hrest : z.unworked = u.unworked := (congrArg State.unworked hS.tracks.rest :)
  refine ⟨⟨hD.canonical, fun b hb => (hD.regs b hb).trans (r.regs b hb), hrest.trans r.rest⟩,
    ⟨hS.stalls, fun h => hS.wf (SMap.risesFrom_put (Nat.zero_le _) h), hS.tracks.ink, hS.tracks.alc, (congrArg State.ligs hS.tracks.rest :)⟩,
    fun hr => ?_⟩
  obtain ⟨m, e, hwho, hop, htag, hposted⟩ := hpost (hreach.2 hr)
  exact ⟨m, e, hwho, hop, htag, hposted⟩

/-! ### The close -/

/-- A stall that keeps no slot returns to its pool while no ID is being purged (R84, R128). -/
theorem State.doClose_free (hp : s.rcv.purge = []) (hink : x.ink = none) (hrole : ∀ l, x.role ≠ .dump l) : s.doClose i x = s.freeStall i := by
  unfold State.doClose
  simp only [hp, List.isEmpty_nil, Bool.not_true, Bool.and_false, Bool.false_eq_true, if_false, hink]

theorem State.freeStall_unworked (s : State) (i : Nat) : (s.freeStall i).unworked = s.unworked := by
  rw [s.freeStall_eq i]
  rfl

theorem State.find_freeStall_self (hwf : SMap.wf s.stalls = true) (i : Nat) : SMap.find (s.freeStall i).stalls i = none := by
  rw [s.freeStall_eq i]
  exact SMap.find_del_self hwf i

theorem State.find_freeStall_ne (hwf : SMap.wf s.stalls = true) (h : j ≠ i) : SMap.find (s.freeStall i).stalls j = SMap.find s.stalls j := by
  rw [s.freeStall_eq i]
  exact SMap.find_del_ne hwf h

theorem State.wf_freeStall (hwf : SMap.wf s.stalls = true) (i : Nat) : SMap.wf (s.freeStall i).stalls = true := by
  rw [s.freeStall_eq i]
  exact SMap.risesFrom_del hwf

theorem State.Runs.freeStall (r : s.Runs as u) (i : Nat) : s.Runs as (u.freeStall i) :=
  r.beside (by rw [u.freeStall_eq i]) (u.freeStall_unworked i)

/-- What a message sent stands in is no part of a stall's close. -/
theorem State.posts_freeStall {op : BitVec 6} {tag : Tag} (h : s.posts u q op tag) (i : Nat) : s.posts (u.freeStall i) q op tag := by
  rw [u.freeStall_eq i]
  exact h

theorem State.freeStall_ink (s : State) (i : Nat) : (s.freeStall i).ink = s.ink := by rw [s.freeStall_eq i]
theorem State.freeStall_alc (s : State) (i : Nat) : (s.freeStall i).alc = s.alc := by rw [s.freeStall_eq i]
theorem State.freeStall_ligs (s : State) (i : Nat) : (s.freeStall i).ligs = s.ligs := by rw [s.freeStall_eq i]

end

end Sys2Proof.Machine
end

section
/-! SUPPORT. The words of a line as an execution reads and writes them, in its stall's staged line or in its ALC entry, and what becomes of
its inkwell slot (R191, R203, R206, R217). -/

-- As in the tests: the compile of the one text stays within the threads of the sandbox.
set_option Elab.async false

namespace Sys2Proof.Machine

/-! ### Words of a line -/

theorem LineData.word_norm (d : LineData) {m : Nat} (hm : m < 32) : (LineData.norm d).word m = d.word m := by
  simp [LineData.norm, LineData.word, hm]

theorem LineData.word_setWord (d : LineData) (w : Nat) (x : DWord) {m : Nat} (hm : m < 32) :
    (d.setWord w x).word m = if m = w then x else d.word m := by
  by_cases h : m = w
  · subst h
    simp [LineData.setWord, LineData.norm, LineData.word, hm]
  · have hset : (d.setWord w x).word m = (LineData.norm d).word m := by
      simp [LineData.setWord, LineData.word, List.getElem?_set_ne (Ne.symm h)]
    rw [hset, LineData.word_norm d hm, if_neg h]

/-- A word that is not corrected is as it was (R9). -/
theorem DWord.fix_of_chk {d : DWord} (h : d.chk ≠ .ce) : d.fix = d := by
  unfold DWord.fix
  split
  · contradiction
  · rfl

/-- A stall whose line is settled: it keeps no slot (R206). -/
def Stall.settled (t : Stall) : Stall := { t with ink := none }

/-- The line that a stall has staged (R203). -/
def Stall.staging (t : Stall) : LineData := t.got.getD []

/-- A stall whose staged line has a word written (R191). -/
def Stall.staged (t : Stall) (w : Nat) (x : DWord) : Stall := { t with got := some (t.staging.setWord w x) }

theorem Stall.word_staged (t : Stall) (w : Nat) (x : DWord) {m : Nat} (hm : m < 32) :
    (t.staged w x).staging.word m = if m = w then x else t.staging.word m := LineData.word_setWord _ w x hm

section
variable {as : List RegAddr} {s u z : State} {i a sl w : Nat} {t : Stall} {e : AlcEntry} {x : InkSlot} {h : HIdx} {r : Req}

/-! ### In bypass -/

theorem State.readWord_bypass (hf : SMap.find s.stalls i = some t) (ha : t.alc = none) (w : Nat) :
    s.readWord i w = (s.withStall i (t.staged w (t.staging.word w).fix), (t.staging.word w).fix) := by
  unfold State.readWord
  rw [hf]
  dsimp only
  rw [ha]
  dsimp only
  rw [State.updStall_of_find hf]
  rfl

theorem State.writeWord_bypass (hf : SMap.find s.stalls i = some t) (ha : t.alc = none) (w : Nat) (d : DWord) :
    s.writeWord i w d = s.withStall i (t.staged w d) := by
  unfold State.writeWord
  rw [hf]
  dsimp only
  rw [ha]
  exact State.updStall_of_find hf _

/-- A line that changed fills its slot, and its stall keeps the slot no longer (R206). -/
theorem State.settleLine_commits (hf : SMap.find s.stalls i = some t) (hsl : t.ink = some sl) (hx : SMap.find s.ink sl = some x)
    (ho : s.inkOlder sl x.h = []) : s.settleLine i true =
      (s.withFilled sl (x.fill t.staging (s.needPorts x.h) [] [] s.inkSeq s.tod)).withStall i t.settled := by
  simp only [State.settleLine, hf, hsl, Bool.true_or, if_true, State.inkFill_only hx ho]
  exact State.updStall_of_find (s := s.withFilled sl _) hf _

/-- The slot of a line that changed is filled with it (R191, R206). -/
theorem State.settleLine_fills (hf : SMap.find s.stalls i = some t) (hsl : t.ink = some sl) (hx : SMap.find s.ink sl = some x)
    (ho : s.inkOlder sl x.h = []) :
    ∃ y, s.settleLine i true = (s.withFilled sl y).withStall i t.settled ∧ y.h = x.h ∧ y.phase = .filled ∧
      y.data = LineData.norm t.staging :=
  ⟨_, State.settleLine_commits hf hsl hx ho, rfl, rfl, rfl⟩

/-- A line that did not change, and came from no holder, gives its slot up (R206). -/
theorem State.settleLine_releases (hf : SMap.find s.stalls i = some t) (hsl : t.ink = some sl) (hout : t.out = some .direct) :
    s.settleLine i false = (s.inkDrop sl).withStall i t.settled := by
  have hno : (false || t.out == some .dataI || t.out == some .wbPend) = false := by rw [hout]; rfl
  simp only [State.settleLine, hf, hsl, hno, Bool.false_eq_true, if_false]
  exact State.updStall_of_find (s := s.inkDrop sl) hf _

/-- What supersedes a slot's older fills stands in the inkwell alone (R275). -/
theorem State.Runs.inkOlder (r : s.Runs as u) (has : ∀ a ∈ as, a / 8 ≠ R.ISL_PWRWARN / 8) (hink : u.ink = s.ink) (sl : Nat) (h : HIdx) :
    u.inkOlder sl h = s.inkOlder sl h := by
  have hwarn : u.warn = s.warn := by simp only [State.warn, State.flag, State.fld, r.reg has]
  simp only [State.inkOlder, hwarn, hink]

/-- A slot filled for another line supersedes nothing (R275). -/
theorem State.inkOlder_withFilled (ho : s.inkOlder sl h = []) (a : Nat) (hx : x.h ≠ h) : (s.withFilled a x).inkOlder sl h = [] := by
  have hwarn : (s.withFilled a x).warn = s.warn := rfl
  unfold State.inkOlder at ho ⊢
  rw [hwarn]
  split
  · rfl
  · next hw =>
    rw [if_neg hw, List.filter_eq_nil_iff] at ho
    rw [List.filter_eq_nil_iff]
    intro e he
    rcases SMap.mem_put he with he | rfl
    · exact ho e he
    · simp [hx]

theorem State.Runs.withFilled (r : s.Runs as u) (sl : Nat) (x : InkSlot) : s.Runs as (u.withFilled sl x) := r.beside rfl rfl
theorem State.Runs.inkDrop (r : s.Runs as u) (sl : Nat) : s.Runs as (u.inkDrop sl) := r.beside rfl rfl

/-! ### In the ALC -/

theorem State.alcLoc_shows (hc : s.canonical = true) (k w src : Nat) (fr : Bool) :
    (s.alcLoc k w src fr).canonical = true ∧ s.onlyRegs (s.alcLoc k w src fr) [R.ALC_ECC_LOC] := by
  unfold State.alcLoc
  split
  · exact ⟨hc, s.onlyRegs_refl _⟩
  · exact ⟨State.canonical_setReg _ _ hc, State.onlyRegs_setReg hc _ _⟩

/-- An error met in a word is counted, and its place kept (R218, R228). -/
theorem State.alcError_shows (hc : s.canonical = true) (lo k w : Nat) :
    ((s.addFld R.ALC_ECC lo 16 1).alcLoc k w 0 false).canonical = true ∧
      s.onlyRegs ((s.addFld R.ALC_ECC lo 16 1).alcLoc k w 0 false) [R.ALC_ECC, R.ALC_ECC_LOC] := by
  have hadd : (s.addFld R.ALC_ECC lo 16 1).canonical = true := State.canonical_setReg _ _ hc
  obtain ⟨hcan, hloc⟩ := State.alcLoc_shows hadd k w 0 false
  exact ⟨hcan, ((State.onlyRegs_setReg hc R.ALC_ECC _).mono (by simp)).trans (hloc.mono (by simp))⟩

/-- An entry of the ALC as it stands after one of its words has been read: the word may be corrected, its poison known (R217, R268). -/
structure AlcEntry.Read (e : AlcEntry) (w : Nat) (y : AlcEntry) : Prop where
  h : y.h = e.h
  v : y.v = e.v
  lk : y.lk = e.lk
  words : ∀ m, m < 32 → m ≠ w → y.data.word m = e.data.word m

/-- `z` is `s` after a read of word `w` of the ALC entry `a`, which it leaves as `y`: the registers of the ALC's errors are written first, the
event and the record of an error then (R217, R268). -/
def State.EntryRead (s : State) (a : Nat) (y : AlcEntry) (z : State) : Prop :=
  ∃ b, b.canonical = true ∧ ({ s with alc := SMap.put s.alc a y } : State).onlyRegs b [R.ALC_ECC, R.ALC_ECC_LOC] ∧ b.Drifts sendRegs z

theorem State.readWord_entry_ok (hf : SMap.find s.stalls i = some t) (ha : t.alc = some a) (he : SMap.find s.alc a = some e)
    (hok : (e.data.word w).chk = .ok) : s.readWord i w = (s, e.data.word w) := by
  simp only [State.readWord, hf, ha, he, hok]

/-- A correctable word is corrected in the entry (R217). -/
theorem State.readWord_entry_ce (hc : s.canonical = true) (hf : SMap.find s.stalls i = some t) (ha : t.alc = some a)
    (he : SMap.find s.alc a = some e) (hce : (e.data.word w).chk = .ce) :
    ∃ z, s.readWord i w = (z, (e.data.word w).fix) ∧ s.EntryRead a { e with data := e.data.setWord w (e.data.word w).fix } z := by
  have hput : ({ s with alc := SMap.put s.alc a { e with data := e.data.setWord w (e.data.word w).fix } } : State).canonical = true := hc
  obtain ⟨hcan, honly⟩ := State.alcError_shows hput 0 a w
  have hev := (State.Drifts.refl eventRegs_sendRegs hcan).ev (k := 0xB2) (by decide) (s.alcAttr e.h)
  simp only [State.readWord, hf, ha, he, hce]
  exact ⟨_, rfl, _, hcan, honly, hev.note blotStatus_mem_sendRegs ..⟩

/-- The ALC's entries stand beside the registers. -/
theorem State.onlyRegs_alc {b : State} (h : s.onlyRegs b as) (f : SMap AlcEntry → SMap AlcEntry) :
    ({ s with alc := f s.alc } : State).onlyRegs { b with alc := f b.alc } as :=
  ⟨(congrArg (fun q : State => { q with alc := f q.alc }) h.1 :), h.2⟩

/-- An uncorrectable word is counted; where its poison was not known it is recorded (R268). -/
theorem State.readWord_of_ue (hf : SMap.find s.stalls i = some t) (ha : t.alc = some a) (he : SMap.find s.alc a = some e)
    (hue : (e.data.word w).chk = .ue) {b : State} (hb : b = (s.addFld R.ALC_ECC 32 16 1).alcLoc a w 0 false) {y : AlcEntry}
    (hy : y = { e with known := e.known ||| BitVec.ofNat 32 (2 ^ w) }) :
    s.readWord i w = if e.known.getLsbD w then (b, e.data.word w) else
      (({ b with alc := SMap.put b.alc a y }.ev 0xB8 (b.alcAttr e.h)).note 0 1 0 2 e.world (b.lineOf e.h)
        (arg := BitVec.ofNat 40 (7 + w * 16)), e.data.word w) := by
  subst hb hy
  simp only [State.readWord, hf, ha, he, hue]

/-- The poison of an uncorrectable word is known from then on (R268). -/
theorem State.readWord_entry_ue (hc : s.canonical = true) (hf : SMap.find s.stalls i = some t) (ha : t.alc = some a)
    (he : SMap.find s.alc a = some e) (hue : (e.data.word w).chk = .ue) :
    ∃ k z, s.readWord i w = (z, e.data.word w) ∧ s.EntryRead a { e with known := k } z := by
  obtain ⟨hcan, honly⟩ := State.alcError_shows hc 32 a w
  obtain ⟨b, hb⟩ : ∃ b, b = (s.addFld R.ALC_ECC 32 16 1).alcLoc a w 0 false := ⟨_, rfl⟩
  rw [← hb] at hcan honly
  have hput := State.onlyRegs_alc honly
  obtain ⟨k, hk⟩ : ∃ k, k = e.known ||| BitVec.ofNat 32 (2 ^ w) := ⟨_, rfl⟩
  rw [State.readWord_of_ue hf ha he hue hb (y := { e with known := k }) (by rw [hk])]
  split
  · refine ⟨e.known, b, rfl, b, hcan, ?_, State.Drifts.refl eventRegs_sendRegs hcan⟩
    rw [SMap.put_of_find he]
    exact honly
  · have hev := (State.Drifts.refl eventRegs_sendRegs (v := { b with alc := SMap.put b.alc a { e with known := k } }) hcan).ev
      (k := 0xB8) (by decide) (b.alcAttr e.h)
    exact ⟨k, _, rfl, { b with alc := SMap.put b.alc a { e with known := k } }, hcan,
      hput fun m => SMap.put m a { e with known := k }, hev.note blotStatus_mem_sendRegs ..⟩

/-- A word read from an entry of the ALC: the word may be corrected and its poison known, and nothing else of the entry changes (R217, R268). -/
theorem State.readWord_entry (hc : s.canonical = true) (hf : SMap.find s.stalls i = some t) (ha : t.alc = some a)
    (he : SMap.find s.alc a = some e) (w : Nat) :
    ∃ y z, s.readWord i w = (z, (e.data.word w).fix) ∧ e.Read w y ∧ s.EntryRead a y z := by
  have hfix : (e.data.word w).chk ≠ .ce → (e.data.word w).fix = e.data.word w := DWord.fix_of_chk
  cases hchk : (e.data.word w).chk with
  | ok =>
    rw [hfix (by simp [hchk])]
    refine ⟨e, s, State.readWord_entry_ok hf ha he hchk, ⟨rfl, rfl, rfl, fun _ _ _ => rfl⟩, s, hc, ?_,
      State.Drifts.refl eventRegs_sendRegs hc⟩
    rw [SMap.put_of_find he]
    exact s.onlyRegs_refl _
  | ce =>
    obtain ⟨z, hz, hread⟩ := State.readWord_entry_ce hc hf ha he hchk
    refine ⟨{ e with data := e.data.setWord w (e.data.word w).fix }, z, hz, ⟨rfl, rfl, rfl, fun m hm hmw => ?_⟩, hread⟩
    exact (LineData.word_setWord _ w _ hm).trans (if_neg hmw)
  | ue =>
    rw [hfix (by simp [hchk])]
    obtain ⟨k, z, hz, hread⟩ := State.readWord_entry_ue hc hf ha he hchk
    exact ⟨{ e with known := k }, z, hz, ⟨rfl, rfl, rfl, fun _ _ _ => rfl⟩, hread⟩

/-- A word of an ALC entry written: the entry is dirty (R182). -/
theorem State.writeWord_entry (hf : SMap.find s.stalls i = some t) (ha : t.alc = some a) (he : SMap.find s.alc a = some e) (w : Nat) (d : DWord) :
    s.writeWord i w d = { s with alc := SMap.put s.alc a { e with d := true, ref := true, data := e.data.setWord w d } } := by
  simp only [State.writeWord, hf, ha, SMap.upd, he]

/-! ### A failed guard -/

/-- An abort counted writes its register alone (R208). -/
theorem State.runs_abortCounted (hc : s.canonical = true) : s.Runs [R.LED_ABORTS] (s.addFld R.LED_ABORTS 0 16 1) :=
  (State.onlyRegs_setReg hc _ _).runs (State.canonical_setReg _ _ hc)

/-- A ledger abort by its guard is counted, and with it only what its event and its record write (R208, R451). -/
theorem State.abortNote_guard (hc : s.canonical = true) (r : Req) (fop : Nat) (lig : Bool) :
    (s.addFld R.LED_ABORTS 0 16 1).Drifts sendRegs (s.abortNote r 1 fop lig) := by
  have hcan : (s.addFld R.LED_ABORTS 0 16 1).canonical = true := State.canonical_setReg _ _ hc
  have hcounted := (State.Drifts.refl eventRegs_sendRegs hcan).ev (k := if lig then 0xC3 else 0xC1) (by split <;> decide)
    { w := some r.world, i := some r.q.toNat, l := some r.line.toNat }
  simp only [State.abortNote, if_true]
  generalize (s.addFld R.LED_ABORTS 0 16 1).ev _ _ = z at hcounted ⊢
  split
  · exact hcounted.note blotStatus_mem_sendRegs ..
  · exact hcounted

end

end Sys2Proof.Machine
end

section
/-! TO PROVE. STROKE_EXECUTE: a gathered stroke executes in the ALC or in bypass, and its stall closes with its answer (R182, R183, R202,
R206, R208). -/

-- As in the tests: the compile of the one text stays within the threads of the sandbox.
set_option Elab.async false

namespace Sys2Proof.Machine

/-- The attributes of the events of a request's execution (R451). -/
def Req.ledgerAttr (r : Req) : Attr := { w := some r.world, i := some r.q.toNat, l := some r.line.toNat }

/-- The end of a stroke: its answer, and the close of its stall (R183). -/
def State.strokeEnd (s : State) (i : Nat) (t : Stall) (detail : Nat) (d : LineData) : State :=
  match SMap.find (s.reply i t Op.strokeDone detail 1 d).stalls i with
  | some y => (s.reply i t Op.strokeDone detail 1 d).doClose i y
  | none => s.reply i t Op.strokeDone detail 1 d

section
variable {s v b z : State} {i a sl : Nat} {rest : List Nat} {t y : Stall} {f : OpFlit} {old new : DWord} {e : AlcEntry} {x : InkSlot}

/-- What the end of a stroke leaves: its stall is closed, its answer goes to the requester, and lines, slots and entries stay. -/
structure State.StrokeEnded (b : State) (i : Nat) (t : Stall) (z u : State) : Prop where
  runs : b.Runs sendRegs u
  free : SMap.find u.stalls i = none
  ink : u.ink = z.ink
  alc : u.alc = z.alc
  posts : b.reaches t.req.q → b.posts u t.req.q Op.strokeDone t.req.tag

theorem State.Runs.strokeEnd (r : b.Runs sendRegs z) (hc : b.canonical = true) (hf : b.faults = []) (hp : b.rcv.purge = [])
    (hwf : SMap.wf z.stalls = true) (hi : SMap.find z.stalls i = some y) (hink : y.ink = none) (hrole : y.role = .req)
    (htx : z.tx = b.tx) (t : Stall) (detail : Nat) (d : LineData) : b.StrokeEnded i t z (z.strokeEnd i t detail d) := by
  obtain ⟨hruns, hreplied, hposts⟩ := r.reply hc hf hi t Op.strokeDone detail 1 d
  obtain ⟨y', hy', hink', hrole'⟩ := hreplied.find (State.find_withStall ..)
  unfold State.strokeEnd
  generalize z.reply i t Op.strokeDone detail 1 d = w at *
  rw [hy']
  dsimp only
  rw [State.doClose_free (by rw [hruns.rcv, hp]) (hink'.trans hink) (fun l h => by simp [hrole', Stall.answered, hrole] at h)]
  exact ⟨hruns.freeStall i, State.find_freeStall_self (hreplied.wf hwf) i, (w.freeStall_ink i).trans hreplied.ink,
    (w.freeStall_alc i).trans hreplied.alc, fun hr => State.posts_freeStall (State.posts_of_tx htx (hposts hr)) i⟩

theorem State.Drifts.withAlc {as : List RegAddr} (d : b.Drifts as z) (m : SMap AlcEntry) :
    ({ b with alc := m } : State).Drifts as { z with alc := m } :=
  ⟨d.lists, d.base, d.canonical, d.regs, congrArg (fun q : State => { q with alc := m }) d.rest⟩

/-! ### The two ways a stroke goes -/

/-- What the execution of a stroke leaves for its end: in bypass its line is settled (R206). -/
def State.strokeSettled (s : State) (i : Nat) (t : Stall) (wrote : Bool) : State :=
  if t.alc.isNone then
    (s.ev 0xC5 t.req.ledgerAttr).settleLine i wrote
  else s

theorem State.strokeSettled_bypass (ha : t.alc = none) (wrote : Bool) :
    s.strokeSettled i t wrote = (s.ev 0xC5 t.req.ledgerAttr).settleLine i wrote := by rw [State.strokeSettled, ha]; rfl

theorem State.strokeSettled_entry (ha : t.alc = some a) (wrote : Bool) : s.strokeSettled i t wrote = s := by
  rw [State.strokeSettled, ha]; rfl

theorem State.strokeRun_of_success (hfa : s.faults = []) (hi : SMap.find s.stalls i = some t) (hf : f = opFlit t.req.data 0)
    (hread : s.readWord i f.word = (v, old)) (hres : f.apply old = (0, new)) (hop : f.op ≠ 0) :
    s.strokeRun i = (((v.writeWord i f.word new).ev 0xC0 t.req.ledgerAttr).strokeSettled i t true).strokeEnd i t
        (strokeDetail f 0 old.val new.val) [old, new, DWord.zero, DWord.zero] := by
  subst hf
  have hwrote : ((0 : Nat) == 0 && (opFlit t.req.data 0).op != 0x0) = true := by simpa using hop
  unfold State.strokeRun
  rw [State.reading_intact hfa]
  have hsts : (0 : Nat) ≠ Sts.poison := by decide
  simp only [hi, hread, hres, hwrote, hsts, if_true, if_false, State.strokeSettled, State.strokeEnd] <;> rfl

theorem State.strokeRun_of_guard (hfa : s.faults = []) (hi : SMap.find s.stalls i = some t) (hf : f = opFlit t.req.data 0)
    (hread : s.readWord i f.word = (v, old)) (hres : f.apply old = (1, new)) :
    s.strokeRun i = ((v.abortNote t.req 1 0 false).strokeSettled i t false).strokeEnd i t (strokeDetail f 1 old.val old.val)
      [old, old, DWord.zero, DWord.zero] := by
  subst hf
  have hwrote : ((1 : Nat) == 0 && (opFlit t.req.data 0).op != 0x0) = false := rfl
  have hsts : (1 : Nat) ≠ Sts.poison := by decide
  unfold State.strokeRun
  rw [State.reading_intact hfa]
  simp only [hi, hread, hres, hwrote, hsts, Nat.one_ne_zero, Bool.false_eq_true, if_false, State.strokeSettled, State.strokeEnd] <;> rfl

theorem exec_strokeExecute (hr : s.readyStrk = i :: rest) (hchk : s.chk = false) :
    exec .strokeExecute s = .next (finish s ({ s with readyStrk := rest }.strokeRun i)) := by
  simp only [exec, execStrokeExecute, hr, hchk, Bool.false_eq_true, if_false]

section
variable (hc : s.canonical = true) (hfa : s.faults = []) (hp : s.rcv.purge = []) (hwf : SMap.wf s.stalls = true)
  (hi : SMap.find s.stalls i = some t) (hrole : t.role = .req) (hf : f = opFlit t.req.data 0)
include hc hfa hp hwf hi hrole hf

/-! ### In bypass -/

/-- A success fills the slot of its line (R182, R206). -/
theorem State.strokeRun_bypass_success (ha : t.alc = none) (hsl : t.ink = some sl) (hx : SMap.find s.ink sl = some x)
    (ho : s.inkOlder sl x.h = []) (hres : f.apply (t.staging.word f.word).fix = (0, new)) (hop : f.op ≠ 0) :
    ∃ z y, s.StrokeEnded i t z (s.strokeRun i) ∧ z.alc = s.alc ∧ z.ink = SMap.put s.ink sl y ∧ y.h = x.h ∧ y.phase = .filled ∧
      y.data = LineData.norm ((t.staged f.word (t.staging.word f.word).fix).staged f.word new).staging := by
  rw [State.strokeRun_of_success hfa hi hf (State.readWord_bypass hi ha f.word) hres hop]
  generalize (t.staging.word f.word).fix = old
  rw [State.writeWord_bypass (State.find_withStall ..) (by exact ha)]
  have hput : s.Runs sendRegs ((s.withStall i (t.staged f.word old)).withStall i ((t.staged f.word old).staged f.word new)) :=
    ((State.Runs.refl hc).withStall _ _).withStall _ _
  have hevs := ((State.Drifts.refl eventRegs_sendRegs hput.canonical).ev (k := 0xC0) (by decide) t.req.ledgerAttr).ev
    (k := 0xC5) (by decide) t.req.ledgerAttr
  rw [State.strokeSettled_bypass ha]
  generalize (State.ev _ _ _).ev _ _ = v at hevs ⊢
  have hrun := hput.drift hevs
  have hfind : SMap.find v.stalls i = some ((t.staged f.word old).staged f.word new) := by rw [hevs.stalls]; exact State.find_withStall ..
  have hink : v.ink = s.ink := hevs.ink
  have htx : v.tx = s.tx := (congrArg State.tx hevs.rest :)
  have halc : v.alc = s.alc := (congrArg State.alc hevs.rest :)
  have hwf' : SMap.wf v.stalls = true := by rw [hevs.stalls]; exact State.wf_withStall (State.wf_withStall hwf)
  obtain ⟨y, hset, hh, hphase, hdata⟩ := State.settleLine_fills hfind (by exact hsl) (by rwa [hink])
    ((hrun.inkOlder (sendRegs_apart (by decide)) hink sl x.h).trans ho)
  have hruns := (hrun.withFilled sl y).withStall i ((t.staged f.word old).staged f.word new).settled
  have hwfv := State.wf_withStall (s := v.withFilled sl y) (i := i) (x := ((t.staged f.word old).staged f.word new).settled) hwf'
  rw [hset]
  exact ⟨_, y, hruns.strokeEnd hc hfa hp hwfv (State.find_withStall ..) rfl hrole htx t _ _, halc,
    congrArg (SMap.put · sl y) hink, hh, hphase, hdata⟩

/-- A failed guard counts the abort and releases the slot (R206, R208). -/
theorem State.strokeRun_bypass_guard (ha : t.alc = none) (hsl : t.ink = some sl) (hout : t.out = some .direct)
    (hres : f.apply (t.staging.word f.word).fix = (1, new)) :
    ∃ z, (s.addFld R.LED_ABORTS 0 16 1).StrokeEnded i t z (s.strokeRun i) ∧ z.alc = s.alc ∧ z.ink = SMap.del s.ink sl := by
  rw [State.strokeRun_of_guard hfa hi hf (State.readWord_bypass hi ha f.word) hres]
  generalize (t.staging.word f.word).fix = old
  have hcan : (s.addFld R.LED_ABORTS 0 16 1).canonical = true := State.canonical_setReg _ _ hc
  have hput : (s.addFld R.LED_ABORTS 0 16 1).Runs sendRegs ((s.withStall i (t.staged f.word old)).addFld R.LED_ABORTS 0 16 1) :=
    (State.Runs.refl hcan).withStall i (t.staged f.word old)
  have hevs := (State.abortNote_guard (s := s.withStall i (t.staged f.word old)) hc t.req 0 false).ev (k := 0xC5) (by decide) t.req.ledgerAttr
  rw [State.strokeSettled_bypass ha]
  generalize (State.abortNote _ _ _ _ _).ev _ _ = v at hevs ⊢
  have hfind : SMap.find v.stalls i = some (t.staged f.word old) := by rw [hevs.stalls]; exact State.find_withStall ..
  have htx : v.tx = s.tx := (congrArg State.tx hevs.rest :)
  have halc : v.alc = s.alc := (congrArg State.alc hevs.rest :)
  have hwf' : SMap.wf v.stalls = true := by rw [hevs.stalls]; exact State.wf_withStall hwf
  rw [State.settleLine_releases hfind (by exact hsl) (by exact hout)]
  have hruns := ((hput.drift hevs).inkDrop sl).withStall i (t.staged f.word old).settled
  have hwfv := State.wf_withStall (s := v.inkDrop sl) (i := i) (x := (t.staged f.word old).settled) hwf'
  exact ⟨_, hruns.strokeEnd hcan hfa hp hwfv (State.find_withStall ..) rfl hrole htx t _ _, halc, congrArg (SMap.del · sl) hevs.ink⟩

/-! ### In the ALC -/

/-- A success writes its word to the line's entry, which is dirty (R182). -/
theorem State.strokeRun_entry_success (ha : t.alc = some a) (hink : t.ink = none) (he : SMap.find s.alc a = some e)
    (hres : f.apply (e.data.word f.word).fix = (0, new)) (hop : f.op ≠ 0) :
    ∃ b z y, s.Runs [R.ALC_ECC, R.ALC_ECC_LOC] b ∧ b.tx = s.tx ∧ b.StrokeEnded i t z (s.strokeRun i) ∧ z.ink = s.ink ∧ e.Read f.word y ∧
      z.alc = SMap.put (SMap.put s.alc a y) a { y with d := true, ref := true, data := y.data.setWord f.word new } := by
  obtain ⟨y, v, hread, hy, b, hcan, honly, hd⟩ := State.readWord_entry hc hi ha he f.word
  rw [State.strokeRun_of_success hfa hi hf hread hres hop]
  generalize (e.data.word f.word).fix = old
  have hstalls : v.stalls = s.stalls := hd.stalls.trans (congrArg State.stalls honly.1 :)
  have halc : v.alc = SMap.put s.alc a y := (congrArg State.alc hd.rest :).trans (congrArg State.alc honly.1 :)
  rw [State.writeWord_entry (by rwa [hstalls]) ha (by rw [halc]; exact SMap.find_put_self ..), State.strokeSettled_entry ha, halc]
  generalize hm : SMap.put (SMap.put s.alc a y) a { y with d := true, ref := true, data := y.data.setWord f.word new } = m
  have hbase : s.Runs [R.ALC_ECC, R.ALC_ECC_LOC] { b with alc := m } :=
    ⟨hcan, honly.2, (congrArg State.unworked honly.1 :)⟩
  have hev := (hd.withAlc m).ev (k := 0xC0) (by decide) t.req.ledgerAttr
  generalize State.ev _ _ _ = w at hev ⊢
  have hwstalls : w.stalls = s.stalls := hev.stalls.trans (congrArg State.stalls honly.1 :)
  have htx : b.tx = s.tx := (congrArg State.tx honly.1 :)
  have hend := hev.runs.strokeEnd hbase.canonical (hbase.faults.trans hfa) (congrArg RcvSt.purge hbase.rcv ▸ hp) (hwstalls ▸ hwf)
    (hwstalls ▸ hi) hink hrole (congrArg State.tx hev.rest :) t (strokeDetail f 0 old.val new.val) [old, new, DWord.zero, DWord.zero]
  exact ⟨_, w, y, hbase, htx, hend, hev.ink.trans (congrArg State.ink honly.1 :), hy,
    (congrArg State.alc hev.rest :).trans hm.symm⟩

end

end

/-- Settles O52: the two ways of a stroke in bypass and its success in the ALC, each ended by its answer and the close of its stall. -/
theorem strokesExecute : Obligations.StrokesExecute := by
  unfold Obligations.StrokesExecute
  intro s i rest t f a hcalm hp hready hi hrole _ hf hreach
  obtain ⟨hc, -, hwf, -, -, hwfInk, -, -, -, -, -, hfa, hchk⟩ := hcalm
  have hexec := exec_strokeExecute hready hchk
  have hlow : ∀ r ∈ [R.ALC_ECC, R.ALC_ECC_LOC], r < 0x5000 := by decide
  refine ⟨fun e new ha hink he hres hop => ?_, fun sl x d ha hsl hgot hx ho => ⟨fun new hres hop => ?_, fun old hres hout => ?_⟩⟩
  · obtain ⟨b, z, y, hb, htx, hend, hzink, hy, hzalc⟩ :=
      State.strokeRun_entry_success (s := { s with readyStrk := rest }) hc hfa hp hwf hi hrole hf ha hink he hres hop
    have hruns := hb.trans hend.runs (List.subset_append_left ..) (List.subset_append_right ..)
    have halc := hend.alc.trans hzalc
    refine ⟨_, hexec, ⟨{ y with d := true, ref := true, data := y.data.setWord f.word new }, by
      rw [halc]; exact SMap.find_put_self .., hy.h, hy.v, hy.lk, rfl, rfl, fun w hw => ?_⟩, fun k hk => ?_, hend.free,
      hruns.readyStrk, State.posts_of_tx htx (hend.posts ((hb.reaches hc hlow).2 hreach)), hruns.dirs, hend.ink.trans hzink, hruns.regs⟩
    · rw [LineData.word_setWord _ _ _ hw]
      split
      · rfl
      · next hne => exact hy.words w hw hne
    · rw [halc, SMap.find_put_ne _ _ hk, SMap.find_put_ne _ _ hk]
  · have hd : t.staging = d := by rw [Stall.staging, hgot]; rfl
    obtain ⟨z, y, hend, halc, hink, hh, hphase, hdata⟩ :=
      State.strokeRun_bypass_success (s := { s with readyStrk := rest }) hc hfa hp hwf hi hrole hf ha hsl hx ho (hd ▸ hres) hop
    refine ⟨_, hexec, ⟨y, by rw [hend.ink, hink]; exact SMap.find_put_self .., hh, hphase, fun w hw => ?_⟩, hend.free, hend.runs.readyStrk,
      hend.posts hreach, hend.runs.dirs, hend.alc.trans halc, hend.runs.regs⟩
    rw [hdata, LineData.word_norm _ hw, Stall.word_staged _ _ _ hw, Stall.word_staged _ _ _ hw, hd]
    split <;> rfl
  · have hd : t.staging = d := by rw [Stall.staging, hgot]; rfl
    obtain ⟨z, hend, halc, hink⟩ :=
      State.strokeRun_bypass_guard (s := { s with readyStrk := rest }) hc hfa hp hwf hi hrole hf ha hsl hout (hd ▸ hres)
    have hb := State.runs_abortCounted (s := { s with readyStrk := rest }) hc
    have hruns := hb.trans hend.runs (cs := R.LED_ABORTS :: sendRegs) (by simp) (List.subset_cons_self ..)
    refine ⟨_, hexec, ?_, hend.free, hruns.readyStrk, hend.posts ((hb.reaches hc (by decide)).2 hreach), ?_, hruns.dirs, hend.alc.trans halc,
      hruns.regs⟩
    · rw [hend.ink, hink]
      exact SMap.find_del_self hwfInk sl
    · rw [State.fld, hend.runs.reg (sendRegs_apart (by decide))]
      exact State.fld_addFld_one hc _ (by decide)

end Sys2Proof.Machine
end

section
/-! SUPPORT. The ligature unit works through one operation in bypass: its words are staged in its stalls, its outcome is recorded or noted,
and its stalls close with its answer (R190-R193, R197). -/

-- As in the tests: the compile of the one text stays within the threads of the sandbox.
set_option Elab.async false

namespace Sys2Proof.Machine

/-! ### Words staged one after another -/

/-- A stall whose staged line has words written, one after another (R197). -/
def Stall.stagedAll (t : Stall) : Nat → List DWord → Stall
  | _, [] => t
  | w, x :: r => (t.staged w x).stagedAll (w + 1) r

/-- Words staged change the staged line alone. -/
theorem Stall.stagedAll_eq (t : Stall) (w : Nat) (l : List DWord) : t.stagedAll w l = { t with got := (t.stagedAll w l).got } := by
  induction l generalizing t w with
  | nil => rfl
  | cons x r ih => exact ih (t.staged w x) (w + 1)

theorem Stall.word_stagedAll (t : Stall) (w : Nat) (l : List DWord) {m : Nat} (hm : m < 32) :
    (t.stagedAll w l).staging.word m = if w ≤ m ∧ m < w + l.length then l.getD (m - w) DWord.zero else t.staging.word m := by
  induction l generalizing t w with
  | nil => exact (if_neg (by simp)).symm
  | cons x r ih =>
    rw [Stall.stagedAll, ih, Stall.word_staged t w x hm, List.length_cons]
    by_cases h : m = w
    · subst h
      rw [if_neg (by omega), if_pos rfl, if_pos (by omega), Nat.sub_self]
      rfl
    · by_cases hin : w + 1 ≤ m ∧ m < w + 1 + r.length
      · rw [if_pos hin, if_pos (by omega), show m - w = m - (w + 1) + 1 by omega, List.getD_cons_succ]
      · rw [if_neg hin, if_neg h, if_neg (by omega)]

/-- A stall of the journal line that has the record of `seq` staged: with slot 0 its other half is cleared (R196, R197). -/
def Stall.journaled (t : Stall) (seq : Nat) (rec : List DWord) : Stall :=
  if seq % 2 = 0 then t.stagedAll 0 (rec ++ List.replicate 16 DWord.zero) else t.stagedAll 16 rec

theorem Stall.journaled_eq (t : Stall) (seq : Nat) (rec : List DWord) : t.journaled seq rec = { t with got := (t.journaled seq rec).got } := by
  unfold Stall.journaled
  split
  · exact t.stagedAll_eq ..
  · exact t.stagedAll_eq ..

theorem Stall.word_journaled (t : Stall) (seq : Nat) {rec : List DWord} (hr : rec.length = 16) {w : Nat} (hw : w < 16) :
    (t.journaled seq rec).staging.word (seq % 2 * 16 + w) = rec.getD w DWord.zero := by
  unfold Stall.journaled
  split
  · next h =>
    rw [Stall.word_stagedAll _ _ _ (by omega), if_pos (by simp; omega), h, List.getD_append _ _ _ _ (by omega)]
    simp
  · next h =>
    rw [Stall.word_stagedAll _ _ _ (by omega), if_pos (by omega), show seq % 2 = 1 by omega]
    simp

theorem length_ligRecord (g : Lig) (seq : Nat) (tod : Tod) (x : LigRun) : (ligRecord g seq tod x).length = 16 := by
  simp [ligRecord]

section
variable {s v b : State} {i j k a c : Nat} {l jl : LineAddr} {t tj : Stall} {g : Lig} {f : OpFlit} {old new : DWord} {x : LigRun} {n w : Nat}

theorem State.writeWords_bypass (hf : SMap.find s.stalls i = some t) (ha : t.alc = none) (w : Nat) (d : List DWord) :
    s.writeWords i w d = s.withStall i (t.stagedAll w d) := by
  induction d generalizing s t w with
  | nil => exact (State.withStall_of_find hf).symm
  | cons x r ih =>
    rw [State.writeWords, State.writeWord_bypass hf ha, ih (State.find_withStall ..) (by exact ha)]
    rw [State.withStall, State.withStall, SMap.put_put]; rfl

/-! ### The operations -/

theorem State.readStalls_intact (h : s.faults = []) (is : List Nat) : s.readStalls is = s := by
  have hprobe : ∀ i, s.probe 4 i = s := fun i => by simp [State.probe, State.damage, h]
  induction is with
  | nil => rfl
  | cons i r ih => rw [State.readStalls, List.foldl_cons, hprobe]; exact ih

/-- A ligature that has done nothing yet. -/
def LigRun.start : LigRun := ⟨[], [], DWord.zero, 0, 0, DWord.zero⟩

/-- What one operation on a line that the ligature holds comes to (R190, R191). -/
theorem State.ligOps_one (hn : f.isNote = false) (hl : f.line = l) (hread : s.readWord i f.word = (v, old)) :
    s.ligOps [(l, i)] 0 LigRun.start [f] =
      if (f.apply old).1 = 0 then
        (v, { LigRun.start with stage := if f.op = 0x0 then [] else [(i, f.word, (f.apply old).2)], res := [DWord.gen (f.apply old).2.val] })
      else (v, { LigRun.start with sts := (f.apply old).1, seen := old }) := by
  subst hl
  simp [State.ligOps, LigRun.start, hn, hread]

/-- A ring that is not full imposes no outcome (R192). -/
theorem State.ligFull_free (hfull : s.ringFull n = false) (hx : x.sts ≠ Sts.jfull) (g : Lig) : s.ligFull g n x = (s, x) := by
  simp [State.ligFull, hfull, hx]

/-! ### The commit -/

/-- What a success of one operation commits: the record in the journal line, the new word in the data line, and the ring's sequence
(R192, R197). -/
theorem State.ligCommit_success (hc : s.canonical = true) (hne : i ≠ j) (hi : SMap.find s.stalls i = some t) (ha : t.alc = none)
    (hj : SMap.find s.stalls j = some tj) (haj : tj.alc = none) (hx : x.sts = 0) (hstage : x.stage = [(i, w, new)]) (g : Lig) (n seq : Nat) :
    (((s.withStall j (tj.journaled seq (ligRecord g seq s.tod x))).withStall i (t.staged w new)).setReg (R.LED_JSEQ + 0x20 * n)
      (BitVec.ofNat 64 ((seq + 1) % 2 ^ 48))).Drifts sendRegs (s.ligCommit g n j seq x) := by
  have hwords : (if seq % 2 = 0 then s.writeWords j 0 (ligRecord g seq s.tod x ++ List.replicate 16 DWord.zero)
      else s.writeWords j 16 (ligRecord g seq s.tod x)) = s.withStall j (tj.journaled seq (ligRecord g seq s.tod x)) := by
    unfold Stall.journaled
    split
    · exact State.writeWords_bypass hj haj ..
    · exact State.writeWords_bypass hj haj ..
  have hword := State.writeWord_bypass (s := s.withStall j (tj.journaled seq (ligRecord g seq s.tod x)))
    ((State.find_withStall_ne hne).trans hi) ha w new
  simp only [State.ligCommit, hx, if_true, hwords, hstage, List.foldl_cons, List.foldl_nil, hword]
  generalize hz : (s.withStall j (tj.journaled seq (ligRecord g seq s.tod x))).withStall i (t.staged w new) = z
  have hcz : z.canonical = true := by subst hz; exact hc
  exact (State.Drifts.refl eventRegs_sendRegs (State.canonical_setReg _ _ hcz)).ev (k := 0xC2) (by decide) g.req.ledgerAttr

/-- A failed guard writes nothing, and its abort is counted (R192, R208). -/
theorem State.ligCommit_guard (hc : s.canonical = true) (hx : x.sts = 1) (g : Lig) (n j seq : Nat) :
    (s.addFld R.LED_ABORTS 0 16 1).Drifts sendRegs (s.ligCommit g n j seq x) := by
  rw [State.ligCommit, hx, if_neg (by decide)]
  exact State.abortNote_guard hc ..

/-- The advance of a ring's SEQ writes its register alone (R192). -/
theorem State.runs_ringAdvanced (hc : s.canonical = true) (n : Nat) (q : Word) :
    s.Runs [R.LED_JSEQ + 0x20 * n] (s.setReg (R.LED_JSEQ + 0x20 * n) q) :=
  (State.onlyRegs_setReg hc _ _).runs (State.canonical_setReg _ _ hc)

/-! ### The end -/

/-- What the end of a ligature leaves: its stalls are closed, its slot of the ligature unit is free, its answer goes to the requester, and the
inkwell stays. -/
structure State.LigEnded (b : State) (g : Lig) (k i j : Nat) (z u : State) : Prop where
  runs : b.Runs sendRegs u
  freeData : SMap.find u.stalls i = none
  freeJournal : SMap.find u.stalls j = none
  ligs : u.ligs = SMap.del z.ligs k
  ink : u.ink = z.ink
  posts : b.reaches g.req.q → b.posts u g.req.q Op.ligDone g.req.tag

/-- The close of the two stalls of a ligature of one data line. -/
theorem State.ligEnd_pair (hp : s.rcv.purge = []) (hwf : SMap.wf s.stalls = true) (hst : g.stalls = [i, j]) (hinks : g.inks = [])
    (hne : i ≠ j) (hi : SMap.find s.stalls i = some t) (hj : SMap.find s.stalls j = some tj) (hink : t.ink = none) (hinkj : tj.ink = none)
    (hrole : ∀ l, t.role ≠ .dump l) (hrolej : ∀ l, tj.role ≠ .dump l) (k : Nat) :
    s.ligEnd k g = ({ s with ligs := SMap.del s.ligs k }.freeStall i).freeStall j := by
  have hfree := State.doClose_free (s := { s with ligs := SMap.del s.ligs k }) (i := i) hp hink hrole
  have hpurge : ({ s with ligs := SMap.del s.ligs k }.freeStall i).rcv.purge = [] := by rw [State.freeStall_eq]; exact hp
  have hfind := (State.find_freeStall_ne (s := { s with ligs := SMap.del s.ligs k }) hwf hne.symm).trans hj
  simp only [State.ligEnd, hinks, hst, List.foldl_cons, List.foldl_nil, hi, hfree, hfind]
  exact State.doClose_free hpurge hinkj hrolej

theorem State.Runs.ligEnd (r : b.Runs sendRegs s) (hc : b.canonical = true) (hf : b.faults = []) (hp : b.rcv.purge = [])
    (hwf : SMap.wf s.stalls = true) (hst : g.stalls = [i, j]) (hinks : g.inks = []) (hne : i ≠ j)
    (hi : SMap.find s.stalls i = some t) (hj : SMap.find s.stalls j = some tj) (hink : t.ink = none) (hinkj : tj.ink = none)
    (hrole : t.role = .lig k false) (hrolej : tj.role = .lig k true) (htx : s.tx = b.tx) (n seq : Nat) (x : LigRun) :
    b.LigEnded g k i j s ((s.ligAnswer g n seq x).ligEnd k g) := by
  unfold State.ligAnswer
  extract_lets w0 fop lead
  have hlead : lead = i := by rw [show lead = g.stalls.headD 0 from rfl, hst]; rfl
  rw [hlead, hi]
  dsimp only
  obtain ⟨hruns, hreplied, hposts⟩ := r.reply hc hf hi { t with req := g.req, acc := g.acc, first := false } Op.ligDone (x.sts + fop * 16) 1
    [w0, DWord.gen s.tod, (ligResult x).1, (ligResult x).2]
  generalize State.reply _ _ _ _ _ _ _ = z at *
  obtain ⟨ti, hi', hinki, hrolei⟩ := hreplied.find (State.find_withStall ..)
  obtain ⟨tj', hj', hinkj', hrolej'⟩ := hreplied.find ((State.find_withStall_ne hne.symm).trans hj)
  have hwfz := hreplied.wf hwf
  rw [State.ligEnd_pair (hruns.rcv ▸ hp) hwfz hst hinks hne hi' hj' (hinki.trans hink) (hinkj'.trans hinkj)
    (fun l h => by simp [hrolei, Stall.answered, hrole] at h) (fun l h => by simp [hrolej', hrolej] at h)]
  have hposted : b.reaches g.req.q → b.posts { z with ligs := SMap.del z.ligs k } g.req.q Op.ligDone g.req.tag :=
    fun hr => State.posts_of_tx htx (hposts hr)
  have hbeside := hruns.beside (w := { z with ligs := SMap.del z.ligs k }) rfl rfl
  have hwfv : SMap.wf ({ z with ligs := SMap.del z.ligs k } : State).stalls = true := hwfz
  have hligs : ({ z with ligs := SMap.del z.ligs k } : State).ligs = SMap.del s.ligs k := by rw [← hreplied.ligs]
  have hinkv : ({ z with ligs := SMap.del z.ligs k } : State).ink = s.ink := hreplied.ink
  generalize ({ z with ligs := SMap.del z.ligs k } : State) = v at *
  have hfree := State.wf_freeStall hwfv i
  exact {
    runs := (hbeside.freeStall i).freeStall j
    freeData := (State.find_freeStall_ne hfree hne).trans (State.find_freeStall_self hwfv i)
    freeJournal := State.find_freeStall_self hfree j
    ligs := by rw [State.freeStall_ligs, State.freeStall_ligs, hligs]
    ink := by rw [State.freeStall_ink, State.freeStall_ink, hinkv]
    posts := fun hr => State.posts_freeStall (State.posts_freeStall (hposted hr) i) j }

/-! ### The run -/

/-- The commit of a ligature in bypass with the events of its outcome (R192, R202, R451). -/
def State.ligNoted (s : State) (g : Lig) (ji : Nat) (x : LigRun) : State :=
  ((s.ligCommit g (ligRing g.req.detail) ji (s.ringSeq (ligRing g.req.detail)) x).evN 0xC4
    (if x.sts = 0 then (opFlits g.req.data).length else x.fop) g.req.ledgerAttr).ev 0xC5 g.req.ledgerAttr

theorem State.Drifts.ligNoted (d : b.Drifts sendRegs (s.ligCommit g (ligRing g.req.detail) j (s.ringSeq (ligRing g.req.detail)) x)) :
    b.Drifts sendRegs (s.ligNoted g j x) := (d.evN _ _ fun _ => by decide).ev (by decide) _

/-- A ligature of one data line in bypass, once its operations have an outcome: its commit, its lines, its answer and its close. -/
theorem State.ligRun_bypass (hg : SMap.find s.ligs k = some g) (hfa : s.faults = []) (hchk : s.chk = false) (hdead : g.dead = false)
    (hen : s.ringEn (ligRing g.req.detail) = true) (hbyp : g.bypass = true) (hheld : g.held = [(l, i)]) (hjl : g.jline = some (jl, j))
    (hops : s.ligOps [(l, i)] 0 LigRun.start (opFlits g.req.data) = (v, x)) (hfull : v.ligFull g (ligRing g.req.detail) x = (v, x))
    (hchanged : x.sts = 0 → x.stage.any (fun e => e.1 == i) = true) (hj : SMap.find (v.ligNoted g j x).stalls j = some tj)
    (haj : tj.alc = none) :
    s.ligRun k = ((((v.ligNoted g j x).settleLine i (x.sts == 0)).settleLine j (x.sts == 0)).ligAnswer g (ligRing g.req.detail)
      (v.ringSeq (ligRing g.req.detail)) x).ligEnd k g := by
  have hi : (x.sts == 0 && (i == j || x.stage.any (fun e => e.1 == i))) = (x.sts == 0) := by
    by_cases h : x.sts = 0
    · rw [hchanged h, Bool.or_true, Bool.and_true]
    · simp [h]
  have hjj : (x.sts == 0 && (j == j || x.stage.any (fun e => e.1 == j))) = (x.sts == 0) := by simp
  have hops' : s.ligOps [(l, i)] 0 ⟨[], [], DWord.zero, 0, 0, DWord.zero⟩ (opFlits g.req.data) = (v, x) := hops
  unfold State.ligRun
  simp only [hg, State.readStalls_intact hfa, hchk, hdead, hen, hheld, hjl, hops', hfull, hbyp, Bool.false_eq_true, Bool.not_true, Bool.or_false,
    if_false, if_true, Option.map_some, Option.getD_some, List.map_cons, List.map_nil, List.cons_append, List.nil_append]
  generalize hw : State.ev (State.evN _ _ _ _) _ _ = w
  change v.ligNoted g j x = w at hw
  subst hw
  simp only [hj, Option.bind_some, haj, ite_self, List.foldl_cons, List.foldl_nil, hi, hjj]

/-! ### The lines -/

/-- On a success both lines fill their slots (R192, R206). -/
theorem State.settleBoth_fills {y z : InkSlot} (hne : i ≠ j) (hi : SMap.find s.stalls i = some t) (hj : SMap.find s.stalls j = some tj)
    (hsl : t.ink = some a) (hslj : tj.ink = some c) (hac : a ≠ c) (hy : SMap.find s.ink a = some y) (hz : SMap.find s.ink c = some z)
    (ho : s.inkOlder a y.h = []) (hoj : s.inkOlder c z.h = []) (hh : y.h ≠ z.h) :
    ∃ y' z', (s.settleLine i true).settleLine j true =
        (((s.withFilled a y').withStall i t.settled).withFilled c z').withStall j tj.settled ∧
      (y'.phase = .filled ∧ y'.data = LineData.norm t.staging) ∧ (z'.phase = .filled ∧ z'.data = LineData.norm tj.staging) := by
  obtain ⟨y', hset, hyh, hyp, hyd⟩ := State.settleLine_fills hi hsl hy ho
  have hfind : SMap.find ((s.withFilled a y').withStall i t.settled).stalls j = some tj := (State.find_withStall_ne hne.symm).trans hj
  have hink : SMap.find ((s.withFilled a y').withStall i t.settled).ink c = some z := (SMap.find_put_ne _ _ hac.symm).trans hz
  obtain ⟨z', hset', -, hzp, hzd⟩ := State.settleLine_fills hfind hslj hink (State.inkOlder_withFilled hoj a (hyh.trans_ne hh))
  exact ⟨y', z', by rw [hset, hset'], ⟨hyp, hyd⟩, hzp, hzd⟩

/-- On a failed guard both lines, which came from no holder, give their slots up (R206). -/
theorem State.settleBoth_releases (hne : i ≠ j) (hi : SMap.find s.stalls i = some t) (hj : SMap.find s.stalls j = some tj)
    (hsl : t.ink = some a) (hslj : tj.ink = some c) (hout : t.out = some .direct) (houtj : tj.out = some .direct) :
    (s.settleLine i false).settleLine j false =
      (((s.inkDrop a).withStall i t.settled).inkDrop c).withStall j tj.settled := by
  have hfind : SMap.find ((s.inkDrop a).withStall i t.settled).stalls j = some tj := (State.find_withStall_ne hne.symm).trans hj
  rw [State.settleLine_releases hi hsl hout, State.settleLine_releases hfind hslj houtj]

/-! ### The two outcomes -/

/-- `m` is `s` after the outcome of a ligature has been noted: `b` is `s` with the one register of its outcome written, and the lines of the
ligature are staged in the stalls `t` and `tj`. -/
structure State.LigNotes (s b : State) (i j : Nat) (t tj : Stall) (m : State) : Prop where
  runs : b.Runs sendRegs m
  data : SMap.find m.stalls i = some t
  journal : SMap.find m.stalls j = some tj
  wf : SMap.wf m.stalls = true
  ink : m.ink = s.ink
  ligs : m.ligs = s.ligs
  tx : m.tx = b.tx

section
variable {m : State} (h : s.LigNotes b i j t tj m) (hb : b.canonical = true) (hfb : b.faults = []) (hpb : b.rcv.purge = [])
  (hinks : g.inks = []) (hst : g.stalls = [i, j]) (hne : i ≠ j) (hsl : t.ink = some a) (hslj : tj.ink = some c)
  (hrole : t.role = .lig k false) (hrolej : tj.role = .lig k true)
include h hb hfb hpb hinks hst hne hsl hslj hrole hrolej

/-- A success fills the slots of its two lines (R192, R206). -/
theorem State.LigNotes.fills {y z : InkSlot} (hac : a ≠ c) (hy : SMap.find s.ink a = some y) (hz : SMap.find s.ink c = some z)
    (ho : b.inkOlder a y.h = []) (hoj : b.inkOlder c z.h = []) (hink : b.ink = s.ink) (hh : y.h ≠ z.h) (n seq : Nat) (x : LigRun) :
    ∃ w y' z', b.LigEnded g k i j w ((((m.settleLine i true).settleLine j true).ligAnswer g n seq x).ligEnd k g) ∧ w.ligs = s.ligs ∧
      w.ink = SMap.put (SMap.put s.ink a y') c z' ∧ (y'.phase = .filled ∧ y'.data = LineData.norm t.staging) ∧
      (z'.phase = .filled ∧ z'.data = LineData.norm tj.staging) := by
  have hinkm : m.ink = b.ink := h.ink.trans hink.symm
  have holder := fun sl hx => h.runs.inkOlder (sendRegs_apart (by decide)) hinkm sl hx
  obtain ⟨y', z', hset, hy', hz'⟩ := State.settleBoth_fills hne h.data h.journal hsl hslj hac (h.ink ▸ hy) (h.ink ▸ hz)
    ((holder a y.h).trans ho) ((holder c z.h).trans hoj) hh
  have hruns := (((h.runs.withFilled a y').withStall i t.settled).withFilled c z').withStall j tj.settled
  have hwf : SMap.wf ((((m.withFilled a y').withStall i t.settled).withFilled c z').withStall j tj.settled).stalls = true :=
    SMap.risesFrom_put (Nat.zero_le _) (SMap.risesFrom_put (Nat.zero_le _) h.wf)
  have hdata : SMap.find ((((m.withFilled a y').withStall i t.settled).withFilled c z').withStall j tj.settled).stalls i = some t.settled :=
    (State.find_withStall_ne hne).trans (SMap.find_put_self _ _ _)
  rw [hset]
  exact ⟨_, y', z', hruns.ligEnd hb hfb hpb hwf hst hinks hne hdata (State.find_withStall ..) rfl rfl hrole hrolej h.tx n seq x, h.ligs,
    congrArg (fun q => SMap.put (SMap.put q a y') c z') h.ink, hy', hz'⟩

/-- A failed guard gives the slots of its two lines up (R206). -/
theorem State.LigNotes.releases (hout : t.out = some .direct) (houtj : tj.out = some .direct) (n seq : Nat) (x : LigRun) :
    ∃ w, b.LigEnded g k i j w ((((m.settleLine i false).settleLine j false).ligAnswer g n seq x).ligEnd k g) ∧ w.ligs = s.ligs ∧
      w.ink = SMap.del (SMap.del s.ink a) c := by
  have hruns := (((h.runs.inkDrop a).withStall i t.settled).inkDrop c).withStall j tj.settled
  have hwf : SMap.wf ((((m.inkDrop a).withStall i t.settled).inkDrop c).withStall j tj.settled).stalls = true :=
    SMap.risesFrom_put (Nat.zero_le _) (SMap.risesFrom_put (Nat.zero_le _) h.wf)
  have hdata : SMap.find ((((m.inkDrop a).withStall i t.settled).inkDrop c).withStall j tj.settled).stalls i = some t.settled :=
    (State.find_withStall_ne hne).trans (SMap.find_put_self _ _ _)
  rw [State.settleBoth_releases hne h.data h.journal hsl hslj hout houtj]
  exact ⟨_, hruns.ligEnd hb hfb hpb hwf hst hinks hne hdata (State.find_withStall ..) rfl rfl hrole hrolej h.tx n seq x, h.ligs,
    congrArg (fun q => SMap.del (SMap.del q a) c) h.ink⟩

end

/-- What one operation that succeeds comes to (R190). -/
def LigRun.succeeded (i w : Nat) (new : DWord) : LigRun := ⟨[(i, w, new)], [DWord.gen new.val], DWord.zero, 0, 0, DWord.zero⟩

/-- What one operation whose guard fails comes to (R190). -/
def LigRun.guarded (old : DWord) : LigRun := ⟨[], [], DWord.zero, 1, 0, old⟩

section
variable (hc : s.canonical = true) (hne : i ≠ j) (hj : SMap.find s.stalls j = some tj)
  (hwf : SMap.wf s.stalls = true)
include hc hne hj hwf

/-- A success stages its word and its record, and the ring's SEQ advances (R191, R192, R197). -/
theorem State.ligNotes_success (ha : t.alc = none) (haj : tj.alc = none) (g : Lig) (w : Nat) (old new : DWord) :
    s.LigNotes (s.setReg (R.LED_JSEQ + 0x20 * ligRing g.req.detail) (BitVec.ofNat 64 ((s.ringSeq (ligRing g.req.detail) + 1) % 2 ^ 48))) i j
      ((t.staged w old).staged w new) (tj.journaled (s.ringSeq (ligRing g.req.detail))
        (ligRecord g (s.ringSeq (ligRing g.req.detail)) s.tod (LigRun.succeeded i w new)))
      ((s.withStall i (t.staged w old)).ligNoted g j (LigRun.succeeded i w new)) := by
  have hj' : SMap.find (s.withStall i (t.staged w old)).stalls j = some tj := (State.find_withStall_ne hne.symm).trans hj
  have hd := (State.ligCommit_success (s := s.withStall i (t.staged w old)) (x := LigRun.succeeded i w new) hc hne (State.find_withStall ..) ha hj' haj
    rfl rfl g (ligRing g.req.detail) (s.ringSeq (ligRing g.req.detail))).ligNoted
  have hbase := (State.runs_ringAdvanced hc (ligRing g.req.detail)
    (BitVec.ofNat 64 ((s.ringSeq (ligRing g.req.detail) + 1) % 2 ^ 48))).canonical
  have hput := (((State.Runs.refl (as := sendRegs) hbase).withStall i (t.staged w old)).withStall j (tj.journaled
    (s.ringSeq (ligRing g.req.detail)) (ligRecord g (s.ringSeq (ligRing g.req.detail)) s.tod (LigRun.succeeded i w new)))).withStall i
    ((t.staged w old).staged w new)
  have hstalls := hd.stalls
  exact {
    runs := hput.drift hd
    data := hstalls ▸ State.find_withStall ..
    journal := hstalls ▸ (State.find_withStall_ne hne.symm).trans (State.find_withStall ..)
    wf := hstalls ▸ State.wf_withStall (State.wf_withStall (State.wf_withStall hwf))
    ink := hd.ink
    ligs := (congrArg State.ligs hd.rest :)
    tx := (congrArg State.tx hd.rest :) }

/-- A failed guard leaves its lines as they were read, and its abort is counted (R192, R208). -/
theorem State.ligNotes_guard (g : Lig) (w : Nat) (old : DWord) :
    s.LigNotes (s.addFld R.LED_ABORTS 0 16 1) i j (t.staged w old) tj ((s.withStall i (t.staged w old)).ligNoted g j (LigRun.guarded old)) := by
  have hcan : (s.addFld R.LED_ABORTS 0 16 1).canonical = true := State.canonical_setReg _ _ hc
  have hd := (State.ligCommit_guard (s := s.withStall i (t.staged w old)) hc (x := LigRun.guarded old) rfl g (ligRing g.req.detail) j
    (s.ringSeq (ligRing g.req.detail))).ligNoted
  have hput : (s.addFld R.LED_ABORTS 0 16 1).Runs sendRegs ((s.withStall i (t.staged w old)).addFld R.LED_ABORTS 0 16 1) :=
    (State.Runs.refl hcan).withStall i (t.staged w old)
  have hstalls := hd.stalls
  exact {
    runs := hput.drift hd
    data := hstalls ▸ State.find_withStall ..
    journal := hstalls ▸ (State.find_withStall_ne hne.symm).trans hj
    wf := hstalls ▸ State.wf_withStall hwf
    ink := hd.ink
    ligs := (congrArg State.ligs hd.rest :)
    tx := (congrArg State.tx hd.rest :) }

end

end

end Sys2Proof.Machine
end

section
/-! TO PROVE. LIGATURE_EXECUTE of one operation in bypass: a success is recorded and committed, a failed guard leaves all as it was (R190-R193,
R195, R197, R202, R206). -/

-- As in the tests: the compile of the one text stays within the threads of the sandbox.
set_option Elab.async false

namespace Sys2Proof.Machine

section
variable {s : State} {i j k : Nat} {rest : List Nat} {l jl : LineAddr} {t tj : Stall} {g : Lig} {f : OpFlit} {old new : DWord}

theorem exec_ligatureExecute (hr : s.readyLig = k :: rest) (hchk : s.chk = false) :
    exec .ligatureExecute s = .next (finish s ({ s with readyLig := rest }.ligRun k)) := by
  simp only [exec, execLigatureExecute, hr, hchk, Bool.false_eq_true, if_false]

/-! ### The register of SEQ -/

theorem quietReg_ringSeq {n : Nat} (hn : n < 8) : quietReg (R.LED_JSEQ + 0x20 * n) := by
  have : quietReg (0x3110 + 0x20 * n) := by omega
  exact this

theorem ringSeq_apart_warn (n : Nat) : (R.LED_JSEQ + 0x20 * n) / 8 ≠ R.ISL_PWRWARN / 8 := by
  show (0x3110 + 0x20 * n) / 8 ≠ 0x9040 / 8
  omega

theorem ligRing_lt (detail : BitVec 40) : ligRing detail < 8 := Nat.mod_lt _ (by decide)

/-- SEQ of a ring that has advanced (R192). -/
theorem State.Runs.ringSeq_advanced {u : State} {n q : Nat} (hc : s.canonical = true) (hn : n < 8)
    (r : (s.setReg (R.LED_JSEQ + 0x20 * n) (BitVec.ofNat 64 (q % 2 ^ 48))).Runs sendRegs u) : u.ringSeq n = q % 2 ^ 48 := by
  rw [State.ringSeq, State.fld, r.reg (sendRegs_apart (quietReg_ringSeq hn)), State.reg_setReg_self hc]
  simp only [getBits, BitVec.toNat_ofNat]
  omega

section
variable (hfa : s.faults = []) (hchk : s.chk = false) (hg : SMap.find s.ligs k = some g) (hdead : g.dead = false)
  (hen : s.ringEn (ligRing g.req.detail) = true) (hfull : s.ringFull (ligRing g.req.detail) = false) (hbyp : g.bypass = true)
  (hheld : g.held = [(l, i)]) (hjl : g.jline = some (jl, j)) (hops : opFlits g.req.data = [f]) (hnote : f.isNote = false) (hline : f.line = l)
  (hi : SMap.find s.stalls i = some t) (ha : t.alc = none)
include hfa hchk hg hdead hen hfull hbyp hheld hjl hops hnote hline hi ha

theorem State.ligRun_of_success (hres : f.apply (t.staging.word f.word).fix = (0, new)) (hop : f.op ≠ 0)
    (hj : SMap.find ((s.withStall i (t.staged f.word (t.staging.word f.word).fix)).ligNoted g j (.succeeded i f.word new)).stalls j = some tj)
    (haj : tj.alc = none) :
    s.ligRun k = (((((s.withStall i (t.staged f.word (t.staging.word f.word).fix)).ligNoted g j (.succeeded i f.word new)).settleLine i
      true).settleLine j true).ligAnswer g (ligRing g.req.detail) (s.ringSeq (ligRing g.req.detail)) (.succeeded i f.word new)).ligEnd k g := by
  have hone := State.ligOps_one hnote hline (State.readWord_bypass hi ha f.word)
  rw [hres, if_pos rfl, if_neg hop, ← hops] at hone
  exact State.ligRun_bypass hg hfa hchk hdead hen hbyp hheld hjl hone 
    (State.ligFull_free (s := s.withStall i _) hfull (show (0 : Nat) ≠ Sts.jfull by decide) g) (fun _ => by simp [LigRun.succeeded]) hj haj

theorem State.ligRun_of_guard (hres : f.apply (t.staging.word f.word).fix = (1, new))
    (hj : SMap.find ((s.withStall i (t.staged f.word (t.staging.word f.word).fix)).ligNoted g j
      (.guarded (t.staging.word f.word).fix)).stalls j = some tj) (haj : tj.alc = none) :
    s.ligRun k = (((((s.withStall i (t.staged f.word (t.staging.word f.word).fix)).ligNoted g j
      (.guarded (t.staging.word f.word).fix)).settleLine i false).settleLine j false).ligAnswer g (ligRing g.req.detail)
        (s.ringSeq (ligRing g.req.detail)) (.guarded (t.staging.word f.word).fix)).ligEnd k g := by
  have hone := State.ligOps_one hnote hline (State.readWord_bypass hi ha f.word)
  rw [hres, if_neg Nat.one_ne_zero, ← hops] at hone
  exact State.ligRun_bypass hg hfa hchk hdead hen hbyp hheld hjl hone 
    (State.ligFull_free (s := s.withStall i _) hfull (show (1 : Nat) ≠ Sts.jfull by decide) g) (fun h => absurd h Nat.one_ne_zero) hj haj

end

section
variable {a b : Nat} (hc : s.canonical = true) (hfa : s.faults = []) (hchk : s.chk = false) (hp : s.rcv.purge = []) (hwf : SMap.wf s.stalls = true)
  (hg : SMap.find s.ligs k = some g) (hdead : g.dead = false) (hen : s.ringEn (ligRing g.req.detail) = true)
  (hfull : s.ringFull (ligRing g.req.detail) = false) (hbyp : g.bypass = true) (hheld : g.held = [(l, i)]) (hjl : g.jline = some (jl, j))
  (hinks : g.inks = []) (hst : g.stalls = [i, j]) (hne : i ≠ j) (hops : opFlits g.req.data = [f]) (hnote : f.isNote = false) (hline : f.line = l)
  (hi : SMap.find s.stalls i = some t) (hj : SMap.find s.stalls j = some tj) (ha : t.alc = none) (haj : tj.alc = none)
  (hsl : t.ink = some a) (hslj : tj.ink = some b) (hrole : t.role = .lig k false) (hrolej : tj.role = .lig k true)
include hc hfa hchk hp hwf hg hdead hen hfull hbyp hheld hjl hinks hst hne hops hnote hline hi hj ha haj hsl hslj hrole hrolej

/-- A success fills the slots of its two lines, and the ring's SEQ advances (R192, R197, R206). -/
theorem State.ligRun_commits {x y : InkSlot} (hab : a ≠ b) (hx : SMap.find s.ink a = some x) (hy : SMap.find s.ink b = some y)
    (ho : s.inkOlder a x.h = []) (hoj : s.inkOlder b y.h = []) (hh : x.h ≠ y.h)
    (hres : f.apply (t.staging.word f.word).fix = (0, new)) (hop : f.op ≠ 0) :
    ∃ w x' y', (s.setReg (R.LED_JSEQ + 0x20 * ligRing g.req.detail)
        (BitVec.ofNat 64 ((s.ringSeq (ligRing g.req.detail) + 1) % 2 ^ 48))).LigEnded g k i j w (s.ligRun k) ∧
      w.ligs = s.ligs ∧ w.ink = SMap.put (SMap.put s.ink a x') b y' ∧
      (x'.phase = .filled ∧ x'.data = LineData.norm ((t.staged f.word (t.staging.word f.word).fix).staged f.word new).staging) ∧
      (y'.phase = .filled ∧ y'.data = LineData.norm (tj.journaled (s.ringSeq (ligRing g.req.detail))
        (ligRecord g (s.ringSeq (ligRing g.req.detail)) s.tod (.succeeded i f.word new))).staging) := by
  have hnotes := State.ligNotes_success hc hne hj hwf ha haj g f.word (t.staging.word f.word).fix new
  rw [State.ligRun_of_success hfa hchk hg hdead hen hfull hbyp hheld hjl hops hnote hline hi ha hres hop hnotes.journal
    (by rw [Stall.journaled_eq]; exact haj)]
  have hseq := State.runs_ringAdvanced hc (ligRing g.req.detail) (BitVec.ofNat 64 ((s.ringSeq (ligRing g.req.detail) + 1) % 2 ^ 48))
  have holder := hseq.inkOlder (List.forall_mem_singleton.2 (ringSeq_apart_warn _)) rfl
  exact hnotes.fills hseq.canonical hfa hp hinks hst hne hsl (by rw [Stall.journaled_eq]; exact hslj) hrole
    (by rw [Stall.journaled_eq]; exact hrolej) hab hx hy ((holder a x.h).trans ho) ((holder b y.h).trans hoj) rfl hh _ _ _

/-- A failed guard gives the slots of its two lines up, and its abort is counted (R192, R206, R208). -/
theorem State.ligRun_givesUp (hout : t.out = some .direct) (houtj : tj.out = some .direct)
    (hres : f.apply (t.staging.word f.word).fix = (1, new)) :
    ∃ w, (s.addFld R.LED_ABORTS 0 16 1).LigEnded g k i j w (s.ligRun k) ∧ w.ligs = s.ligs ∧
      w.ink = SMap.del (SMap.del s.ink a) b := by
  have hnotes := State.ligNotes_guard (t := t) hc hne hj hwf g f.word (t.staging.word f.word).fix
  rw [State.ligRun_of_guard hfa hchk hg hdead hen hfull hbyp hheld hjl hops hnote hline hi ha hres hnotes.journal haj]
  exact hnotes.releases (State.runs_abortCounted hc).canonical hfa hp hinks hst hne hsl hslj hrole hrolej hout houtj _ _ _

end

end

/-- Settles O53: one operation in bypass, committed with its record or given up, each ended by its answer and the close of its stalls. -/
theorem ligaturesExecute : Obligations.LigaturesExecute := by
  unfold Obligations.LigaturesExecute
  intro s k i j a b rest g l jl t tj d dj x y f hcalm hp hready hg hdead hbyp _ hheld hjl hinks hst hne hab hfs hnote hline hen hfull hi hj ha haj
    hsl hslj hgot _ hout houtj hrole hrolej _ hx hy hh ho hoj _ hreach
  obtain ⟨hc, -, hwf, -, -, hwfInk, -, hwfLigs, -, -, -, hfa, hchk⟩ := hcalm
  have hexec := exec_ligatureExecute hready hchk
  have hd : t.staging = d := by rw [Stall.staging, hgot]; rfl
  have hring := ligRing_lt g.req.detail
  refine ⟨fun new hres hop => ?_, fun old hres => ?_⟩
  · obtain ⟨w, x', y', hend, hligs, hink, ⟨hxp, hxd⟩, hyp, hyd⟩ :=
      State.ligRun_commits (s := { s with readyLig := rest }) hc hfa hchk hp hwf hg hdead hen hfull hbyp hheld hjl hinks hst hne hfs hnote hline
        hi hj ha haj hsl hslj hrole hrolej hab hx hy ho hoj hh (hd ▸ hres) hop
    have hseq := State.runs_ringAdvanced (s := { s with readyLig := rest }) hc (ligRing g.req.detail)
      (BitVec.ofNat 64 ((s.ringSeq (ligRing g.req.detail) + 1) % 2 ^ 48))
    have hruns := hseq.trans hend.runs (cs := (R.LED_JSEQ + 0x20 * ligRing g.req.detail) :: sendRegs) (by simp) (List.subset_cons_self ..)
    have hinku := hend.ink.trans hink
    refine ⟨_, hexec, ⟨x', ?_, hxp, fun w hw => ?_⟩, ⟨y', ?_, hyp, fun w hw => ?_⟩,
      State.Runs.ringSeq_advanced (s := { s with readyLig := rest }) hc hring hend.runs, ?_,
      hend.freeData, hend.freeJournal, hruns.readyLig, hend.posts ((hseq.reaches hc ?_).2 hreach), hruns.dirs, hruns.regs⟩
    · rw [hinku, SMap.find_put_ne _ _ hab]
      exact SMap.find_put_self ..
    · rw [hxd, LineData.word_norm _ hw, Stall.word_staged _ _ _ hw, Stall.word_staged _ _ _ hw, hd]
      split <;> rfl
    · rw [hinku]
      exact SMap.find_put_self ..
    · rw [hyd, LineData.word_norm _ (by omega)]
      exact Stall.word_journaled tj _ (length_ligRecord ..) hw
    · rw [hend.ligs, hligs]
      exact SMap.find_del_self hwfLigs k
    · exact List.forall_mem_singleton.2 (show 0x3110 + 0x20 * ligRing g.req.detail < 0x5000 by omega)
  · obtain ⟨w, hend, hligs, hink⟩ :=
      State.ligRun_givesUp (s := { s with readyLig := rest }) hc hfa hchk hp hwf hg hdead hen hfull hbyp hheld hjl hinks hst hne hfs hnote hline
        hi hj ha haj hsl hslj hrole hrolej hout houtj (hd ▸ hres)
    have hcount := State.runs_abortCounted (s := { s with readyLig := rest }) hc
    have hruns := hcount.trans hend.runs (cs := R.LED_ABORTS :: sendRegs) (by simp) (List.subset_cons_self ..)
    have hinku := hend.ink.trans hink
    have hwfDel : SMap.wf (SMap.del s.ink a) = true := SMap.risesFrom_del hwfInk
    refine ⟨_, hexec, ?_, ?_, ?_, hend.freeData, hend.freeJournal, hruns.readyLig, hend.posts ((hcount.reaches hc (by decide)).2 hreach), ?_,
      hruns.dirs, hruns.regs⟩
    · rw [hinku, SMap.find_del_ne hwfDel hab]
      exact SMap.find_del_self hwfInk a
    · rw [hinku]
      exact SMap.find_del_self hwfDel b
    · rw [hend.ligs, hligs]
      exact SMap.find_del_self hwfLigs k
    · rw [State.fld, hend.runs.reg (sendRegs_apart (by decide))]
      exact State.fld_addFld_one hc _ (by decide)

end Sys2Proof.Machine
end
